-- ==== Sys2Proof/Word.lean ====
section
/-! DEFINITION. The words of the machine and their plainest arithmetic (spec/00_scope.md R3). -/

namespace Sys2Proof

/-- One byte. -/
abbrev Byte := BitVec 8
/-- A 64-bit register or memory word. -/
abbrev Word := BitVec 64
/-- A byte offset inside an object, or a bundle's byte offset in CODE: 48 bits (R118, R227). -/
abbrev Off := BitVec 48
/-- A slot word of a bundle (R69). -/
abbrev SlotWord := BitVec 60
/-- The 64 lanes of a predicate register, bit i for lane i (R72). -/
abbrev Mask := BitVec 64

end Sys2Proof
end

