-- ==== Sys2Proof/Machine/Num.lean ====
section
/-! DEFINITION. Exact numbers and the formats of spec/02_numbers.md: narrow formats (R41 to R45), FP32, FP16 and BF16
(R46, R47), rounding modes (R48), conversions (R49) and flags (R50). -/

namespace Sys2Proof.Machine

/-- An exact dyadic number m × 2^e. -/
structure Dy where
  m : Int
  e : Int
deriving DecidableEq, Repr

/-- The number 0. -/
def Dy.zero : Dy := { m := 0, e := 0 }

/-- The integer that `d` is in units of 2^g, for g at most d.e. -/
def Dy.atExp (d : Dy) (g : Int) : Int := d.m * (2 : Int) ^ (d.e - g).toNat

/-- Exact sum. -/
def Dy.add (a b : Dy) : Dy :=
  let g := min a.e b.e
  { m := a.atExp g + b.atExp g, e := g }

/-- Exact product. -/
def Dy.mul (a b : Dy) : Dy := { m := a.m * b.m, e := a.e + b.e }

/-- Exact negation. -/
def Dy.neg (a : Dy) : Dy := { m := -a.m, e := a.e }

/-- Exact difference. -/
def Dy.sub (a b : Dy) : Dy := a.add b.neg

/-- Whether a < b. -/
def Dy.lt (a b : Dy) : Bool := decide ((a.sub b).m < 0)

/-- Whether a ≤ b. -/
def Dy.le (a b : Dy) : Bool := decide ((a.sub b).m ≤ 0)

/-- An exact rational: num / den × 2^e, den positive. -/
structure Q where
  num : Int
  den : Nat
  e : Int
deriving DecidableEq, Repr

/-- A dyadic as a rational. -/
def Dy.toQ (d : Dy) : Q := { num := d.m, den := 1, e := d.e }

/-- The exact quotient a / b of dyadics, b not 0. -/
def Dy.div (a b : Dy) : Q :=
  { num := if b.m < 0 then -a.m else a.m, den := b.m.natAbs, e := a.e - b.e }

/-! Rounding. -/

/-- The rounding modes of R48; the reserved codes 5 to 7 read as RNE and are refused before. -/
inductive RMode where
  | rne | rtz | rup | rdn | rna
deriving DecidableEq, Repr

/-- The mode of an RM code (R48). -/
def rmode : Nat → RMode
  | 1 => .rtz
  | 2 => .rup
  | 3 => .rdn
  | 4 => .rna
  | _ => .rne

/-- The magnitude num / den rounded to an integer: `neg` the sign of the value, `lowEven` whether the lower neighbour
is the even one. Second: whether it was inexact (R48). -/
def roundMag (mode : RMode) (neg : Bool) (num den : Nat) (lowEven : Bool) : Nat × Bool :=
  let q := num / den
  let r := num % den
  if r = 0 then (q, false)
  else
    let up := match mode with
      | .rne => if 2 * r = den then !lowEven else decide (den < 2 * r)
      | .rna => decide (den ≤ 2 * r)
      | .rtz => false
      | .rup => !neg
      | .rdn => neg
    (if up then q + 1 else q, true)

/-- |v| in units of 2^g as a fraction of natural numbers. -/
def Q.magAt (v : Q) (g : Int) : Nat × Nat :=
  if g ≤ v.e then (v.num.natAbs * 2 ^ (v.e - g).toNat, v.den)
  else (v.num.natAbs, v.den * 2 ^ (g - v.e).toNat)

/-- RoundToGrid(v, g) / 2^g with ties to even (R5). -/
def Q.roundToGrid (v : Q) (g : Int) : Int :=
  let (n, d) := v.magAt g
  let q := (roundMag .rne (decide (v.num < 0)) n d (n / d % 2 == 0)).1
  if v.num < 0 then -(q : Int) else q

/-- RoundToGrid of a dyadic, in units of 2^g. -/
def Dy.roundToGrid (d : Dy) (g : Int) : Int := d.toQ.roundToGrid g

/-- floor(log2(n / d)) for n, d positive. -/
def floorLog2 (n d : Nat) : Int :=
  let k : Int := (Nat.log2 n : Int) - (Nat.log2 d : Int)
  let ge := if 0 ≤ k then decide (d * 2 ^ k.toNat ≤ n) else decide (d ≤ n * 2 ^ (-k).toNat)
  if ge then k else k - 1

/-- floor(log2 |v|), v not 0. -/
def Q.log (v : Q) : Int := floorLog2 v.num.natAbs v.den + v.e

/-! Flags (R50). -/

/-- The flags of SR.NFLAG: bit 0 INV, 1 DZ, 2 OVF, 3 UNF, 4 INX, 5 SAT. -/
abbrev Flags := BitVec 6

def flagINV : Flags := 1
def flagDZ : Flags := 2
def flagOVF : Flags := 4
def flagUNF : Flags := 8
def flagINX : Flags := 16
def flagSAT : Flags := 32

/-- `f` where `c` holds, else no flag. -/
def flagIf (c : Bool) (f : Flags) : Flags := if c then f else 0

/-! Decoded values. -/

/-- A decoded value: NaN (with its signalling mark), infinity, or a finite sign and magnitude m × 2^e. -/
inductive Fp where
  | nan (sig : Bool)
  | inf (neg : Bool)
  | fin (neg : Bool) (m : Nat) (e : Int)
deriving DecidableEq, Repr

/-- The exact number of a finite value; 0 for the others. -/
def Fp.dy : Fp → Dy
  | .fin neg m e => { m := if neg then -(m : Int) else m, e := e }
  | _ => Dy.zero

/-- Whether the value is NaN. -/
def Fp.isNan : Fp → Bool
  | .nan _ => true
  | _ => false

/-- Whether the value is a signalling NaN (R47). -/
def Fp.isSig : Fp → Bool
  | .nan s => s
  | _ => false

/-- Whether the value is infinite. -/
def Fp.isInf : Fp → Bool
  | .inf _ => true
  | _ => false

/-- Whether the value is a zero of either sign. -/
def Fp.isZero : Fp → Bool
  | .fin _ m _ => m == 0
  | _ => false

/-- The sign: true for negative; false for NaN. -/
def Fp.sign : Fp → Bool
  | .nan _ => false
  | .inf n => n
  | .fin n _ _ => n

/-- An exact number as a finite value. -/
def Dy.toFp (d : Dy) : Fp := .fin (decide (d.m < 0)) d.m.natAbs d.e

/-! FP32, FP16, BF16 (R46, R47). -/

/-- A floating-point format: exponent bits, mantissa bits, bias. -/
structure FpFmt where
  eb : Nat
  mb : Nat
  bias : Int
deriving DecidableEq, Repr

def fp32 : FpFmt := { eb := 8, mb := 23, bias := 127 }
def fp16 : FpFmt := { eb := 5, mb := 10, bias := 15 }
def bf16 : FpFmt := { eb := 8, mb := 7, bias := 127 }

/-- The value of the bits `c` in format `f` (R46, R47). -/
def decodeFp (f : FpFmt) (c : Nat) : Fp :=
  let m := c % 2 ^ f.mb
  let ex := c / 2 ^ f.mb % 2 ^ f.eb
  let neg := c / 2 ^ (f.mb + f.eb) % 2 == 1
  if ex = 2 ^ f.eb - 1 then (if m = 0 then .inf neg else .nan (m / 2 ^ (f.mb - 1) % 2 == 0))
  else if ex = 0 then .fin neg m (1 - f.bias - f.mb)
  else .fin neg (m + 2 ^ f.mb) ((ex : Int) - f.bias - f.mb)

/-- The canonical NaN of a format (R47). -/
def FpFmt.nanBits (f : FpFmt) : Nat := (2 ^ f.eb - 1) * 2 ^ f.mb + 2 ^ (f.mb - 1)

/-- The bits of infinity of a sign. -/
def FpFmt.infBits (f : FpFmt) (neg : Bool) : Nat :=
  (2 ^ f.eb - 1) * 2 ^ f.mb + (if neg then 2 ^ (f.mb + f.eb) else 0)

/-- The bits of a zero of a sign. -/
def FpFmt.zeroBits (f : FpFmt) (neg : Bool) : Nat := if neg then 2 ^ (f.mb + f.eb) else 0

/-- The exact value `v` rounded once to format `f` in mode `mode`; `zneg`: the sign of an exact zero. Bits and flags
(R47, R49: out of range as IEEE, tininess after rounding with unbounded exponent). -/
def encodeFp (f : FpFmt) (mode : RMode) (zneg : Bool) (v : Q) : Nat × Flags :=
  if v.num = 0 then (f.zeroBits zneg, 0)
  else
    let neg := decide (v.num < 0)
    let signBits := f.zeroBits neg
    let gmin : Int := 1 - f.bias - f.mb
    let ex := v.log
    let g := max (ex - f.mb) gmin
    let (n, d) := v.magAt g
    let (q, inx) := roundMag mode neg n d (n / d % 2 == 0)
    let mag := (g - gmin).toNat * 2 ^ f.mb + q
    let infMag := (2 ^ f.eb - 1) * 2 ^ f.mb
    if infMag ≤ mag then
      let toInf := match mode with
        | .rne | .rna => true
        | .rtz => false
        | .rup => !neg
        | .rdn => neg
      (signBits + (if toInf then infMag else infMag - 1), flagOVF ||| flagINX)
    else
      let (n', d') := v.magAt (ex - f.mb)
      let q' := (roundMag mode neg n' d' (n' / d' % 2 == 0)).1
      let tiny := decide (ex < 1 - f.bias) && !(ex == -f.bias && q' == 2 ^ (f.mb + 1))
      (signBits + mag, flagIf inx flagINX ||| flagIf (inx && tiny) flagUNF)

/-- A decoded value rounded once to format `f` (R49): bits and flags. DEDUCED: notes/assumptions/20.md. -/
def roundFp (f : FpFmt) (mode : RMode) : Fp → Nat × Flags
  | .nan sig => (f.nanBits, flagIf sig flagINV)
  | .inf neg => (f.infBits neg, 0)
  | .fin neg m e => encodeFp f mode neg { num := if neg then -(m : Int) else m, den := 1, e := e }

/-! Narrow formats (R41 to R45). -/

/-- A narrow format word taken apart (R41). -/
structure NarrowFmt where
  s : Nat
  e : Nat
  m : Nat
  bias : Int
  nanMode : Bool
deriving DecidableEq, Repr

/-- The fields of a format word (R41). DEDUCED: notes/assumptions/19.md. -/
def narrowFmt (w : BitVec 32) : NarrowFmt :=
  { s := w.toNat / 64 % 2, e := w.toNat / 8 % 8, m := w.toNat % 8, bias := (w.extractLsb' 8 8).toInt,
    nanMode := w.getLsbD 16 }

/-- The width S + E + M (R42). -/
def NarrowFmt.width (f : NarrowFmt) : Nat := f.s + f.e + f.m

/-- The container width: the least of 1, 2, 4, 8 that holds a code (R43). -/
def NarrowFmt.container (f : NarrowFmt) : Nat :=
  if f.width ≤ 1 then 1 else if f.width ≤ 2 then 2 else if f.width ≤ 4 then 4 else 8

/-- Whether a format word is valid (R42). -/
def validFormat (w : BitVec 32) : Bool :=
  let f := narrowFmt w
  decide (1 ≤ f.width) && decide (f.width ≤ 8) && w.toNat / 2 ^ 17 == 0 && !w.getLsbD 7 &&
    (!f.nanMode || (decide (1 ≤ f.e) && decide (1 ≤ f.m)))

/-- Decode(f, c) (R44); the container's upper bits are ignored (R43). DEDUCED: notes/assumptions/19.md. -/
def decodeNarrow (f : NarrowFmt) (code : Nat) : Fp :=
  let mf := code % 2 ^ f.m
  let ef := code / 2 ^ f.m % 2 ^ f.e
  let sg := f.s == 1 && code / 2 ^ (f.m + f.e) % 2 == 1
  if ef = 0 then .fin (sg && mf != 0) mf (1 - f.bias - f.m)
  else if f.nanMode && ef == 2 ^ f.e - 1 then (if mf = 0 then .inf sg else .nan false)
  else .fin sg (mf + 2 ^ f.m) ((ef : Int) - f.bias - f.m)

/-- The greatest finite code without its sign (R44). -/
def NarrowFmt.maxCode (f : NarrowFmt) : Nat :=
  if f.nanMode then (2 ^ f.e - 1) * 2 ^ f.m - 1 else 2 ^ (f.e + f.m) - 1

/-- A code without its sign, with the sign put in; zero is written without sign (R45 step 3). -/
def NarrowFmt.signed (f : NarrowFmt) (neg : Bool) (mag : Nat) : Nat :=
  if neg && f.s == 1 && mag != 0 then mag + 2 ^ (f.e + f.m) else mag

/-- The result of a conversion: code, flags, and whether it was clamped as R65 counts it. -/
abbrev Coded := Nat × Flags × Bool

/-- A value encoded into a narrow format (R45, R49). DEDUCED: notes/assumptions/19.md. -/
def encodeNarrow (f : NarrowFmt) (mode : RMode) (v : Fp × Q) : Coded :=
  match v.1 with
  | .nan sig =>
    if f.nanMode then ((2 ^ f.e - 1) * 2 ^ f.m + (2 ^ f.m - 1), flagIf sig flagINV, false)
    else (0, flagINV, true)
  | .inf neg =>
    if neg && f.s == 0 then (0, flagSAT ||| flagINX ||| flagUNF, true)
    else if f.nanMode then (f.signed neg ((2 ^ f.e - 1) * 2 ^ f.m), 0, false)
    else (f.signed neg f.maxCode, flagSAT ||| flagINX, true)
  | .fin _ _ _ =>
    let q := v.2
    if q.num = 0 then (0, 0, false)
    else
      let neg := decide (q.num < 0)
      let gmin : Int := 1 - f.bias - f.m
      let g := if f.e = 0 then gmin else max (q.log - f.m) gmin
      let (n, d) := q.magAt g
      let off := (g - gmin).toNat * 2 ^ f.m
      let (r, inx) := roundMag mode neg n d ((off + n / d) % 2 == 0)
      let mag := off + r
      let sat := (neg && f.s == 0 && mag != 0) || decide (f.maxCode < mag)
      let code := if neg && f.s == 0 then 0 else min mag f.maxCode
      let inexact := inx || sat
      let unf := if f.e = 0 then inexact && code == 0 else inexact && code / 2 ^ f.m == 0
      (f.signed neg code, flagIf sat flagSAT ||| flagIf inexact flagINX ||| flagIf unf flagUNF, sat)

/-! Integers (R46, R49). -/

/-- The least and greatest value of an integer type of w bits. -/
def intRange (signed : Bool) (w : Nat) : Int × Int :=
  if signed then (-(2 ^ (w - 1) : Nat), (2 ^ (w - 1) : Nat) - 1) else (0, (2 ^ w : Nat) - 1)

/-- A value converted to an integer type (R49): the w bits, flags, clamped. DEDUCED: notes/assumptions/20.md. -/
def encodeInt (signed : Bool) (w : Nat) (mode : RMode) (v : Fp × Q) : Coded :=
  let (lo, hi) := intRange signed w
  let bits (x : Int) : Nat := (x % (2 ^ w : Nat)).toNat
  match v.1 with
  | .nan _ => (0, flagINV, true)
  | .inf neg => (bits (if neg then lo else hi), flagSAT, true)
  | .fin _ _ _ =>
    let q := v.2
    let neg := decide (q.num < 0)
    let (n, d) := q.magAt 0
    let (r, inx) := roundMag mode neg n d (n / d % 2 == 0)
    let x : Int := if neg then -(r : Int) else r
    if x < lo then (bits lo, flagSAT, true)
    else if hi < x then (bits hi, flagSAT, true)
    else (bits x, flagIf inx flagINX, false)

/-! Element types (R77). -/

/-- A destination or source of a conversion: an integer type, a floating-point format or a narrow format. -/
inductive ElemFmt where
  | int (signed : Bool) (w : Nat)
  | fp (f : FpFmt)
  | narrow (f : NarrowFmt)
deriving DecidableEq, Repr

/-- The bits of one element; a narrow element fills its container (R43, R126). -/
def ElemFmt.bits : ElemFmt → Nat
  | .int _ w => w
  | .fp f => f.eb + f.mb + 1
  | .narrow f => f.container

/-- The format of TYPE 0 to 8; TYPE 9 takes the narrow format `nf` (R77). -/
def elemFmt (nf : NarrowFmt) : Nat → ElemFmt
  | 0 => .int true 8
  | 1 => .int true 16
  | 2 => .int true 32
  | 3 => .int false 8
  | 4 => .int false 16
  | 5 => .int false 32
  | 6 => .fp bf16
  | 7 => .fp fp16
  | 8 => .fp fp32
  | _ => .narrow nf

/-- The signed or unsigned integer that w bits stand for. -/
def intOfBits (signed : Bool) (w : Nat) (c : Nat) : Int :=
  if signed && decide (2 ^ (w - 1) ≤ c) then (c : Int) - (2 ^ w : Nat) else c

/-- The exact value of an element (R5, R44, R47). -/
def ElemFmt.decode : ElemFmt → Nat → Fp
  | .int s w, c => Dy.toFp { m := intOfBits s w c, e := 0 }
  | .fp f, c => decodeFp f c
  | .narrow f, c => decodeNarrow f c

/-- A value with an exact rational beside it encoded into a format (R45, R49); `zneg`: the sign of an exact zero. -/
def ElemFmt.encode (t : ElemFmt) (mode : RMode) (zneg : Bool) (v : Fp × Q) : Coded :=
  match t with
  | .int s w => encodeInt s w mode v
  | .narrow f => encodeNarrow f mode v
  | .fp f =>
    match v.1 with
    | .nan sig => (f.nanBits, flagIf sig flagINV, false)
    | .inf neg => (f.infBits neg, 0, false)
    | .fin _ _ _ => let (c, fl) := encodeFp f mode zneg v.2; (c, fl, false)

/-- A finite or special value paired with its exact rational. -/
def Fp.withQ (v : Fp) : Fp × Q := (v, v.dy.toQ)

/-- One conversion between element formats (R49): the value is decoded and encoded, so that a NaN comes out canonical
(R47) and a zero as the zero code (R45); between equal types it sets no flag (R49); else a signalling NaN sets INV (R47). DEDUCED: notes/assumptions/19.md. -/
def convertElem (src dst : ElemFmt) (mode : RMode) (c : Nat) : Coded :=
  let v := src.decode c
  let (r, fl, cl) := dst.encode mode v.sign v.withQ
  if src = dst then (r, 0, false) else (r, fl ||| flagIf v.isSig flagINV, cl)

/-! Arithmetic rounded once (R47, R133). -/

/-- The sign of an exact zero sum of two addends (IEEE 754): that of both where they agree, else + (− under RDN).
DEDUCED: notes/assumptions/20.md. -/
def zeroSumSign (mode : RMode) (a b : Bool) : Bool := if a = b then a else decide (mode = .rdn)

/-- a × b + c rounded once to `f`: bits and flags (R133). An infinity times zero sets INV beside a quiet NaN too.
DESIGN CHOICE: notes/assumptions/69.md. -/
def fpFma (f : FpFmt) (mode : RMode) (a b c : Fp) : Nat × Flags :=
  let sig := flagIf (a.isSig || b.isSig || c.isSig) flagINV
  let badProduct := (a.isInf && b.isZero) || (a.isZero && b.isInf)
  if badProduct && !a.isNan && !b.isNan then (f.nanBits, flagINV)
  else if a.isNan || b.isNan || c.isNan then (f.nanBits, sig)
  else
    let ps := a.sign != b.sign
    if a.isInf || b.isInf then
      (if c.isInf && c.sign != ps then (f.nanBits, flagINV) else (f.infBits ps, 0))
    else if c.isInf then (f.infBits c.sign, 0)
    else
      let p := a.dy.mul b.dy
      let z := if p.m = 0 && c.isZero then zeroSumSign mode ps c.sign else decide (mode = .rdn)
      encodeFp f mode z (p.add c.dy).toQ

/-- a + b rounded once (R133). -/
def fpAdd (f : FpFmt) (mode : RMode) (a b : Fp) : Nat × Flags := fpFma f mode a (.fin false 1 0) b

/-- a × b rounded once (R133). -/
def fpMul (f : FpFmt) (mode : RMode) (a b : Fp) : Nat × Flags :=
  let sig := flagIf (a.isSig || b.isSig) flagINV
  if a.isNan || b.isNan then (f.nanBits, sig)
  else if (a.isInf && b.isZero) || (a.isZero && b.isInf) then (f.nanBits, flagINV)
  else if a.isInf || b.isInf then (f.infBits (a.sign != b.sign), 0)
  else encodeFp f mode (a.sign != b.sign) (a.dy.mul b.dy).toQ

/-- A value with the sign inverted. -/
def Fp.negate : Fp → Fp
  | .nan s => .nan s
  | .inf n => .inf (!n)
  | .fin n m e => .fin (!n) m e

/-! Exact sums (R57). -/

/-- The special terms seen in an exact sum: NaN, signalling NaN, invalid product, +infinity, −infinity. -/
structure SumSt where
  sum : Dy
  nan : Bool
  inv : Bool
  pinf : Bool
  ninf : Bool
deriving DecidableEq, Repr

/-- The empty sum. -/
def SumSt.zero : SumSt := { sum := Dy.zero, nan := false, inv := false, pinf := false, ninf := false }

/-- A product added to an exact sum (R57). -/
def SumSt.addProd (s : SumSt) (a b : Fp) : SumSt :=
  if a.isNan || b.isNan then { s with nan := true, inv := s.inv || a.isSig || b.isSig }
  else if (a.isInf && b.isZero) || (a.isZero && b.isInf) then { s with nan := true, inv := true }
  else if a.isInf || b.isInf then
    (if a.sign != b.sign then { s with ninf := true } else { s with pinf := true })
  else { s with sum := s.sum.add (a.dy.mul b.dy) }

/-- A single term added to an exact sum. -/
def SumSt.addTerm (s : SumSt) (a : Fp) : SumSt := s.addProd a (.fin false 1 0)

/-- An exact sum rounded once (R57): an exact zero is +0, both infinities give NaN and INV. -/
def SumSt.round (s : SumSt) (f : FpFmt) (mode : RMode) : Nat × Flags :=
  let both := s.pinf && s.ninf
  if s.nan || both then (f.nanBits, flagIf (s.inv || both) flagINV)
  else if s.pinf then (f.infBits false, 0)
  else if s.ninf then (f.infBits true, 0)
  else encodeFp f mode false s.sum.toQ

/-- ExactDot over pairs, rounded once (R57). -/
def exactDot (f : FpFmt) (mode : RMode) (ps : List (Fp × Fp)) : Nat × Flags :=
  (ps.foldl (fun s (a, b) => s.addProd a b) SumSt.zero).round f mode

end Sys2Proof.Machine
end

