-- ==== Sys2Proof/Machine/Fn.lean ====
section
/-! DEFINITION. The defined functions EXP2, LOG2, RCP and RSQ of R59 to R64, bit for bit, and the correctly rounded
square root of R173. -/

namespace Sys2Proof.Machine

/-- Newton's iteration for the integer square root of `n`, from above. -/
def isqrtLoop (n : Nat) : Nat → Nat → Nat
  | 0, x => x
  | fuel + 1, x =>
    let y := (x + n / x) / 2
    if x ≤ y then x else isqrtLoop n fuel y

/-- floor(sqrt n). -/
def isqrt (n : Nat) : Nat :=
  if n = 0 then 0 else isqrtLoop n (Nat.log2 n + 2) (2 ^ (Nat.log2 n / 2 + 1))

/-- floor(2 × x) turned into the integer nearest x, where x is no tie. -/
def nearestHalf (x2 : Nat) : Nat := (x2 + 1) / 2

/-- T[j]: the integer nearest 2^(62 + j/64), by six square roots of 2^(64 × 63 + j) (R60). -/
def tabT (j : Nat) : Nat := nearestHalf (isqrt (isqrt (isqrt (isqrt (isqrt (isqrt (2 ^ (4032 + j))))))))

/-- G[j]: the integer nearest 2^39 / (129 + 2j) (R61). -/
def tabG (j : Nat) : Nat := nearestHalf (2 ^ 40 / (129 + 2 * j))

/-- H[j]: the integers nearest −2^62 × log2(G[j] / 2^32) (R61), worked out from that formula. -/
def tabHList : List Nat :=
  [51776576667098841, 154136389392429074, 254945234962267576, 354249415013286543] ++
  [452093185959104326, 548518881684279468, 643567021496792757, 737276408507683697] ++
  [829684235227707326, 920826160282852556, 1010736401168007907, 1099447803786322438] ++
  [1186991915773547377, 1273399058217909383, 1358698388063260919, 1442917950567453894] ++
  [1526084740837360200, 1608224752167580442, 1689363032684410097, 1769523721551394238] ++
  [1848730090530448135, 1927004600760834747, 2004368920666670035, 2080843975045890677] ++
  [2156449977916690711, 2231206455721990310, 2305132287970796625, 2378245732891096320] ++
  [2450564452011419344, 2522105533093707040, 2592885526843858526, 2662920451763869837] ++
  [2732225834416761733, 2800816716583016026, 2868707678947865324, 2935912860555405911] ++
  [3002445980708829643, 3068320346005387633, 3133548873454491075, 3198144105522524680] ++
  [3262118218831331005, 3325483046302929609, 3388250082533973058, 3450430502304634896] ++
  [3512035171924322856, 3573074650118016320, 3633559217754751767, 3693498870670772394] ++
  [3752903341147012927, 3811782103057441329, 3870144376153772332, 3927999146112472897] ++
  [3985355161734215009, 4042220947606314735, 4098604815884009790, 4154514862575982250] ++
  [4209958988166355066, 4264944893949463638, 4319480088147193992, 4373571902330564229] ++
  [4427227488531984495, 4480453823212977796, 4533257724561197191, 4585645840600235820]

/-- H[j] (R61). -/
def tabH (j : Nat) : Nat := tabHList.getD j 0

/-- S[j]: the integer nearest 2^32 / sqrt(w_j) (R63), as half the root of 2^66 / w_j. -/
def tabS (j : Nat) : Nat :=
  let d := (65 + 2 * (j % 32)) * (if j < 32 then 1 else 2)
  nearestHalf (isqrt (2 ^ 72 / d))

/-- PolyQ (R59): Horner's rule in Q32 with floors; the coefficients highest first. -/
def polyQ (d : Int) : List Int → Int
  | [] => 0
  | c :: cs => cs.foldl (fun h k => k + h * d / 4294967296) c

/-- The coefficients of R60 to R63, highest degree first. -/
def exp2Coef : List Int := [0x0E35846C, 0x3D7F7BFF, 0xB17217F8, 0x100000000]
def log2Coef : List Int := [-0x5C551D95, 0x7B1C2771, -0xB8AA3B29, 0x171547653, 0]
def rcpCoef : List Int := [0x100000000, -0x100000000, 0x100000000, -0x100000000, 0x100000000]
def rsqCoef : List Int := [0x46000000, -0x50000000, 0x60000000, -0x80000000, 0x100000000]

/-- m24 and E of a positive magnitude m × 2^e with m below 2^24 (R59): value m24 × 2^(E − 23). -/
def normalise (m : Nat) (e : Int) : Nat × Int :=
  let k := 23 - Nat.log2 m
  (m * 2 ^ k, e - k + 23)

/-- EXP2 of an FP32 value rounded to `f` (R60, R64). -/
def fnExp2 (f : FpFmt) : Fp → Nat × Flags
  | .nan s => (f.nanBits, flagIf s flagINV)
  | .inf neg => if neg then (0, 0) else (f.infBits false, 0)
  | .fin neg m e =>
    let x : Dy := (Fp.fin neg m e).dy
    if Dy.le { m := 128, e := 0 } x then (f.infBits false, flagOVF ||| flagINX)
    else if x.lt { m := -150, e := 0 } then (0, flagUNF ||| flagINX)
    else
      let xi := x.roundToGrid (-30)
      let n := xi / 2 ^ 30
      let fr := (xi % 2 ^ 30).toNat
      let q := polyQ ((fr % 2 ^ 24 * 4 : Nat) : Int) exp2Coef
      encodeFp f .rne false { num := (tabT (fr / 2 ^ 24) : Int) * q, den := 1, e := n - 94 }

/-- d of R61: floor((m24 × G[j] − 2^55) / 2^23). -/
def logD (m24 j : Nat) : Int := ((m24 : Int) * tabG j - 2 ^ 55) / 2 ^ 23

/-- LOG2 of an FP32 value rounded to `f` (R61, R64). -/
def fnLog2 (f : FpFmt) : Fp → Nat × Flags
  | .nan s => (f.nanBits, flagIf s flagINV)
  | .inf neg => if neg then (f.nanBits, flagINV) else (f.infBits false, 0)
  | .fin neg m e =>
    if m = 0 then (f.infBits true, flagDZ)
    else if neg then (f.nanBits, flagINV)
    else
      let (m24, ex) := normalise m e
      if m24 = 2 ^ 23 then encodeFp f .rne false { num := ex, den := 1, e := 0 }
      else
        let j := (m24 - 2 ^ 23) / 2 ^ 17
        let p := polyQ (logD m24 j) log2Coef
        encodeFp f .rne false { num := ex * 2 ^ 62 + tabH j + p * 2 ^ 30, den := 1, e := -62 }

/-- RCP of an FP32 value rounded to `f` (R62, R64). -/
def fnRcp (f : FpFmt) : Fp → Nat × Flags
  | .nan s => (f.nanBits, flagIf s flagINV)
  | .inf neg => (f.zeroBits neg, 0)
  | .fin neg m e =>
    if m = 0 then (f.infBits neg, flagDZ)
    else
      let (m24, ex) := normalise m e
      let sg : Int := if neg then -1 else 1
      if m24 = 2 ^ 23 then encodeFp f .rne neg { num := sg, den := 1, e := -ex }
      else
        let j := (m24 - 2 ^ 23) / 2 ^ 17
        let p := polyQ (logD m24 j) rcpCoef
        encodeFp f .rne neg { num := sg * (tabG j : Int) * p, den := 1, e := -ex - 64 }

/-- RSQ of an FP32 value rounded to `f` (R63, R64). -/
def fnRsq (f : FpFmt) : Fp → Nat × Flags
  | .nan s => (f.nanBits, flagIf s flagINV)
  | .inf neg => if neg then (f.nanBits, flagINV) else (0, 0)
  | .fin neg m e =>
    if m = 0 then (f.infBits neg, flagDZ)
    else if neg then (f.nanBits, flagINV)
    else
      let (m24, ex) := normalise m e
      let od := ex % 2
      let ee := ex - od
      if m24 = 2 ^ 23 ∧ od = 0 then encodeFp f .rne false { num := 1, den := 1, e := -ee / 2 }
      else
        let mq := m24 * 2 ^ od.toNat
        let j := 32 * od.toNat + (m24 - 2 ^ 23) / 2 ^ 18
        let z : Int := (mq : Int) * (tabS j * tabS j : Nat) - 2 ^ 87
        let p := polyQ (z / 2 ^ 55) rsqCoef
        encodeFp f .rne false { num := (tabS j : Int) * p, den := 1, e := -ee / 2 - 64 }

/-- SQRT of an FP32 value x ≥ 0, rounded once to FP32 in RNE (R173). -/
def fpSqrt : Fp → Nat
  | .nan _ => fp32.nanBits
  | .inf neg => if neg then fp32.nanBits else fp32.infBits false
  | .fin neg m e =>
    if m = 0 then fp32.zeroBits neg
    else
      let e2 := e - (e % 2) - 64
      let n := m * 2 ^ (e - e2).toNat
      let r := isqrt n
      (encodeFp fp32 .rne false { num := 2 * (r : Int) + (if r * r = n then 0 else 1), den := 1, e := e2 / 2 - 1 }).1

end Sys2Proof.Machine
end

