-- ==== Sys2Proof/Config.lean ====
section
/-! DEFINITION. What an implementation or a single part fixes, and the free values: constants without a body, so that
nothing can be proved of the value itself (notes/assumptions/5.md). -/

namespace Sys2Proof.Config

/-- A value the spec leaves open, fresh at each use: applied to the counter `freeCtr` of the state. -/
opaque freeWord : Nat → BitVec 64
/-- Device time that passes before the step with this counter, in units of 2^-16 ns (R266). -/
opaque elapsed : Nat → Nat
/-- Whether an RDMA READ returns a 64-byte unit as it is now rather than as last flushed (R238), by counter and unit. -/
opaque exportsNow : Nat → Nat → Bool
/-- Whether a well write read back equal, by counter (R385). -/
opaque writeVerifies : Nat → Bool
/-- The die on which the carve-out with a base lies (R239, R353). -/
opaque carveDie : Nat → Nat
/-- The die that holds an arena's descriptor, by the arena's shard list and the descriptor's offset (R231, R244). -/
opaque arenaDie : Nat → Nat → Nat
/-- Whether the slice with the last number homes the block table, the descriptor or the score table of the sequence at
an offset of an arena (R231, R375). -/
opaque sliceHolds : Nat → Nat → Nat → Bool
/-- The fused energy constants of R409, in pJ per 64-byte unit, byte and byte, and in mW. -/
opaque cispj : Nat
opaque ddrpj : Nat
opaque lnkpj : Nat
opaque idlemw : Nat
/-- Whether ML-DSA-87 accepts `signature` over `message` under `key` (R1). -/
opaque mlDsaVerify : (key message signature : List Byte) → Bool
/-- The ML-DSA-87 signature of the part over a message (R394, R411). -/
opaque mlDsaSign : (context message : List Byte) → List Byte
/-- The fused digest of the root keys and the fused floor of the security version (R393). -/
opaque rootDigest : BitVec 512
opaque svnMinFused : Nat
/-- The certificate chain and the management VLAN ID held in NOR flash (R394, R412). -/
opaque certChain : List Byte
opaque managementVlan : Nat
/-- The identity public key, derived from the on-die secret (R394). -/
opaque identityKey : List Byte
/-- Offset in the mailbox window of a queue pair's immediate word (R414), which the spec does not place. -/
opaque immOffset : Nat → Nat
/-- Bytes of a port's receive buffer (R413). -/
opaque rxBuffer : Nat

end Sys2Proof.Config
end

