-- ==== Sys2Proof/Syntax.lean ====
section
/-! DEFINITION. The steps of the part: one constructor of `Instr` per row of spec/opcode_table.json.
Slot operations carry a `Guard` and the body fields of their format (R71, R76 to R81);
the other rows carry what the agent, the host or the environment brings. -/

namespace Sys2Proof

/-- What every slot operation carries beside its body (R69, R71): the slot that holds it, the predicate
register, whether the predicate is inverted, and its bit of the duplicate map (R318). -/
structure Guard where
  slot : BitVec 3
  pn : Bool
  pred : BitVec 4
  dup : Bool
deriving DecidableEq, Repr

/-- The two forms of the scalar slot (R76). -/
inductive ScalarBody where
  | sr (rd rs1 rs2 : BitVec 6) (aux : BitVec 28)
  | si (rd rs1 : BitVec 6) (aux2 : BitVec 2) (imm : BitVec 32)
deriving DecidableEq, Repr

/-- The vector format (R77). -/
structure VectorBody where
  vd : BitVec 8
  va : BitVec 8
  vb : BitVec 8
  vc : BitVec 8
  type : BitVec 4
  aux : BitVec 11
deriving DecidableEq, Repr

/-- The matrix format (R78). -/
structure MatrixBody where
  dst : BitVec 8
  srcA : BitVec 8
  srcB : BitVec 8
  tid : BitVec 6
  aux : BitVec 17
deriving DecidableEq, Repr

/-- The memory format of the load and store slots (R79). -/
structure MemBody where
  data : BitVec 8
  areg : BitVec 4
  cls : BitVec 4
  scope : BitVec 3
  size : BitVec 4
  off24 : BitVec 24
deriving DecidableEq, Repr

/-- The pump format (R80). -/
structure PumpBody where
  areg0 : BitVec 4
  areg1 : BitVec 4
  s0 : BitVec 6
  s1 : BitVec 6
  handle : BitVec 4
  cls : BitVec 4
  aux : BitVec 19
deriving DecidableEq, Repr

/-- The sync format: each operation cuts its own fields from the 47 body bits (R81, R211). -/
abbrev SyncBody := BitVec 47

/-- The engines of a tile that queue operations (R19). -/
inductive Engine where
  | vectorA | vectorB | matrix | load | store | pumpPort | sync
deriving DecidableEq, Repr

/-- Where a timing error strikes (R365): the bundle at issue of a tile's context, or the operation that an engine executes. -/
structure ReplaySite where
  tile : Nat
  ctx : Nat
  engine : Option Engine := none
deriving DecidableEq, Repr

/-- An event record (R11). -/
structure EventRec where
  time : Word
  source : BitVec 16
  code : BitVec 16
  payload : BitVec 160
deriving DecidableEq, Repr

/-- The queues of event records (R12): a context's queue, a partition's fault log, the telemetry buffer. -/
inductive EventDest where
  | context (tile ctx : Nat)
  | faultLog (part : Nat) (high : BitVec 256)
  | telemetry
deriving DecidableEq, Repr

/-- A link-state change as it is flooded (R421): reporting package, port, new entry (R420), version. -/
structure LinkChange where
  version : Nat
  pkg : Nat
  port : Nat
  peerPkg : Nat
  peerPort : Nat
  state : Nat
deriving DecidableEq, Repr

/-- What a neighbour sends of link state (R421): one change, or, as it was asked, its full table of changes with the oldest
version that it retains. -/
inductive LinkNews where
  | change (c : LinkChange)
  | table (oldest : Nat) (cs : List LinkChange)
deriving DecidableEq, Repr

/-- What another participant's engine tells of a collective: package, SEQ, and the device time in ns of its acceptance
(R293, R297). -/
structure PeerAccept where
  pkg : Nat
  seq : Nat
  time : Nat
deriving DecidableEq, Repr

/-- COLLECTIVE_ACCEPT: the group, and what another participant's engine tells of its acceptance, if it is that. -/
structure AcceptNews where
  group : Nat
  peer : Option PeerAccept := none
deriving DecidableEq, Repr

/-- COLLECTIVE_TIMEOUT (R295): the group; package and SEQ of another participant whose WAITLIM has passed, if it is that. -/
structure TimeoutNews where
  group : Nat
  peer : Option (Nat × Nat) := none
deriving DecidableEq, Repr

/-- STRAIT_TRAIN_REQUEST (R418): the port, and the package's number where the driver forms the domain with it (R279). -/
structure TrainRequest where
  port : Nat
  pkg : Option Nat := none
deriving DecidableEq, Repr

/-- What an engine reports when it raises a trap after issue (R349, R350). -/
structure TrapReport where
  code : BitVec 16
  subcode : BitVec 16
  slot : BitVec 3
  obj : BitVec 20
  offset : Off
  /-- number and address of the trapping operation's bundle -/
  bundle : Nat
  pc : Off
deriving DecidableEq, Repr

/-- A well write that power loss interrupts (R376): the tile, the 64-byte unit in progress, its content afterwards, and
whether that content passes its check (SECDED, R378; the CRC of a descriptor, R380). -/
structure TornUnit where
  tile : Nat
  unit : Nat
  bytes : List Byte
  ok : Bool
deriving DecidableEq, Repr

/-- Errors that have arisen in a well (R378): words, by offset / 8, with one and with two wrong bits, and pages whose CRC
does not match. -/
structure WellErrors where
  single : List Nat := []
  double : List Nat := []
  crc : List Nat := []
deriving DecidableEq, Repr

/-- WELL_SCRUB (R378): the page, and the errors that the tile's well has met since the scrub before. -/
structure PageScrub where
  page : Nat
  arisen : WellErrors := {}
deriving DecidableEq, Repr

/-- BROWN_OUT (R376): the write that the loss of power interrupts, if any, and what fails its parity at the power-up that
follows (R374), as tile, kind and number. -/
structure SupplyLoss where
  torn : Option TornUnit := none
  flips : List (Nat × Nat × Nat) := []
deriving DecidableEq, Repr

/-- The traffic of a received Ethernet frame (R412 to R414). -/
inductive FrameKind where
  | management | roce | other
deriving DecidableEq, Repr

/-- One step of the part: every row of spec/opcode_table.json. -/
inductive Instr where
  -- scalar slot (04)
  | nopScalar (g : Guard) (body : BitVec 47)
  | add (g : Guard) (b : ScalarBody)
  | sub (g : Guard) (b : ScalarBody)
  | mul (g : Guard) (b : ScalarBody)
  | mulh (g : Guard) (b : ScalarBody)
  | div (g : Guard) (b : ScalarBody)
  | rem (g : Guard) (b : ScalarBody)
  | and (g : Guard) (b : ScalarBody)
  | or (g : Guard) (b : ScalarBody)
  | xor (g : Guard) (b : ScalarBody)
  | andn (g : Guard) (b : ScalarBody)
  | shl (g : Guard) (b : ScalarBody)
  | shr (g : Guard) (b : ScalarBody)
  | sra (g : Guard) (b : ScalarBody)
  | min (g : Guard) (b : ScalarBody)
  | max (g : Guard) (b : ScalarBody)
  | clz (g : Guard) (b : ScalarBody)
  | popc (g : Guard) (b : ScalarBody)
  | li (g : Guard) (b : ScalarBody)
  | lih (g : Guard) (b : ScalarBody)
  | mov (g : Guard) (b : ScalarBody)
  | sel (g : Guard) (b : ScalarBody)
  | cmp (g : Guard) (b : ScalarBody)
  | pand (g : Guard) (b : ScalarBody)
  | por (g : Guard) (b : ScalarBody)
  | pxor (g : Guard) (b : ScalarBody)
  | pandn (g : Guard) (b : ScalarBody)
  | pset (g : Guard) (b : ScalarBody)
  | pcnt (g : Guard) (b : ScalarBody)
  | aadd (g : Guard) (b : ScalarBody)
  | aset (g : Guard) (b : ScalarBody)
  | aget (g : Guard) (b : ScalarBody)
  | anarrow (g : Guard) (b : ScalarBody)
  | adrop (g : Guard) (b : ScalarBody)
  | amov (g : Guard) (b : ScalarBody)
  | achk (g : Guard) (b : ScalarBody)
  | loop (g : Guard) (b : ScalarBody)
  | ldelta (g : Guard) (b : ScalarBody)
  | lbreak (g : Guard) (b : ScalarBody)
  | lidx (g : Guard) (b : ScalarBody)
  | view (g : Guard) (b : ScalarBody)
  | srr (g : Guard) (b : ScalarBody)
  | srw (g : Guard) (b : ScalarBody)
  | srWinWrite (g : Guard) (b : ScalarBody)
  | srPrivWrite (g : Guard) (b : ScalarBody)
  | rdtime (g : Guard) (b : ScalarBody)
  | pbr (g : Guard) (b : ScalarBody)
  | trap (g : Guard) (b : ScalarBody)
  | utret (g : Guard) (b : ScalarBody)
  | eret (g : Guard) (b : ScalarBody)
  | yield (g : Guard) (b : ScalarBody)
  | endTask (g : Guard) (b : ScalarBody)
  | feat (g : Guard) (b : ScalarBody)
  -- vector slots (05)
  | nopVector (g : Guard) (body : BitVec 47)
  | vadd (g : Guard) (b : VectorBody)
  | vsub (g : Guard) (b : VectorBody)
  | vmul (g : Guard) (b : VectorBody)
  | vfma (g : Guard) (b : VectorBody)
  | vmin (g : Guard) (b : VectorBody)
  | vmax (g : Guard) (b : VectorBody)
  | vabs (g : Guard) (b : VectorBody)
  | vneg (g : Guard) (b : VectorBody)
  | vand (g : Guard) (b : VectorBody)
  | vor (g : Guard) (b : VectorBody)
  | vxor (g : Guard) (b : VectorBody)
  | vshl (g : Guard) (b : VectorBody)
  | vshr (g : Guard) (b : VectorBody)
  | vcmp (g : Guard) (b : VectorBody)
  | vsel (g : Guard) (b : VectorBody)
  | vcvt (g : Guard) (b : VectorBody)
  | vquant (g : Guard) (b : VectorBody)
  | vdeq (g : Guard) (b : VectorBody)
  | vexp2 (g : Guard) (b : VectorBody)
  | vlog2 (g : Guard) (b : VectorBody)
  | vrcp (g : Guard) (b : VectorBody)
  | vrsq (g : Guard) (b : VectorBody)
  | vsumr (g : Guard) (b : VectorBody)
  | vmaxr (g : Guard) (b : VectorBody)
  | vdot (g : Guard) (b : VectorBody)
  | vshuf (g : Guard) (b : VectorBody)
  | vbcast (g : Guard) (b : VectorBody)
  | vslide (g : Guard) (b : VectorBody)
  | viota (g : Guard) (b : VectorBody)
  | vcompr (g : Guard) (b : VectorBody)
  | vpart (g : Guard) (b : VectorBody)
  | vtopk (g : Guard) (b : VectorBody)
  | vmovs (g : Guard) (b : VectorBody)
  | vins (g : Guard) (b : VectorBody)
  -- matrix slot: dense (06)
  | nopMatrix (g : Guard) (body : BitVec 47)
  | mzero (g : Guard) (b : MatrixBody)
  | manchor (g : Guard) (b : MatrixBody)
  | mma (g : Guard) (b : MatrixBody)
  | mmat (g : Guard) (b : MatrixBody)
  | mmaw (g : Guard) (b : MatrixBody)
  | mread (g : Guard) (b : MatrixBody)
  | mstat (g : Guard) (b : MatrixBody)
  | mclr (g : Guard) (b : MatrixBody)
  | tidset (g : Guard) (b : MatrixBody)
  | tidstep (g : Guard) (b : MatrixBody)
  | tidstepSet (g : Guard) (b : MatrixBody)
  -- matrix slot: low-rank (07)
  | lrzero (g : Guard) (b : MatrixBody)
  | lrset (g : Guard) (b : MatrixBody)
  | lradd (g : Guard) (b : MatrixBody)
  | lrscale (g : Guard) (b : MatrixBody)
  | lrmul (g : Guard) (b : MatrixBody)
  | lrmuld (g : Guard) (b : MatrixBody)
  | lrtrunc (g : Guard) (b : MatrixBody)
  | lrdense (g : Guard) (b : MatrixBody)
  | lrcomp (g : Guard) (b : MatrixBody)
  | lrapply (g : Guard) (b : MatrixBody)
  | lrrank (g : Guard) (b : MatrixBody)
  -- load slot (08, 07)
  | nopLoad (g : Guard) (body : BitVec 47)
  | ld (g : Guard) (b : MemBody)
  | lda (g : Guard) (b : MemBody)
  | lds (g : Guard) (b : MemBody)
  | vld (g : Guard) (b : MemBody)
  | vlds (g : Guard) (b : MemBody)
  | tlds (g : Guard) (b : MemBody)
  | vgath (g : Guard) (b : MemBody)
  | capld (g : Guard) (b : MemBody)
  | lrlds (g : Guard) (b : MemBody)
  -- store slot (08, 07)
  | nopStore (g : Guard) (body : BitVec 47)
  | st (g : Guard) (b : MemBody)
  | stl (g : Guard) (b : MemBody)
  | sts (g : Guard) (b : MemBody)
  | vst (g : Guard) (b : MemBody)
  | vsts (g : Guard) (b : MemBody)
  | tsts (g : Guard) (b : MemBody)
  | vscat (g : Guard) (b : MemBody)
  | capst (g : Guard) (b : MemBody)
  | atom (g : Guard) (b : MemBody)
  | atoms (g : Guard) (b : MemBody)
  | lrsts (g : Guard) (b : MemBody)
  -- pump slot (08, 10, 12, 11, 20)
  | nopPump (g : Guard) (body : BitVec 47)
  | pcopy (g : Guard) (b : PumpBody)
  | pfill (g : Guard) (b : PumpBody)
  | pgath (g : Guard) (b : PumpBody)
  | pscat (g : Guard) (b : PumpBody)
  | pdecl (g : Guard) (b : PumpBody)
  | pflushx (g : Guard) (b : PumpBody)
  | kvappend (g : Guard) (b : PumpBody)
  | kvattn (g : Guard) (b : PumpBody)
  | kvscore (g : Guard) (b : PumpBody)
  | kvseal (g : Guard) (b : PumpBody)
  | kvcompact (g : Guard) (b : PumpBody)
  | kvfork (g : Guard) (b : PumpBody)
  | kvforkNew (g : Guard) (b : PumpBody)
  | kvfree (g : Guard) (b : PumpBody)
  | kvpin (g : Guard) (b : PumpBody)
  | kvwin (g : Guard) (b : PumpBody)
  | kvstat (g : Guard) (b : PumpBody)
  | colar (g : Guard) (b : PumpBody)
  | colrs (g : Guard) (b : PumpBody)
  | colag (g : Guard) (b : PumpBody)
  | colbc (g : Guard) (b : PumpBody)
  | colstat (g : Guard) (b : PumpBody)
  | stmget (g : Guard) (b : PumpBody)
  | stmstat (g : Guard) (b : PumpBody)
  | wjopen (g : Guard) (b : PumpBody)
  | wjwrite (g : Guard) (b : PumpBody)
  | wjcommit (g : Guard) (b : PumpBody)
  | wjabort (g : Guard) (b : PumpBody)
  | wjstat (g : Guard) (b : PumpBody)
  -- sync slot (08, 11)
  | nopSync (g : Guard) (body : SyncBody)
  | br (g : Guard) (b : SyncBody)
  | brl (g : Guard) (b : SyncBody)
  | fence (g : Guard) (b : SyncBody)
  | cbset (g : Guard) (b : SyncBody)
  | cbwait (g : Guard) (b : SyncBody)
  | cbspace (g : Guard) (b : SyncBody)
  | cbadvProduce (g : Guard) (b : SyncBody)
  | cbadvConsume (g : Guard) (b : SyncBody)
  | sigwait (g : Guard) (b : SyncBody)
  | sigadd (g : Guard) (b : SyncBody)
  | jobraise (g : Guard) (b : SyncBody)
  | jobpost (g : Guard) (b : SyncBody)
  | jobwait (g : Guard) (b : SyncBody)
  | bar (g : Guard) (b : SyncBody)
  | launch (g : Guard) (b : SyncBody)
  | launchNb (g : Guard) (b : SyncBody)
  | evread (g : Guard) (b : SyncBody)
  | evwait (g : Guard) (b : SyncBody)
  | chk (g : Guard) (b : SyncBody)
  | rplw (g : Guard) (b : SyncBody)
  | tickwait (g : Guard) (b : SyncBody)
  -- header bits of the issuing bundle (01 R32, R37)
  | regionBegin
  | regionCommit
  | preemptionPoint
  -- steps inside the part (01, 19, 08, 10, 11, 12)
  | commitStageDeparture (tile ctx : Nat)
  | engineOperationComplete (tile : Nat) (e : Engine)
  | waitRelease (tile ctx : Nat)
  | systemTrap (tile ctx : Nat) (r : TrapReport)
  | eventRecordPost (dest : EventDest) (r : EventRec)
  | timingErrorReplay (site : ReplaySite)
  | stormPeriodEnd (island : Nat)
  | preemptionRequestDelivery (tile ctx : Nat)
  | forcedPreemption (tile ctx : Nat)
  | contextSave (tile ctx : Nat)
  | contextResume (queue tile ctx : Nat)
  | featureMigration (tile ctx bit : Nat)
  | pumpDelivery (cmd bytes : Nat)
  | pumpCommandComplete (cmd : Nat)
  | atomicHomePerform (slice : Nat)
  | wideVariantLaunch (gang : Nat)
  | kvCommandResolve (cmd : Nat)
  | compactionJob (die : Nat)
  | compactionInstall (die : Nat)
  | spillReadback (asid obj block : Nat)
  | streamTokenArrival (message : List Byte)
  | tick (arm : Nat)
  | tickWakeLead (arm : Nat)
  | holdLimitExpiry (cmd : Nat)
  | stmgetResolve (cmd : Nat)
  | stepEnd (arm : Nat)
  | clockShareWindow (island : Nat)
  | collectiveAccept (news : AcceptNews)
  | versionAgreement (group : Nat) (held : List (List Nat)) (same : Bool)
  | chunkReduced (group chunk : Nat) (contributions : Option (List (List Byte)))
  | chunkBroadcastComplete (group chunk : Nat)
  | collectiveRecovery (group version : Nat) (held : List (List Nat)) (unfinished : List Nat)
  | collectiveTimeout (news : TimeoutNews)
  -- links, time and networks (24, 11)
  | straitPeerDetect (port : Nat)
  | identityFlit (port pkg peerPort : Nat) (versions : List (Nat × Nat))
  | straitUp (port : Nat)
  | straitDown (port : Nat)
  | flitCrcRetry (port : Nat) (again : Bool)
  | virtualLaneStopGo (port lane free : Nat)
  | linkChangeFlood (port : Nat) (news : LinkNews)
  | ptpSync (offset : Int) (grandmaster : Bool) (source : Nat)
  | announceTimeout (grandmaster : Nat)
  | ethernetFrameReceive (port : Nat) (vlan : Option Nat) (kind : FrameKind) (priority bytes : Nat)
  | congestionNotification (qp : Nat)
  | rateRecovery (qp : Nat)
  | rdmaWrite (qp obj offset : Nat) (data : List Byte)
  | rdmaWriteWithImmediate (qp obj offset : Nat) (data : List Byte) (imm : BitVec 32)
  | rdmaRead (qp obj offset length : Nat)
  -- queues, packets and graphs (18)
  | notifyKick (queue : Nat)
  | pendingKickService
  | launchGraph (queue : Nat)
  | signalWrite (queue : Nat)
  | signalAdd (queue : Nat)
  | wait (queue : Nat)
  | copy (queue : Nat)
  | barrier (queue : Nat)
  | lease (queue : Nat) (projected : Nat)
  | timedArm (queue : Nat)
  | timedDisarm (queue : Nat)
  | flushExport (queue : Nat)
  | invalidate (queue : Nat)
  | regionCreate (queue : Nat)
  | regionAlter (queue : Nat)
  | regionDestroy (queue : Nat)
  | statement (queue : Nat)
  | nodeDispatch
  | nodeComplete (gang : Nat)
  | instanceEnd (inst : Nat)
  | queueTeardown (queue : Nat)
  | queueDrained (queue : Nat)
  | regenerationStart (asid obj page : Nat)
  | translationWalk (tile asid obj offset : Nat)
  -- power, wells, firmware (20, 22, 23)
  | islandIdle (island : Nat)
  | islandIdleExit (island : Nat)
  | islandPark (island : Nat)
  | islandOff (island : Nat)
  | islandWake (island : Nat)
  | islandWakeComplete (island : Nat) (badParity : List (Nat × Nat × Nat))
  | resumeTrigger (tile ctx : Nat)
  | driverWakeRequest (islands : BitVec 64)
  | cisternRetain (slice : Nat)
  | cisternWake (slice : Nat)
  | cisternOffRequest (slice : Nat)
  | railSettled (rail : Nat)
  | brownOut (loss : SupplyLoss)
  | powerOnReset
  | islandSelfTestDone (island : Nat) (pass : Bool)
  | lpddr6TrainingDone
  | wellScrub (tile : Nat) (scrub : PageScrub)
  | journalApply (tile : Nat)
  | accountingTick
  | meterIntegration (rails : List Nat) (input : Nat) (failed : List Nat)
  | leaseExpiry (part : Nat)
  | leaseRevoke (part : Nat) (projected : Nat)
  | heatRefresh (sensors : List Int)
  | firmwareTakeover
  | mirrorEntry
  | update (slot : Nat)
  | roleSwap
  | fwUpdateFail
  -- management requests (22, 23, 24)
  | load (asid obj offset : Nat)
  | attest (nonce : BitVec 512)
  | confirm (request : BitVec 512)
  | heat
  | telemetry
  | versions
  | queueTableWrite (queue : Nat) (entry : BitVec 512)
  | asidTableWrite (asid : Nat) (entry : BitVec 256)
  | serviceEntryWrite (part : Nat) (entry : BitVec 512)
  | powerEntryWrite (part : Nat) (entry : BitVec 256)
  | groupEntryWrite (group : Nat) (entry : BitVec 256)
  | streamDescriptorWrite (stream : Nat) (entry : BitVec 512)
  | ownerKeyWrite (slot : Nat) (key : Option (List Byte)) (request : BitVec 512)
  | partitionEntryWrite (part : Nat) (entry : BitVec 256) (request : BitVec 512)
  | lotterySeedWrite (seed : Word)
  | vlanConfig (port : Nat) (ids : List Nat)
  | portRateSet (port : Nat) (gbit : Nat)
  | ptpConfig (domain delay transport : Nat)
  | straitTrainRequest (train : TrainRequest)
  | straitDownRequest (port : Nat)
  | autoNegotiation (port : Nat) (gbit : Nat)
  | queuePairBinding (qp asid role : Nat)
deriving DecidableEq, Repr

end Sys2Proof
end

