-- ==== Sys2Proof/Machine/Encoding.lean ====
section
/-! DEFINITION. The bundle encoding of spec/03_encoding.md: how the fields of each format lie in a slot word
(R71, R76 to R81), the opcode map (R83), and the encoding checks made at issue (R73, R74, R76, R79, R82, R84 to R86)
with the REASON and FIELDLO that each one reports. -/

namespace Sys2Proof.Machine

/-- The slot classes, one opcode map each (R69, R83). -/
inductive SlotClass where
  | scalar | vector | matrix | load | store | pump | sync
deriving DecidableEq, Repr

/-- The class that slot `n` serves (R69). -/
def slotClass (n : Nat) : SlotClass :=
  match n with
  | 0 => .scalar | 1 => .vector | 2 => .vector | 3 => .matrix | 4 => .load | 5 => .store | 6 => .pump | _ => .sync

/-- Bits [hi:lo] of `x` as a number. -/
def bitsOf {w : Nat} (x : BitVec w) (hi lo : Nat) : Nat := x.toNat / 2 ^ lo % 2 ^ (hi + 1 - lo)

/-- Bit `k` of `x`. -/
def bitOf {w : Nat} (x : BitVec w) (k : Nat) : Bool := x.getLsbD k

/-- The body bits of a scalar slot (R76). -/
def packScalar : ScalarBody → BitVec 47
  | .sr rd rs1 rs2 aux => 0#1 ++ rd ++ rs1 ++ rs2 ++ aux
  | .si rd rs1 aux2 imm => 1#1 ++ rd ++ rs1 ++ aux2 ++ imm

/-- The body bits of a vector slot (R77). -/
def packVector (b : VectorBody) : BitVec 47 := b.vd ++ b.va ++ b.vb ++ b.vc ++ b.type ++ b.aux

/-- The body bits of the matrix slot (R78). -/
def packMatrix (b : MatrixBody) : BitVec 47 := b.dst ++ b.srcA ++ b.srcB ++ b.tid ++ b.aux

/-- The body bits of the load and store slots (R79). -/
def packMem (b : MemBody) : BitVec 47 := b.data ++ b.areg ++ b.cls ++ b.scope ++ b.size ++ b.off24

/-- The body bits of the pump slot (R80). -/
def packPump (b : PumpBody) : BitVec 47 := b.areg0 ++ b.areg1 ++ b.s0 ++ b.s1 ++ b.handle ++ b.cls ++ b.aux

/-- The scalar body that body bits hold (R76). -/
def unpackScalar (x : BitVec 47) : ScalarBody :=
  if x.getLsbD 46 then .si (x.extractLsb' 40 6) (x.extractLsb' 34 6) (x.extractLsb' 32 2) (x.extractLsb' 0 32)
  else .sr (x.extractLsb' 40 6) (x.extractLsb' 34 6) (x.extractLsb' 28 6) (x.extractLsb' 0 28)

/-- The vector body that body bits hold (R77). -/
def unpackVector (x : BitVec 47) : VectorBody :=
  { vd := x.extractLsb' 39 8, va := x.extractLsb' 31 8, vb := x.extractLsb' 23 8, vc := x.extractLsb' 15 8,
    type := x.extractLsb' 11 4, aux := x.extractLsb' 0 11 }

/-- The matrix body that body bits hold (R78). -/
def unpackMatrix (x : BitVec 47) : MatrixBody :=
  { dst := x.extractLsb' 39 8, srcA := x.extractLsb' 31 8, srcB := x.extractLsb' 23 8, tid := x.extractLsb' 17 6,
    aux := x.extractLsb' 0 17 }

/-- The load or store body that body bits hold (R79). -/
def unpackMem (x : BitVec 47) : MemBody :=
  { data := x.extractLsb' 39 8, areg := x.extractLsb' 35 4, cls := x.extractLsb' 31 4, scope := x.extractLsb' 28 3,
    size := x.extractLsb' 24 4, off24 := x.extractLsb' 0 24 }

/-- The pump body that body bits hold (R80). -/
def unpackPump (x : BitVec 47) : PumpBody :=
  { areg0 := x.extractLsb' 43 4, areg1 := x.extractLsb' 39 4, s0 := x.extractLsb' 33 6, s1 := x.extractLsb' 27 6,
    handle := x.extractLsb' 23 4, cls := x.extractLsb' 19 4, aux := x.extractLsb' 0 19 }

/-- A slot word by its common fields (R71): opcode, PN, PRED, BODY. -/
def packSlot (opc : BitVec 8) (g : Guard) (body : BitVec 47) : SlotWord :=
  opc ++ BitVec.ofBool g.pn ++ g.pred ++ body

/-- What a slot operation puts into its slot word: class, opcode (R83), common fields and body. -/
structure SlotFields where
  cls : SlotClass
  opc : BitVec 8
  g : Guard
  body : BitVec 47
deriving DecidableEq, Repr

/-- The slot-word fields of a slot operation; none for the steps that are no slot operation. -/
def slotFields : Instr → Option SlotFields
  | .nopScalar g body => some { cls := .scalar, opc := 0#8, g := g, body := body }
  | .add g b => some { cls := .scalar, opc := 1#8, g := g, body := packScalar b }
  | .sub g b => some { cls := .scalar, opc := 2#8, g := g, body := packScalar b }
  | .mul g b => some { cls := .scalar, opc := 3#8, g := g, body := packScalar b }
  | .mulh g b => some { cls := .scalar, opc := 4#8, g := g, body := packScalar b }
  | .div g b => some { cls := .scalar, opc := 5#8, g := g, body := packScalar b }
  | .rem g b => some { cls := .scalar, opc := 6#8, g := g, body := packScalar b }
  | .and g b => some { cls := .scalar, opc := 7#8, g := g, body := packScalar b }
  | .or g b => some { cls := .scalar, opc := 8#8, g := g, body := packScalar b }
  | .xor g b => some { cls := .scalar, opc := 9#8, g := g, body := packScalar b }
  | .andn g b => some { cls := .scalar, opc := 10#8, g := g, body := packScalar b }
  | .shl g b => some { cls := .scalar, opc := 11#8, g := g, body := packScalar b }
  | .shr g b => some { cls := .scalar, opc := 12#8, g := g, body := packScalar b }
  | .sra g b => some { cls := .scalar, opc := 13#8, g := g, body := packScalar b }
  | .min g b => some { cls := .scalar, opc := 14#8, g := g, body := packScalar b }
  | .max g b => some { cls := .scalar, opc := 15#8, g := g, body := packScalar b }
  | .clz g b => some { cls := .scalar, opc := 16#8, g := g, body := packScalar b }
  | .popc g b => some { cls := .scalar, opc := 17#8, g := g, body := packScalar b }
  | .li g b => some { cls := .scalar, opc := 18#8, g := g, body := packScalar b }
  | .lih g b => some { cls := .scalar, opc := 19#8, g := g, body := packScalar b }
  | .mov g b => some { cls := .scalar, opc := 20#8, g := g, body := packScalar b }
  | .sel g b => some { cls := .scalar, opc := 21#8, g := g, body := packScalar b }
  | .cmp g b => some { cls := .scalar, opc := 22#8, g := g, body := packScalar b }
  | .pand g b => some { cls := .scalar, opc := 23#8, g := g, body := packScalar b }
  | .por g b => some { cls := .scalar, opc := 24#8, g := g, body := packScalar b }
  | .pxor g b => some { cls := .scalar, opc := 25#8, g := g, body := packScalar b }
  | .pandn g b => some { cls := .scalar, opc := 26#8, g := g, body := packScalar b }
  | .pset g b => some { cls := .scalar, opc := 27#8, g := g, body := packScalar b }
  | .pcnt g b => some { cls := .scalar, opc := 28#8, g := g, body := packScalar b }
  | .aadd g b => some { cls := .scalar, opc := 29#8, g := g, body := packScalar b }
  | .aset g b => some { cls := .scalar, opc := 30#8, g := g, body := packScalar b }
  | .aget g b => some { cls := .scalar, opc := 31#8, g := g, body := packScalar b }
  | .anarrow g b => some { cls := .scalar, opc := 32#8, g := g, body := packScalar b }
  | .adrop g b => some { cls := .scalar, opc := 33#8, g := g, body := packScalar b }
  | .amov g b => some { cls := .scalar, opc := 34#8, g := g, body := packScalar b }
  | .achk g b => some { cls := .scalar, opc := 35#8, g := g, body := packScalar b }
  | .loop g b => some { cls := .scalar, opc := 36#8, g := g, body := packScalar b }
  | .ldelta g b => some { cls := .scalar, opc := 37#8, g := g, body := packScalar b }
  | .lbreak g b => some { cls := .scalar, opc := 38#8, g := g, body := packScalar b }
  | .lidx g b => some { cls := .scalar, opc := 39#8, g := g, body := packScalar b }
  | .view g b => some { cls := .scalar, opc := 40#8, g := g, body := packScalar b }
  | .srr g b => some { cls := .scalar, opc := 41#8, g := g, body := packScalar b }
  | .srw g b => some { cls := .scalar, opc := 42#8, g := g, body := packScalar b }
  | .srWinWrite g b => some { cls := .scalar, opc := 42#8, g := g, body := packScalar b }
  | .srPrivWrite g b => some { cls := .scalar, opc := 42#8, g := g, body := packScalar b }
  | .rdtime g b => some { cls := .scalar, opc := 43#8, g := g, body := packScalar b }
  | .pbr g b => some { cls := .scalar, opc := 44#8, g := g, body := packScalar b }
  | .trap g b => some { cls := .scalar, opc := 45#8, g := g, body := packScalar b }
  | .utret g b => some { cls := .scalar, opc := 46#8, g := g, body := packScalar b }
  | .eret g b => some { cls := .scalar, opc := 47#8, g := g, body := packScalar b }
  | .yield g b => some { cls := .scalar, opc := 48#8, g := g, body := packScalar b }
  | .endTask g b => some { cls := .scalar, opc := 49#8, g := g, body := packScalar b }
  | .feat g b => some { cls := .scalar, opc := 50#8, g := g, body := packScalar b }
  | .nopVector g body => some { cls := .vector, opc := 0#8, g := g, body := body }
  | .vadd g b => some { cls := .vector, opc := 1#8, g := g, body := packVector b }
  | .vsub g b => some { cls := .vector, opc := 2#8, g := g, body := packVector b }
  | .vmul g b => some { cls := .vector, opc := 3#8, g := g, body := packVector b }
  | .vfma g b => some { cls := .vector, opc := 4#8, g := g, body := packVector b }
  | .vmin g b => some { cls := .vector, opc := 5#8, g := g, body := packVector b }
  | .vmax g b => some { cls := .vector, opc := 6#8, g := g, body := packVector b }
  | .vabs g b => some { cls := .vector, opc := 7#8, g := g, body := packVector b }
  | .vneg g b => some { cls := .vector, opc := 8#8, g := g, body := packVector b }
  | .vand g b => some { cls := .vector, opc := 9#8, g := g, body := packVector b }
  | .vor g b => some { cls := .vector, opc := 10#8, g := g, body := packVector b }
  | .vxor g b => some { cls := .vector, opc := 11#8, g := g, body := packVector b }
  | .vshl g b => some { cls := .vector, opc := 12#8, g := g, body := packVector b }
  | .vshr g b => some { cls := .vector, opc := 13#8, g := g, body := packVector b }
  | .vcmp g b => some { cls := .vector, opc := 14#8, g := g, body := packVector b }
  | .vsel g b => some { cls := .vector, opc := 15#8, g := g, body := packVector b }
  | .vcvt g b => some { cls := .vector, opc := 16#8, g := g, body := packVector b }
  | .vquant g b => some { cls := .vector, opc := 17#8, g := g, body := packVector b }
  | .vdeq g b => some { cls := .vector, opc := 18#8, g := g, body := packVector b }
  | .vexp2 g b => some { cls := .vector, opc := 19#8, g := g, body := packVector b }
  | .vlog2 g b => some { cls := .vector, opc := 20#8, g := g, body := packVector b }
  | .vrcp g b => some { cls := .vector, opc := 21#8, g := g, body := packVector b }
  | .vrsq g b => some { cls := .vector, opc := 22#8, g := g, body := packVector b }
  | .vsumr g b => some { cls := .vector, opc := 23#8, g := g, body := packVector b }
  | .vmaxr g b => some { cls := .vector, opc := 24#8, g := g, body := packVector b }
  | .vdot g b => some { cls := .vector, opc := 25#8, g := g, body := packVector b }
  | .vshuf g b => some { cls := .vector, opc := 26#8, g := g, body := packVector b }
  | .vbcast g b => some { cls := .vector, opc := 27#8, g := g, body := packVector b }
  | .vslide g b => some { cls := .vector, opc := 28#8, g := g, body := packVector b }
  | .viota g b => some { cls := .vector, opc := 29#8, g := g, body := packVector b }
  | .vcompr g b => some { cls := .vector, opc := 30#8, g := g, body := packVector b }
  | .vpart g b => some { cls := .vector, opc := 31#8, g := g, body := packVector b }
  | .vtopk g b => some { cls := .vector, opc := 32#8, g := g, body := packVector b }
  | .vmovs g b => some { cls := .vector, opc := 33#8, g := g, body := packVector b }
  | .vins g b => some { cls := .vector, opc := 34#8, g := g, body := packVector b }
  | .nopMatrix g body => some { cls := .matrix, opc := 0#8, g := g, body := body }
  | .mzero g b => some { cls := .matrix, opc := 1#8, g := g, body := packMatrix b }
  | .manchor g b => some { cls := .matrix, opc := 2#8, g := g, body := packMatrix b }
  | .mma g b => some { cls := .matrix, opc := 3#8, g := g, body := packMatrix b }
  | .mmat g b => some { cls := .matrix, opc := 4#8, g := g, body := packMatrix b }
  | .mmaw g b => some { cls := .matrix, opc := 5#8, g := g, body := packMatrix b }
  | .mread g b => some { cls := .matrix, opc := 6#8, g := g, body := packMatrix b }
  | .mstat g b => some { cls := .matrix, opc := 7#8, g := g, body := packMatrix b }
  | .mclr g b => some { cls := .matrix, opc := 8#8, g := g, body := packMatrix b }
  | .tidset g b => some { cls := .matrix, opc := 9#8, g := g, body := packMatrix b }
  | .tidstep g b => some { cls := .matrix, opc := 10#8, g := g, body := packMatrix b }
  | .tidstepSet g b => some { cls := .matrix, opc := 10#8, g := g, body := packMatrix b }
  | .lrzero g b => some { cls := .matrix, opc := 11#8, g := g, body := packMatrix b }
  | .lrset g b => some { cls := .matrix, opc := 12#8, g := g, body := packMatrix b }
  | .lradd g b => some { cls := .matrix, opc := 13#8, g := g, body := packMatrix b }
  | .lrscale g b => some { cls := .matrix, opc := 14#8, g := g, body := packMatrix b }
  | .lrmul g b => some { cls := .matrix, opc := 15#8, g := g, body := packMatrix b }
  | .lrmuld g b => some { cls := .matrix, opc := 16#8, g := g, body := packMatrix b }
  | .lrtrunc g b => some { cls := .matrix, opc := 17#8, g := g, body := packMatrix b }
  | .lrdense g b => some { cls := .matrix, opc := 18#8, g := g, body := packMatrix b }
  | .lrcomp g b => some { cls := .matrix, opc := 19#8, g := g, body := packMatrix b }
  | .lrapply g b => some { cls := .matrix, opc := 20#8, g := g, body := packMatrix b }
  | .lrrank g b => some { cls := .matrix, opc := 21#8, g := g, body := packMatrix b }
  | .nopLoad g body => some { cls := .load, opc := 0#8, g := g, body := body }
  | .ld g b => some { cls := .load, opc := 1#8, g := g, body := packMem b }
  | .lda g b => some { cls := .load, opc := 2#8, g := g, body := packMem b }
  | .lds g b => some { cls := .load, opc := 3#8, g := g, body := packMem b }
  | .vld g b => some { cls := .load, opc := 4#8, g := g, body := packMem b }
  | .vlds g b => some { cls := .load, opc := 5#8, g := g, body := packMem b }
  | .tlds g b => some { cls := .load, opc := 6#8, g := g, body := packMem b }
  | .vgath g b => some { cls := .load, opc := 7#8, g := g, body := packMem b }
  | .capld g b => some { cls := .load, opc := 8#8, g := g, body := packMem b }
  | .lrlds g b => some { cls := .load, opc := 9#8, g := g, body := packMem b }
  | .nopStore g body => some { cls := .store, opc := 0#8, g := g, body := body }
  | .st g b => some { cls := .store, opc := 1#8, g := g, body := packMem b }
  | .stl g b => some { cls := .store, opc := 2#8, g := g, body := packMem b }
  | .sts g b => some { cls := .store, opc := 3#8, g := g, body := packMem b }
  | .vst g b => some { cls := .store, opc := 4#8, g := g, body := packMem b }
  | .vsts g b => some { cls := .store, opc := 5#8, g := g, body := packMem b }
  | .tsts g b => some { cls := .store, opc := 6#8, g := g, body := packMem b }
  | .vscat g b => some { cls := .store, opc := 7#8, g := g, body := packMem b }
  | .capst g b => some { cls := .store, opc := 8#8, g := g, body := packMem b }
  | .atom g b => some { cls := .store, opc := 9#8, g := g, body := packMem b }
  | .atoms g b => some { cls := .store, opc := 10#8, g := g, body := packMem b }
  | .lrsts g b => some { cls := .store, opc := 11#8, g := g, body := packMem b }
  | .nopPump g body => some { cls := .pump, opc := 0#8, g := g, body := body }
  | .pcopy g b => some { cls := .pump, opc := 1#8, g := g, body := packPump b }
  | .pfill g b => some { cls := .pump, opc := 2#8, g := g, body := packPump b }
  | .pgath g b => some { cls := .pump, opc := 3#8, g := g, body := packPump b }
  | .pscat g b => some { cls := .pump, opc := 4#8, g := g, body := packPump b }
  | .pdecl g b => some { cls := .pump, opc := 5#8, g := g, body := packPump b }
  | .pflushx g b => some { cls := .pump, opc := 6#8, g := g, body := packPump b }
  | .kvappend g b => some { cls := .pump, opc := 7#8, g := g, body := packPump b }
  | .kvattn g b => some { cls := .pump, opc := 8#8, g := g, body := packPump b }
  | .kvscore g b => some { cls := .pump, opc := 9#8, g := g, body := packPump b }
  | .kvseal g b => some { cls := .pump, opc := 10#8, g := g, body := packPump b }
  | .kvcompact g b => some { cls := .pump, opc := 11#8, g := g, body := packPump b }
  | .kvfork g b => some { cls := .pump, opc := 12#8, g := g, body := packPump b }
  | .kvforkNew g b => some { cls := .pump, opc := 12#8, g := g, body := packPump b }
  | .kvfree g b => some { cls := .pump, opc := 13#8, g := g, body := packPump b }
  | .kvpin g b => some { cls := .pump, opc := 14#8, g := g, body := packPump b }
  | .kvwin g b => some { cls := .pump, opc := 15#8, g := g, body := packPump b }
  | .kvstat g b => some { cls := .pump, opc := 16#8, g := g, body := packPump b }
  | .colar g b => some { cls := .pump, opc := 17#8, g := g, body := packPump b }
  | .colrs g b => some { cls := .pump, opc := 18#8, g := g, body := packPump b }
  | .colag g b => some { cls := .pump, opc := 19#8, g := g, body := packPump b }
  | .colbc g b => some { cls := .pump, opc := 20#8, g := g, body := packPump b }
  | .colstat g b => some { cls := .pump, opc := 21#8, g := g, body := packPump b }
  | .stmget g b => some { cls := .pump, opc := 22#8, g := g, body := packPump b }
  | .stmstat g b => some { cls := .pump, opc := 23#8, g := g, body := packPump b }
  | .wjopen g b => some { cls := .pump, opc := 24#8, g := g, body := packPump b }
  | .wjwrite g b => some { cls := .pump, opc := 25#8, g := g, body := packPump b }
  | .wjcommit g b => some { cls := .pump, opc := 26#8, g := g, body := packPump b }
  | .wjabort g b => some { cls := .pump, opc := 27#8, g := g, body := packPump b }
  | .wjstat g b => some { cls := .pump, opc := 28#8, g := g, body := packPump b }
  | .nopSync g body => some { cls := .sync, opc := 0#8, g := g, body := body }
  | .br g b => some { cls := .sync, opc := 1#8, g := g, body := b }
  | .brl g b => some { cls := .sync, opc := 2#8, g := g, body := b }
  | .fence g b => some { cls := .sync, opc := 3#8, g := g, body := b }
  | .cbset g b => some { cls := .sync, opc := 4#8, g := g, body := b }
  | .cbwait g b => some { cls := .sync, opc := 5#8, g := g, body := b }
  | .cbspace g b => some { cls := .sync, opc := 6#8, g := g, body := b }
  | .cbadvProduce g b => some { cls := .sync, opc := 7#8, g := g, body := b }
  | .cbadvConsume g b => some { cls := .sync, opc := 7#8, g := g, body := b }
  | .sigwait g b => some { cls := .sync, opc := 8#8, g := g, body := b }
  | .sigadd g b => some { cls := .sync, opc := 9#8, g := g, body := b }
  | .jobraise g b => some { cls := .sync, opc := 10#8, g := g, body := b }
  | .jobpost g b => some { cls := .sync, opc := 11#8, g := g, body := b }
  | .jobwait g b => some { cls := .sync, opc := 12#8, g := g, body := b }
  | .bar g b => some { cls := .sync, opc := 13#8, g := g, body := b }
  | .launch g b => some { cls := .sync, opc := 14#8, g := g, body := b }
  | .launchNb g b => some { cls := .sync, opc := 14#8, g := g, body := b }
  | .evread g b => some { cls := .sync, opc := 15#8, g := g, body := b }
  | .evwait g b => some { cls := .sync, opc := 16#8, g := g, body := b }
  | .chk g b => some { cls := .sync, opc := 17#8, g := g, body := b }
  | .rplw g b => some { cls := .sync, opc := 18#8, g := g, body := b }
  | .tickwait g b => some { cls := .sync, opc := 19#8, g := g, body := b }
  | _ => none

/-- The common fields of a slot operation; for the other steps, those of an always-executed word of slot 0. -/
def guardOf (i : Instr) : Guard :=
  match slotFields i with
  | some f => f.g
  | none => { slot := 0, pn := false, pred := 0, dup := false }

/-- The scalar operation of opcode `opc` (R83); none where the cell is unassigned. -/
def decodeScalar (g : Guard) (x : BitVec 47) (opc : Nat) : Option Instr :=
  match opc with
  | 0 => some (.nopScalar g x)
  | 1 => some (.add g (unpackScalar x))
  | 2 => some (.sub g (unpackScalar x))
  | 3 => some (.mul g (unpackScalar x))
  | 4 => some (.mulh g (unpackScalar x))
  | 5 => some (.div g (unpackScalar x))
  | 6 => some (.rem g (unpackScalar x))
  | 7 => some (.and g (unpackScalar x))
  | 8 => some (.or g (unpackScalar x))
  | 9 => some (.xor g (unpackScalar x))
  | 10 => some (.andn g (unpackScalar x))
  | 11 => some (.shl g (unpackScalar x))
  | 12 => some (.shr g (unpackScalar x))
  | 13 => some (.sra g (unpackScalar x))
  | 14 => some (.min g (unpackScalar x))
  | 15 => some (.max g (unpackScalar x))
  | 16 => some (.clz g (unpackScalar x))
  | 17 => some (.popc g (unpackScalar x))
  | 18 => some (.li g (unpackScalar x))
  | 19 => some (.lih g (unpackScalar x))
  | 20 => some (.mov g (unpackScalar x))
  | 21 => some (.sel g (unpackScalar x))
  | 22 => some (.cmp g (unpackScalar x))
  | 23 => some (.pand g (unpackScalar x))
  | 24 => some (.por g (unpackScalar x))
  | 25 => some (.pxor g (unpackScalar x))
  | 26 => some (.pandn g (unpackScalar x))
  | 27 => some (.pset g (unpackScalar x))
  | 28 => some (.pcnt g (unpackScalar x))
  | 29 => some (.aadd g (unpackScalar x))
  | 30 => some (.aset g (unpackScalar x))
  | 31 => some (.aget g (unpackScalar x))
  | 32 => some (.anarrow g (unpackScalar x))
  | 33 => some (.adrop g (unpackScalar x))
  | 34 => some (.amov g (unpackScalar x))
  | 35 => some (.achk g (unpackScalar x))
  | 36 => some (.loop g (unpackScalar x))
  | 37 => some (.ldelta g (unpackScalar x))
  | 38 => some (.lbreak g (unpackScalar x))
  | 39 => some (.lidx g (unpackScalar x))
  | 40 => some (.view g (unpackScalar x))
  | 41 => some (.srr g (unpackScalar x))
  | 42 => if bitsOf x 45 40 = 7 then some (.srWinWrite g (unpackScalar x)) else if bitsOf x 45 40 = 6 then some (.srPrivWrite g (unpackScalar x)) else some (.srw g (unpackScalar x))
  | 43 => some (.rdtime g (unpackScalar x))
  | 44 => some (.pbr g (unpackScalar x))
  | 45 => some (.trap g (unpackScalar x))
  | 46 => some (.utret g (unpackScalar x))
  | 47 => some (.eret g (unpackScalar x))
  | 48 => some (.yield g (unpackScalar x))
  | 49 => some (.endTask g (unpackScalar x))
  | 50 => some (.feat g (unpackScalar x))
  | _ => none

/-- The vector operation of opcode `opc` (R83); none where the cell is unassigned. -/
def decodeVector (g : Guard) (x : BitVec 47) (opc : Nat) : Option Instr :=
  match opc with
  | 0 => some (.nopVector g x)
  | 1 => some (.vadd g (unpackVector x))
  | 2 => some (.vsub g (unpackVector x))
  | 3 => some (.vmul g (unpackVector x))
  | 4 => some (.vfma g (unpackVector x))
  | 5 => some (.vmin g (unpackVector x))
  | 6 => some (.vmax g (unpackVector x))
  | 7 => some (.vabs g (unpackVector x))
  | 8 => some (.vneg g (unpackVector x))
  | 9 => some (.vand g (unpackVector x))
  | 10 => some (.vor g (unpackVector x))
  | 11 => some (.vxor g (unpackVector x))
  | 12 => some (.vshl g (unpackVector x))
  | 13 => some (.vshr g (unpackVector x))
  | 14 => some (.vcmp g (unpackVector x))
  | 15 => some (.vsel g (unpackVector x))
  | 16 => some (.vcvt g (unpackVector x))
  | 17 => some (.vquant g (unpackVector x))
  | 18 => some (.vdeq g (unpackVector x))
  | 19 => some (.vexp2 g (unpackVector x))
  | 20 => some (.vlog2 g (unpackVector x))
  | 21 => some (.vrcp g (unpackVector x))
  | 22 => some (.vrsq g (unpackVector x))
  | 23 => some (.vsumr g (unpackVector x))
  | 24 => some (.vmaxr g (unpackVector x))
  | 25 => some (.vdot g (unpackVector x))
  | 26 => some (.vshuf g (unpackVector x))
  | 27 => some (.vbcast g (unpackVector x))
  | 28 => some (.vslide g (unpackVector x))
  | 29 => some (.viota g (unpackVector x))
  | 30 => some (.vcompr g (unpackVector x))
  | 31 => some (.vpart g (unpackVector x))
  | 32 => some (.vtopk g (unpackVector x))
  | 33 => some (.vmovs g (unpackVector x))
  | 34 => some (.vins g (unpackVector x))
  | _ => none

/-- The matrix operation of opcode `opc` (R83); none where the cell is unassigned. -/
def decodeMatrix (g : Guard) (x : BitVec 47) (opc : Nat) : Option Instr :=
  match opc with
  | 0 => some (.nopMatrix g x)
  | 1 => some (.mzero g (unpackMatrix x))
  | 2 => some (.manchor g (unpackMatrix x))
  | 3 => some (.mma g (unpackMatrix x))
  | 4 => some (.mmat g (unpackMatrix x))
  | 5 => some (.mmaw g (unpackMatrix x))
  | 6 => some (.mread g (unpackMatrix x))
  | 7 => some (.mstat g (unpackMatrix x))
  | 8 => some (.mclr g (unpackMatrix x))
  | 9 => some (.tidset g (unpackMatrix x))
  | 10 => if bitOf x 16 then some (.tidstepSet g (unpackMatrix x)) else some (.tidstep g (unpackMatrix x))
  | 11 => some (.lrzero g (unpackMatrix x))
  | 12 => some (.lrset g (unpackMatrix x))
  | 13 => some (.lradd g (unpackMatrix x))
  | 14 => some (.lrscale g (unpackMatrix x))
  | 15 => some (.lrmul g (unpackMatrix x))
  | 16 => some (.lrmuld g (unpackMatrix x))
  | 17 => some (.lrtrunc g (unpackMatrix x))
  | 18 => some (.lrdense g (unpackMatrix x))
  | 19 => some (.lrcomp g (unpackMatrix x))
  | 20 => some (.lrapply g (unpackMatrix x))
  | 21 => some (.lrrank g (unpackMatrix x))
  | _ => none

/-- The load operation of opcode `opc` (R83); none where the cell is unassigned. -/
def decodeLoad (g : Guard) (x : BitVec 47) (opc : Nat) : Option Instr :=
  match opc with
  | 0 => some (.nopLoad g x)
  | 1 => some (.ld g (unpackMem x))
  | 2 => some (.lda g (unpackMem x))
  | 3 => some (.lds g (unpackMem x))
  | 4 => some (.vld g (unpackMem x))
  | 5 => some (.vlds g (unpackMem x))
  | 6 => some (.tlds g (unpackMem x))
  | 7 => some (.vgath g (unpackMem x))
  | 8 => some (.capld g (unpackMem x))
  | 9 => some (.lrlds g (unpackMem x))
  | _ => none

/-- The store operation of opcode `opc` (R83); none where the cell is unassigned. -/
def decodeStore (g : Guard) (x : BitVec 47) (opc : Nat) : Option Instr :=
  match opc with
  | 0 => some (.nopStore g x)
  | 1 => some (.st g (unpackMem x))
  | 2 => some (.stl g (unpackMem x))
  | 3 => some (.sts g (unpackMem x))
  | 4 => some (.vst g (unpackMem x))
  | 5 => some (.vsts g (unpackMem x))
  | 6 => some (.tsts g (unpackMem x))
  | 7 => some (.vscat g (unpackMem x))
  | 8 => some (.capst g (unpackMem x))
  | 9 => some (.atom g (unpackMem x))
  | 10 => some (.atoms g (unpackMem x))
  | 11 => some (.lrsts g (unpackMem x))
  | _ => none

/-- The pump operation of opcode `opc` (R83); none where the cell is unassigned. -/
def decodePump (g : Guard) (x : BitVec 47) (opc : Nat) : Option Instr :=
  match opc with
  | 0 => some (.nopPump g x)
  | 1 => some (.pcopy g (unpackPump x))
  | 2 => some (.pfill g (unpackPump x))
  | 3 => some (.pgath g (unpackPump x))
  | 4 => some (.pscat g (unpackPump x))
  | 5 => some (.pdecl g (unpackPump x))
  | 6 => some (.pflushx g (unpackPump x))
  | 7 => some (.kvappend g (unpackPump x))
  | 8 => some (.kvattn g (unpackPump x))
  | 9 => some (.kvscore g (unpackPump x))
  | 10 => some (.kvseal g (unpackPump x))
  | 11 => some (.kvcompact g (unpackPump x))
  | 12 => if bitOf x 0 then some (.kvforkNew g (unpackPump x)) else some (.kvfork g (unpackPump x))
  | 13 => some (.kvfree g (unpackPump x))
  | 14 => some (.kvpin g (unpackPump x))
  | 15 => some (.kvwin g (unpackPump x))
  | 16 => some (.kvstat g (unpackPump x))
  | 17 => some (.colar g (unpackPump x))
  | 18 => some (.colrs g (unpackPump x))
  | 19 => some (.colag g (unpackPump x))
  | 20 => some (.colbc g (unpackPump x))
  | 21 => some (.colstat g (unpackPump x))
  | 22 => some (.stmget g (unpackPump x))
  | 23 => some (.stmstat g (unpackPump x))
  | 24 => some (.wjopen g (unpackPump x))
  | 25 => some (.wjwrite g (unpackPump x))
  | 26 => some (.wjcommit g (unpackPump x))
  | 27 => some (.wjabort g (unpackPump x))
  | 28 => some (.wjstat g (unpackPump x))
  | _ => none

/-- The sync operation of opcode `opc` (R83); none where the cell is unassigned. -/
def decodeSync (g : Guard) (x : BitVec 47) (opc : Nat) : Option Instr :=
  match opc with
  | 0 => some (.nopSync g x)
  | 1 => some (.br g x)
  | 2 => some (.brl g x)
  | 3 => some (.fence g x)
  | 4 => some (.cbset g x)
  | 5 => some (.cbwait g x)
  | 6 => some (.cbspace g x)
  | 7 => if bitOf x 7 then some (.cbadvConsume g x) else some (.cbadvProduce g x)
  | 8 => some (.sigwait g x)
  | 9 => some (.sigadd g x)
  | 10 => some (.jobraise g x)
  | 11 => some (.jobpost g x)
  | 12 => some (.jobwait g x)
  | 13 => some (.bar g x)
  | 14 => if bitOf x 4 then some (.launchNb g x) else some (.launch g x)
  | 15 => some (.evread g x)
  | 16 => some (.evwait g x)
  | 17 => some (.chk g x)
  | 18 => some (.rplw g x)
  | 19 => some (.tickwait g x)
  | _ => none

end Sys2Proof.Machine
end

