-- ==== Sys2Proof/Machine/Legal.lean ====
section
/-! DEFINITION. The checks R84 makes on a slot word at issue, field by field from the highest bit down, each with
the REASON (R86) and FIELDLO (R85) it reports. -/

namespace Sys2Proof.Machine

/-- The view kinds (R16). -/
inductive ViewKind where
  | v | t | c | k
deriving DecidableEq, Repr

/-- The view registers of a context and its window length in bytes: what R16's range check needs. -/
structure ViewEnv where
  vBase : Nat
  tBase : Nat
  cBase : Nat
  kBase : Nat
  kCap : Nat
  winBytes : Nat
deriving DecidableEq, Repr

/-- The bytes one index of a view kind covers (R16). -/
def ViewEnv.unit (e : ViewEnv) : ViewKind → Nat
  | .v => 256
  | .t => 1024
  | .c => 4096
  | .k => 1024 * e.kCap

/-- The base of a view kind (R16). -/
def ViewEnv.base (e : ViewEnv) : ViewKind → Nat
  | .v => e.vBase
  | .t => e.tBase
  | .c => e.cBase
  | .k => e.kBase

/-- Where the range of view `kind` at `index` starts, from the window's first byte (R16). -/
def ViewEnv.start (e : ViewEnv) (kind : ViewKind) (index : Nat) : Nat := e.base kind + e.unit kind * index

/-- One check: whether it fails, the REASON and the FIELDLO it then reports. -/
abbrev Check := Bool × Nat × Nat

/-- The first check that fails: its REASON and FIELDLO (R84). -/
def firstBad : List Check → Option (Nat × Nat)
  | [] => none
  | (bad, r, lo) :: cs => if bad then some (r, lo) else firstBad cs

/-- Checks put before the first one that `p` picks, or at the end. -/
def insertAt (p : Check → Bool) (cs : List Check) : List Check → List Check
  | [] => cs
  | d :: ds => if p d then cs ++ d :: ds else d :: insertAt p cs ds

/-- A check put at its field's place among checks made from the highest bit down (R84). -/
def insertCheck (c : Check) : List Check → List Check := insertAt (fun d => decide (d.2.2 < c.2.2)) [c]

/-- A field that must be zero (R82). -/
def chkZero (v lo : Nat) : Check := (v != 0, 3, lo)
/-- A reserved or refused TYPE (R84). -/
def chkType (ok : Bool) (lo : Nat) : Check := (!ok, 2, lo)
/-- A ROP level or register index that is not allowed (R74, R76). -/
def chkLevel (ok : Bool) (lo : Nat) : Check := (!ok, 4, lo)
/-- A reserved code in a defined field (R84). -/
def chkCode (ok : Bool) (lo : Nat) : Check := (!ok, 5, lo)
/-- A range of `bytes` bytes from view `kind` at `index` past the window (R16). `none`: the window is not looked at. -/
def chkRange (env : Option ViewEnv) (kind : ViewKind) (index bytes lo : Nat) : Check :=
  match env with
  | none => (false, 6, lo)
  | some e => (decide (e.start kind index + bytes > e.winBytes), 6, lo)

/-- The LEVEL of a ROP (R74). -/
def ropLevel (r : BitVec 8) : Nat := r.toNat / 64
/-- The INDEX of a ROP (R74). -/
def ropIndex (r : BitVec 8) : Nat := r.toNat % 64

/-- A ROP that must be LEVEL 00 naming view `kind` with index at most `maxIdx`, covering `bytes` bytes (R74, R16). -/
def chkView (env : Option ViewEnv) (kind : ViewKind) (r : BitVec 8) (maxIdx bytes lo : Nat) : List Check :=
  [chkLevel (ropLevel r == 0 && decide (ropIndex r ≤ maxIdx)) lo, chkRange env kind (ropIndex r) bytes lo]

/-- A K operand (R172): LEVEL 00, index 0 to 7, its 1,024 × capacity bytes inside the window. -/
def chkK (env : Option ViewEnv) (r : BitVec 8) (lo : Nat) : List Check :=
  chkView env .k r 7 (match env with | none => 0 | some e => e.unit .k) lo

/-- A ROP position that names an s-register by LEVEL 00. -/
def chkSReg (r : BitVec 8) (lo : Nat) : Check := chkLevel (ropLevel r == 0) lo

/-- A vector source ROP (R74, R126). -/
def chkVSrc (env : Option ViewEnv) (r : BitVec 8) (lo : Nat) : List Check :=
  match ropLevel r with
  | 0 => [chkRange env .v (ropIndex r) 256 lo]
  | 1 => [chkLevel (decide (ropIndex r < 8)) lo]
  | 2 => [chkLevel (decide (ropIndex r < 5)) lo]
  | _ => [chkLevel (decide (ropIndex r < 4)) lo]

/-- A vector destination ROP of `n` successive operands (R74, R147). -/
def chkVDst (env : Option ViewEnv) (r : BitVec 8) (n lo : Nat) : List Check :=
  match ropLevel r with
  | 0 => [chkLevel (decide (ropIndex r + n ≤ 64)) lo, chkRange env .v (ropIndex r) (256 * n) lo]
  | 1 => [chkLevel (decide (ropIndex r + n ≤ 8)) lo]
  | _ => [chkLevel false lo]

/-- The width in bits of the elements of TYPE 0 to 8 (R46, R77); 8 for the other codes. -/
def typeBits : Nat → Nat
  | 0 => 8 | 1 => 16 | 2 => 32 | 3 => 8 | 4 => 16 | 5 => 32 | 6 => 16 | 7 => 16 | 8 => 32
  | _ => 8

/-- The elements of a 256-byte operand of TYPE 0 to 8 (R126). -/
def typeCount (t : Nat) : Nat := 2048 / typeBits t

/-! The classes a scalar index field may name (R76). -/

/-- An s-register index: every 6-bit value. -/
def fS (_ : BitVec 6) (_ : Nat) : List Check := []
/-- An a-, p- or h-register index. -/
def f16 (r : BitVec 6) (lo : Nat) : List Check := [chkLevel (decide (r.toNat < 16)) lo]
/-- A b-register index. -/
def f8 (r : BitVec 6) (lo : Nat) : List Check := [chkLevel (decide (r.toNat < 8)) lo]
/-- An unused index field. -/
def fZ (r : BitVec 6) (lo : Nat) : List Check := [chkZero r.toNat lo]

/-- The wrong form of an instruction that has only one (R76). -/
def wrongForm : List Check := [chkCode false 46]

/-- An SR form: its three index fields in order, then the AUX checks (R76). -/
def srForm (rd rs1 rs2 : BitVec 6) (fd f1 f2 : BitVec 6 → Nat → List Check) (auxChecks : List Check) : List Check :=
  fd rd 40 ++ f1 rs1 34 ++ f2 rs2 28 ++ auxChecks

/-- An SI form: two index fields, then the AUX2 and IMM32 checks (R76). -/
def siForm (rd rs1 : BitVec 6) (fd f1 : BitVec 6 → Nat → List Check) (rest : List Check) : List Check :=
  fd rd 40 ++ f1 rs1 34 ++ rest

/-- The integer operations of R99 with both forms; `u`: the instruction has U (R98). -/
def chkInt (u : Bool) : ScalarBody → List Check
  | .sr rd rs1 rs2 aux =>
    srForm rd rs1 rs2 fS fS fS (if u then [chkZero (bitsOf aux 27 1) 1] else [chkZero aux.toNat 0])
  | .si rd rs1 aux2 _ => siForm rd rs1 fS fS (if u then [] else [chkZero (bitsOf aux2 1 1) 33])

/-- CLZ and POPC (R99). -/
def chkUnary : ScalarBody → List Check
  | .sr rd rs1 rs2 aux => srForm rd rs1 rs2 fS fS fZ [chkZero aux.toNat 0]
  | .si _ _ _ _ => wrongForm

/-- MOV (R101): the MODE gives the class of each register. -/
def chkMov : ScalarBody → List Check
  | .sr rd rs1 rs2 aux =>
    let mode := bitsOf aux 2 0
    let fd := if mode = 1 ∨ mode = 3 then f16 else fS
    let f1 := if mode = 2 ∨ mode = 3 then f16 else if mode = 4 then f8 else fS
    srForm rd rs1 rs2 fd f1 fZ [chkZero (bitsOf aux 27 3) 3, chkCode (decide (mode < 5)) 0]
  | .si _ _ _ _ => wrongForm

/-- CMP (R101, R102). -/
def chkCmp : ScalarBody → List Check
  | .sr rd rs1 rs2 aux =>
    srForm rd rs1 rs2 f16 fS fS [chkZero (bitsOf aux 27 4) 4, chkCode (decide (bitsOf aux 3 0 < 10)) 0]
  | .si rd rs1 aux2 imm =>
    siForm rd rs1 f16 fS [chkZero aux2.toNat 32, chkCode (decide (bitsOf imm 31 28 < 10)) 28]

/-- PAND, POR, PXOR and PANDN (R103). -/
def chkPred3 : ScalarBody → List Check
  | .sr rd rs1 rs2 aux => srForm rd rs1 rs2 f16 f16 f16 [chkZero aux.toNat 0]
  | .si _ _ _ _ => wrongForm

/-- PSET (R103). -/
def chkPset : ScalarBody → List Check
  | .sr _ _ _ _ => wrongForm
  | .si rd rs1 aux2 imm =>
    siForm rd rs1 f16 (if aux2.toNat < 2 then fZ else fS)
      [chkCode (decide (aux2.toNat < 3)) 32, chkZero (if aux2.toNat = 2 then imm.toNat else 0) 0]

/-- AADD and ASET (R105). -/
def chkAddr : ScalarBody → List Check
  | .sr rd rs1 rs2 aux => srForm rd rs1 rs2 f16 f16 fS [chkZero aux.toNat 0]
  | .si rd rs1 aux2 _ => siForm rd rs1 f16 f16 [chkZero (bitsOf aux2 1 1) 33]

/-- LOOP (R107). -/
def chkLoop : ScalarBody → List Check
  | .sr rd rs1 rs2 aux =>
    srForm rd rs1 rs2 fZ fS fZ [chkZero (bitsOf aux 27 16) 16, chkCode (bitsOf aux 15 0 != 0) 0]
  | .si rd rs1 aux2 imm =>
    siForm rd rs1 fZ fZ [chkZero aux2.toNat 32, chkCode (bitsOf imm 15 0 != 0) 0]

/-- The level field of LDELTA (R109). -/
def fLvl (r : BitVec 6) (lo : Nat) : List Check := [chkLevel (decide (r.toNat < 6)) lo]
/-- The kind field of VIEW (R110). -/
def fKind (r : BitVec 6) (lo : Nat) : List Check := [chkLevel (decide (r.toNat < 4)) lo]
/-- A system-register index (R111, R116). -/
def fSr (r : BitVec 6) (lo : Nat) : List Check := [chkCode (decide (r.toNat < 17)) lo]

/-- VIEW (R110). -/
def chkViewOp : ScalarBody → List Check
  | .sr rd rs1 rs2 aux => srForm rd rs1 rs2 fKind fS (if rd.toNat = 3 then fS else fZ) [chkZero aux.toNat 0]
  | .si rd rs1 aux2 imm =>
    siForm rd rs1 fKind fZ [chkZero aux2.toNat 32, chkZero (bitsOf imm 31 27) 27,
      chkZero (if rd.toNat = 3 then 0 else bitsOf imm 26 20) 20]

/-- SRW and its two split rows (R116). -/
def chkSrw : ScalarBody → List Check
  | .sr rd rs1 rs2 aux => srForm rd rs1 rs2 fSr fS fZ [chkZero aux.toNat 0]
  | .si rd rs1 aux2 _ => siForm rd rs1 fSr fZ [chkZero (bitsOf aux2 1 1) 33]

/-- UTRET, ERET and END: an SR form with every field 0. -/
def chkBare : ScalarBody → List Check
  | .sr rd rs1 rs2 aux => srForm rd rs1 rs2 fZ fZ fZ [chkZero aux.toNat 0]
  | .si _ _ _ _ => wrongForm

/-! Vector slots. -/

/-- Which AUX bits [10:0] an instruction uses, as runs of reserved bits (hi, lo) from the top, and whether RM is used
(R127, R82): reserved runs and the RM code are looked at from the highest bit down. -/
def chkVAux (aux : BitVec 11) (rm : Bool) (reserved : List (Nat × Nat)) : List Check :=
  (if rm then [chkCode (decide (bitsOf aux 10 8 < 5)) 8] else []) ++
    reserved.map fun (hi, lo) => chkZero (bitsOf aux hi lo) lo

/-- Element-wise forms: `nsrc` sources, unused source fields zero, then TYPE, then AUX (R131). -/
def chkVV (env : Option ViewEnv) (b : VectorBody) (nsrc : Nat) (types : List Nat) (auxChecks : List Check) :
    List Check :=
  chkVDst env b.vd 1 39 ++ chkVSrc env b.va 31 ++
    (if 2 ≤ nsrc then chkVSrc env b.vb 23 else [chkZero b.vb.toNat 23]) ++
    (if 3 ≤ nsrc then chkVSrc env b.vc 15 else [chkZero b.vc.toNat 15]) ++
    [chkType (types.contains b.type.toNat) 11] ++ auxChecks

/-- TYPE 0 to 8. -/
def types08 : List Nat := [0, 1, 2, 3, 4, 5, 6, 7, 8]
/-- The integer types. -/
def typesInt : List Nat := [0, 1, 2, 3, 4, 5]
/-- The floating-point types. -/
def typesFp : List Nat := [6, 7, 8]

/-- VADD, VSUB and VFMA: RM and SAT are used. -/
def chkRmSat (aux : BitVec 11) : List Check := chkVAux aux true [(6, 0)]

/-- VMUL: RM, SAT and OPT, where OPT is reserved with a floating-point TYPE (R131). -/
def chkVmulAux (b : VectorBody) : List Check :=
  chkVAux b.aux true [] ++ [chkZero (if typesFp.contains b.type.toNat then bitsOf b.aux 6 6 else 0) 6,
    chkZero (bitsOf b.aux 5 0) 0]

/-- VCMP (R134). -/
def chkVcmp (env : Option ViewEnv) (b : VectorBody) : List Check :=
  [chkZero (bitsOf b.vd 7 4) 43] ++ chkVSrc env b.va 31 ++ chkVSrc env b.vb 23 ++ [chkZero b.vc.toNat 15,
    chkType (types08.contains b.type.toNat) 11, chkCode (decide (bitsOf b.aux 9 6 < 8)) 6,
    chkZero (bitsOf b.aux 5 0) 0]

/-- VSEL (R135). -/
def chkVsel (env : Option ViewEnv) (b : VectorBody) : List Check :=
  chkVDst env b.vd 1 39 ++ chkVSrc env b.va 31 ++ chkVSrc env b.vb 23 ++ [chkZero (bitsOf b.vc 7 4) 19,
    chkType (types08.contains b.type.toNat) 11, chkZero b.aux.toNat 0]

/-- The element-width ratio that bounds PART when neither side is TYPE 9 (R136). -/
def partLimit (t d : Nat) : Nat := max (typeBits t) (typeBits d) / min (typeBits t) (typeBits d)

/-- VCVT (R136, R137). -/
def chkVcvt (env : Option ViewEnv) (b : VectorBody) : List Check :=
  let t := b.type.toNat
  let d := bitsOf b.vb 3 0
  let nw := t == 9 || d == 9
  chkVDst env b.vd 1 39 ++ chkVSrc env b.va 31 ++
    [chkZero (bitsOf b.vb 7 4) 27, chkType (decide (d < 10)) 23, chkZero (bitsOf b.vc 7 5) 20,
      chkCode (nw || decide (10 ≤ t) || decide (bitsOf b.vc 4 0 < partLimit t d)) 15,
      chkType (decide (t < 10)) 11] ++
    chkVAux b.aux true [(7, 6)] ++ [chkZero (if nw then 0 else bitsOf b.aux 5 0) 0]

/-- VQUANT and VDEQ (R138, R139). -/
def chkVquant (env : Option ViewEnv) (b : VectorBody) : List Check :=
  chkVDst env b.vd 1 39 ++ chkVSrc env b.va 31 ++ chkVSrc env b.vb 23 ++
    [chkZero (bitsOf b.vc 7 5) 20, chkType (typesFp.contains b.type.toNat) 11] ++ chkVAux b.aux true []

/-- VCOMPR and VPART: vc holds an s-register index. -/
def chkVlist (env : Option ViewEnv) (b : VectorBody) (ndst : Nat) (types : List Nat) (auxChecks : List Check) :
    List Check :=
  chkVDst env b.vd ndst 39 ++ chkVSrc env b.va 31 ++ [chkZero b.vb.toNat 23, chkZero (bitsOf b.vc 7 6) 21,
    chkType (types.contains b.type.toNat) 11] ++ auxChecks

/-- VTOPK (R148). DEDUCED: notes/assumptions/14.md. -/
def chkVtopk (env : Option ViewEnv) (b : VectorBody) : List Check :=
  chkVDst env b.vd 2 39 ++ chkVSrc env b.va 31 ++ chkVSrc env b.vb 23 ++
    (if bitOf b.aux 6 then chkVDst env b.vc 2 15 else [chkZero b.vc.toNat 15]) ++
    [chkType ([2, 5, 8].contains b.type.toNat) 11, chkZero (bitsOf b.aux 10 7) 7]

/-- VMOVS (R149). -/
def chkVmovs (env : Option ViewEnv) (b : VectorBody) : List Check :=
  let dyn := bitOf b.aux 10
  [chkZero (bitsOf b.vd 7 6) 45] ++ chkVSrc env b.va 31 ++
    [if dyn then chkZero (bitsOf b.vb 7 6) 29 else chkZero b.vb.toNat 23, chkZero b.vc.toNat 15,
      chkType (types08.contains b.type.toNat) 11, chkZero (bitsOf b.aux 9 8) 8,
      if dyn then chkZero (bitsOf b.aux 7 0) 0
      else chkCode (decide (bitsOf b.aux 7 0 < typeCount b.type.toNat)) 0]

/-- VINS (R150). -/
def chkVins (env : Option ViewEnv) (b : VectorBody) : List Check :=
  chkVDst env b.vd 1 39 ++ [chkZero (bitsOf b.va 7 6) 37, chkZero b.vb.toNat 23, chkZero b.vc.toNat 15,
      chkType (types08.contains b.type.toNat) 11, chkZero (bitsOf b.aux 9 8) 8,
      if bitOf b.aux 10 then chkZero (bitsOf b.aux 7 0) 0
      else chkCode (decide (bitsOf b.aux 7 0 < typeCount b.type.toNat)) 0]

/-! Matrix slot. -/

/-- A C operand of LEVEL 00; with `even`, an odd index is a reserved code (R161, R164). -/
def chkC (env : Option ViewEnv) (r : BitVec 8) (even : Bool) (lo : Nat) : List Check :=
  [chkLevel (ropLevel r == 0) lo, chkCode (!even || ropIndex r % 2 == 0) lo,
    chkRange env .c (ropIndex r) (if even then 8192 else 4096) lo]

/-- MMA and MMAW (R161). -/
def chkMma (env : Option ViewEnv) (b : MatrixBody) (wide : Bool) : List Check :=
  chkC env b.dst wide 39 ++ chkView env .t b.srcA 63 1024 31 ++ [chkLevel (ropLevel b.srcB == 0) 23,
    chkZero b.srcB.toNat 23, chkZero (bitsOf b.aux 14 6) 6, chkZero (if bitOf b.aux 15 then 0 else bitsOf b.aux 5 0) 0]

/-- MMAT (R161). -/
def chkMmat (env : Option ViewEnv) (b : MatrixBody) : List Check :=
  chkC env b.dst false 39 ++ chkView env .t b.srcA 63 1024 31 ++ chkView env .t b.srcB 62 2048 23 ++
    [chkZero b.tid.toNat 17, chkZero (bitsOf b.aux 16 16) 16, chkZero (bitsOf b.aux 14 6) 6,
      chkZero (if bitOf b.aux 15 then 0 else bitsOf b.aux 5 0) 0]

/-- MREAD (R168). -/
def chkMread (env : Option ViewEnv) (b : MatrixBody) : List Check :=
  let dt := bitsOf b.aux 2 0
  let w := bitOf b.aux 7
  (if dt = 2 then chkView env .v b.dst 56 2048 39 else chkView env .t b.dst 63 1024 39) ++
    chkC env b.srcA w 31 ++
    [chkLevel (ropLevel b.srcB == 0 || (ropLevel b.srcB == 3 && ropIndex b.srcB == 1)) 23] ++
    (if ropLevel b.srcB = 0 then [chkRange env .v (ropIndex b.srcB) 256 23] else []) ++
    [chkZero (if dt = 3 then 0 else b.tid.toNat) 17, chkZero (bitsOf b.aux 16 8) 8,
      chkCode (decide (bitsOf b.aux 5 3 < 5)) 3, chkCode (decide (dt < 4)) 0]

/-- MSTAT (R166). -/
def chkMstat (env : Option ViewEnv) (b : MatrixBody) : List Check :=
  let mode := bitsOf b.aux 1 0
  [if mode = 0 then chkZero (bitsOf b.dst 7 4) 43 else if mode = 1 then chkZero (bitsOf b.dst 7 6) 45
   else (false, 3, 39)] ++ chkC env b.srcA false 31 ++ [chkZero b.srcB.toNat 23, chkZero b.tid.toNat 17,
    chkZero (bitsOf b.aux 16 2) 2, chkCode (decide (mode < 2)) 0]

/-- LRSET (R172, R177): the range checked is that of the r columns it reads.
DESIGN CHOICE: notes/assumptions/68.md. -/
def chkLrset (env : Option ViewEnv) (b : MatrixBody) : List Check :=
  let r := bitsOf b.aux 6 0
  let src := fun (x : BitVec 8) lo =>
    if bitOf b.aux 15 then chkView env .t x 63 (256 * r) lo else chkView env .v x 63 (512 * r) lo
  chkK env b.dst 39 ++ src b.srcA 31 ++ src b.srcB 23 ++ [chkZero b.tid.toNat 17, chkZero (bitsOf b.aux 14 7) 7,
    chkCode (decide (r ≤ 64)) 0]

/-- The other LR instructions (R172): the three operand checks, TID = 0, then AUX. -/
def chkLr (b : MatrixBody) (d a s : List Check) (auxChecks : List Check) : List Check :=
  d ++ a ++ s ++ [chkZero b.tid.toNat 17] ++ auxChecks

/-! Load and store slots. -/

/-- A memory form: DATA checks, the SCOPE and SIZE codes it accepts, then the OFF24 subfields (R79, R193). -/
def chkMem (b : MemBody) (data : List Check) (scopes sizes : List Nat) (offChecks : List Check) : List Check :=
  data ++ [chkCode (scopes.contains b.scope.toNat) 28, chkCode (sizes.contains b.size.toNat) 24] ++ offChecks

/-- SCOPE codes 0 to 6, 1 to 6, and the two scratchpad scopes (R193). -/
def scopes06 : List Nat := [0, 1, 2, 3, 4, 5, 6]
def scopes16 : List Nat := [1, 2, 3, 4, 5, 6]
def scopes01 : List Nat := [0, 1]

/-- SIZE codes of the scalar and the vector transfers (R196, R197). -/
def sizes03 : List Nat := [0, 1, 2, 3]
def sizes512 : List Nat := [5, 6, 7, 8, 9, 10, 11, 12]

/-- HE and HANDLE at bits `he` and [he − 1: he − 4] of OFF24: HANDLE is unused and zero without HE (R201, R82). -/
def chkHe (b : MemBody) (he : Nat) : List Check :=
  [chkZero (if bitOf b.off24 he then 0 else bitsOf b.off24 (he - 1) (he - 4)) (he - 4)]

/-- VGATH and VSCAT (R199). DESIGN CHOICE: notes/assumptions/67.md. -/
def chkGather (env : Option ViewEnv) (b : MemBody) : List Check :=
  chkMem b (chkView env .v b.data 63 (64 * 2 ^ b.size.toNat) 39) scopes06 [0, 1, 2, 3, 4, 5, 6]
    (chkView env .v (b.off24.extractLsb' 16 8) 63 256 16)

/-- CAPLD and CAPST (R200). -/
def chkCap (b : MemBody) : List Check :=
  chkMem b [chkLevel (ropLevel b.data == 0 && decide (ropIndex b.data < 16)) 39] scopes06 [4] []

/-- ATOM and ATOMS (R201, R202). -/
def chkAtom (b : MemBody) (scopes : List Nat) (he : Bool) : List Check :=
  let op := bitsOf b.off24 23 20
  chkMem b [chkLevel (ropLevel b.data == 0 && (op != 9 || decide (ropIndex b.data ≤ 62))) 39] scopes
    (if op = 10 then [2] else [2, 3]) ([chkCode (decide (op < 11)) 20] ++ if he then chkHe b 19 else [])

/-! Pump slot. -/

/-- The unused fields of a pump word from the top (R80, R82), each given as the value that must be 0. -/
def chkPump (a0 a1 s0 s1 h : Nat) (rest : List Check) : List Check :=
  [chkZero a0 43, chkZero a1 39, chkZero s0 33, chkZero s1 27, chkZero h 23] ++ rest

/-- AREG1 where it names the signal only with SG (R204). -/
def sgField (b : PumpBody) : Nat := if bitOf b.aux 1 then 0 else b.areg1.toNat
/-- HANDLE where it names a handle only with HE (R204). -/
def heField (b : PumpBody) : Nat := if bitOf b.aux 0 then 0 else b.handle.toNat
/-- AUX of a command with SG alone: bits [18:2] and [0] are reserved. -/
def auxSg (b : PumpBody) : List Check := [chkZero (bitsOf b.aux 18 2) 2, chkZero (bitsOf b.aux 0 0) 0]

/-- KVSTAT (R249, R264). DEDUCED: notes/assumptions/15.md. -/
def chkKvstat (b : PumpBody) : List Check :=
  let mode := bitsOf b.aux 6 4
  let bare := mode == 0 || mode == 4
  chkPump 0 0 (if bare then b.s0.toNat else 0) (if bare then b.s1.toNat else 0) (heField b)
    [chkZero (bitsOf b.aux 18 7) 7, chkCode (decide (mode < 5)) 4, chkZero (bitsOf b.aux 3 3) 3,
      chkCode (!bitOf b.aux 2 || mode == 0) 2, chkZero (bitsOf b.aux 1 1) 1]

/-! Sync slot. -/

/-- SCOPE 1 to 6 of SIGWAIT, SIGADD, JOBRAISE, JOBPOST and JOBWAIT (R211). -/
def chkSyScope (b : SyncBody) : Check := chkCode (scopes16.contains (bitsOf b 30 28)) 28

/-- EVREAD (R211). -/
def chkEvread (env : Option ViewEnv) (b : SyncBody) : List Check :=
  [chkZero (bitsOf b 46 15) 15] ++ chkView env .v (b.extractLsb' 7 8) 63 256 7 ++ [chkZero (bitsOf b 6 4) 4]

/-- The view kind that CHK's KIND names (R211); V for the reserved code. -/
def chkKindOf (b : SyncBody) : ViewKind :=
  match bitsOf b 30 29 with
  | 1 => .t
  | 2 => .c
  | _ => .v

/-- CHK (R211, R223). -/
def chkChk (env : Option ViewEnv) (b : SyncBody) : List Check :=
  let unit := match chkKindOf b with | .t => 1024 | .c => 4096 | _ => 256
  let bytes := unit * (bitsOf b 28 23 + 1)
  chkView env (chkKindOf b) (b.extractLsb' 39 8) 63 bytes 39 ++
    chkView env (chkKindOf b) (b.extractLsb' 31 8) 63 bytes 31 ++
    [chkCode (bitsOf b 30 29 != 3) 29, chkZero (bitsOf b 22 0) 0]

/-- A NOP must hold zero in bits [51:0] (R73). -/
def chkNop (g : Guard) (body : BitVec 47) : List Check :=
  [chkZero g.pn.toNat 51, chkZero g.pred.toNat 47, chkZero body.toNat 0]

/-- Every encoding check of a slot operation, from the highest bit of its slot word down (R84); the steps that are no
slot operation have none. With `env`, the range checks of R16 are made too.
DEDUCED: notes/assumptions/14.md. DEDUCED: notes/assumptions/15.md. DESIGN CHOICE: notes/assumptions/67.md. -/
def encodingChecks (env : Option ViewEnv) : Instr → List Check
  | .nopScalar g b => chkNop g b
  | .nopVector g b => chkNop g b
  | .nopMatrix g b => chkNop g b
  | .nopLoad g b => chkNop g b
  | .nopStore g b => chkNop g b
  | .nopPump g b => chkNop g b
  | .nopSync g b => chkNop g b
  | .add _ b => chkInt false b
  | .sub _ b => chkInt false b
  | .mul _ b => chkInt false b
  | .and _ b => chkInt false b
  | .or _ b => chkInt false b
  | .xor _ b => chkInt false b
  | .andn _ b => chkInt false b
  | .shl _ b => chkInt false b
  | .shr _ b => chkInt false b
  | .sra _ b => chkInt false b
  | .mulh _ b => chkInt true b
  | .div _ b => chkInt true b
  | .rem _ b => chkInt true b
  | .min _ b => chkInt true b
  | .max _ b => chkInt true b
  | .clz _ b => chkUnary b
  | .popc _ b => chkUnary b
  | .li _ b => match b with
    | .sr _ _ _ _ => wrongForm
    | .si rd rs1 aux2 _ => siForm rd rs1 fS fZ [chkZero (bitsOf aux2 1 1) 33]
  | .lih _ b => match b with
    | .sr _ _ _ _ => wrongForm
    | .si rd rs1 aux2 _ => siForm rd rs1 fS fZ [chkZero aux2.toNat 32]
  | .mov _ b => chkMov b
  | .sel _ b => match b with
    | .sr rd rs1 rs2 aux => srForm rd rs1 rs2 fS fS fS [chkZero (bitsOf aux 27 4) 4]
    | .si _ _ _ _ => wrongForm
  | .cmp _ b => chkCmp b
  | .pand _ b => chkPred3 b
  | .por _ b => chkPred3 b
  | .pxor _ b => chkPred3 b
  | .pandn _ b => chkPred3 b
  | .pset _ b => chkPset b
  | .pcnt _ b => match b with
    | .sr rd rs1 rs2 aux => srForm rd rs1 rs2 fS f16 fZ [chkZero (bitsOf aux 27 1) 1]
    | .si _ _ _ _ => wrongForm
  | .aadd _ b => chkAddr b
  | .aset _ b => chkAddr b
  | .aget _ b => match b with
    | .sr rd rs1 rs2 aux => srForm rd rs1 rs2 fS f16 fZ [chkZero (bitsOf aux 27 3) 3, chkCode (bitsOf aux 2 0 != 7) 0]
    | .si _ _ _ _ => wrongForm
  | .anarrow _ b => match b with
    | .sr rd rs1 rs2 aux => srForm rd rs1 rs2 f16 f16 fS [chkZero aux.toNat 0]
    | .si rd rs1 aux2 _ => siForm rd rs1 f16 f16 [chkZero aux2.toNat 32]
  | .adrop _ b => match b with
    | .sr rd rs1 rs2 aux => srForm rd rs1 rs2 f16 f16 fS [chkZero aux.toNat 0]
    | .si rd rs1 aux2 imm => siForm rd rs1 f16 f16 [chkZero (bitsOf aux2 1 1) 33, chkZero (bitsOf imm 31 8) 8]
  | .amov _ b => match b with
    | .sr rd rs1 rs2 aux => srForm rd rs1 rs2 f16 f16 fZ [chkZero aux.toNat 0]
    | .si _ _ _ _ => wrongForm
  | .achk _ b => match b with
    | .sr rd rs1 rs2 aux => srForm rd rs1 rs2 f16 f16 fS [chkZero (bitsOf aux 27 8) 8]
    | .si _ _ _ _ => wrongForm
  | .loop _ b => chkLoop b
  | .ldelta _ b => match b with
    | .sr rd rs1 rs2 aux => srForm rd rs1 rs2 f16 fLvl fS [chkZero aux.toNat 0]
    | .si rd rs1 aux2 _ => siForm rd rs1 f16 fLvl [chkZero aux2.toNat 32]
  | .lbreak _ b => match b with
    | .sr rd rs1 rs2 aux => srForm rd rs1 rs2 fZ fZ fZ [chkZero (bitsOf aux 27 3) 3, chkCode (decide (bitsOf aux 2 0 < 6)) 0]
    | .si _ _ _ _ => wrongForm
  | .lidx _ b => match b with
    | .sr rd rs1 rs2 aux => srForm rd rs1 rs2 fS fZ fZ [chkZero (bitsOf aux 27 4) 4]
    | .si _ _ _ _ => wrongForm
  | .view _ b => chkViewOp b
  | .srr _ b => match b with
    | .sr rd rs1 rs2 aux => srForm rd rs1 rs2 fS fSr fZ [chkZero aux.toNat 0]
    | .si _ _ _ _ => wrongForm
  | .srw _ b => chkSrw b
  | .srWinWrite _ b => chkSrw b
  | .srPrivWrite _ b => chkSrw b
  | .rdtime _ b => match b with
    | .sr rd rs1 rs2 aux => srForm rd rs1 rs2 fS fZ fZ [chkZero (bitsOf aux 27 2) 2, chkCode (bitsOf aux 1 0 != 3) 0]
    | .si _ _ _ _ => wrongForm
  | .pbr _ b => match b with
    | .sr rd rs1 rs2 aux => srForm rd rs1 rs2 f8 fS fZ [chkZero aux.toNat 0]
    | .si rd rs1 aux2 _ => siForm rd rs1 f8 fZ [chkZero aux2.toNat 32]
  | .trap _ b => match b with
    | .sr _ _ _ _ => wrongForm
    | .si rd rs1 aux2 imm => siForm rd rs1 fZ fZ [chkZero aux2.toNat 32, chkZero (bitsOf imm 31 7) 7]
  | .utret _ b => chkBare b
  | .eret _ b => chkBare b
  | .endTask _ b => chkBare b
  | .yield _ b => match b with
    | .sr rd rs1 rs2 aux => srForm rd rs1 rs2 fZ fZ fZ [chkZero (bitsOf aux 27 1) 1]
    | .si _ _ _ _ => wrongForm
  | .feat _ b => match b with
    | .sr _ _ _ _ => wrongForm
    | .si rd rs1 aux2 _ => siForm rd rs1 f16 fZ [chkZero aux2.toNat 32]
  | .vadd _ b => chkVV env b 2 types08 (chkRmSat b.aux)
  | .vsub _ b => chkVV env b 2 types08 (chkRmSat b.aux)
  | .vmul _ b => chkVV env b 2 types08 (chkVmulAux b)
  | .vfma _ b => chkVV env b 3 types08 (chkRmSat b.aux)
  | .vmin _ b => chkVV env b 2 types08 [chkZero b.aux.toNat 0]
  | .vmax _ b => chkVV env b 2 types08 [chkZero b.aux.toNat 0]
  | .vabs _ b => chkVV env b 1 types08 (chkVAux b.aux false [(10, 8), (6, 0)])
  | .vneg _ b => chkVV env b 1 types08 (chkVAux b.aux false [(10, 8), (6, 0)])
  | .vand _ b => chkVV env b 2 types08 [chkZero b.aux.toNat 0]
  | .vor _ b => chkVV env b 2 types08 [chkZero b.aux.toNat 0]
  | .vxor _ b => chkVV env b 2 types08 [chkZero b.aux.toNat 0]
  | .vshl _ b => chkVV env b 2 typesInt [chkZero b.aux.toNat 0]
  | .vshr _ b => chkVV env b 2 typesInt [chkZero b.aux.toNat 0]
  | .vcmp _ b => chkVcmp env b
  | .vsel _ b => chkVsel env b
  | .vcvt _ b => chkVcvt env b
  | .vquant _ b => chkVquant env b
  | .vdeq _ b => chkVquant env b
  | .vexp2 _ b => chkVV env b 1 typesFp [chkZero b.aux.toNat 0]
  | .vlog2 _ b => chkVV env b 1 typesFp [chkZero b.aux.toNat 0]
  | .vrcp _ b => chkVV env b 1 typesFp [chkZero b.aux.toNat 0]
  | .vrsq _ b => chkVV env b 1 typesFp [chkZero b.aux.toNat 0]
  | .vsumr _ b => chkVV env b 2 types08 (chkVAux b.aux true [(5, 0)])
  | .vmaxr _ b => chkVV env b 1 types08 (chkVAux b.aux false [(10, 7), (5, 0)])
  | .vdot _ b => chkVV env b 3 types08 (chkRmSat b.aux)
  | .vshuf _ b => chkVV env b 3 types08 [chkZero b.aux.toNat 0]
  | .vbcast _ b => chkVV env b 1 types08 [chkZero (bitsOf b.aux 10 8) 8, chkCode (decide (bitsOf b.aux 7 0 < typeCount b.type.toNat)) 0]
  | .vslide _ b => chkVV env b 2 types08 [chkZero (bitsOf b.aux 10 10) 10, chkCode (decide (bitsOf b.aux 8 0 ≤ typeCount b.type.toNat)) 0]
  | .viota _ b => chkVV env b 1 typesInt [chkZero (bitsOf b.aux 10 8) 8]
  | .vcompr _ b => chkVlist env b 1 types08 [chkZero b.aux.toNat 0]
  | .vpart _ b => chkVlist env b 2 [5] [chkZero (bitsOf b.aux 10 6) 6]
  | .vtopk _ b => chkVtopk env b
  | .vmovs _ b => chkVmovs env b
  | .vins _ b => chkVins env b
  | .mzero _ b => chkC env b.dst (bitOf b.aux 16) 39 ++ [chkZero b.srcA.toNat 31, chkZero b.srcB.toNat 23, chkZero b.tid.toNat 17]
  | .manchor _ b => chkC env b.dst (bitOf b.aux 0) 39 ++ [chkSReg b.srcA 31, chkZero b.srcB.toNat 23, chkZero b.tid.toNat 17,
      chkZero (bitsOf b.aux 16 2) 2]
  | .mma _ b => chkMma env b false
  | .mmat _ b => chkMmat env b
  | .mmaw _ b => chkMma env b true
  | .mread _ b => chkMread env b
  | .mstat _ b => chkMstat env b
  | .mclr _ b => chkC env b.dst false 39 ++ [chkZero b.srcA.toNat 31, chkZero b.srcB.toNat 23, chkZero b.tid.toNat 17,
      chkZero (bitsOf b.aux 16 2) 2, chkCode (bitsOf b.aux 1 0 != 3) 0]
  | .tidset _ b => [chkZero b.dst.toNat 39] ++ chkView env .v b.srcA 63 256 31 ++ [chkZero b.srcB.toNat 23, chkZero b.aux.toNat 0]
  | .tidstep _ b => [chkZero b.dst.toNat 39, chkZero b.srcA.toNat 31, chkZero b.srcB.toNat 23]
  | .tidstepSet _ b => [chkZero b.dst.toNat 39, chkSReg b.srcA 31, chkSReg b.srcB 23, chkZero (bitsOf b.aux 15 0) 0]
  | .lrzero _ b => chkLr b (chkK env b.dst 39) [chkZero b.srcA.toNat 31] [chkZero b.srcB.toNat 23] [chkZero b.aux.toNat 0]
  | .lrset _ b => chkLrset env b
  | .lradd _ b => chkLr b (chkK env b.dst 39) (chkK env b.srcA 31) (chkK env b.srcB 23) [chkZero (bitsOf b.aux 15 0) 0]
  | .lrscale _ b => chkLr b (chkK env b.dst 39) (chkK env b.srcA 31) [chkSReg b.srcB 23] [chkZero b.aux.toNat 0]
  | .lrmul _ b => chkLr b (chkK env b.dst 39) (chkK env b.srcA 31) (chkK env b.srcB 23) [chkZero b.aux.toNat 0]
  | .lrmuld _ b => chkLr b (chkK env b.dst 39) (chkK env b.srcA 31) (chkView env .t b.srcB 32 32768 23)
      [chkZero (bitsOf b.aux 16 1) 1]
  | .lrtrunc _ b => chkLr b (chkK env b.dst 39) (chkK env b.srcA 31) [chkZero b.srcB.toNat 23] [chkZero b.aux.toNat 0]
  | .lrdense _ b => chkLr b (chkK env b.dst 39) (chkK env b.srcA 31) [chkZero b.srcB.toNat 23] [chkZero b.aux.toNat 0]
  | .lrcomp _ b => chkLr b (chkK env b.dst 39)
      (if bitOf b.aux 0 then chkView env .t b.srcA 32 32768 31 else chkK env b.srcA 31)
      [chkZero b.srcB.toNat 23] [chkZero (bitsOf b.aux 16 1) 1]
  | .lrapply _ b => chkLr b (chkView env .c b.dst 60 16384 39) (chkView env .t b.srcA 60 4096 31) (chkK env b.srcB 23) [chkZero b.aux.toNat 0]
  | .lrrank _ b => chkLr b [chkSReg b.dst 39] (chkK env b.srcA 31) [chkZero b.srcB.toNat 23] [chkZero b.aux.toNat 0]
  | .ld _ b => chkMem b [chkSReg b.data 39] scopes06 sizes03 []
  | .st _ b => chkMem b [chkSReg b.data 39] scopes06 sizes03 []
  | .lda _ b => chkMem b [chkSReg b.data 39] scopes16 sizes03 []
  | .stl _ b => chkMem b [chkSReg b.data 39] scopes16 sizes03 []
  | .lds _ b => chkMem b [chkSReg b.data 39] scopes01 sizes03 []
  | .sts _ b => chkMem b [chkSReg b.data 39] scopes01 sizes03 (chkHe b 23)
  | .vld _ b => chkMem b (chkView env .v b.data 63 (2 ^ b.size.toNat) 39) scopes06 sizes512 []
  | .vst _ b => chkMem b (chkView env .v b.data 63 (2 ^ b.size.toNat) 39) scopes06 sizes512 []
  | .vlds _ b => chkMem b (chkView env .v b.data 63 (2 ^ b.size.toNat) 39) scopes01 sizes512 []
  | .vsts _ b => chkMem b (chkView env .v b.data 63 (2 ^ b.size.toNat) 39) scopes01 sizes512 (chkHe b 23)
  | .tlds _ b => chkMem b (chkView env .t b.data 63 1024 39) scopes01 [10] [chkCode (bitsOf b.off24 11 0 != 0) 0]
  | .tsts _ b => chkMem b (chkView env .t b.data 63 1024 39) scopes01 [10] [chkCode (bitsOf b.off24 11 0 != 0) 0]
  | .vgath _ b => chkGather env b
  | .vscat _ b => chkGather env b
  | .capld _ b => chkCap b
  | .capst _ b => chkCap b
  | .lrlds _ b => chkMem b (chkK env b.data 39) scopes01 [0] []
  | .lrsts _ b => chkMem b (chkK env b.data 39) scopes01 [0] []
  | .atom _ b => chkAtom b scopes06 false
  | .atoms _ b => chkAtom b scopes01 true
  | .pcopy _ b => chkPump 0 0 0 b.s1.toNat (heField b) [chkZero (bitsOf b.aux 18 1) 1]
  | .pfill _ b => chkPump 0 (sgField b) 0 0 (heField b) [chkZero (bitsOf b.aux 18 2) 2]
  | .pgath _ b => chkPump 0 (sgField b) b.s0.toNat b.s1.toNat (heField b) [chkZero (bitsOf b.aux 18 2) 2]
  | .pscat _ b => chkPump 0 (sgField b) b.s0.toNat b.s1.toNat b.handle.toNat (auxSg b)
  | .pdecl _ b => chkPump 0 b.areg1.toNat 0 b.s1.toNat b.handle.toNat [chkZero b.aux.toNat 0]
  | .pflushx _ b => chkPump 0 (sgField b) 0 b.s1.toNat b.handle.toNat (auxSg b)
  | .kvappend _ b => chkPump 0 0 0 b.s1.toNat b.handle.toNat [chkZero b.aux.toNat 0]
  | .kvattn _ b => chkPump 0 0 0 0 0 [chkZero (bitsOf b.aux 11 6) 6]
  | .kvscore _ b => chkPump 0 0 0 0 b.handle.toNat [chkZero (bitsOf b.aux 11 1) 1]
  | .kvseal _ b => chkPump 0 (sgField b) b.s0.toNat b.s1.toNat b.handle.toNat (auxSg b)
  | .kvcompact _ b => chkPump 0 b.areg1.toNat b.s0.toNat b.s1.toNat b.handle.toNat [chkZero b.aux.toNat 0]
  | .kvfork _ b => chkPump 0 0 b.s0.toNat b.s1.toNat b.handle.toNat [chkZero (bitsOf b.aux 18 1) 1]
  | .kvforkNew _ b => chkPump 0 0 b.s0.toNat b.s1.toNat b.handle.toNat [chkZero (bitsOf b.aux 18 1) 1]
  | .kvfree _ b => chkPump 0 (sgField b) b.s0.toNat b.s1.toNat b.handle.toNat (auxSg b)
  | .kvpin _ b => chkPump 0 (sgField b) 0 b.s1.toNat b.handle.toNat (auxSg b)
  | .kvwin _ b => chkPump 0 (sgField b) 0 b.s1.toNat b.handle.toNat (auxSg b)
  | .kvstat _ b => chkKvstat b
  | .colar _ b => chkPump 0 (sgField b) b.s0.toNat b.s1.toNat b.handle.toNat (auxSg b)
  | .colrs _ b => chkPump 0 (sgField b) b.s0.toNat b.s1.toNat b.handle.toNat (auxSg b)
  | .colag _ b => chkPump 0 (sgField b) b.s0.toNat b.s1.toNat b.handle.toNat (auxSg b)
  | .colbc _ b => chkPump 0 (sgField b) b.s0.toNat b.s1.toNat b.handle.toNat (auxSg b)
  | .colstat _ b => chkPump 0 b.areg1.toNat 0 b.s1.toNat b.handle.toNat [chkZero b.aux.toNat 0]
  | .stmget _ b => chkPump 0 b.areg1.toNat 0 0 (heField b) [chkZero (bitsOf b.aux 18 8) 8, chkZero (bitsOf b.aux 3 1) 1]
  | .stmstat _ b => chkPump 0 b.areg1.toNat 0 b.s1.toNat b.handle.toNat [chkZero (bitsOf b.aux 18 1) 1]
  | .wjopen _ b => chkPump b.areg0.toNat (sgField b) b.s0.toNat b.s1.toNat b.handle.toNat [chkZero (bitsOf b.aux 18 14) 14, chkZero (bitsOf b.aux 7 2) 2,
      chkZero (bitsOf b.aux 0 0) 0]
  | .wjwrite _ b => chkPump 0 (sgField b) 0 0 b.handle.toNat (auxSg b)
  | .wjcommit _ b => chkPump b.areg0.toNat (sgField b) b.s0.toNat b.s1.toNat b.handle.toNat (auxSg b)
  | .wjabort _ b => chkPump b.areg0.toNat (sgField b) b.s0.toNat b.s1.toNat b.handle.toNat (auxSg b)
  | .wjstat _ b => chkPump 0 b.areg1.toNat (if bitsOf b.aux 5 4 = 1 then 0 else b.s0.toNat) b.s1.toNat b.handle.toNat [chkZero (bitsOf b.aux 18 6) 6, chkZero (bitsOf b.aux 3 0) 0]
  | .br _ b => [chkZero (bitsOf b 46 3) 3]
  | .brl _ b => [chkZero (bitsOf b 46 3) 3]
  | .fence _ b => [chkZero (bitsOf b 46 17) 17]
  | .cbset _ b => [chkZero (bitsOf b 30 0) 0]
  | .cbwait _ b => [chkZero (bitsOf b 42 7) 7]
  | .cbspace _ b => [chkZero (bitsOf b 42 7) 7]
  | .cbadvProduce _ b => [chkZero (bitsOf b 42 8) 8]
  | .cbadvConsume _ b => [chkZero (bitsOf b 42 8) 8]
  | .sigwait _ b => [chkSyScope b, chkCode (decide (bitsOf b 27 25 < 5)) 25, chkZero (bitsOf b 24 0) 0]
  | .sigadd _ b => [chkZero (bitsOf b 42 37) 37, chkSyScope b, chkZero (bitsOf b 27 0) 0]
  | .jobraise _ b => [chkSyScope b, chkZero (bitsOf b 27 0) 0]
  | .jobpost _ b => [chkSyScope b, chkZero (bitsOf b 27 0) 0]
  | .jobwait _ b => [chkZero (bitsOf b 42 31) 31, chkSyScope b, chkZero (bitsOf b 27 0) 0]
  | .bar _ b => [chkZero (bitsOf b 46 0) 0]
  | .rplw _ b => [chkZero (bitsOf b 46 0) 0]
  | .tickwait _ b => [chkZero (bitsOf b 46 0) 0]
  | .launch _ b => [chkZero (bitsOf b 42 5) 5, chkZero (bitsOf b 3 0) 0]
  | .launchNb _ b => [chkZero (bitsOf b 42 5) 5]
  | .evread _ b => chkEvread env b
  | .evwait _ b => [chkZero (bitsOf b 46 43) 43, chkZero (bitsOf b 36 4) 4]
  | .chk _ b => chkChk env b
  | _ => []

/-- The first encoding check of `i` that fails, as REASON and FIELDLO (R84). -/
def encodingFault (env : Option ViewEnv) (i : Instr) : Option (Nat × Nat) := firstBad (encodingChecks env i)

/-- The subcode of an ILLEGAL_OP fault record (R85). DEDUCED: notes/assumptions/14.md. -/
def illegalSubcode (reason fieldLo slot : Nat) : BitVec 16 := BitVec.ofNat 16 (reason * 512 + fieldLo * 8 + slot)

end Sys2Proof.Machine
end

