-- ==== Sys2Proof/Machine/FMap.lean ====
section
/-! DEFINITION. Finite maps from a number to a value, held as a list with strictly rising keys.
An unlisted key reads as a default, and no entry equals the default, so equal maps are equal lists. -/

namespace Sys2Proof.Machine

/-- A finite map: (key, value) pairs with strictly rising keys. -/
abbrev FMap (α : Type) := List (Nat × α)

/-- The value at key `k`; `d` where the map lists none. -/
def FMap.get {α : Type} (d : α) : FMap α → Nat → α
  | [], _ => d
  | (j, v) :: m, k => if j = k then v else FMap.get d m k

/-- `m` without key `k`. -/
def FMap.erase {α : Type} : FMap α → Nat → FMap α
  | [], _ => []
  | (j, v) :: m, k => if j = k then FMap.erase m k else (j, v) :: FMap.erase m k

/-- `m`, which does not list key `k`, with (k, v) at its place. -/
def FMap.insert {α : Type} : FMap α → Nat → α → FMap α
  | [], k, v => [(k, v)]
  | (j, w) :: m, k, v => if k < j then (k, v) :: (j, w) :: m else (j, w) :: FMap.insert m k v

/-- `m` with `v` at key `k`; writing the default `d` removes the entry. -/
def FMap.set {α : Type} [DecidableEq α] (d : α) (m : FMap α) (k : Nat) (v : α) : FMap α :=
  if v = d then FMap.erase m k else FMap.insert (FMap.erase m k) k v

/-- The canonical form, above a lower bound for the keys. -/
def FMap.wfFrom {α : Type} [DecidableEq α] (d : α) : Nat → FMap α → Bool
  | _, [] => true
  | lo, (j, v) :: m => decide (lo ≤ j) && decide (v ≠ d) && FMap.wfFrom d (j + 1) m

/-- The canonical form: keys strictly rising, no entry equal to the default. -/
def FMap.wf {α : Type} [DecidableEq α] (d : α) (m : FMap α) : Bool := FMap.wfFrom d 0 m

/-- The keys that are listed. -/
def FMap.keys {α : Type} (m : FMap α) : List Nat := m.map Prod.fst

/-- `f` applied to every listed value; values that become the default leave the map. -/
def FMap.mapValues {α : Type} [DecidableEq α] (d : α) (f : Nat → α → α) (m : FMap α) : FMap α :=
  m.filterMap fun (k, v) => let w := f k v; if w = d then none else some (k, w)

/-- `vs` written at consecutive keys from `k`. -/
def FMap.setRun {α : Type} [DecidableEq α] (d : α) (m : FMap α) (k : Nat) : List α → FMap α
  | [] => m
  | v :: vs => FMap.setRun d (FMap.set d m k v) (k + 1) vs

/-- The `n` values at consecutive keys from `k`. -/
def FMap.getRun {α : Type} (d : α) (m : FMap α) (k : Nat) : Nat → List α
  | 0 => []
  | n + 1 => FMap.get d m k :: FMap.getRun d m (k + 1) n

end Sys2Proof.Machine
end

