-- ==== Sys2Proof/Machine/State.lean ====
section
/-! DEFINITION. The state of the whole package as plain data: every piece of state the spec names, in records by agent.
Things that come in numbers are finite maps; what a map does not list has its reset value.
INVENTORY.md lists each field with its rule and reset value; notes/assumptions/2.md names the values the spec gives no
reset for. -/

namespace Sys2Proof.Machine

/-! Tile and context (spec 01, 02, 04, 06, 07, 08, 09). -/

/-- A capability with its hidden tag (R227). -/
structure Cap where
  bits : BitVec 128 := 0
  tag : Bool := false
deriving DecidableEq, Repr

/-- One level of the loop stack: byte offsets of the start and end bundle in CODE, trip count, index (R25). -/
structure Level where
  start : Off := 0
  stop : Off := 0
  count : BitVec 32 := 0
  index : BitVec 32 := 0
deriving DecidableEq, Repr

/-- The states of a ring slot (R28). -/
inductive SlotState where
  | free | filling | filled
deriving DecidableEq, Repr

/-- A buffer handle (R28). -/
structure Handle where
  base : Nat := 0
  ssize : Nat := 0
  count : Nat := 0
  fill : Nat := 0
  drain : Nat := 0
  expect : Nat := 0
  state : FMap SlotState := []
  left : FMap Nat := []
  overrun : Bool := false
deriving DecidableEq, Repr

/-- Anchor, OVF and UFC beside an accumulator position (R53, R55). -/
structure Acc where
  anchor : BitVec 16 := 0
  ovf : Bool := false
  ufc : BitVec 32 := 0
deriving DecidableEq, Repr

/-- The scalar, address, predicate and branch-target registers (R14). -/
structure Regs where
  s : FMap Word := []
  a : FMap Cap := []
  p : FMap Mask := []
  b : FMap Off := []
deriving DecidableEq, Repr

/-- The view registers, K capacity and rank fields (R16, R170). -/
structure Views where
  v : Nat := 0
  t : Nat := 0
  c : Nat := 0
  k : Nat := 0
  kCap : Nat := 0
  ranks : FMap Nat := []
deriving DecidableEq, Repr

/-- The last-result latches (R24); `ls` as the widest register, the others as the bytes latched. -/
structure Latches where
  ls : BitVec 128 := 0
  lva : List Byte := []
  lvb : List Byte := []
  lm : List Byte := []
  ll : List Byte := []
deriving DecidableEq, Repr

/-- The system registers that a context holds (R13, R15, R50, R65, R66, R111 to R115, R183, R184). -/
structure SysRegs where
  winErr : Bool := false
  winSize : Nat := 32
  winBase : Nat := 0
  gang : Nat := 0
  gangM1 : Nat := 0
  place : Nat := 0
  asid : Nat := 0
  sup : Bool := false
  nflag : BitVec 6 := 0
  qclamp : BitVec 32 := 0
  ufmax : BitVec 32 := 0xFFFFFFFF
  clampmax : BitVec 32 := 0
  tol : BitVec 32 := 0
  tolAbs : Bool := false
  utvecEn : Bool := false
  utvec : BitVec 42 := 0
  utepc : BitVec 42 := 0
  sepc : BitVec 42 := 0
  inh : Bool := false
  info : BitVec 16 := 0
  slot : BitVec 3 := 0
  cause : BitVec 8 := 0
deriving DecidableEq, Repr

/-- What a context records when a region opens (R36). -/
structure RegionRec where
  pc : Off := 0
  bundle : Nat := 0
  loops : List Level := []
  offs : FMap Off := []
deriving DecidableEq, Repr

/-- Where a reference to memory leads: identifier, object, byte offset. -/
structure Ref where
  asid : Nat := 0
  obj : Nat := 0
  off : Nat := 0
deriving DecidableEq, Repr

/-- Where a pump command stands (R19, R204, R246, R293, R384). -/
inductive CmdPlace where
  /-- in its tile's pump port, which has not passed it on -/
  | port
  /-- accepted into the island pump's queue of 32, not started -/
  | queued
  /-- the pump works on it; so many bytes or rows have been moved -/
  | started
  /-- a KV command that waits at its descriptor's home -/
  | resolving
  /-- a KV command that has resolved, or a compaction job -/
  | resolved
  /-- waiting in a group's queue -/
  | collective
  /-- accepted by the collective engine -/
  | accepted
  /-- a stream command waiting to resolve -/
  | stream
  /-- at the tile's well controller -/
  | well
deriving DecidableEq, Repr

/-- A posted pump command: the captured registers of R21 and how far it has come (R80, R204, R206, R361). -/
structure PumpCmd where
  id : Nat := 0
  tile : Nat := 0
  ctx : Nat := 0
  /-- number and address of its bundle -/
  bundle : Nat := 0
  pc : Off := 0
  /-- when no context issued it: the gang number of its job node, or 0 for the command processor's own (R277, R333, R340) -/
  job : Option Nat := none
  asid : Nat := 0
  opc : Nat := 0
  body : PumpBody := ⟨0, 0, 0, 0, 0, 0, 0⟩
  cap0 : Cap := {}
  cap1 : Cap := {}
  s0 : Word := 0
  s1 : Word := 0
  slotWord : SlotWord := 0
  place : CmdPlace := .queued
  /-- descriptor bytes with the tags of its 16-byte units (R206, R257, R292) -/
  desc : List Byte := []
  descTags : List Bool := []
  /-- bytes already moved, of PCOPY, PFILL, PGATH and PSCAT -/
  moved : Nat := 0
  /-- the source as read when the copy started (R207) -/
  source : List Byte := []
  /-- (slot, bytes) charged to its handle so far (R362) -/
  charged : FMap Nat := []
  /-- stopped on a fault: the trap its context takes, as code, subcode, object and offset (R206) -/
  fault : Option (BitVec 16 × BitVec 16 × Nat × Nat) := none
  /-- the capability of the signal that its completion updates (R210) -/
  signal : Option Cap := none
  /-- STATUS to deliver with the signal (R210, R247) -/
  status : Nat := 0
  /-- all effects done; the completion may be reported -/
  finished : Bool := false
  /-- sequence number within a collective's group (R293) -/
  seq : Nat := 0
  /-- the step and arm of its task, for STMGET (R275) -/
  step : Option Nat := none
  arm : Option Nat := none
  /-- arena and descriptor offset, for a KVWIN that the command processor posts (R277) -/
  home : Option (Nat × Nat) := none
  /-- an accepted collective whose task has been saved since: no context has it for now (R296, R362) -/
  left : Bool := false
deriving DecidableEq, Repr

/-- The operations that leave the tile from the commit stage, or that a region holds (R33, R34). -/
inductive CommitOp where
  /-- bytes by physical address; page-map entries whose DIRTY the write sets (R358) -/
  | store (bytes : List (Nat × Byte)) (dirty : List Nat)
  | capStore (pa : Nat) (cap : Cap) (dirty : List Nat)
  | atomic (pa op size : Nat) (v cmp : Word) (rd : Nat) (dirty : List Nat)
  | sigAdd (pa : Nat) (v : Word) (dirty : List Nat)
  | jobRaise (pa p : Nat) (n : Word) (dirty : List Nat)
  | jobPost (pa p : Nat) (n : Word) (dirty : List Nat)
  | launch (ref : Ref) (reserved : Bool) (fromRegion : Nat)
  | launchWait (ref : Ref) (fromRegion : Nat)
  | pump (cmd : PumpCmd)
  | cbadv (produce : Bool) (h n : Nat)
deriving DecidableEq, Repr

/-- An entry of the commit stage with its bundle and class. -/
structure CommitEntry where
  bundle : Nat := 0
  /-- address of its bundle -/
  pc : Off := 0
  cls : Nat := 0
  scope : Nat := 0
  /-- held by the open region (R33) -/
  held : Bool := false
  /-- it leaves although its bundle trapped: the elements below a failing one (R199) -/
  stands : Bool := false
  /-- the entry of the sync queue that executes before it (R19); none: none waited there when it issued -/
  behind : Option Nat := none
  op : CommitOp
deriving DecidableEq, Repr

/-- The handle operations, which take effect when they execute in the sync queue (R215, R216). -/
inductive SyncOp where
  | cbset (h : Nat) (a b : Word)
  | cbadv (produce : Bool) (h n : Nat)
deriving DecidableEq, Repr

/-- A handle operation that has not executed yet (R19): CBSET waits for the operations that name its handle, and what
comes after it in the queue waits behind it. -/
structure SyncWait where
  id : Nat := 0
  ctx : Nat := 0
  bundle : Nat := 0
  pc : Off := 0
  op : SyncOp
deriving DecidableEq, Repr

/-- What a matrix operation does only where it executes: TIDSET sets entry `n` from its descriptor and the capability
captured (R154); MSTAT.cal tests the accumulator's fields against the limits as they then stand (R166). -/
inductive LateEff where
  | entry (n : Nat) (desc : BitVec 512) (cap : Cap)
  | test (p : Nat) (ovf : Bool) (ufc : BitVec 32)
deriving DecidableEq, Repr

/-- An operation of the matrix queue that has such an effect to come (R19). -/
structure LateOp where
  ctx : Nat := 0
  bundle : Nat := 0
  eff : LateEff
deriving DecidableEq, Repr

/-- A range of bytes an operation touches: space (0 register space, 1 operand file A, 2 operand file B, 3 latches,
4 rank fields, 5 accumulator records), first byte, length (R22). -/
structure Range where
  space : Nat := 0
  lo : Nat := 0
  len : Nat := 0
deriving DecidableEq, Repr

/-- An issued operation that is not complete, as the interlocks see it (R19 to R23, R97, R120, R129, R155, R170). -/
structure InFlight where
  ctx : Nat := 0
  bundle : Nat := 0
  slot : Nat := 0
  eng : Engine := .vectorA
  reads : List Range := []
  writes : List Range := []
  /-- registers it has yet to write, each as class (0 s, 1 p, 2 a, 3 b, 4 h) and number -/
  regs : List (Nat × Nat) := []
  /-- tensor entries it names; and whether it is a TIDSET (R154, R155) -/
  tids : List Nat := []
  tidset : Bool := false
  /-- able to raise LRANK or DUPMISMATCH (R120) -/
  trapper : Bool := false
  /-- names a K operand (R170) -/
  namesK : Bool := false
  /-- sets SR.NFLAG or SR.QCLAMP at completion (R129, R168) -/
  flags : Bool := false
  cls : Nat := 0
  isLoad : Bool := false
  /-- replays of it in succession (R366) -/
  replayRun : Nat := 0
deriving DecidableEq, Repr

/-- Where a context stands (R13, R17, R214, R224, R359). -/
inductive Phase where
  /-- holds no task -/
  | idle
  /-- may issue -/
  | running
  /-- its bundle's wait condition does not hold -/
  | sleeping
  /-- END has issued: waits for its operations (R124) -/
  | ending
  /-- a pre-emption request has landed: issue has stopped, the save is to come (R37 to R39) -/
  | landed
  /-- waits for a page's regeneration (R359) -/
  | page (asid obj start : Nat)
  /-- stopped by a trap or abort; ends once its accepted pump commands are complete (R349) -/
  | draining (status : Nat)
deriving DecidableEq, Repr

/-- Who asked for a pre-emption (R360). -/
inductive PreKind where
  | heldNode | yieldQ | teardown | park | migrate
deriving DecidableEq, Repr

/-- A pre-emption request: whether it has been delivered, and when (R38, R360). -/
structure PreReq where
  kind : PreKind := .heldNode
  delivered : Option Nat := none
  /-- a YIELD.q has asked for it too: the saved task goes behind the nodes that have not started (R123, R360) -/
  yielded : Bool := false
deriving DecidableEq, Repr

/-- What a node takes of its region where it is dispatched, and keeps while it runs (R335 to R337): class, fault domain,
identifier, and the effective ceilings. -/
structure Terms where
  cls : Nat := 3
  fault : Nat := 0
  asid : Nat := 0
  islands : BitVec 64 := 0
  cistern : Nat := 0
  pumpsh : Nat := 0
  powercap : Nat := 0
  wellpg : Nat := 0
  wellbase : Nat := 0
deriving DecidableEq, Repr

/-- What the launch unit knows of a context's task (R13, R319, R321). -/
structure Task where
  queue : Nat := 0
  inst : Nat := 0
  node : Nat := 0
  region : Nat := 0
  gang : Nat := 0
  member : Nat := 0
  step : Option Nat := none
  arm : Option Nat := none
  /-- the CODE object and the offset of the kernel's first bundle -/
  code : Nat := 0
  codeOff : Off := 0
  kobj : Nat := 0
  koff : Nat := 0
  /-- the offset in KDESC of its wide variant; whether it is one (R67, R298) -/
  wide : Option Nat := none
  isWide : Bool := false
  /-- duplicate map object and offset, shadow bases in bytes (R309, R310, R318) -/
  dup : Bool := false
  dupObj : Option Nat := none
  dupOff : Nat := 0
  shV : Option Nat := none
  shT : Option Nat := none
  shC : Option Nat := none
  feat : BitVec 8 := 1
  /-- its class and ceilings (R13, R337) -/
  terms : Terms := {}
  rgn : Bool := false
  order : Nat := 0
  started : Nat := 0
deriving DecidableEq, Repr

/-- A sequencer context (R14). -/
structure Ctx where
  phase : Phase := .idle
  pc : Off := 0
  /-- where a branch of the issuing bundle sends fetch (R118, R212); none: the next bundle -/
  target : Option Off := none
  /-- the address of a user-trap handler taken by the issuing bundle (R119) -/
  redirect : Option Off := none
  regs : Regs := {}
  /-- registers as slots 1 to 7 of the issuing bundle capture them (R21); none: read live -/
  captured : Option Regs := none
  h : FMap Handle := []
  views : Views := {}
  loops : List Level := []
  delta : FMap (BitVec 32) := []
  ofA : FMap Byte := []
  ofB : FMap Byte := []
  latches : Latches := {}
  acc : FMap Acc := []
  sys : SysRegs := {}
  region : Option RegionRec := none
  commitQ : List CommitEntry := []
  launchStall : Bool := false
  barGen : Nat := 0
  barWaiting : Bool := false
  events : List EventRec := []
  drops : BitVec 32 := 0
  firstDrop : Word := 0
  preempt : Option PreReq := none
  /-- the two copies of its resume record (R371) -/
  rec0 : BitVec 512 := 0
  rec1 : BitVec 512 := 0
  cycStart : Nat := 0
  cycAcc : Nat := 0
  task : Option Task := none
  yieldNext : Bool := false
  /-- bundles issued by the task: the program order of R20, R34 and R348 -/
  bundleNo : Nat := 0
  /-- time at which the waiting bundle reached issue, and the tick a saved TICKWAIT waits for (R276, R373) -/
  waitSince : Option Nat := none
  tickTarget : Option Nat := none
  /-- fences that hold later bundles: mask, P, and the bundle of the FENCE (R213) -/
  fences : List (BitVec 16 × Bool × Nat) := []
  /-- scratchpad pump commands of an aborted region that the context waits for (R36) -/
  awaitCmds : List Nat := []
  /-- the issue checks of the next bundle have passed (R424) -/
  checked : Bool := false
  /-- replays in succession of the context's bundle (R366) -/
  replayRun : Nat := 0
  /-- slot and PC of the operation that met the page it waits for (R350, R359) -/
  pageTrap : Option (Nat × Off) := none
deriving DecidableEq, Repr

/-- A context of number `n` at reset: SR.WIN BASE is 32 × the context number (R15). -/
def Ctx.init (n : Nat) : Ctx := { sys := { winBase := 32 * n } }

/-- A tensor-identifier entry (R151). -/
structure Tid where
  valid : Bool := false
  owner : Nat := 7
  desc : BitVec 512 := 0
  cap : Cap := {}
  kb : Nat := 0
  nb : Nat := 0
deriving DecidableEq, Repr

/-- A cached object translation (R356). -/
structure TlbObj where
  asid : Nat := 0
  obj : Nat := 0
  entry : BitVec 256 := 0
deriving DecidableEq, Repr

/-- A cached page translation: the page's first byte in the object, size, physical address, entry address, PINNED and
DIRTY as read (R355, R356). -/
structure TlbPage where
  asid : Nat := 0
  obj : Nat := 0
  start : Nat := 0
  size : Nat := 0
  pa : Nat := 0
  entry : Nat := 0
  pinned : Bool := false
  dirty : Bool := false
deriving DecidableEq, Repr

/-- The states of a well journal (R382). -/
inductive JState where
  | free | opened | written | committed | applied
deriving DecidableEq, Repr

/-- The journal record's fields (R385). -/
structure JournalRec where
  state : JState := .free
  lastErr : Nat := 0
  nshadow : Nat := 0
  firstPg : Nat := 0
  npg : Nat := 0
  jseq : BitVec 32 := 0
  retries : BitVec 32 := 0
  attempts : BitVec 32 := 0
  topen : Word := 0
deriving DecidableEq, Repr

/-- One copy of a page-map descriptor and whether its CRC is correct (R380). -/
structure PageDesc where
  good : Bool := true
  redir : Bool := false
  nred : Nat := 0
  gen : BitVec 32 := 0
  jseq : BitVec 32 := 0
deriving DecidableEq, Repr

/-- The well of a tile and its controller (R378 to R389). The well's bytes are in `State.mem`. -/
structure Well where
  /-- the journal as the controller holds it, and the two record copies as last written (R387) -/
  journal : JournalRec := {}
  rec0 : JournalRec := {}
  rec1 : JournalRec := {}
  rec0Good : Bool := true
  rec1Good : Bool := true
  /-- (home page, shadow page) of the open journal, in order of allocation (R385) -/
  shadows : List (Nat × Nat) := []
  /-- the redirect list in journal page 0 as written at the last commit (R380, R388) -/
  redirect : List (Nat × Nat) := []
  desc00 : PageDesc := {}
  desc01 : PageDesc := {}
  desc10 : PageDesc := {}
  desc11 : PageDesc := {}
  /-- bit j − 1: shadow page j is in use (R387) -/
  shadowMask : BitVec 63 := 0
  /-- the journal's writes have failed VERIFY (R385) -/
  verifyFailed : Bool := false
  badPages : List Nat := []
  wear : FMap (BitVec 32) := []
  /-- words with a correctable and with an uncorrectable error, by well offset / 8; pages whose CRC fails -/
  eccSingle : List Nat := []
  eccDouble : List Nat := []
  crcBad : List Nat := []
  /-- redirect entries applied so far, while COMMITTED, and the writes that have ended the apply (R382) -/
  applyNext : Nat := 0
  applyStep : Nat := 0
deriving DecidableEq, Repr

/-- A tile (R1, R13, R19). Its contexts are in `Core.ctxs`. -/
structure Tile where
  /-- the round-robin pointer (R18) -/
  q : Nat := 0
  /-- SR.FEAT, fused at manufacturing test (R113) -/
  feat : BitVec 8 := 0xFF
  space : FMap Byte := []
  tids : FMap Tid := []
  inflight : List InFlight := []
  /-- the handle operations of the sync queue that have not executed, oldest first (R19, R215, R216) -/
  syncQ : List SyncWait := []
  /-- the operations of the matrix queue with an effect to come, oldest first (R19, R154, R166) -/
  lateQ : List LateOp := []
  tlbObjs : List TlbObj := []
  tlbPages : List TlbPage := []
  well : Well := {}
  replays : Nat := 0
deriving DecidableEq, Repr

/-! Islands, cisterns, power (spec 20, 23). -/

/-- The states of an island (R367); `waking`: on its way to ON. -/
inductive IslandState where
  | on | idle | retain | off | waking
deriving DecidableEq, Repr

/-- Self-test outcome of an island (R396). -/
inductive SelfTest where
  | pending | passed | failed
deriving DecidableEq, Repr

/-- An island (R366 to R374, R278, R402). -/
structure Island where
  state : IslandState := .off
  selfTest : SelfTest := .pending
  clock : Nat := 2000
  leased : Option Nat := none
  /-- stepping down for heat (R406) -/
  hot : Bool := false
  stormUntil : Option Nat := none
  shareBundles : Nat := 0
  /-- the class ceiling of a timed island, in MHz, and the cycle at which its last window began (R278) -/
  ceiling : Nat := 2200
  windowAt : Nat := 0
  /-- cycles run while ON, in units of 1/65,536,000 cycle, and their number at the last tick (R117, R409) -/
  cycles : Nat := 0
  tickCycles : Nat := 0
  /-- a clock that waits for its rail to settle (R402) -/
  nextClock : Option Nat := none
  idleSince : Option Nat := none
  wakeReq : Option Nat := none
  wakeTimed : Bool := false
  /-- woken from OFF: configuration reload; the entries read VALID 0 (R367) -/
  fromOff : Bool := false
  /-- the cycle up to which something of it was busy (R368) -/
  busyAt : Nat := 0
deriving DecidableEq, Repr

/-- The states of a cistern slice (R375). -/
inductive SliceState where
  | active | retain | off
deriving DecidableEq, Repr

/-- A cistern slice (R203, R356, R375). -/
structure Slice where
  state : SliceState := .active
  /-- when it was last accessed; an access waits for it to wake (R375) -/
  accessed : Nat := 0
  waking : Bool := false
  tlbObjs : List TlbObj := []
  tlbPages : List TlbPage := []
deriving DecidableEq, Repr

/-- An atomic that has arrived at its home (R203): who waits for the old value, and the operation. -/
structure HomeAtomic where
  /-- when it arrived, in ns; its source is its tile (R7) -/
  time : Nat := 0
  slice : Nat := 0
  tile : Nat := 0
  ctx : Nat := 0
  pa : Nat := 0
  op : Nat := 0
  size : Nat := 0
  v : Word := 0
  cmp : Word := 0
  rd : Nat := 0
  bundle : Nat := 0
  scope : Nat := 0
deriving DecidableEq, Repr

/-- A live boost lease (R404). -/
structure Lease where
  part : Nat := 0
  region : Nat := 0
  step : Nat := 0
  granted : Nat := 0
  ends : Nat := 0
  /-- when a revocation drops the clock (R405) -/
  dropAt : Option Nat := none
deriving DecidableEq, Repr

/-- The statement chain of a partition (R411). -/
structure Chain where
  seq : Nat := 0
  tend : Nat := 0
  counters : FMap Nat := []
  digest : BitVec 512 := 0
  powerLoss : Bool := false
  degraded : Bool := false
deriving DecidableEq, Repr

/-- A rail and its meter (R402, R407). -/
structure Rail where
  settling : Bool := false
  /-- energy metered since the last tick, in pJ -/
  energy : Nat := 0
  /-- energy of the last tick, in pJ -/
  last : Nat := 0
deriving DecidableEq, Repr

/-! Queues, graphs, regions (spec 18, 19). -/

/-- A node of an instance, or a saved task, in a queue's ready list (R341, R360). -/
inductive ReadyItem where
  | node (inst idx : Nat)
  /-- a node launched by LAUNCH: the 128 bytes as read at commit (R221) -/
  | launched (inst : Nat) (words : BitVec 1024) (entry : Option Nat)
  | saved (save : Nat)
deriving DecidableEq, Repr

/-- A held node's placement, the tiles of its members, its window in 4 KiB units, and the contexts held for it so far
(R344, R345). A saved task that has been drawn holds none. -/
structure Hold where
  place : Nat := 0
  tiles : List Nat := []
  win : Nat := 0
  ctxs : List (Nat × Nat) := []
deriving DecidableEq, Repr

/-- A queue of the command processor (R328 to R332, R344). -/
structure Queue where
  entry : BitVec 512 := 0
  packets : List (BitVec 1024) := []
  /-- the head packet has begun: what it waits for -/
  busy : Bool := false
  copyCmd : Option Nat := none
  /-- the TAIL of a copy that waits for a packet to retire (R330) -/
  copying : Option Nat := none
  /-- what an INVALIDATE waits for: context, gang and bundle up to which its accesses were translated before (R357) -/
  awaits : List (Nat × Nat × Nat) := []
  ready : List ReadyItem := []
  /-- what is held for the head node, which has been drawn and has not started -/
  held : Option Hold := none
deriving DecidableEq, Repr

/-- A graph instance (R338, R341, R342, R346, R359). -/
structure Inst where
  queue : Nat := 0
  asid : Nat := 0
  region : Nat := 0
  graph : Ref := {}
  header : BitVec 512 := 0
  status : Nat := 0
  /-- the signal of its LAUNCH_GRAPH, by physical address, and its reference for the loss list -/
  signal : Option Nat := none
  signalRef : Ref := {}
  stepSig : Option Nat := none
  step : Option Nat := none
  arm : Option Nat := none
  /-- nodes not yet ready, as indices -/
  waiting : List Nat := []
  /-- the graph has a graph-end node; it has been released (R342) -/
  hasEnd : Bool := false
  endReleased : Bool := false
  discarded : Bool := false
  regen : Option (Nat × Nat × Nat) := none
  created : Nat := 0
deriving DecidableEq, Repr

/-- A member of a gang: on a context, saved, or ended (R13, R220). -/
inductive Member where
  | on (tile ctx : Nat)
  | saved (save : Nat)
  | ended
deriving DecidableEq, Repr

/-- A gang, or a job node (R13, R220, R224, R298, R340). -/
structure Gang where
  inst : Nat := 0
  node : BitVec 1024 := 0
  nodeIdx : Option Nat := none
  region : Nat := 0
  terms : Terms := {}
  queue : Nat := 0
  members : List Member := []
  status : Nat := 0
  rplw : Bool := false
  /-- the wide variant runs in its place (R67) -/
  wide : Bool := false
  placement : Nat := 0
  /-- generations of BAR at which each member has arrived (R220) -/
  barGens : FMap Nat := []
  /-- tile on which each member last ran (R298) -/
  tiles : FMap Nat := []
  /-- contexts kept for the members of the wide variant: member, tile, context (R298) -/
  reserved : List (Nat × Nat × Nat) := []
  /-- the command of a job node that has not completed (R340) -/
  job : Option Nat := none
  /-- the argument capabilities loaded, by number (R298, R339) -/
  args : FMap Cap := []
deriving DecidableEq, Repr

/-- A saved task: the context as saved, its tensor records, window bytes, pump commands, masked scratchpad granules
and save slot (R361 to R363, R386). -/
structure Saved where
  ctx : Ctx := {}
  tile : Nat := 0
  ctxNo : Nat := 0
  tids : List (Nat × Tid) := []
  window : FMap Byte := []
  cmds : List PumpCmd := []
  /-- accepted collectives of the task, which run on (R296) -/
  carry : List Nat := []
  granules : Nat := 0
  part : Nat := 0
  slot : Nat := 0
  addr : Nat := 0
  feat : BitVec 8 := 1
  parked : Bool := false
  retentionLost : Bool := false
deriving DecidableEq, Repr

/-- A step of an earlier arming of an arm that has not ended (R271, R346): its number, mode, graph instance, and that arming's
period and phase. -/
structure PastStep where
  step : Nat := 0
  first : Bool := false
  inst : Option Nat := none
  period : Nat := 0
  phase : Nat := 0
deriving DecidableEq, Repr

/-- A timed arm (R270, R271, R346). -/
structure Arm where
  armed : Bool := false
  first : Bool := false
  stepEn : Bool := false
  period : Nat := 0
  phase : Nat := 0
  graph : Ref := {}
  stepSig : Nat := 0
  queue : Nat := 0
  region : Nat := 0
  asid : Nat := 0
  /-- first step of the current arming, next tick to come, step now running -/
  firstStep : Nat := 0
  nextTick : Nat := 0
  cur : Option Nat := none
  curInst : Option Nat := none
  /-- when the graph of the step last launched completed (R273) -/
  curEnd : Option Nat := none
  launched : Bool := false
  lastTick : Word := 0
  /-- steps of earlier armings that still run -/
  past : List PastStep := []
deriving DecidableEq, Repr

/-- A page regeneration (R359). -/
structure Regen where
  asid : Nat := 0
  obj : Nat := 0
  start : Nat := 0
  size : Nat := 0
  entry : Nat := 0
  index : Nat := 0
  inst : Option Nat := none
deriving DecidableEq, Repr

/-- A loaded image: the objects of its segments (R316, R317, R395). -/
structure Image where
  asid : Nat := 0
  code : Nat := 0
  const : Option Nat := none
  data : Option Nat := none
  kdesc : Nat := 0
  dupmap : Option Nat := none
  owner : Nat := 0
deriving DecidableEq, Repr

/-! Streams, arenas, collectives, links, networks (spec 10, 11, 12, 24). -/

/-- A token in a stream's ring (R269). -/
structure Token where
  n : Int := 0
  stamp : Word := 0
  bytes : List Byte := []
  backfill : Bool := false
  /-- the step that delivered it -/
  delivered : Option Nat := none
deriving DecidableEq, Repr

/-- A delivery set: step, own indices with presence, backfill stamps (R275). -/
structure Delivery where
  step : Nat := 0
  firstN : Int := 0
  nown : Nat := 0
  own : List (Option Token) := []
  back : List Token := []
  counted : List Nat := []
deriving DecidableEq, Repr

/-- The counters of a stream (R275). -/
structure StreamCounts where
  tooLate : BitVec 32 := 0
  lateDrop : BitVec 32 := 0
  dup : BitVec 32 := 0
  badHdr : BitVec 32 := 0
  overflow : BitVec 32 := 0
  missed : BitVec 32 := 0
  backfilled : BitVec 32 := 0
  heldOut : BitVec 32 := 0
deriving DecidableEq, Repr

/-- A stream (R268, R271, R275). -/
structure Stream where
  desc : BitVec 512 := 0
  ring : List Token := []
  counts : StreamCounts := {}
  deliveries : List Delivery := []
  /-- steps of the current arming whose range is closed (R271) -/
  closed : List Nat := []
deriving DecidableEq, Repr

/-- A block of an arena (R241): tokens with positions, each as KVAPPEND's source held its elements, and per 16-token
group the key and value scale of each head; R241's bytes of it are `blockBytes`. -/
structure Block where
  sealed : Bool := false
  pos : List (BitVec 32) := []
  toks : List (List Byte) := []
  scales : List (List (BitVec 32 × BitVec 32)) := []
  /-- sequences that reference it (R245) -/
  refs : Nat := 0
  shard : Nat := 0
  /-- package and die of that shard, as the descriptor's SHARDS list names them (R244) -/
  die : Nat := 0
  /-- bytes it takes (R241) -/
  size : Nat := 0
  slice : Nat := 0
  handle : Nat := 0
  spilled : Bool := false
  lastRead : Nat := 0
deriving DecidableEq, Repr

/-- An entry of a block table: block, PIN, SHARED (R242). -/
structure TableEntry where
  block : Nat := 0
  pin : Bool := false
  shared : Bool := false
deriving DecidableEq, Repr

/-- A sequence of an arena (R243, R244). -/
structure Seq where
  desc : BitVec 512 := 0
  table : List TableEntry := []
  scores : FMap (BitVec 32) := []
  /-- a seal or a compaction of it is in flight (R246) -/
  sealing : Bool := false
  compacting : Bool := false
  /-- commands that wait here, in arrival order (R246) -/
  waiting : List Nat := []
deriving DecidableEq, Repr

/-- An arena, by the physical address of its shard list (R239, R353). -/
structure Arena where
  seqs : FMap Seq := []
  blocks : FMap Block := []
  /-- allocations that failed, by package and die (R265) -/
  fails : FMap (BitVec 32) := []
  nextBlock : Nat := 1
deriving DecidableEq, Repr

/-- A job of a compaction engine (R255): command, arena, descriptor offset; a seal of the run from entry `start`, or a
compaction to the survivors. -/
structure Job where
  cmd : Nat := 0
  arena : Nat := 0
  seqOff : Nat := 0
  compact : Bool := false
  start : Nat := 0
  survivors : List Nat := []
  /-- the engine has taken it and read its blocks -/
  built : Bool := false
deriving DecidableEq, Repr

/-- A collective of a group (R281, R286, R293, R297). -/
structure Coll where
  seq : Nat := 0
  cmd : Nat := 0
  kind : Nat := 0
  desc : List Byte := []
  asid : Nat := 0
  tile : Nat := 0
  dst : Cap := {}
  state : Nat := 0
  err : Nat := 0
  lat : Bool := false
  trees : Nat := 0
  ovf : Bool := false
  accepted : Bool := false
  redos : Nat := 0
  nchunk : Nat := 0
  pmask : BitVec 64 := 0
  version : Nat := 0
  tacc : Nat := 0
  tdone : Nat := 0
  acceptedAt : Nat := 0
  reduced : List Nat := []
  bcast : List Nat := []
  /-- chunks written to DST here (R288) -/
  written : List Nat := []
  staged : List Byte := []
  /-- roots and edges of the trees in use (R284, R285) -/
  roots : List Nat := []
  edges : List (List (Nat × Nat × Nat)) := []
  /-- straits of its trees that have gone DOWN since they were derived, one entry for each time (R290) -/
  broken : List (Nat × Nat × Nat) := []
deriving DecidableEq, Repr

/-- A collective group (R280, R293). -/
structure Group where
  entry : BitVec 256 := 0
  waiting : List Nat := []
  colls : List Coll := []
  /-- the acceptances of other participants as they become known here (R293, R297) -/
  peers : List PeerAccept := []
deriving DecidableEq, Repr

/-- A strait port (R417 to R420). -/
structure Strait where
  /-- 0 DOWN, 1 TRAINING, 2 UP; the entry's version -/
  state : Nat := 0
  version : Nat := 0
  peerPkg : Nat := 0
  peerPort : Nat := 0
  /-- identity at the last UP: package, port -/
  lastUp : Option (Nat × Nat) := none
  identity : Option (Nat × Nat) := none
  agreed : Bool := false
  crcRun : Nat := 0
  /-- lanes on which STOP was sent -/
  stopped : List Nat := []
deriving DecidableEq, Repr

/-- A domain link set (R282, R421). -/
structure LinkSet where
  version : Nat := 0
  /-- UP edges (lower package, higher package, port on the lower) -/
  edges : List (Nat × Nat × Nat) := []
deriving DecidableEq, Repr

/-- An Ethernet port (R412, R413, R415). -/
structure EthPort where
  rate : Nat := 0
  vlans : List Nat := []
  roce : Nat := 0
  ecn : Bool := false
deriving DecidableEq, Repr

/-- A queue pair (R413, R414). -/
structure QueuePair where
  asid : Nat := 0
  /-- 0 unbound, 1 MEMORY, 2 STREAM, 3 MANAGEMENT -/
  role : Nat := 0
  /-- percent of line rate, in thousandths -/
  rate : Nat := 100000
  lastCut : Option Nat := none
  /-- since when no congestion notification has come and no rise was made -/
  quietSince : Nat := 0
deriving DecidableEq, Repr

/-- The PTP servo (R266, R267, R415). -/
structure Servo where
  locked : Bool := false
  ever : Bool := false
  inRun : Nat := 0
  outRun : Nat := 0
  offset : Int := 0
  active : Nat := 0
  domain : Nat := 0
  delay : Nat := 0
  transport : Nat := 0
  grandmaster : Nat := 0
  master : Bool := false
deriving DecidableEq, Repr

/-! Firmware (spec 22). -/

/-- The role of a firmware complex (R390, R393, R400). -/
inductive Role where
  | none | active | standby | halted
deriving DecidableEq, Repr

/-- A firmware complex. -/
structure Complex where
  role : Role := .none
  /-- flash slot of the running image -/
  slot : Nat := 0
  svn : Nat := 0
  frozen : Bool := false
  /-- its measurement FWM, the image body in its SRAM, and the cores that run it (R390, R393) -/
  fwm : BitVec 512 := 0
  sram : List Byte := []
  cores : Nat := 0
deriving DecidableEq, Repr

/-- A firmware image as it stands in a slot of NOR flash (R392). -/
structure Flash where
  header : BitVec 512 := 0
  pubkey : List Byte := []
  signature : List Byte := []
  body : List Byte := []
deriving DecidableEq, Repr

/-- A live update under way (R399): slot, since when it waits for a quiescent boundary. -/
structure Update where
  slot : Nat := 0
  since : Nat := 0
deriving DecidableEq, Repr

/-- What a takeover holds back (R400): time, source, and what is to happen. -/
inductive HeldEffect where
  | gangDone (gang : Nat)
  | instEnd (inst : Nat)
  | signal (pa status : Nat)
deriving DecidableEq, Repr

/-- The attestation record's changing fields and the firmware's own state (R394 to R400). -/
structure Firmware where
  cfgm : BitVec 512 := 0
  imgm : BitVec 512 := 0
  imgCount : Nat := 0
  liveUpd : Nat := 0
  svnMin : Nat := 0
  keys : FMap (List Byte) := []
  /-- SEQ: mirror entries the standby has applied (R397) -/
  mirrorSeq : Nat := 0
  /-- entries acknowledged by the standby and not applied yet (R398) -/
  mirrorDue : Nat := 0
  hold : Option (List (Nat × Nat × HeldEffect)) := none
  update : Option Update := none
deriving DecidableEq, Repr

/-- An entry of the loss list (R377). -/
structure Loss where
  inst : Nat := 0
  queue : Nat := 0
  graph : Ref := {}
  signal : Ref := {}
deriving DecidableEq, Repr

/-- What leaves the package toward a host, a manager or a peer. -/
inductive Output where
  | nak (qp : Nat)
  | ack (qp : Nat)
  | readData (qp : Nat) (data : List Byte)
  | response (request : String) (data : List Byte)
  | datagram (seq drops : BitVec 32) (recs : List EventRec)
  | flit (port : Nat) (c : LinkChange)
  | tableRequest (port : Nat)
  | identity (port : Nat)
  | stop (port lane : Nat)
  | go (port lane : Nat)
  | marked (port : Nat)
deriving DecidableEq, Repr

/-- A move of some agent, with the device time, in 2^-16 ns, that passes before it (notes/assumptions/3.md). -/
inductive Move where
  | issue (dt tile : Nat)
  | happen (dt : Nat) (i : Instr)
deriving DecidableEq, Repr

/-! The whole package. -/

/-- Tiles, contexts and memory: what kernels reach directly. -/
structure Core where
  cur : Nat × Nat := (0, 0)
  ctxs : FMap Ctx := []
  tiles : FMap Tile := []
  mem : List Host.Cell := []
  capTags : FMap Bool := []
  /-- host-visible bytes as last flushed through the export point (R209, R238) -/
  exported : FMap Byte := []
  /-- copies of remote 64-byte lines, by physical address / 64 (R235) -/
  remoteLines : FMap (List Byte) := []
  homeQ : List HomeAtomic := []
  cmds : List PumpCmd := []
deriving DecidableEq, Repr

/-- The command processor and the launch unit. -/
structure Command where
  queues : FMap Queue := []
  pending : List Nat := []
  /-- a slot of the private buffer has freed since the set bits were last served (R331) -/
  slotFreed : Bool := false
  lastServiced : Nat := 0
  /-- ready nodes of tick instances, by queue: ahead of every ready list (R346) -/
  ahead : List (Nat × ReadyItem) := []
  regions : FMap (BitVec 2048) := []
  /-- ENERGY of each region below 1 µJ, in pJ (R409) -/
  regionEnergy : FMap Nat := []
  insts : FMap Inst := []
  gangs : FMap Gang := []
  saves : FMap Saved := []
  usedSlots : List (Nat × Nat) := []
  lottery : Word := 1
  plUsed : FMap Nat := []
  plPoolUsed : Nat := 0
  arms : FMap Arm := []
  regens : List Regen := []
  images : List Image := []
  loss : List Loss := []
deriving DecidableEq, Repr

/-- The tables that the driver writes through the firmware, and the partitions' logs. -/
structure Tables where
  asids : FMap (BitVec 256) := []
  partitions : FMap (BitVec 256) := []
  services : FMap (BitVec 512) := []
  powers : FMap (BitVec 256) := []
deriving DecidableEq, Repr

/-- Streams, arenas, collectives. -/
structure Engines where
  streams : FMap Stream := []
  stray : BitVec 32 := 0
  arenas : FMap Arena := []
  jobs : FMap (List Job) := []
  groups : FMap Group := []
deriving DecidableEq, Repr

/-- Links, Ethernet, PTP. -/
structure Network where
  pkg : Nat := 0
  straits : FMap Strait := []
  applied : Nat := 0
  changes : List LinkChange := []
  /-- the domain link sets retained; at reset that of version 0, in which no strait is UP (R282) -/
  sets : List LinkSet := [{}]
  /-- the version below which nothing is used, after a neighbour's full table (R421) -/
  floor : Nat := 0
  /-- changes still to be sent, each with the port it came from: the active complex floods (R282, R390, R421) -/
  unsent : List (LinkChange × Nat) := []
  ports : FMap EthPort := []
  qps : FMap QueuePair := []
  servo : Servo := {}
  outbox : List Output := []
deriving DecidableEq, Repr

/-- Power, clocks and energy. -/
structure Power where
  islands : FMap Island := []
  slices : FMap Slice := []
  /-- an access of the move being made meets memory that is not ready: the move waits (R375, R396) -/
  blocked : Bool := false
  wakesBegun : List Nat := []
  rails : FMap Rail := []
  /-- ticks of 1 ms completed, counted from device time 0 (R403) -/
  tick : Nat := 0
  inputEnergy : Nat := 0
  inputHistory : List Nat := []
  energy : FMap Nat := []
  residue : FMap Nat := []
  /-- activity units of the task on each context in this tick, its share so far in pJ, and the units of tasks that have
  left, by region (R409) -/
  activity : FMap Nat := []
  shares : FMap Nat := []
  doneUnits : FMap Nat := []
  regionTick : FMap Nat := []
  chains : FMap Chain := []
  leases : List Lease := []
  heat : FMap Byte := []
  /-- power was lost; down until a power-on reset (R376) -/
  down : Bool := false
  /-- what the next power-up finds with wrong parity, as BROWN_OUT brought it (R374); the model's own -/
  flips : List (Nat × Nat × Nat) := []
  /-- the contexts whose watched word a home has written, by tile and context (R372) -/
  monHits : List Nat := []
deriving DecidableEq, Repr

/-- Firmware complexes, flash, early service, telemetry. -/
structure Security where
  complexes : FMap Complex := []
  /-- NOR flash, by offset (R392) -/
  nor : FMap Byte := []
  fw : Firmware := {}
  trained : Bool := false
  telemetry : List EventRec := []
  telemetryDrops : BitVec 32 := 0
  telemetrySeq : BitVec 32 := 0
  lastRecord : FMap Nat := []
deriving DecidableEq, Repr

/-- The state of the package. `now` is device time in units of 2^-16 ns (R266). -/
structure State where
  now : Nat := 0
  freeCtr : Nat := 0
  nextId : Nat := 1
  agenda : List Move := []
  core : Core := {}
  cp : Command := {}
  tab : Tables := {}
  eng : Engines := {}
  net : Network := {}
  pow : Power := {}
  sec : Security := {}
deriving DecidableEq, Repr

/-- Why the machine stops. -/
inductive Fault where
  /-- An access reached a physical address in a space that R354 reserves (SPACE 5 to 15) or past the end of its space (R1,
  R354), where the spec says nothing exists. Raised by the memory operations. Safe: the hardware's answer is not stated. -/
  | reservedSpace (pa : Nat)
deriving DecidableEq, Repr

/-- Why a step has no meaning here. -/
inductive Refusal where
  /-- The instruction of this mnemonic has no meaning yet. Raised by `exec` alone. Safe: the run stops. -/
  | notModelled (mnemonic : String)
deriving DecidableEq, Repr

/-- The package right after reset. DESIGN CHOICE: notes/assumptions/2.md. DESIGN CHOICE: notes/assumptions/6.md. -/
def State.reset : State := {}

end Sys2Proof.Machine
end

