-- ==== Sys2Proof/Machine/Mem.lean ====
section
/-! DEFINITION. Contexts, tiles, bytes, capabilities and translation: spec/09_memory_model.md R227 to R230,
spec/19_faults_preemption.md R352 to R359. -/

namespace Sys2Proof.Machine

/-! Contexts and tiles. -/

/-- The key of a context: four per tile (R13). -/
def ctxKey (t c : Nat) : Nat := 4 * t + c

/-- Context `c` of tile `t`. -/
def State.ctx (s : State) (t c : Nat) : Ctx := FMap.get (Ctx.init c) s.core.ctxs (ctxKey t c)

/-- Context `c` of tile `t` replaced. -/
def State.setCtx (s : State) (t c : Nat) (x : Ctx) : State :=
  { s with core := { s.core with ctxs := FMap.set (Ctx.init c) s.core.ctxs (ctxKey t c) x } }

/-- Context `c` of tile `t` changed. -/
def State.modCtx (s : State) (t c : Nat) (f : Ctx → Ctx) : State := s.setCtx t c (f (s.ctx t c))

/-- The tile whose bundle is being issued. -/
def State.myTile (s : State) : Nat := s.core.cur.1
/-- The context whose bundle is being issued. -/
def State.myCtx (s : State) : Nat := s.core.cur.2
/-- The context whose bundle is being issued. -/
def State.me (s : State) : Ctx := s.ctx s.core.cur.1 s.core.cur.2
/-- The issuing context replaced. -/
def State.setMe (s : State) (x : Ctx) : State := s.setCtx s.core.cur.1 s.core.cur.2 x
/-- The issuing context changed. -/
def State.modMe (s : State) (f : Ctx → Ctx) : State := s.setMe (f s.me)

/-- A tile. -/
def State.tile (s : State) (t : Nat) : Tile := FMap.get {} s.core.tiles t
/-- A tile replaced. -/
def State.setTile (s : State) (t : Nat) (x : Tile) : State :=
  { s with core := { s.core with tiles := FMap.set {} s.core.tiles t x } }
/-- A tile changed. -/
def State.modTile (s : State) (t : Nat) (f : Tile → Tile) : State := s.setTile t (f (s.tile t))

/-- Device time in ns (R266). -/
def State.ns (s : State) : Nat := s.now / 65536

/-- A fresh free value (notes/assumptions/5.md), and the state with its counter advanced. -/
def State.free (s : State) : Word × State :=
  (Config.freeWord s.freeCtr, { s with freeCtr := s.freeCtr + 1 })

/-! Stops. -/

/-- The trap codes of R349. -/
def trapILLEGAL_BUNDLE : BitVec 16 := 0x0101
def trapILLEGAL_OP : BitVec 16 := 0x0102
def trapCAP_BOUNDS : BitVec 16 := 0x0103
def trapCAP_RIGHTS : BitVec 16 := 0x0104
def trapCAP_TAG : BitVec 16 := 0x0105
def trapFETCH_BOUNDS : BitVec 16 := 0x0106
def trapPAGE_ABSENT : BitVec 16 := 0x0107
def trapPAGE_REGEN : BitVec 16 := 0x0108
def trapWELL_ECC : BitVec 16 := 0x0109
def trapTID_INVALID : BitVec 16 := 0x010A
def trapFEATURE : BitVec 16 := 0x010B
def trapJOB_ORDER : BitVec 16 := 0x010C
def trapCB_CONFIG : BitVec 16 := 0x010D
def trapRETENTION_LOSS : BitVec 16 := 0x010E
def trapLRANK : BitVec 16 := 0x010F
def trapDUPMISMATCH : BitVec 16 := 0x0110
def trapTRAP : BitVec 16 := 0x0111

/-- A system trap as it is raised: code, subcode, slot, object and offset of the access, and the page to be
regenerated (R349, R350, R359). -/
structure Trap where
  code : BitVec 16 := 0
  sub : BitVec 16 := 0
  slot : Nat := 0
  obj : Nat := 0
  off : Nat := 0
  /-- the well page, tile and page, that the access found bad (R378) -/
  bad : Option (Nat × Nat) := none
deriving DecidableEq, Repr

/-- Why an operation does not complete: a trap its context takes, or a fault of the model. -/
inductive Stop where
  | trap (t : Trap)
  | fault (f : Fault)
deriving DecidableEq, Repr

/-- ILLEGAL_OP with a REASON and FIELDLO (R85). -/
def illegal (slot reason fieldLo : Nat) : Stop :=
  .trap { code := trapILLEGAL_OP, sub := illegalSubcode reason fieldLo slot, slot := slot }

/-- ILLEGAL_OP with REASON LIMIT for a run-time operand (R86): the cause is no field.
DEDUCED: notes/assumptions/14.md. -/
def limitTrap (slot : Nat) : Stop := illegal slot 11 63

/-- A trap whose subcode is the slot (R349). -/
def slotTrap (code : BitVec 16) (slot : Nat) (obj off : Nat) : Stop :=
  .trap { code := code, sub := BitVec.ofNat 16 slot, slot := slot, obj := obj, off := off }

/-- `.ok ()` where the condition holds, else the stop. -/
def require (ok : Bool) (e : Stop) : Except Stop Unit := if ok then .ok () else .error e

/-! Bytes. -/

/-- The canonical form of memory: addresses strictly rising, no entry equal to what an unlisted byte reads as.
DESIGN CHOICE: notes/assumptions/1.md. -/
def Memory.wf (m : List Host.Cell) : Bool := FMap.wf (0 : Byte) m

/-- The byte at a physical address; an unlisted byte reads 0 (notes/assumptions/1.md). -/
def State.rd8 (s : State) (pa : Nat) : Byte := FMap.get 0 s.core.mem pa

/-- The tags kept, less those of the 16-byte units of [pa, pa + n): bytes that CAPST does not write carry tag 0 (R200,
R299). DEDUCED: notes/assumptions/73.md. -/
def untag (tags : FMap Bool) (pa n : Nat) : FMap Bool :=
  tags.filter fun (u, _) => !(decide (0 < n) && decide (16 * u < pa + n) && decide (pa < 16 * u + 16))

/-- The byte at a physical address written. DESIGN CHOICE: notes/assumptions/1.md. DEDUCED: notes/assumptions/73.md. -/
def State.wr8 (s : State) (pa : Nat) (v : Byte) : State :=
  { s with core := { s.core with mem := FMap.set 0 s.core.mem pa v, capTags := untag s.core.capTags pa 1 } }

/-- `n` bytes from a physical address. DESIGN CHOICE: notes/assumptions/4.md. -/
def State.rdBytes (s : State) (pa n : Nat) : List Byte := FMap.getRun 0 s.core.mem pa n

/-- Bytes written from a physical address up.
DESIGN CHOICE: notes/assumptions/1.md. DESIGN CHOICE: notes/assumptions/4.md. DEDUCED: notes/assumptions/73.md. -/
def State.wrBytes (s : State) (pa : Nat) (bs : List Byte) : State :=
  { s with core := { s.core with mem := FMap.setRun 0 s.core.mem pa bs, capTags := untag s.core.capTags pa bs.length } }

/-- The number that bytes hold, the first lowest (R3). -/
def leNat : List Byte → Nat
  | [] => 0
  | b :: bs => b.toNat + 256 * leNat bs

/-- The `n` low bytes of a number, the lowest first (R3). -/
def leBytes : Nat → Nat → List Byte
  | 0, _ => []
  | n + 1, v => BitVec.ofNat 8 v :: leBytes n (v / 256)

/-- The `n`-byte number at a physical address. -/
def State.rdNat (s : State) (pa n : Nat) : Nat := leNat (s.rdBytes pa n)
/-- The `n`-byte number at a physical address written. -/
def State.wrNat (s : State) (pa n v : Nat) : State := s.wrBytes pa (leBytes n v)

/-- Cells written one by one. -/
def State.wrCells (s : State) : List (Nat × Byte) → State
  | [] => s
  | (a, v) :: cs => (s.wr8 a v).wrCells cs

/-! Physical addresses (R354). -/

/-- PKG of a physical address. -/
def paPkg (pa : Nat) : Nat := pa / 2 ^ 58 % 64
/-- SPACE of a physical address. -/
def paSpace (pa : Nat) : Nat := pa / 2 ^ 54 % 16
/-- ADDR of a physical address. -/
def paAddr (pa : Nat) : Nat := pa % 2 ^ 54
/-- The physical address of an offset of a tile's scratchpad in this package. -/
def State.scratchPa (s : State) (t off : Nat) : Nat := s.net.pkg * 2 ^ 58 + 4 * 2 ^ 54 + t * 2 ^ 22 + off
/-- The physical address of an offset of a tile's well in this package. -/
def State.wellPa (s : State) (t off : Nat) : Nat := s.net.pkg * 2 ^ 58 + 3 * 2 ^ 54 + t * 2 ^ 26 + off
/-- The physical address of an offset of the mailbox window of this package. -/
def State.mailPa (s : State) (off : Nat) : Nat := s.net.pkg * 2 ^ 58 + 2 * 2 ^ 54 + off
/-- The size of a well and of a scratchpad (R1). -/
def wellBytes : Nat := 48 * 2 ^ 20
def scratchBytes : Nat := 2 * 2 ^ 20

/-- The LPDDR6 channel of byte address a and the offset within it, for channels of c bytes (R416): boot, main and upper
range. -/
def lpddrChannel (c a : Nat) : Nat × Nat :=
  let g := 2 ^ 30
  let top := g + 32 * (c - g)
  if a < g then (0, a)
  else if a < top then
    let u := (a - g) / 256
    (u % 32, 256 * (u / 32) + a % 256 + if u % 32 = 0 then g else 0)
  else
    let v := (a - top) / 256
    (1 + v % 31, c - g + 256 * (v / 31) + a % 256)

/-- The home slice of a byte of LPDDR6 or the pinned carve-out (R231). -/
def homeSlice (pa : Nat) : Nat := paAddr pa / 64 % 512

/-! Capabilities (R227, R228). -/

def Cap.rights (c : Cap) : BitVec 8 := c.bits.extractLsb' 120 8
def Cap.kind (c : Cap) : Nat := bitsOf c.bits 119 116
def Cap.obj (c : Cap) : Nat := bitsOf c.bits 115 96
def Cap.offset (c : Cap) : Nat := bitsOf c.bits 95 48
def Cap.exp (c : Cap) : Nat := bitsOf c.bits 47 42
def Cap.baseM (c : Cap) : Nat := bitsOf c.bits 41 21
def Cap.lenM (c : Cap) : Nat := bitsOf c.bits 20 0

/-- Window start (R227). -/
def Cap.ws (c : Cap) : Nat := c.baseM * 2 ^ c.exp
/-- Window end (R227). -/
def Cap.we (c : Cap) : Nat := (c.baseM + c.lenM) * 2 ^ c.exp

/-- A capability put together from its fields (R227). -/
def mkCap (rights kind obj offset exp baseM lenM : Nat) (tag : Bool) : Cap :=
  { bits := BitVec.ofNat 8 rights ++ BitVec.ofNat 4 kind ++ BitVec.ofNat 20 obj ++ BitVec.ofNat 48 offset ++
      BitVec.ofNat 6 exp ++ BitVec.ofNat 21 baseM ++ BitVec.ofNat 21 lenM, tag := tag }

/-- The capability with another offset, modulo 2^48 (R104). -/
def Cap.withOffset (c : Cap) (off : Nat) : Cap :=
  mkCap c.rights.toNat c.kind c.obj off c.exp c.baseM c.lenM c.tag

/-- The rights bits (R228). -/
def rR : Nat := 0
def rW : Nat := 1
def rX : Nat := 2
def rA : Nat := 3
def rPS : Nat := 4
def rPD : Nat := 5
def rKV : Nat := 6
def rC : Nat := 7

/-- The kind codes (R228). -/
def kGLOBAL : Nat := 0
def kSCRATCH : Nat := 1
def kARENA : Nat := 2
def kSIGNAL : Nat := 3
def kCODE : Nat := 4
def kCAPSTORE : Nat := 5
def kMAILBOX : Nat := 6

/-- Whether a mask holds every right of a list. -/
def hasRights (mask : BitVec 8) (rs : List Nat) : Bool := rs.all fun r => mask.getLsbD r
/-- Whether a mask holds one right of a list. -/
def hasSome (mask : BitVec 8) (rs : List Nat) : Bool := rs.any fun r => mask.getLsbD r

/-- The effective offset (R192). -/
def effOff (c : Cap) (delta : Int) : Nat := (((c.offset : Int) + delta) % 2 ^ 48).toNat

/-- Steps 1 to 4 of R230 at issue: tag, kind, rights (all of `rs`, and one of `any` where it is not empty), bounds. -/
def capCheck (slot : Nat) (c : Cap) (kinds rs any : List Nat) (eo len : Nat) : Except Stop Unit := do
  require c.tag (slotTrap trapCAP_TAG slot c.obj eo)
  require (kinds.contains c.kind) (slotTrap trapCAP_RIGHTS slot c.obj eo)
  require (hasRights c.rights rs && (any.isEmpty || hasSome c.rights any)) (slotTrap trapCAP_RIGHTS slot c.obj eo)
  require (decide (c.exp ≤ 48) && decide (c.ws ≤ eo) && decide (eo + len ≤ c.we))
    (slotTrap trapCAP_BOUNDS slot c.obj eo)

/-! Translation (R352 to R359). -/

/-- The ASID table entry (R352). -/
def State.asidEntry (s : State) (asid : Nat) : BitVec 256 := FMap.get 0 s.tab.asids asid

/-- Whether a physical address names a byte that exists (R1, R354): LPDDR6 is 512 GiB, the pinned carve-out 6 GiB, the
mailbox 16 MiB. DESIGN CHOICE: notes/assumptions/63.md. -/
def paExists (pa : Nat) : Bool :=
  let a := paAddr pa
  match paSpace pa with
  | 0 => decide (a < 512 * 2 ^ 30)
  | 1 => decide (a < 6 * 2 ^ 30)
  | 2 => decide (a < 2 ^ 24)
  | 3 => decide (a < 2 ^ 35) && decide (a % 2 ^ 26 < wellBytes)
  | 4 => decide (a < 2 ^ 31) && decide (a % 2 ^ 22 < scratchBytes)
  | _ => false

/-- Whether tables may lie at this address: LPDDR6 of the package itself (R354). -/
def State.tableOk (s : State) (pa : Nat) : Bool := paSpace pa == 0 && paPkg pa == s.net.pkg

/-- Whether the extent of a MAP 0 entry exceeds its well or scratchpad space (R353, R354). -/
def extentBad (base len : Nat) : Bool :=
  if paSpace base = 3 then decide (wellBytes < paAddr base % 2 ^ 26 + len)
  else if paSpace base = 4 then decide (scratchBytes < paAddr base % 2 ^ 21 + len) || paAddr base / 2 ^ 21 % 2 != 0
  else if paSpace base = 2 then decide (2 ^ 24 < paAddr base + len)
  else false

/-- Whether an object-table entry is valid (R353). -/
def entryValid (e : BitVec 256) : Bool :=
  e.getLsbD 0 && bitsOf e 255 208 == 0 && bitsOf e 79 1 == 0 && bitsOf e 83 82 != 3 &&
    !(bitsOf e 83 82 == 2 && bitsOf e 87 84 != kARENA) &&
    !(bitsOf e 83 82 == 0 && extentBad (bitsOf e 159 96) (bitsOf e 207 160)) &&
    !(bitsOf e 83 82 == 0 && paSpace (bitsOf e 159 96) == 3 && hasSome (e.extractLsb' 88 8) [rW, rPD, rA, rKV])

/-- The object-table entry as the table in memory holds it; none where it is invalid (R230, R352 to R354). -/
def State.walkObj (s : State) (asid obj : Nat) : Option (BitVec 256) :=
  let a := s.asidEntry asid
  if !a.getLsbD 0 || decide (bitsOf a 191 172 ≤ obj) || !s.tableOk (bitsOf a 255 192) then none
  else
    let e := BitVec.ofNat 256 (s.rdNat (bitsOf a 255 192 + 32 * obj) 32)
    if entryValid e then some e else none

/-- The translation a tile port uses: the cached one where there is one (R356). -/
def State.lookObj (s : State) (t asid obj : Nat) : Option (BitVec 256) :=
  match (s.tile t).tlbObjs.find? fun x => x.asid == asid && x.obj == obj with
  | some x => some x.entry
  | none => s.walkObj asid obj

/-- A list kept to `cap` entries: the oldest not pinned leaves first (R355, R356).
DESIGN CHOICE: notes/assumptions/23.md. -/
def evictTo {α : Type} (cap : Nat) (pinned : α → Bool) (xs : List α) : List α :=
  if xs.length ≤ cap then xs
  else if xs.all pinned then xs.drop 1
  else
    let k := xs.findIdx fun x => !pinned x
    xs.take k ++ xs.drop (k + 1)

/-- An object translation remembered by a tile port (R356: 32 entries). DESIGN CHOICE: notes/assumptions/23.md. -/
def State.fillObj (s : State) (t asid obj : Nat) (e : BitVec 256) : State :=
  if (s.tile t).tlbObjs.any fun x => x.asid == asid && x.obj == obj then s
  else s.modTile t fun x =>
    { x with tlbObjs := evictTo 32 (fun _ => false) (x.tlbObjs ++ [{ asid := asid, obj := obj, entry := e }]) }

/-- What a page-map walk finds (R355, R359). -/
inductive PageWalk where
  | page (p : TlbPage)
  /-- absent, with the page's first byte, size, entry address and REGEN index -/
  | absent (start size entry regen : Nat)
  | invalid
deriving DecidableEq, Repr

/-- The walk of a page map for the byte at `off` (R355). -/
def State.walkPage (s : State) (asid obj map off : Nat) : PageWalk :=
  let leaf (entry size : Nat) : PageWalk :=
    let e := s.rdNat entry 16
    let start := off / size * size
    if e / 8 % 2 = 1 then
      .page { asid := asid, obj := obj, start := start, size := size, pa := e / 2 ^ 64, entry := entry,
              pinned := e / 2 % 2 == 1, dirty := e / 4 % 2 == 1 }
    else .absent start size entry (e / 2 ^ 52 % 2 ^ 12)
  let top := map + 16 * (off / 2 ^ 21)
  if !s.tableOk map then .invalid
  else
    let e := s.rdNat top 16
    if e % 2 = 0 then leaf top (2 ^ 21)
    else
      let tbl := e / 2 ^ 64
      let sub := tbl + 16 * (off % 2 ^ 21 / 2 ^ 16)
      if !s.tableOk tbl || s.rdNat sub 16 % 2 == 1 then .invalid else leaf sub (2 ^ 16)

/-- The page that holds `off`: from the port's cache where it holds it (R356). -/
def State.lookPage (s : State) (t asid obj map off : Nat) : PageWalk :=
  match (s.tile t).tlbPages.find? fun x =>
      x.asid == asid && x.obj == obj && decide (x.start ≤ off) && decide (off < x.start + x.size) with
  | some p => .page p
  | none => s.walkPage asid obj map off

/-- A page translation remembered by a tile port (R356: 64 entries). DESIGN CHOICE: notes/assumptions/23.md. -/
def State.fillPage (s : State) (t : Nat) (p : TlbPage) : State :=
  if (s.tile t).tlbPages.any fun x => x.asid == p.asid && x.obj == p.obj && x.start == p.start then s
  else s.modTile t fun x => { x with tlbPages := evictTo 64 (fun y => y.pinned) (x.tlbPages ++ [p]) }

/-- The regeneration entry of an index, valid (R359). -/
def State.regenEntry (s : State) (asid index : Nat) : Option (BitVec 256) :=
  let a := s.asidEntry asid
  if index = 0 ∨ bitsOf a 171 160 ≤ index ∨ !s.tableOk (bitsOf a 159 96) then none
  else
    let e := BitVec.ofNat 256 (s.rdNat (bitsOf a 159 96 + 32 * index) 32)
    if e.getLsbD 0 then some e else none

/-- A physical piece of an access: first address and length. -/
abbrev Piece := Nat × Nat

/-- The physical address of an extent's byte: LOCAL scratchpad names tile `t` (R354). -/
def extentPa (t base off : Nat) : Nat :=
  if paSpace base = 4 ∧ base / 2 ^ 31 % 2 = 1 then
    base - base % 2 ^ 32 + t * 2 ^ 22 + base % 2 ^ 21 + off
  else base + off

/-- Where the pages of [off, off + len) lie: pieces in order, the page-map entries a write must mark dirty, and the
caches filled on the way (R355, R356, R358). `fuel` bounds the number of pages. -/
def State.pagePieces (s : State) (t asid obj map slot : Nat) : Nat → Nat → Nat →
    Except Stop (State × List Piece × List Nat)
  | 0, _, _ => .ok (s, [], [])
  | fuel + 1, off, len =>
    if len = 0 then .ok (s, [], [])
    else match s.lookPage t asid obj map off with
      | .invalid => .error (slotTrap trapCAP_BOUNDS slot obj off)
      | .absent start _ _ regen =>
        .error (slotTrap (if (s.regenEntry asid regen).isSome then trapPAGE_REGEN else trapPAGE_ABSENT) slot obj start)
      | .page p => do
        let n := min len (p.start + p.size - off)
        let (s', ps, ds) ← (s.fillPage t p).pagePieces t asid obj map slot fuel (off + n) (len - n)
        .ok (s', (extentPa t p.pa (off - p.start), n) :: ps, if p.dirty then ds else p.entry :: ds)

/-- Whether every piece lies in memory that exists (R1, R354). DESIGN CHOICE: notes/assumptions/63.md. -/
def checkPieces : List Piece → Except Stop Unit
  | [] => .ok ()
  | (pa, n) :: ps => do
    require (paExists pa && (n == 0 || paExists (pa + (n - 1)))) (.fault (.reservedSpace pa))
    checkPieces ps

/-- The memory port's translation of [off, off + len) of an object (R230): its kind and the rights the access needs
are held against the entry, its length against the object's, then the pages are found. -/
def State.translate (s : State) (t asid slot obj kind : Nat) (rs any : List Nat) (off len : Nat) :
    Except Stop (State × List Piece × List Nat) := do
  match s.lookObj t asid obj with
  | none => .error (slotTrap trapCAP_BOUNDS slot obj off)
  | some e =>
    let s := s.fillObj t asid obj e
    let lim := e.extractLsb' 88 8
    require (bitsOf e 87 84 == kind) (slotTrap trapCAP_RIGHTS slot obj off)
    require (hasRights lim rs && (any.isEmpty || hasSome lim any)) (slotTrap trapCAP_RIGHTS slot obj off)
    require (decide (off + len ≤ bitsOf e 207 160)) (slotTrap trapCAP_BOUNDS slot obj off)
    let base := bitsOf e 159 96
    let r ← (match bitsOf e 83 82 with
      | 0 => .ok (s, [(extentPa t base off, len)], [])
      | 1 => s.pagePieces t asid obj base slot (len / 65536 + 2) off len
      | _ => .error (slotTrap trapCAP_RIGHTS slot obj off))
    checkPieces r.2.1
    .ok r

/-- Whether a physical address lies in tile t's scratchpad (R354). -/
def State.ownScratch (s : State) (t pa : Nat) : Bool :=
  paSpace pa == 4 && paPkg pa == s.net.pkg && paAddr pa / 2 ^ 22 % 512 == t

/-- Where the bytes [off, off + len) of an object lie as tile t's port sees them, no right being asked for; nothing where
the object or a page of it has no place (R353, R355). -/
def State.objPieces (s : State) (t asid obj off len : Nat) : List Piece :=
  match s.lookObj t asid obj with
  | none => []
  | some e =>
    let base := bitsOf e 159 96
    match bitsOf e 83 82 with
    | 0 => [(extentPa t base off, len)]
    | 1 => (match s.pagePieces t asid obj base 0 (len / 65536 + 2) off len with
        | .ok r => r.2.1
        | .error _ => [])
    | _ => []

/-- Whether bytes of a SCRATCH object lie in the scratchpad of another tile than `t`, of this package or another (R193). -/
def State.otherScratch (s : State) (t asid obj off len : Nat) : Bool :=
  (s.objPieces t asid obj off len).any fun p => paSpace p.1 == 4 && !s.ownScratch t p.1

/-- Whether bytes of an object lie elsewhere than in tile t's scratchpad (R205). -/
def State.notScratch (s : State) (t asid obj off len : Nat) : Bool :=
  (s.objPieces t asid obj off len).any fun p => !s.ownScratch t p.1

/-- The bytes of pieces, in order. -/
def State.rdPieces (s : State) (ps : List Piece) : List Byte := ps.flatMap fun (pa, n) => s.rdBytes pa n

/-- Bytes laid over pieces in order, as cells. -/
def cellsOf : List Piece → List Byte → List (Nat × Byte)
  | [], _ => []
  | (pa, n) :: ps, bs => ((List.range n).zip (bs.take n)).map (fun (i, b) => (pa + i, b)) ++ cellsOf ps (bs.drop n)

/-- Page-map entries marked DIRTY in memory (R358). -/
def State.markDirty (s : State) : List Nat → State
  | [] => s
  | e :: es => (s.wr8 e (s.rd8 e ||| 4#8)).markDirty es

/-- The tag kept for the 16-byte unit at a physical address (R200). -/
def State.rdTag (s : State) (pa : Nat) : Bool := FMap.get false s.core.capTags (pa / 16)
/-- The tag of the 16-byte unit written (R200). -/
def State.wrTag (s : State) (pa : Nat) (v : Bool) : State :=
  { s with core := { s.core with capTags := FMap.set false s.core.capTags (pa / 16) v } }

end Sys2Proof.Machine
end

