-- ==== Sys2Proof/Machine/Ops.lean ====
section
/-! DEFINITION. The shared operations over registers, the window, commit stage, regions and records, the taking of a
user and of a system trap, and the frame in which every slot operation runs at issue. Spec 00, 01, 04, 18, 19. -/

namespace Sys2Proof.Machine

/-- Whether a command belongs to the task on its context. -/
def PumpCmd.owned (m : PumpCmd) : Bool := m.job.isNone && !m.left

/-! Registers (R14, R96). -/

/-- s[n]; s0 reads zero (R96). -/
def Regs.getS (r : Regs) (n : Nat) : Word := if n = 0 then 0 else FMap.get 0 r.s n
/-- s[n] written; a write to s0 is discarded (R96). -/
def Regs.setS (r : Regs) (n : Nat) (v : Word) : Regs := if n = 0 then r else { r with s := FMap.set 0 r.s n v }
/-- p[n]; p0 reads all ones (R96). -/
def Regs.getP (r : Regs) (n : Nat) : Mask := if n = 0 then BitVec.allOnes 64 else FMap.get 0 r.p n
/-- p[n] written; a write to p0 is discarded (R96). -/
def Regs.setP (r : Regs) (n : Nat) (v : Mask) : Regs := if n = 0 then r else { r with p := FMap.set 0 r.p n v }
/-- a[n] with its tag. -/
def Regs.getA (r : Regs) (n : Nat) : Cap := FMap.get {} r.a n
/-- a[n] written. -/
def Regs.setA (r : Regs) (n : Nat) (v : Cap) : Regs := { r with a := FMap.set {} r.a n v }
/-- b[n]. -/
def Regs.getB (r : Regs) (n : Nat) : Off := FMap.get 0 r.b n
/-- b[n] written. -/
def Regs.setB (r : Regs) (n : Nat) (v : Off) : Regs := { r with b := FMap.set 0 r.b n v }

/-- The registers a slot operation reads: the captured ones of R21, or, for slot 0 and an operation run alone, the live
ones. -/
def Ctx.src (x : Ctx) : Regs := x.captured.getD x.regs

/-- s[n] as the running operation reads it. -/
def State.rs (s : State) (n : BitVec 6) : Word := s.me.src.getS n.toNat
/-- p[n] as the running operation reads it. -/
def State.rp (s : State) (n : Nat) : Mask := s.me.src.getP n
/-- a[n] as the running operation reads it. -/
def State.ra (s : State) (n : Nat) : Cap := s.me.src.getA n
/-- b[n] as the running operation reads it. -/
def State.rb (s : State) (n : Nat) : Off := s.me.src.getB n

/-- The registers of the issuing context changed. -/
def State.modRegs (s : State) (f : Regs → Regs) : State := s.modMe fun x => { x with regs := f x.regs }
/-- s[n] := v. DEDUCED: notes/assumptions/30.md. -/
def State.putS (s : State) (n : Nat) (v : Word) : State := s.modRegs fun r => r.setS n v
/-- p[n] := v. -/
def State.putP (s : State) (n : Nat) (v : Mask) : State := s.modRegs fun r => r.setP n v
/-- a[n] := v. -/
def State.putA (s : State) (n : Nat) (v : Cap) : State := s.modRegs fun r => r.setA n v
/-- b[n] := v. -/
def State.putB (s : State) (n : Nat) (v : Off) : State := s.modRegs fun r => r.setB n v

/-- All 64 bits of a predicate set to one truth value (R101). -/
def allBits (b : Bool) : Mask := if b then BitVec.allOnes 64 else 0

/-- A scalar result: the registers changed, and the scalar latch ls (R24). DEDUCED: notes/assumptions/18.md. -/
def State.scalarOut (s : State) (f : Regs → Regs) (v : BitVec 128) : State :=
  s.modMe fun x => { x with regs := f x.regs, latches := { x.latches with ls := v } }

/-- A scalar operation's s-register result, with the latch of R24. -/
def State.scalarS (s : State) (rd : BitVec 6) (v : Word) : State := s.scalarOut (fun r => r.setS rd.toNat v) (v.zeroExtend 128)
/-- A scalar operation's predicate result, with the latch of R24. -/
def State.scalarP (s : State) (rd : BitVec 6) (v : Mask) : State := s.scalarOut (fun r => r.setP rd.toNat v) (v.zeroExtend 128)
/-- A scalar operation's a-register result, with the latch of R24. -/
def State.scalarA (s : State) (rd : BitVec 6) (v : Cap) : State := s.scalarOut (fun r => r.setA rd.toNat v) v.bits
/-- A scalar operation's b-register result, with the latch of R24. -/
def State.scalarB (s : State) (rd : BitVec 6) (v : Off) : State := s.scalarOut (fun r => r.setB rd.toNat v) (v.zeroExtend 128)

/-- The load latch ll (R24). DEDUCED: notes/assumptions/18.md. -/
def State.latchLl (s : State) (bs : List Byte) : State := s.modMe fun x => { x with latches := { x.latches with ll := bs } }
/-- The matrix latch lm (R425). DEDUCED: notes/assumptions/18.md. -/
def State.latchLm (s : State) (bs : List Byte) : State := s.modMe fun x => { x with latches := { x.latches with lm := bs } }
/-- The latch of a vector unit: unit A for slot 1, B for slot 2 (R128). DEDUCED: notes/assumptions/18.md. -/
def State.latchLv (s : State) (unitB : Bool) (bs : List Byte) : State :=
  s.modMe fun x => { x with latches := if unitB then { x.latches with lvb := bs } else { x.latches with lva := bs } }

/-! Handles (R28). -/

/-- h[n]. -/
def Ctx.handle (x : Ctx) (n : Nat) : Handle := FMap.get {} x.h n
/-- h[n] replaced. -/
def Ctx.setHandle (x : Ctx) (n : Nat) (v : Handle) : Ctx := { x with h := FMap.set {} x.h n v }
/-- STATE[k] of a handle. -/
def Handle.st (h : Handle) (k : Nat) : SlotState := FMap.get .free h.state k
/-- LEFT[k] of a handle. -/
def Handle.lf (h : Handle) (k : Nat) : Nat := FMap.get 0 h.left k

/-- Delivery of b bytes into slot k (R29). -/
def Handle.deliver (h : Handle) (k b : Nat) : Handle :=
  if h.st k = .filling ∧ b ≤ h.lf k then
    { h with left := FMap.set 0 h.left k (h.lf k - b),
             state := if h.lf k = b then FMap.set .free h.state k .filled else h.state }
  else { h with left := FMap.set 0 h.left k 0, state := FMap.set .free h.state k .filled, overrun := true }

/-- The slots that the scratchpad bytes [off, off + len) lie in, with the bytes in each, and whether some lie outside
the ring (R30, R201). -/
def Handle.parts (h : Handle) (off len : Nat) : List (Nat × Nat) × Bool :=
  let sz := h.ssize * 256
  let lo (k : Nat) := max off (h.base + k * sz)
  let hi (k : Nat) := min (off + len) (h.base + (k + 1) * sz)
  ((List.range h.count).filterMap fun k => if lo k < hi k then some (k, hi k - lo k) else none,
    decide (off < h.base) || decide (h.base + h.count * sz < off + len))

/-- Bytes charged to a handle (R29, R30); those outside its ring set OVERRUN (R201, R207). -/
def Handle.charge (h : Handle) (off len : Nat) : Handle :=
  if len = 0 then h
  else
    let (ps, out) := h.parts off len
    let h' := ps.foldl (fun a (k, b) => a.deliver k b) h
    if out then { h' with overrun := true } else h'

/-! Views and predicates (R15, R16, R72, R310). -/

/-- The view registers and window length of a context, as R16 needs them. -/
def Ctx.viewEnv (x : Ctx) : ViewEnv :=
  { vBase := x.views.v, tBase := x.views.t, cBase := x.views.c, kBase := x.views.k, kCap := x.views.kCap,
    winBytes := 4096 * x.sys.winSize }

/-- The view bases through which the destination of a marked operation resolves (R310). -/
def Ctx.shadowEnv (x : Ctx) : ViewEnv :=
  match x.task with
  | none => x.viewEnv
  | some k => { x.viewEnv with vBase := k.shV.getD x.views.v, tBase := k.shT.getD x.views.t, cBase := k.shC.getD x.views.c }

/-- The view bases of the destination: the shadow ones in a marked slot (R310). -/
def Ctx.dstEnv (x : Ctx) (g : Guard) : ViewEnv := if g.dup then x.shadowEnv else x.viewEnv

/-- The predicate mask of an operation: its register, inverted under PN (R72). -/
def State.lanes (s : State) (g : Guard) : Mask :=
  if g.pn then ~~~(s.rp g.pred.toNat) else s.rp g.pred.toNat

/-- The condition of an operation that uses bit 0 (R72). -/
def State.cond (s : State) (g : Guard) : Bool := (s.lanes g).getLsbD 0

/-- The first byte in register space of a window offset (R15). -/
def Ctx.winAt (x : Ctx) (off : Nat) : Nat := 4096 * x.sys.winBase + off

/-- `n` bytes of the issuing context's window. -/
def State.rdWin (s : State) (off n : Nat) : List Byte :=
  FMap.getRun 0 (s.tile s.myTile).space (s.me.winAt off) n

/-- Bytes of the issuing context's window written. -/
def State.wrWin (s : State) (off : Nat) (bs : List Byte) : State :=
  let a := s.me.winAt off
  s.modTile s.myTile fun x => { x with space := FMap.setRun 0 x.space a bs }

/-- What happens only while the package is up (R376): power loss leaves it down until a power-on reset. -/
def State.whenUp (s : State) (r : Host.Outcome State Fault Refusal) : Host.Outcome State Fault Refusal :=
  if s.pow.down then .next s else r

/-- Whether a complex is active, as management requests, packets that firmware serves and journal apply need (R390, R391). -/
def State.fwActive (s : State) : Bool := s.sec.complexes.any fun (_, x) => x.role == .active

/-! Regions of the command processor (R335, R336). -/

/-- A region control block. -/
def State.regionBlock (s : State) (r : Nat) : BitVec 2048 := FMap.get 0 s.cp.regions r

/-- The field of a region under inheritance (R335): `bit` its OVR bit, `f` the field of a block. -/
def State.effField (s : State) (bit : Nat) (f : BitVec 2048 → Nat) : Nat → Nat → Nat
  | 0, _ => 0
  | fuel + 1, r =>
    let b := s.regionBlock r
    if r = 0 then 0 else if b.getLsbD (64 + bit) then f b else s.effField bit f fuel (bitsOf b 15 0)

/-- The class of a region (R335). -/
def State.regionClass (s : State) (r : Nat) : Nat := s.effField 0 (fun b => bitsOf b 49 48) 9 r
/-- The fault domain of a region (R343). -/
def State.regionFault (s : State) (r : Nat) : Nat := s.effField 1 (fun b => bitsOf b 51 50) 9 r
/-- The address space of a region (R335). -/
def State.regionAsid (s : State) (r : Nat) : Nat := s.effField 9 (fun b => bitsOf b 43 32) 9 r
/-- The effective ceiling of a budget (R335, R336): the lesser of the region's own and its parent's; one that the region
does not give is its parent's. DEDUCED: notes/assumptions/72.md. -/
def State.effCeil (s : State) (bit : Nat) (lesser : Nat → Nat → Nat) (f : BitVec 2048 → Nat) : Nat → Nat → Nat
  | 0, _ => 0
  | fuel + 1, r =>
    let b := s.regionBlock r
    let p := bitsOf b 15 0
    if r = 0 then 0
    else if p = 0 then f b
    else if b.getLsbD (64 + bit) then lesser (f b) (s.effCeil bit lesser f fuel p)
    else s.effCeil bit lesser f fuel p

/-- The lesser of two power caps, of which 0 is none (R335). DEDUCED: notes/assumptions/72.md. -/
def lesserCap (a b : Nat) : Nat := if a = 0 then b else if b = 0 then a else min a b

/-- The partition of a region (R335). -/
def State.regionPart (s : State) (r : Nat) : Nat := bitsOf (s.regionBlock r) 18 16
/-- The reserved pending-launch entries of a region: 0 where OVR bit 3 is clear (R335). -/
def State.regionPlres (s : State) (r : Nat) : Nat :=
  if (s.regionBlock r).getLsbD 67 then bitsOf (s.regionBlock r) 175 160 else 0

/-- The effective ISLANDS: intersected up the tree (R336). -/
def State.effIslands (s : State) : Nat → Nat → BitVec 64
  | 0, _ => 0
  | fuel + 1, r =>
    let b := s.regionBlock r
    let p := bitsOf b 15 0
    let own := b.extractLsb' 192 64
    if r = 0 then 0
    else if p = 0 then own
    else if b.getLsbD 68 then own &&& s.effIslands fuel p else s.effIslands fuel p

/-- What a node dispatched now takes of its region (R335 to R337). DEDUCED: notes/assumptions/72.md. -/
def State.regionTerms (s : State) (r : Nat) : Terms :=
  { cls := s.regionClass r, fault := s.regionFault r, asid := s.regionAsid r, islands := s.effIslands 9 r,
    cistern := s.effCeil 5 min (fun b => bitsOf b 303 256) 9 r, pumpsh := s.effCeil 6 min (fun b => bitsOf b 311 304) 9 r,
    powercap := s.effCeil 7 lesserCap (fun b => bitsOf b 335 320) 9 r,
    wellpg := s.effCeil 8 min (fun b => bitsOf b 575 544) 9 r, wellbase := s.effField 8 (fun b => bitsOf b 543 512) 9 r }

/-- Whether region `r` lies in the subtree of `root`. -/
def State.inSubtree (s : State) (root : Nat) : Nat → Nat → Bool
  | 0, _ => false
  | fuel + 1, r => r == root || (r != 0 && s.inSubtree root fuel (bitsOf (s.regionBlock r) 15 0))

/-! Completion signals (R8 to R10). -/

/-- STATUS merged (R10). -/
def mergeStatus (stored incoming : Nat) : Nat :=
  if stored = 0 then incoming
  else if stored = 7 then (if incoming = 0 ∨ incoming = 7 then 7 else incoming)
  else stored

/-- A signal word put together; ERR follows STATUS (R8, R9). -/
def signalWord (status value : Nat) : Word :=
  BitVec.ofNat 64 ((if status = 0 ∨ status = 7 then 0 else 2 ^ 63) + status % 128 * 2 ^ 56 + value % 2 ^ 56)

/-- VALUE of a signal. -/
def sigValue (w : Word) : Nat := bitsOf w 55 0
/-- STATUS of a signal. -/
def sigStatus (w : Word) : Nat := bitsOf w 62 56
/-- ERR of a signal. -/
def sigErr (w : Word) : Bool := w.getLsbD 63

/-- One update of a signal: VALUE changed by `delta`, clamped to 0 and 2^56 − 1, and STATUS merged (R10, R217). -/
def signalMerge (w : Word) (delta : Int) (status : Nat) : Word :=
  signalWord (mergeStatus (sigStatus w) status) (min (2 ^ 56 - 1) (max 0 ((sigValue w : Int) + delta)).toNat)

/-! Cistern slices (R375). -/

/-- A slice. -/
def State.slice (s : State) (n : Nat) : Slice := FMap.get {} s.pow.slices n
/-- A slice changed. -/
def State.modSlice (s : State) (n : Nat) (f : Slice → Slice) : State :=
  { s with pow := { s.pow with slices := FMap.set {} s.pow.slices n (f (s.slice n)) } }

/-- An access comes to a slice; where that is not active, it wakes, and the access waits (R375). -/
def State.touchSlice (s : State) (n : Nat) : State :=
  if (s.slice n).state = .active then s.modSlice n fun x => { x with accessed := s.ns }
  else
    let s1 := s.modSlice n fun x => { x with waking := true }
    { s1 with pow := { s1.pow with blocked := true } }

/-- Whether an address is of LPDDR6 that is not usable until training ends (R396). -/
def State.late (s : State) (pa : Nat) : Bool := !s.sec.trained && paSpace pa == 0 && decide (2 ^ 30 ≤ paAddr pa)

/-- Addresses without those in the 64-byte line of the address before. -/
def lineHeads : Option Nat → List Nat → List Nat
  | _, [] => []
  | last, a :: as => if last = some (a / 64) then lineHeads last as else a :: lineHeads (some (a / 64)) as

/-- An access to some addresses comes to the slices of this package that home them (R231, R375); one to LPDDR6 that is not
trained yet waits (R396). DEDUCED: notes/assumptions/50.md. -/
def State.touch (s : State) (pas : List Nat) : State :=
  ((lineHeads none pas).filter fun pa => decide (paSpace pa ≤ 1) && paPkg pa == s.net.pkg).foldl
    (fun a pa =>
      let b := a.touchSlice (homeSlice pa)
      if b.late pa then { b with pow := { b.pow with blocked := true } } else b) s

/-- An access to pieces of memory comes to the slices that home them. -/
def State.touchPieces (s : State) (ps : List Piece) : State :=
  s.touch (ps.flatMap fun (pa, n) => (List.range ((pa % 64 + n + 63) / 64)).map fun i => pa - pa % 64 + 64 * i)

/-- The state in which a move waits whose access met memory that is not ready: as before it, but the slices wake. -/
def State.waitFor (s t : State) : State :=
  t.pow.slices.foldl (fun a (n, x) => if x.waking then a.modSlice n fun y => { y with waking := true } else a) s

/-- What a move does, or nothing yet where its access must wait (R375, R396). DEDUCED: notes/assumptions/50.md. -/
def State.orWait (s : State) : Host.Outcome State Fault Refusal → Host.Outcome State Fault Refusal
  | .next t => .next (if t.pow.blocked then s.waitFor t else t)
  | r => r

/-! Parked contexts and what wakes them (R371, R372). -/

/-- WAKEAT and MONADDR of a resume record (R371). -/
def recWakeAt (r : BitVec 512) : Nat := bitsOf r 447 384
def recMon (r : BitVec 512) : Nat := bitsOf r 383 320

/-- Whether a context has a valid resume record (R371). -/
def Ctx.parked (x : Ctx) : Bool := x.rec0.getLsbD 0 || x.rec1.getLsbD 0

/-- Whether a written address lies in the word that a parked context watches (R372). -/
def Ctx.watches (x : Ctx) (pas : List Nat) : Bool :=
  x.parked && recMon x.rec0 != 0 && pas.any fun pa => pa / 8 == recMon x.rec0 / 8

/-- The home of some addresses has written them: the parked contexts that watch one are noted (R372). -/
def State.noteWrite (s : State) (pas : List Nat) : State :=
  match s.core.ctxs.filter fun (_, x) => x.watches pas with
  | [] => s
  | hit => { s with pow := { s.pow with monHits := s.pow.monHits ++ hit.map Prod.fst } }

/-- The update of R10 at a physical address. -/
def State.signalAt (s : State) (pa : Nat) (delta : Int) (status : Nat) : State :=
  ((s.wrNat pa 8 (signalMerge (BitVec.ofNat 64 (s.rdNat pa 8)) delta status).toNat).noteWrite [pa]).touch [pa]

/-! The hold buffer of a takeover (R400). -/

/-- An effect put into the hold buffer, stamped with its time and the command processor's number. -/
def State.holdEffect (s : State) (e : HeldEffect) : State :=
  { s with sec := { s.sec with fw := { s.sec.fw with hold := s.sec.fw.hold.map fun h => h ++ [(s.now, 0x5000, e)] } } }

/-- Whether a takeover holds completions back. -/
def State.holding (s : State) : Bool := s.sec.fw.hold.isSome

/-- Whether the hold buffer's 8,192 entries are taken (R400): a completion that meets it full waits. -/
def State.holdFull (s : State) : Bool :=
  match s.sec.fw.hold with
  | some h => decide (8192 ≤ h.length)
  | none => false

/-- A signal update from a packet's retirement (R332, R400). -/
def State.cpSignal (s : State) (pa status : Nat) : State :=
  if s.holding then s.holdEffect (.signal pa status) else s.signalAt pa (-1) status

/-! Event records (R7, R11, R12). -/

/-- How many sources each class of R6 has, class 0 first. -/
def sourceCounts : List Nat := [512, 512, 64, 8, 1, 1, 8, 1, 2, 12, 8]

/-- Whether a source number is one that an agent of the package has (R6). -/
def knownSource (n : Nat) : Bool := decide (n % 4096 < sourceCounts.getD (n / 4096) 0)

/-- The k-th source number of the classes from `cls` on, whose sizes are given. -/
def nthSource (cls k : Nat) : List Nat → Nat
  | [] => 0
  | n :: ns => if k < n then 4096 * cls + k else nthSource (cls + 1) (k - n) ns

/-- One of the 1,129 source numbers of R6, picked by a free value: the source of an event whose reporter the spec does not
name. DESIGN CHOICE: notes/assumptions/53.md. -/
def State.openSource (s : State) : Nat := nthSource 0 ((Config.freeWord s.freeCtr).toNat % 1129) sourceCounts

/-- The time a source may stamp: never one it has used (R7). -/
def State.stamp (s : State) (src : Nat) : Nat × State :=
  let t := max s.ns (FMap.get 0 s.sec.lastRecord src)
  (t, { s with sec := { s.sec with lastRecord := FMap.set 0 s.sec.lastRecord src (t + 1) } })

/-- A record that comes stamped: its source never issues a time twice (R7). -/
def State.stampRec (s : State) (r : EventRec) : EventRec × State :=
  let t := max r.time.toNat (FMap.get 0 s.sec.lastRecord r.source.toNat)
  ({ r with time := BitVec.ofNat 64 t },
    { s with sec := { s.sec with lastRecord := FMap.set 0 s.sec.lastRecord r.source.toNat (t + 1) } })

/-- An event record as 256 bits (R11). -/
def eventBits (r : EventRec) : BitVec 256 := r.payload ++ r.code ++ r.source ++ r.time

/-- An event record from its 256 bits (R11). -/
def eventOf (v : Nat) : EventRec :=
  { time := BitVec.ofNat 64 v, source := BitVec.ofNat 16 (v / 2 ^ 64), code := BitVec.ofNat 16 (v / 2 ^ 80),
    payload := BitVec.ofNat 160 (v / 2 ^ 96) }

/-- Whether a record comes before another (R7). Every queue of R12 holds the records of this package alone, so the package
numbers that R7 compares first are equal. -/
def recBefore (r q : EventRec) : Bool :=
  decide (r.time < q.time) || (r.time == q.time && decide (r.source < q.source))

/-- A record put into a queue at its place in the order of R7 (R12). -/
def insertRec (r : EventRec) : List EventRec → List EventRec
  | [] => [r]
  | q :: qs => if recBefore r q then r :: q :: qs else q :: insertRec r qs

/-- A record in the package's telemetry buffer of 4,096 (R423). -/
def State.postTelemetry (s : State) (r : EventRec) : State :=
  if s.sec.telemetry.length < 4096 then { s with sec := { s.sec with telemetry := insertRec r s.sec.telemetry } }
  else
    let d := s.sec.telemetryDrops
    { s with sec := { s.sec with telemetryDrops := if d = BitVec.allOnes 32 then d else d + 1 } }

/-- A telemetry event of source `src`, stamped now (R423). -/
def State.event (s : State) (src code : Nat) (payload : BitVec 160) : State :=
  let (t, s) := s.stamp src
  s.postTelemetry { time := BitVec.ofNat 64 t, source := BitVec.ofNat 16 src, code := BitVec.ofNat 16 code, payload := payload }

/-- A record in a context's event queue of 16 (R12, R222). -/
def Ctx.postEvent (x : Ctx) (r : EventRec) : Ctx :=
  if x.events.length < 16 then { x with events := insertRec r x.events }
  else { x with firstDrop := if x.drops = 0 then r.time else x.firstDrop,
                drops := if x.drops = BitVec.allOnes 32 then x.drops else x.drops + 1 }

/-- A partition's service entry (R351). -/
def State.service (s : State) (part : Nat) : BitVec 512 := FMap.get 0 s.tab.services part
/-- A partition's service entry replaced. -/
def State.setService (s : State) (part : Nat) (e : BitVec 512) : State :=
  { s with tab := { s.tab with services := FMap.set 0 s.tab.services part e } }

/-- `x` with its bits [lo + n − 1 : lo] replaced by v. -/
def setBits {w : Nat} (x : BitVec w) (lo n v : Nat) : BitVec w :=
  BitVec.ofNat w (x.toNat - bitsOf x (lo + n - 1) lo * 2 ^ lo + v % 2 ^ n * 2 ^ lo)

/-- Whether one fault record comes before another (R7): TIME, then SOURCE, as both layouts place them (R11, R350). -/
def faultBefore (r q : BitVec 512) : Bool :=
  decide (bitsOf r 63 0 < bitsOf q 63 0) || (bitsOf r 63 0 == bitsOf q 63 0 && decide (bitsOf r 79 64 < bitsOf q 79 64))

/-- A record put into a log ring of `size` slots at its place in the order of R7 among the `n` unread ones from record
number `lo` (R12): those it comes before move up one slot. -/
def State.logInsert (s : State) (base size lo : Nat) (r : BitVec 512) : Nat → State
  | 0 => s.wrNat (base + 64 * (lo % size)) 64 r.toNat
  | n + 1 =>
    let q := BitVec.ofNat 512 (s.rdNat (base + 64 * ((lo + n) % size)) 64)
    if faultBefore r q then (s.wrNat (base + 64 * ((lo + n + 1) % size)) 64 q.toNat).logInsert base size lo r n
    else s.wrNat (base + 64 * ((lo + n + 1) % size)) 64 r.toNat

/-- A 64-byte record put into a partition's fault log, in the order of R7 among the records not yet read, or dropped
(R12, R351). -/
def State.logRecord (s : State) (part : Nat) (r : BitVec 512) : State :=
  let e := s.service part
  let base := bitsOf e 63 0
  let size := 2 ^ bitsOf e 68 64
  let head := bitsOf e 159 128
  let read := s.rdNat ((base + 2 ^ 64 - 8) % 2 ^ 64) 8 % 2 ^ 32
  if size < (head + 1 + 2 ^ 32 - read) % 2 ^ 32 then
    s.setService part (setBits e 160 32 (min (bitsOf e 191 160 + 1) (2 ^ 32 - 1)))
  else
    (s.logInsert base size read r ((head + 2 ^ 32 - read) % 2 ^ 32)).setService part (setBits e 128 32 (head + 1))

/-- An event record posted to a queue of R12. -/
def State.postEvent (s : State) (dest : EventDest) (r : EventRec) : State :=
  match dest with
  | .context t c => s.modCtx t c fun x => x.postEvent r
  | .faultLog part high => s.logRecord part (high ++ eventBits r)
  | .telemetry => s.postTelemetry r

/-! Bad well pages (R378). -/

/-- The well of a tile. -/
def State.well (s : State) (t : Nat) : Well := (s.tile t).well
/-- The well of a tile changed. -/
def State.modWell (s : State) (t : Nat) (f : Well → Well) : State := s.modTile t fun x => { x with well := f x.well }

/-- The payload of the events that name a tile and a well page. -/
def tilePagePayload (t p : Nat) : BitVec 160 := BitVec.ofNat 160 (t + p * 2 ^ 32)

/-- A page marked bad, with the event WELL_BAD (R378). -/
def State.markBad (s : State) (t p : Nat) : State :=
  if (s.well t).badPages.contains p then s
  else (s.modWell t fun w => { w with badPages := w.badPages ++ [p] }).event t 0x0131 (tilePagePayload t p)

/-! Pending-launch entries (R221, R335, R336). -/

/-- The entries of the unreserved pool: 4,096 less every reservation (R336). -/
def State.plPool (s : State) : Nat := 4096 - ((s.cp.regions.map fun (r, _) => s.regionPlres r).foldl (· + ·) 0)

/-- Whether the region has a free entry of its own reservation. -/
def State.plOwnFree (s : State) (r : Nat) : Bool := decide (FMap.get 0 s.cp.plUsed r < s.regionPlres r)

/-- An entry taken for a launch by region `r`: from its reservation while any remains, else from the pool (R221). The
result names the reservation, 0 for the pool. -/
def State.takeEntry (s : State) (r : Nat) : Option (Nat × State) :=
  if s.plOwnFree r then
    some (r, { s with cp := { s.cp with plUsed := FMap.set 0 s.cp.plUsed r (FMap.get 0 s.cp.plUsed r + 1) } })
  else if s.cp.plPoolUsed < s.plPool then some (0, { s with cp := { s.cp with plPoolUsed := s.cp.plPoolUsed + 1 } })
  else none

/-- An entry returned (R221). DEDUCED: notes/assumptions/59.md. -/
def State.returnEntry (s : State) (r : Nat) : State :=
  if r = 0 then { s with cp := { s.cp with plPoolUsed := s.cp.plPoolUsed - 1 } }
  else { s with cp := { s.cp with plUsed := FMap.set 0 s.cp.plUsed r (FMap.get 0 s.cp.plUsed r - 1) } }

/-! Idempotent regions (R32 to R36). -/

/-- A region opens at the context's bundle (R36). -/
def Ctx.openRegion (x : Ctx) : Ctx :=
  { x with region := some { pc := x.pc, bundle := x.bundleNo, loops := x.loops,
                            offs := x.regs.a.filterMap fun (j, c) =>
                              if c.offset = 0 then none else some (j, BitVec.ofNat 48 c.offset) } }

/-- The open region, if any, commits: what it held may leave the commit stage (R33 to R35). -/
def Ctx.commitRegion (x : Ctx) : Ctx :=
  { x with region := none, commitQ := x.commitQ.map fun e => { e with held := false } }

/-- The open region commits where an earlier bundle opened it; one that the issuing bundle opens includes that bundle and
stays open (R32, R35). DEDUCED: notes/assumptions/61.md. -/
def Ctx.commitEarlier (x : Ctx) : Ctx :=
  match x.region with
  | some r => if r.bundle = x.bundleNo then x else x.commitRegion
  | none => x.commitRegion

/-- The offsets of a0 to a15 set back to those recorded (R36). -/
def restoreOffs (r : Regs) (offs : FMap Off) : Regs :=
  (List.range 16).foldl (fun r j => r.setA j ((r.getA j).withOffset (FMap.get 0 offs j).toNat)) r

/-- The launch entries that held LAUNCH.nb operations have reserved (R221). -/
def reservedEntries (es : List CommitEntry) : List Nat :=
  es.filterMap fun e => match e.held, e.op with
    | true, .launch _ true r => some r
    | _, _ => none

/-- The open region, if any, aborts (R36): what is held is discarded, reserved launch entries return, the recorded PC,
loop stack and offsets are restored. -/
def State.abortRegion (s : State) (t c : Nat) : State :=
  let x := s.ctx t c
  match x.region with
  | none => s
  | some rec =>
    let s1 := (reservedEntries x.commitQ).foldl State.returnEntry s
    let waits := s.core.cmds.filterMap fun m =>
      if m.tile == t && m.ctx == c && m.owned && decide (rec.bundle ≤ m.bundle) then some m.id else none
    s1.setCtx t c { x with region := none, commitQ := x.commitQ.filter fun e => !e.held, pc := rec.pc,
                           loops := rec.loops, regs := restoreOffs x.regs rec.offs, target := none, redirect := none,
                           captured := none, checked := false, awaitCmds := x.awaitCmds ++ waits }

/-! Gangs, instances and the fault domain (R220, R341, R343, R347). -/

/-- A gang or job node. -/
def State.gang (s : State) (g : Nat) : Gang := FMap.get {} s.cp.gangs g
/-- A gang changed. -/
def State.modGang (s : State) (g : Nat) (f : Gang → Gang) : State :=
  { s with cp := { s.cp with gangs := FMap.set {} s.cp.gangs g (f (s.gang g)) } }
/-- A graph instance. -/
def State.inst (s : State) (i : Nat) : Inst := FMap.get {} s.cp.insts i
/-- A graph instance changed. -/
def State.modInst (s : State) (i : Nat) (f : Inst → Inst) : State :=
  { s with cp := { s.cp with insts := FMap.set {} s.cp.insts i (f (s.inst i)) } }
/-- A queue. -/
def State.queue (s : State) (q : Nat) : Queue := FMap.get {} s.cp.queues q
/-- A queue changed. -/
def State.modQueue (s : State) (q : Nat) (f : Queue → Queue) : State :=
  { s with cp := { s.cp with queues := FMap.set {} s.cp.queues q (f (s.queue q)) } }
/-- A saved task. -/
def State.save (s : State) (k : Nat) : Saved := FMap.get {} s.cp.saves k

/-- An island. -/
def State.island (s : State) (i : Nat) : Island := FMap.get {} s.pow.islands i
/-- An island changed. -/
def State.modIsland (s : State) (i : Nat) (f : Island → Island) : State :=
  { s with pow := { s.pow with islands := FMap.set {} s.pow.islands i (f (s.island i)) } }
/-- Whether work can run on an island: ON, or IDLE, which leaves its clock gate at once (R367, R368). -/
def IslandState.up : IslandState → Bool
  | .on => true
  | .idle => true
  | _ => false

/-- A wake request for an island that sleeps (R368, R369). -/
def State.askWake (s : State) (timed : Bool) (i : Nat) : State :=
  let x := s.island i
  if x.state = .retain ∨ x.state = .off then
    s.modIsland i fun x => { x with wakeReq := some (x.wakeReq.getD s.now), wakeTimed := x.wakeTimed || timed }
  else s

/-- Wake requests for a list of islands. -/
def State.askWakes (s : State) (timed : Bool) (is : List Nat) : State := is.foldl (fun a i => a.askWake timed i) s

/-- The tensor entries of a context invalidated (R159). -/
def Tile.dropTids (x : Tile) (c : Nat) : Tile :=
  { x with tids := x.tids.filter fun (_, d) => d.owner != c }

/-- A saved task given up: its slot frees, its ready item goes, the tensor entries of its context are invalidated; where it
was parked, its resume record is no longer VALID and its island wakes (R159, R298, R347, R361, R373). -/
def State.dropSave (s : State) (k : Nat) : State :=
  let v := s.save k
  let q := (v.ctx.task.map fun x => x.queue).getD 0
  let s1 := s.modQueue q fun x => { x with ready := x.ready.filter fun r => r != .saved k }
  let s2 := { s1 with cp := { s1.cp with saves := FMap.set {} s1.cp.saves k {},
                                         usedSlots := s1.cp.usedSlots.filter fun u => u != (v.part, v.slot) } }
  let s3 := if (s.ctx v.tile v.ctxNo).task.isSome then s2 else s2.modTile v.tile fun x => x.dropTids v.ctxNo
  if v.parked then (s3.modCtx v.tile v.ctxNo fun x => { x with rec0 := 0, rec1 := 0 }).askWake false (v.tile / 8) else s3

/-- A member told to end as under teardown (R347): it ends at its next iteration boundary; a saved one ends at once. -/
def State.endMember (s : State) (g : Nat) (skip : Option (Nat × Nat)) (m : Nat) : State :=
  match (s.gang g).members.getD m .ended with
  | .on t c =>
    if skip = some (t, c) then s
    else s.modCtx t c fun x => { x with preempt := some { kind := .teardown, delivered := some s.ns } }
  | .saved k => (s.dropSave k).modGang g fun x => { x with members := x.members.set m .ended }
  | .ended => s

/-- Every member of a gang but `skip` told to end as under teardown; the gang's status merges `status`, and a wide
variant that has not started is given up with what is kept for it (R298). DEDUCED: notes/assumptions/33.md. -/
def State.abortGang (s : State) (g : Nat) (skip : Option (Nat × Nat)) (status : Nat) : State :=
  let s1 := s.modGang g fun x =>
    { x with status := mergeStatus x.status status, reserved := [], rplw := x.rplw && x.wide }
  (List.range (s1.gang g).members.length).foldl (fun a m => a.endMember g skip m) s1

/-- The entry that a ready item holds. -/
def ReadyItem.entry : ReadyItem → Option Nat
  | .launched _ _ e => e
  | _ => none

/-- Whether a ready item is a node of instance `i`. -/
def ReadyItem.ofInst (i : Nat) : ReadyItem → Bool
  | .node j _ => j == i
  | .launched j _ _ => j == i
  | .saved _ => false

/-- The nodes of an instance that have not been dispatched are discarded; launch entries return (R342, R343, R347). -/
def State.discardNodes (s : State) (i : Nat) : State :=
  let q := (s.inst i).queue
  let gone := (s.queue q).ready.filter (ReadyItem.ofInst i)
  let s1 := (gone.filterMap ReadyItem.entry).foldl State.returnEntry s
  let s2 := s1.modQueue q fun x => { x with ready := x.ready.filter fun r => !ReadyItem.ofInst i r, held := none }
  s2.modInst i fun x => { x with waiting := [], discarded := true }

/-- The numbers of the gangs and job nodes of an instance that have not completed. -/
def State.gangsOf (s : State) (i : Nat) : List Nat :=
  s.cp.gangs.filterMap fun (g, x) => if x.inst == i then some g else none

/-- An instance ended early: undispatched nodes go, running gangs end as under teardown with `status` (R343, R347).
DEDUCED: notes/assumptions/33.md. -/
def State.abortInst (s : State) (i : Nat) (skip : Option (Nat × Nat)) (status : Nat) : State :=
  let s1 := (s.discardNodes i).modInst i fun x => { x with status := mergeStatus x.status status }
  (s1.gangsOf i).foldl (fun a g => a.abortGang g skip status) s1

/-- The region's fault domain acts on a task's fault (R343). DEDUCED: notes/assumptions/33.md. -/
def State.faultDomain (s : State) (t c : Nat) (k : Task) : State :=
  let s1 := s.abortGang k.gang (some (t, c)) 2
  match k.terms.fault with
  | 0 => s1
  | 1 => s1.abortInst k.inst (some (t, c)) 2
  | _ => (s.cp.insts.filterMap fun (i, x) => if s.inSubtree k.region 9 x.region then some i else none).foldl
      (fun a i => a.abortInst i (some (t, c)) 2) s1

/-! The end of a task (R124, R159, R349). -/

/-- Whether nothing of the context is outstanding (R124): no queued operation, no commit entry, no pump command. -/
def State.quiet (s : State) (t c : Nat) : Bool :=
  (s.ctx t c).commitQ.isEmpty && !((s.tile t).inflight.any fun o => o.ctx == c) &&
    !(s.core.cmds.any fun m => m.tile == t && m.ctx == c && m.owned) &&
    !(s.core.homeQ.any fun h => h.tile == t && h.ctx == c) && !(s.tile t).syncQ.any fun w => w.ctx == c

/-- Activity units of the task on a context in this tick: one for each cycle in which it is present, and those of its
issued slots (R409). -/
def State.units (s : State) (t c : Nat) : Nat :=
  let i := FMap.get ({} : Island) s.pow.islands (t / 8)
  FMap.get 0 s.pow.activity (ctxKey t c) + (i.cycles - max i.tickCycles (s.ctx t c).cycStart) / 65536000

/-- Energy in pJ added to ENERGY of a region's block (R335, R409). -/
def State.addEnergy (s : State) (r pj : Nat) : State :=
  let b := s.regionBlock r
  let tot := FMap.get 0 s.cp.regionEnergy r + pj
  if b = 0 then s
  else { s with cp := { s.cp with regions := FMap.set 0 s.cp.regions r (setBits b 576 64 (bitsOf b 639 576 + tot / 1000000)),
                                  regionEnergy := FMap.set 0 s.cp.regionEnergy r (tot % 1000000) } }

/-- At a save and at a task's end its share goes to its region; what it has done in this tick is kept for the tick's
split (R409). -/
def State.settleEnergy (s : State) (t c region : Nat) : State :=
  let k := ctxKey t c
  let s1 := s.addEnergy region (FMap.get 0 s.pow.shares k)
  let done := FMap.set 0 s.pow.doneUnits region (FMap.get 0 s.pow.doneUnits region + s.units t c)
  { s1 with pow := { s1.pow with
    shares := FMap.set 0 s.pow.shares k 0
    activity := FMap.set 0 s.pow.activity k 0
    doneUnits := done } }

/-- A request passes to the context's next task when its task ends in a trap (R349); one that tells the task itself to end
goes with it. DEDUCED: notes/assumptions/44.md. -/
def keepRequest (r : PreReq) : Option PreReq := if r.kind = .teardown then none else some r

/-- The context frees: its member has ended with `status` (R13, R124, R349). -/
def State.freeContext (s : State) (t c status : Nat) : State :=
  match (s.ctx t c).task with
  | none => s.modCtx t c fun x => { x with phase := .idle }
  | some k =>
    let s1 := (s.settleEnergy t c k.region).modGang k.gang fun g =>
      { g with members := g.members.set k.member .ended, status := mergeStatus g.status status }
    let s2 := s1.modTile t fun x => x.dropTids c
    s2.modCtx t c fun x => { x with phase := .idle, task := none, loops := [], region := none,
                                    preempt := if status = 2 ∨ status = 4 then x.preempt.bind keepRequest else none,
                                    awaitCmds := [], fences := [], sys := { x.sys with sup := false } }

/-- A context that only waits for its operations ends once they are complete (R124, R349). -/
def State.settle (s : State) (t c : Nat) : State :=
  match (s.ctx t c).phase with
  | .ending => if s.quiet t c then s.freeContext t c 0 else s
  | .draining st => if s.quiet t c then s.freeContext t c st else s
  | _ => s

/-- What every stop of a task discards: the operations of bundle `n` and later that have not left the commit stage,
and the pump commands still in the port (R348). DEDUCED: notes/assumptions/12.md. -/
def State.discardFrom (s : State) (t c n : Nat) : State :=
  let x := s.ctx t c
  let gone := x.commitQ.filter fun e => decide (n ≤ e.bundle) && !e.stands
  let s1 := (gone.filterMap fun e => match e.op with | .launch _ true r => some r | _ => none).foldl State.returnEntry s
  let s2 := s1.modCtx t c fun x => { x with commitQ := x.commitQ.filter fun e => decide (e.bundle < n) || e.stands, captured := none,
                                            target := none, redirect := none, launchStall := false, checked := false,
                                            loops := [] }
  let s3 := s2.modTile t fun x => { x with syncQ := x.syncQ.filter fun w => w.ctx != c || decide (w.bundle < n) }
  { s3 with core := { s2.core with cmds := s2.core.cmds.filter fun m =>
      !(m.tile == t && m.ctx == c && m.owned && m.place == .port) } }

/-- The task on a context stops with a status; the context frees when its operations are complete (R348, R349).
DEDUCED: notes/assumptions/12.md. -/
def State.stopTask (s : State) (t c n status : Nat) : State :=
  ((s.discardFrom t c n).modCtx t c fun x => { x with phase := .draining status }).settle t c

/-! System traps (R348 to R351). -/

/-- The fault record of R350. -/
def State.faultRecord (s : State) (time t c disp : Nat) (tr : Trap) (pc : Off) : BitVec 512 :=
  let x := s.ctx t c
  let k := x.task.getD {}
  BitVec.ofNat 160 0 ++ (match k.step with | some n => BitVec.ofNat 32 n | none => BitVec.allOnes 32) ++ 0#6 ++
    BitVec.ofBool k.rgn ++ BitVec.ofNat 9 k.member ++ 0#3 ++ BitVec.ofNat 13 k.queue ++ BitVec.ofNat 16 k.node ++
    BitVec.ofNat 16 k.region ++ 0#7 ++ BitVec.ofNat 3 disp ++ BitVec.ofBool (x.region.isSome || x.pageTrap.isSome) ++ BitVec.ofNat 2 c ++
    BitVec.ofNat 3 tr.slot ++ BitVec.ofNat 48 tr.off ++ BitVec.ofNat 12 x.sys.asid ++ BitVec.ofNat 20 tr.obj ++ pc ++
    tr.sub ++ tr.code ++ BitVec.ofNat 16 t ++ BitVec.ofNat 64 time

/-- A fault record written to the log of the task's partition, and its event record to the telemetry buffer (R350, R351,
R423). DEDUCED: notes/assumptions/25.md. -/
def State.writeFault (s : State) (t c disp : Nat) (tr : Trap) (pc : Off) : State :=
  let (time, s1) := s.stamp t
  let r := s.faultRecord time t c disp tr pc
  (s1.logRecord (s.regionPart ((s.ctx t c).task.getD {}).region) r).postTelemetry (eventOf r.toNat)

/-- A regeneration of a page asked for, unless one is already (R359). DEDUCED: notes/assumptions/33.md. -/
def State.requestRegen (s : State) (asid obj start : Nat) : State :=
  if s.cp.regens.any fun r => r.asid == asid && r.obj == obj && r.start == start then s
  else { s with cp := { s.cp with regens := s.cp.regens ++ [{ asid := asid, obj := obj, start := start }] } }

/-- Whether a partition entry makes island `i` part of an existing partition (R401): VALID, and bit i of ISLANDS.
DEDUCED: notes/assumptions/34.md. -/
def partHas (e : BitVec 256) (i : Nat) : Bool := e.getLsbD 0 && e.getLsbD (192 + i)

/-- The absolute islands of a partition by their relative number (R401): its ISLANDS in ascending order.
DEDUCED: notes/assumptions/34.md. -/
def State.islandsOf (s : State) (part : Nat) : List Nat :=
  (List.range 64).filter fun i => partHas (FMap.get 0 s.tab.partitions part) i

/-- The tiles on which tasks of a region may run: those of its effective ISLANDS (R335, R345). -/
def State.regionTiles (s : State) (r : Nat) : List Nat :=
  let isl := s.effIslands 9 r
  let abs := s.islandsOf (s.regionPart r)
  ((List.range abs.length).filter fun k => isl.getLsbD k).flatMap fun k => (List.range 8).map fun j => 8 * abs.getD k 0 + j

/-- A system trap on a context for bundle `n` at `pc` (R348, R349): fault record, region abort (R36), and the
disposition: the task ends and its fault domain acts; or it waits for a page (R359); or it migrates (R364).
DEDUCED: notes/assumptions/12.md. DEDUCED: notes/assumptions/33.md. -/
def State.takeSystemTrap (s : State) (t c : Nat) (tr : Trap) (pc : Off) (n : Nat) : State :=
  let s := match tr.bad with
    | some (u, p) => s.markBad u p
    | none => s
  let x := s.ctx t c
  let k := x.task.getD {}
  let asks := if tr.code = trapPAGE_REGEN then s.requestRegen x.sys.asid tr.obj tr.off else s
  if tr.code = trapPAGE_REGEN ∧ x.region.isSome then
    ((asks.writeFault t c 1 tr pc).abortRegion t c).modCtx t c fun y =>
      { y with phase := .page x.sys.asid tr.obj tr.off, pageTrap := some (tr.slot, pc) }
  else if tr.code = trapFEATURE ∧ x.task.isSome then
    let s1 := (s.writeFault t c 2 tr pc).abortRegion t c
    if (s.regionTiles k.region).any fun u => (s.tile u).feat.getLsbD tr.sub.toNat then
      s1.modCtx t c fun y =>
        { y with phase := .landed, preempt := some { kind := .migrate },
                 task := some { k with feat := k.feat ||| BitVec.ofNat 8 (2 ^ tr.sub.toNat) } }
    else ((s1.writeFault t c 0 tr pc).faultDomain t c k).stopTask t c n 2
  else
    let status := if tr.code = trapRETENTION_LOSS then 4 else 2
    let s1 := (asks.writeFault t c 0 tr pc).abortRegion t c
    (if x.task.isSome then s1.faultDomain t c k else s1).stopTask t c n status

/-- A system trap of the issuing context on the bundle it issues. DESIGN CHOICE: notes/assumptions/11.md. -/
def State.takeTrap (s : State) (tr : Trap) : State :=
  s.takeSystemTrap s.myTile s.myCtx tr s.me.pc s.me.bundleNo

/-- A free save slot of a partition (R351, R360). -/
def State.freeSlot (s : State) (part : Nat) : Option Nat :=
  (List.range (bitsOf (s.service part) 303 288)).find? fun k => !s.cp.usedSlots.contains (part, k)

/-- The requests of a partition's tasks that have been delivered and wait for their save. -/
def State.savesDue (s : State) (part : Nat) : Nat :=
  (s.core.ctxs.filter fun (_, x) => match x.task, x.preempt with
    | some k, some r => r.delivered.isSome && r.kind != .teardown && s.regionPart k.region == part
    | _, _ => false).length

/-- Whether a partition has a free save slot that no delivered request waits to take (R360).
DEDUCED: notes/assumptions/32.md. -/
def State.slotFree (s : State) (part : Nat) : Bool :=
  decide (s.savesDue part <
    ((List.range (bitsOf (s.service part) 303 288)).filter fun k => !s.cp.usedSlots.contains (part, k)).length)

/-- A pre-emption request of a context: delivered at once where its partition has a free save slot (R360). One that
is already there stands; a YIELD.q adds its own asking to it (R123). -/
def State.askPreempt (s : State) (t c : Nat) (kind : PreKind) : State :=
  let when? : Option Nat := if s.slotFree (s.regionPart ((s.ctx t c).task.getD {}).region) then some s.ns else none
  s.modCtx t c fun x => { x with preempt := match x.preempt with
    | some r => some { r with yielded := r.yielded || kind == .yieldQ }
    | none => some { kind := kind, delivered := when?, yielded := kind == .yieldQ } }

/-! User traps (R119). -/

/-- Whether a user trap of the context is vectored (R119). -/
def Ctx.vectored (x : Ctx) : Bool := x.sys.utvecEn && !x.sys.inh

/-- The bundle address after this one (R118). -/
def Ctx.nextPc (x : Ctx) : Off := x.pc + 64

/-- The vectored user trap (R119): the open region commits, UTEPC and UTCAUSE are written, fetch goes to UTVEC. The
step puts the final address of the next fetch, loop-back and branch of the whole bundle applied, into UTEPC. -/
def Ctx.userTrap (x : Ctx) (cause : BitVec 8) (info : BitVec 16) (slot : Nat) : Ctx :=
  let y := x.commitRegion
  { y with redirect := some (y.sys.utvec ++ 0#6),
           sys := { y.sys with utepc := ((x.target.getD x.nextPc).extractLsb' 6 42), inh := true, info := info,
                               slot := BitVec.ofNat 3 slot, cause := cause } }

/-- A user trap of the issuing context (R119): vectored, or a system trap under its own name `tr`. -/
def State.takeUserTrap (s : State) (cause : BitVec 8) (info : BitVec 16) (tr : Trap) : State :=
  if s.me.vectored then s.modMe fun x => x.userTrap cause info tr.slot else s.takeTrap tr

/-! The frame of every slot operation (R70, R72, R84, R310, R424). -/

/-- The outcome of an operation run in state `s`: a trap is taken there and leaves a next state. -/
def finish (s : State) : Except Stop State → Host.Outcome State Fault Refusal
  | .ok s' => .next s'
  | .error (.trap tr) => .next (s.takeTrap tr)
  | .error (.fault f) => .fault f

/-- The operations that may be marked as duplicates (R310). -/
def markable : Instr → Bool
  | .vadd .. | .vsub .. | .vmul .. | .vfma .. | .vmin .. | .vmax .. | .vabs .. | .vneg .. | .vand .. | .vor .. | .vxor ..
  | .vshl .. | .vshr .. | .vsel .. | .vcvt .. | .vquant .. | .vdeq .. | .vexp2 .. | .vlog2 .. | .vrcp .. | .vrsq ..
  | .vsumr .. | .vmaxr .. | .vdot .. | .vshuf .. | .vbcast .. | .vslide .. | .viota .. | .mzero .. | .manchor ..
  | .mma .. | .mmat .. | .mmaw .. | .mread .. => true
  | _ => false

/-- The view kind of a markable operation's destination (R310); MREAD's follows its destination type (R168). -/
def markKind : Instr → ViewKind
  | .mread _ b => if bitsOf b.aux 2 0 = 2 then .v else .t
  | .mzero .. | .manchor .. | .mma .. | .mmat .. | .mmaw .. => .c
  | _ => .v

/-- The destination field of a markable operation. -/
def markDst (body : BitVec 47) : BitVec 8 := body.extractLsb' 39 8

/-- Whether the task has a shadow base of a kind (R310). -/
def Ctx.hasShadow (x : Ctx) : ViewKind → Bool
  | .v => (x.task.bind fun k => k.shV).isSome
  | .t => (x.task.bind fun k => k.shT).isSome
  | .c => (x.task.bind fun k => k.shC).isSome
  | .k => false

/-- The checks of a marked slot's destination (R310): it is no operand-file entry, and its kind has a shadow base.
DEDUCED: notes/assumptions/14.md. -/
def markChecks (x : Ctx) (i : Instr) (body : BitVec 47) : List Check :=
  [(ropLevel (markDst body) == 1, 4, 39), (!x.hasShadow (markKind i), 5, 39)]

/-- The encoding checks of a marked slot (R310): whether the operation may be marked, then R84's, the destination's own
two before its range, which is looked at through the shadow base. -/
def Ctx.markedChecks (x : Ctx) (i : Instr) (body : BitVec 47) : List Check :=
  let cs := (encodingChecks (some x.viewEnv) i).zip (encodingChecks (some x.shadowEnv) i)
  (!markable i, 5, 63) ::
    insertAt (fun d => decide (d.2.2 < 39) || (d.2.2 == 39 && d.2.1 == 6)) (markChecks x i body)
      (cs.map fun (a, b) => if 39 ≤ a.2.2 then b else a)

/-- The SCOPE of VGATH and VSCAT on SCRATCH, at its field's place among R84's checks: only 0 and 1 are accepted (R193). -/
def Ctx.scopeCheck (x : Ctx) : Instr → List Check → List Check
  | .vgath _ b => insertCheck ((x.src.getA b.areg.toNat).kind == kSCRATCH && decide (1 < b.scope.toNat), 5, 28)
  | .vscat _ b => insertCheck ((x.src.getA b.areg.toNat).kind == kSCRATCH && decide (1 < b.scope.toNat), 5, 28)
  | _ => id

/-- The encoding checks of an operation at issue (R84), with those of a marked slot (R310). -/
def Ctx.issueChecks (x : Ctx) (i : Instr) (g : Guard) (body : BitVec 47) : List Check :=
  x.scopeCheck i (if g.dup then x.markedChecks i body else encodingChecks (some x.viewEnv) i)

/-- WJSTAT's reserved MODE where it is discarded, so that R383's earlier checks do not apply (R72, R84). -/
def State.modeCheck (s : State) (g : Guard) : Instr → List Check
  | .wjstat _ b => if s.cond g then [] else [(decide (1 < bitsOf b.aux 5 4), 5, 4)]
  | _ => []

/-- The stop of the encoding checks, if one fails. -/
def State.encStop (s : State) (i : Instr) : Except Stop Unit :=
  match slotFields i with
  | none => .ok ()
  | some f =>
    match firstBad (s.me.issueChecks i f.g f.body ++ s.modeCheck f.g i) with
    | some (r, lo) => .error (illegal f.g.slot.toNat r lo)
    | none => .ok ()

/-- A slot operation whose condition is bit 0 of its predicate (R72): encoding checks; then, unless it is discarded,
its own checks and its effect. DESIGN CHOICE: notes/assumptions/11.md. DEDUCED: notes/assumptions/16.md. -/
def atIssue (i : Instr) (g : Guard) (check : State → Except Stop Unit) (eff : State → Except Stop State) (s : State) :
    Host.Outcome State Fault Refusal :=
  finish s (do
    s.encStop i
    if s.cond g then (do check s; eff s) else .ok s)

/-- A slot operation that uses its predicate lane by lane (R72): it is never discarded. -/
def atIssueLanes (i : Instr) (check : State → Except Stop Unit) (eff : State → Except Stop State) (s : State) :
    Host.Outcome State Fault Refusal :=
  finish s (do
    s.encStop i
    check s
    eff s)

/-- No check beside the encoding. -/
def noCheck (_ : State) : Except Stop Unit := .ok ()

/-- NOP in any slot (R73): it does nothing. -/
def nopForm (i : Instr) (g : Guard) (s : State) : Host.Outcome State Fault Refusal :=
  atIssue i g noCheck (fun s => .ok s) s

/-- FEATURE unless the tile executes the group (R113). -/
def State.needFeature (s : State) (bit : Nat) (slot : Nat) : Except Stop Unit :=
  require ((s.tile s.myTile).feat.getLsbD bit)
    (.trap { code := trapFEATURE, sub := BitVec.ofNat 16 bit, slot := slot })

/-! The commit stage (R33, R34). -/

/-- Whether a region is open on the issuing context. -/
def State.regionOpen (s : State) : Bool := s.me.region.isSome

/-- The bytes that an entry keeps in the store buffer (R33). -/
def CommitOp.storeBytes : CommitOp → Nat
  | .store bs _ => bs.length
  | .capStore _ _ _ => 16
  | _ => 0

/-- Whether an entry holds a translated address (R357). -/
def CommitOp.isTranslated : CommitOp → Bool
  | .launch .. | .launchWait .. | .pump _ | .cbadv .. => false
  | _ => true

/-- Whether an entry is a store, which waits in the store buffer and not in the commit queue (R33). -/
def CommitOp.isStore : CommitOp → Bool
  | .store _ _ => true
  | .capStore _ _ _ => true
  | _ => false

/-- What the open region of a context holds (R33). -/
def Ctx.heldEntries (x : Ctx) : List CommitEntry := x.commitQ.filter fun e => e.held

/-- The bytes that the held stores of a tile's four contexts take in its store buffer (R33).
DEDUCED: notes/assumptions/30.md. -/
def State.storeBuffer (s : State) (t : Nat) : Nat :=
  ((List.range 4).flatMap fun c => (s.ctx t c).heldEntries.map fun e => e.op.storeBytes).foldl (· + ·) 0

/-- Whether an operation of the issuing context fits the tile's store buffer of 64 KiB, or the context's commit queue of
32 entries, beside what is held (R33). DEDUCED: notes/assumptions/30.md. -/
def State.fits (s : State) (op : CommitOp) : Bool :=
  if op.isStore then decide (s.storeBuffer s.myTile + op.storeBytes ≤ 65536)
  else decide ((s.me.heldEntries.filter fun e => !e.op.isStore).length < 32)

/-- The entry of the sync queue that an operation of slot 7 issued now executes behind (R19). -/
def State.lastSync (s : State) (slot : Nat) : Option Nat :=
  if slot = 7 then (s.tile s.myTile).syncQ.getLast?.map fun w => w.id else none

/-- An operation enters the commit stage of the issuing context; in an open region it is held, and one that does not
fit traps REGION_OVERFLOW (R33, R34, R86). -/
def State.commit (s : State) (slot cls scope : Nat) (op : CommitOp) : Except Stop State :=
  let x := s.me
  if x.region.isSome && !s.fits op then .error (illegal slot 8 63)
  else .ok (s.setMe { x with commitQ := x.commitQ ++
    [{ bundle := x.bundleNo, pc := x.pc, cls := cls, scope := scope, held := x.region.isSome, behind := s.lastSync slot,
       op := op }] })

/-- The byte the issuing context sees at a physical address: its own stores that have not left the commit stage, the
latest first, then memory (R33, R234 axiom 1). -/
def forward (q : List CommitEntry) (pa : Nat) (m : Byte) : Byte :=
  match q with
  | [] => m
  | e :: es =>
    forward es pa (match e.op with
      | .store bs _ => ((bs.filter fun (a, _) => a == pa).getLast?.map Prod.snd).getD m
      | .capStore a c _ => if a ≤ pa ∧ pa < a + 16 then c.bits.extractLsb' (8 * (pa - a)) 8 else m
      | _ => m)

/-- The copy of a remote line, if one is kept (R235). -/
def State.copyOf (s : State) (pa : Nat) : Option Byte :=
  match FMap.get [] s.core.remoteLines (pa / 64) with
  | [] => none
  | l => l[pa % 64]?

/-- A byte read at its home, or, for an access that may be served from a copy, from the copy kept (R235). -/
def State.rdVia (s : State) (copies : Bool) (pa : Nat) : Byte :=
  if copies then (s.copyOf pa).getD (s.rd8 pa) else s.rd8 pa

/-- The bytes of pieces as the issuing context sees them (R33, R235). -/
def State.rdOwn (s : State) (copies : Bool) (ps : List Piece) : List Byte :=
  ps.flatMap fun (pa, n) => (List.range n).map fun i => forward s.me.commitQ (pa + i) (s.rdVia copies (pa + i))

/-- The 64-byte lines that pieces touch. -/
def linesOf (ps : List Piece) : List Nat :=
  ps.flatMap fun (pa, n) => (List.range ((pa + n + 63) / 64 - pa / 64)).map fun i => pa / 64 + i

/-- Copies of remote lines taken from their homes; with `fresh`, also of lines kept already (R235). None is evicted.
DEDUCED: notes/assumptions/30.md. DESIGN CHOICE: notes/assumptions/66.md. -/
def State.keepCopies (s : State) (fresh : Bool) (ps : List Piece) : State :=
  { s with core := { s.core with remoteLines := (linesOf ps).foldl (fun m k =>
      if fresh || FMap.get [] m k == [] then FMap.set [] m k (s.rdBytes (64 * k) 64) else m) s.core.remoteLines } }

/-- An acquire at domain or system scope has read at its home: the copy of the line, where one is kept, is refreshed (R235). -/
def State.acquireAt (s : State) (scope pa : Nat) : State :=
  if 5 ≤ scope ∧ FMap.get [] s.core.remoteLines (pa / 64) ≠ [] then s.keepCopies true [(pa, 1)] else s

/-- A byte written at its home and in the copy of its line that this package keeps (R235). -/
def State.wrHome (s : State) (pa : Nat) (v : Byte) : State :=
  let s1 := s.wr8 pa v
  match FMap.get [] s.core.remoteLines (pa / 64) with
  | [] => s1
  | l => { s1 with core := { s1.core with remoteLines := FMap.set [] s1.core.remoteLines (pa / 64) (l.set (pa % 64) v) } }

/-- Stored bytes performed at their homes; their page entries are marked DIRTY first (R235, R358). -/
def State.performStore (s : State) (dirty : List Nat) (cs : List (Nat × Byte)) : State :=
  ((cs.foldl (fun a (pa, v) => a.wrHome pa v) (s.markDirty dirty)).noteWrite (cs.map Prod.fst)).touch (cs.map Prod.fst)

/-- The tag the issuing context sees for a 16-byte unit (R200, R33). -/
def forwardTag (q : List CommitEntry) (pa : Nat) (m : Bool) : Bool :=
  match q with
  | [] => m
  | e :: es => forwardTag es pa (match e.op with | .capStore a c _ => if a = pa then c.tag else m | _ => m)

end Sys2Proof.Machine
end

