-- ==== Sys2Proof/Machine/Flags.lean ====
section
/-! DEFINITION. The flags and counts that operations leave in SR.NFLAG and SR.QCLAMP (R50, R65, R129), the results and
flags of the element arithmetic of R131 to R133, and the comparisons of R102 and R134. -/

namespace Sys2Proof.Machine

/-- Flags added to SR.NFLAG, clamps to SR.QCLAMP, saturating (R50, R65, R129); a marked slot adds nothing (R310). -/
def State.addFlags (s : State) (g : Guard) (fl : Flags) (clamps : Nat) : State :=
  if g.dup then s
  else s.modMe fun x => { x with sys := { x.sys with
    nflag := x.sys.nflag ||| fl,
    qclamp := BitVec.ofNat 32 (min (x.sys.qclamp.toNat + clamps) (2 ^ 32 - 1)) } }

/-- The OR of flags. -/
def orFlags : List Flags → Flags
  | [] => 0
  | f :: fs => f ||| orFlags fs

/-- The condition codes of CMP (R102). -/
def cmpCond (code : Nat) (a b : Word) : Bool :=
  match code with
  | 0 => a == b
  | 1 => a != b
  | 2 => a.slt b
  | 3 => !a.slt b
  | 4 => a.ult b
  | 5 => !a.ult b
  | 6 => !b.slt a
  | 7 => b.slt a
  | 8 => !b.ult a
  | _ => b.ult a

/-- An exact integer reduced to a type of w bits: modulo 2^w, or clamped under SAT with its flag (R132). -/
def reduceInt (signed sat : Bool) (w : Nat) (x : Int) : Nat × Flags :=
  let (lo, hi) := intRange signed w
  let bits (y : Int) : Nat := (y % (2 ^ w : Nat)).toNat
  if sat then (bits (max lo (min hi x)), flagIf (decide (x < lo ∨ hi < x)) flagSAT) else (bits x, 0)

/-- The three-way order of numbers for VMIN, VMAX and the rankings: −0 below +0; false where either is NaN (R133). -/
def Fp.less (a b : Fp) : Bool :=
  match a, b with
  | .nan _, _ => false
  | _, .nan _ => false
  | .inf n, .inf m => n && !m
  | .inf n, _ => n
  | _, .inf m => !m
  | .fin na ma ea, .fin nb mb eb =>
    if ma = 0 ∧ mb = 0 then na && !nb
    else (Fp.fin na ma ea).dy.lt (Fp.fin nb mb eb).dy

/-- IEEE equality: +0 equals −0, NaN equals nothing (R134). -/
def Fp.eqv (a b : Fp) : Bool :=
  match a, b with
  | .inf n, .inf m => n == m
  | .fin na ma ea, .fin nb mb eb => ((Fp.fin na ma ea).dy.sub (Fp.fin nb mb eb).dy).m == 0
  | _, _ => false

/-- IEEE less-than (R134). -/
def Fp.ltv (a b : Fp) : Bool := a.less b && !a.eqv b

/-- The condition codes of VCMP on a type (R134): outcome and flags. -/
def vcmpCond (t : ElemFmt) (code : Nat) (a b : Nat) : Bool × Flags :=
  let x := t.decode a
  let y := t.decode b
  let un := x.isNan || y.isNan
  let r := match code with
    | 0 => x.eqv y
    | 1 => un || !x.eqv y
    | 2 => x.ltv y
    | 3 => x.ltv y || x.eqv y
    | 4 => y.ltv x
    | 5 => y.ltv x || x.eqv y
    | 6 => un
    | _ => !un
  (r, flagIf (x.isSig || y.isSig) flagINV)

/-- The operations of R131 that round or reduce. -/
inductive ArithOp where
  | add | sub | mul | mulHi | fma
deriving DecidableEq, Repr

/-- One element of VADD, VSUB, VMUL or VFMA (R131 to R133): bits and flags. -/
def arithElem (op : ArithOp) (t : ElemFmt) (mode : RMode) (sat : Bool) (a b c : Nat) : Nat × Flags :=
  match t with
  | .fp f =>
    let x := decodeFp f a
    let y := decodeFp f b
    match op with
    | .add => fpAdd f mode x y
    | .sub => fpAdd f mode x (match y with | .nan s => .nan s | .inf n => .inf !n | .fin n m e => .fin (!n) m e)
    | .mul => fpMul f mode x y
    | .mulHi => fpMul f mode x y
    | .fma => fpFma f mode x y (decodeFp f c)
  | .int s w =>
    let x := intOfBits s w a
    let y := intOfBits s w b
    match op with
    | .add => reduceInt s sat w (x + y)
    | .sub => reduceInt s sat w (x - y)
    | .mul => reduceInt s sat w (x * y)
    | .mulHi => ((x * y / (2 ^ w : Nat) % (2 ^ w : Nat)).toNat, 0)
    | .fma => reduceInt s sat w (x * y + intOfBits s w c)
  | .narrow _ => (a, 0)

/-- VMIN and VMAX on one element (R131, R133). -/
def minMaxElem (isMax : Bool) (t : ElemFmt) (a b : Nat) : Nat × Flags :=
  let x := t.decode a
  let y := t.decode b
  let fl := flagIf (x.isSig || y.isSig) flagINV
  match t with
  | .fp f =>
    if x.isNan && y.isNan then (f.nanBits, fl)
    else if x.isNan then (b, fl)
    else if y.isNan then (a, fl)
    else (if (if isMax then y.less x else x.less y) then a else b, fl)
  | _ => (if (if isMax then y.less x else x.less y) then a else b, 0)

/-- VABS and VNEG on one element (R131 to R133). -/
def signElem (neg : Bool) (t : ElemFmt) (sat : Bool) (a : Nat) : Nat × Flags :=
  match t with
  | .fp f =>
    let x := decodeFp f a
    let top := 2 ^ (f.eb + f.mb)
    if x.isNan then (f.nanBits, flagIf x.isSig flagINV)
    else if neg then (if top ≤ a then a - top else a + top, 0)
    else (a % top, 0)
  | .int s w =>
    let x := intOfBits s w a
    if neg then reduceInt s sat w (-x) else reduceInt s sat w (if x < 0 then -x else x)
  | .narrow _ => (a, 0)

end Sys2Proof.Machine
end

