-- ==== Sys2Proof/Machine/Operands.lean ====
section
/-! DEFINITION. The operand forms: scalar immediates (R98), vector operands, latches and constants (R74, R75, R126),
lanes and element-wise writes (R72, R128, R310), and the tensor entry's code format (R126, R151). -/

namespace Sys2Proof.Machine

/-! Scalar forms. -/

/-- IMM32 widened by AUX2[0] (R98). -/
def widen (aux2 : BitVec 2) (imm : BitVec 32) : Word :=
  if aux2.getLsbD 0 then imm.zeroExtend 64 else imm.signExtend 64

/-- The destination field of a scalar body (R76). -/
def sbRd : ScalarBody → BitVec 6
  | .sr rd _ _ _ => rd
  | .si rd _ _ _ => rd
/-- The first source field of a scalar body (R76). -/
def sbRs1 : ScalarBody → BitVec 6
  | .sr _ rs1 _ _ => rs1
  | .si _ rs1 _ _ => rs1
/-- The second operand b: s[rs2], or the widened immediate (R98, R99). -/
def State.opB (s : State) : ScalarBody → Word
  | .sr _ _ rs2 _ => s.rs rs2
  | .si _ _ aux2 imm => widen aux2 imm
/-- U: AUX[0] of the SR form, AUX2[1] of the SI form (R98). -/
def sbU : ScalarBody → Bool
  | .sr _ _ _ aux => aux.getLsbD 0
  | .si _ _ aux2 _ => aux2.getLsbD 1
/-- The second source field of a scalar body; 0 in the SI form. -/
def sbRs2 : ScalarBody → BitVec 6
  | .sr _ _ rs2 _ => rs2
  | .si _ _ _ _ => 0
/-- AUX of the SR form; 0 in the SI form. -/
def sbAux : ScalarBody → BitVec 28
  | .sr _ _ _ aux => aux
  | .si _ _ _ _ => 0
/-- IMM32 of the SI form; 0 in the SR form. -/
def sbImm : ScalarBody → BitVec 32
  | .sr _ _ _ _ => 0
  | .si _ _ _ imm => imm
/-- AUX2 of the SI form; 0 in the SR form. -/
def sbAux2 : ScalarBody → BitVec 2
  | .sr _ _ _ _ => 0
  | .si _ _ aux2 _ => aux2
/-- Whether the body has the SI form. -/
def sbIsSi : ScalarBody → Bool
  | .sr _ _ _ _ => false
  | .si _ _ _ _ => true

/-! Packed elements. -/

/-- The `n` codes of width w packed in N, the lowest first (R43, R126). -/
def elems (w n N : Nat) : List Nat := (List.range n).map fun e => N / 2 ^ (w * e) % 2 ^ w

/-- Code e of width w in N. -/
def elemAt (w N e : Nat) : Nat := N / 2 ^ (w * e) % 2 ^ w

/-- Codes of width w packed, the first lowest (R43, R126). -/
def packElems (w : Nat) : List Nat → Nat
  | [] => 0
  | c :: cs => c % 2 ^ w + 2 ^ w * packElems w cs

/-! Vector operands: 256 bytes held as one number of 2,048 bits. -/

/-- The number of elements of an operand (R126). -/
def ElemFmt.count (t : ElemFmt) : Nat := 2048 / t.bits

/-- The code of a constant in a type: zero, one, all ones, largest finite value (R74, R75). -/
def ElemFmt.const (t : ElemFmt) (k : Nat) : Nat :=
  match k with
  | 0 => 0
  | 1 => (t.encode .rne false (Fp.fin false 1 0).withQ).1
  | 2 => 2 ^ t.bits - 1
  | _ => match t with
    | .int true w => 2 ^ (w - 1) - 1
    | .int false w => 2 ^ w - 1
    | .fp f => f.infBits false - 1
    | .narrow f => f.maxCode

/-- The latches by their index (R74). -/
def Latches.num (l : Latches) : Nat → Nat
  | 0 => l.ls.toNat
  | 1 => leNat l.lva
  | 2 => leNat l.lvb
  | 3 => leNat l.lm
  | _ => leNat l.ll

/-- Whether the operation runs in vector unit B: slot 2 (R69). -/
def unitB (g : Guard) : Bool := g.slot == 2

/-- Operand-file entry `i` of the executing unit. -/
def Ctx.ofile (x : Ctx) (b : Bool) (i : Nat) : Nat := leNat (FMap.getRun 0 (if b then x.ofB else x.ofA) (256 * i) 256)

/-- Operand-file entry `i` written. -/
def Ctx.setOfile (x : Ctx) (b : Bool) (i : Nat) (bs : List Byte) : Ctx :=
  if b then { x with ofB := FMap.setRun 0 x.ofB (256 * i) bs } else { x with ofA := FMap.setRun 0 x.ofA (256 * i) bs }

/-- A vector source operand read as type `t` (R74, R75, R126). -/
def State.vsrc (s : State) (g : Guard) (r : BitVec 8) (t : ElemFmt) : Nat :=
  match ropLevel r with
  | 0 => leNat (s.rdWin (s.me.viewEnv.start .v (ropIndex r)) 256)
  | 1 => s.me.ofile (unitB g) (ropIndex r)
  | 2 => s.me.latches.num (ropIndex r) % 2 ^ 2048
  | _ => packElems t.bits (List.replicate t.count (t.const (ropIndex r)))

/-- The window offset of V view `k` of a destination (R16, R310). -/
def State.dstV (s : State) (g : Guard) (k : Nat) : Nat := (s.me.dstEnv g).start .v k

/-- What destination `r`, moved on by `k` operands, holds before the operation (R128). -/
def State.vold (s : State) (g : Guard) (r : BitVec 8) (k : Nat) : Nat :=
  if ropLevel r = 0 then leNat (s.rdWin (s.dstV g (ropIndex r + k)) 256) else s.me.ofile (unitB g) (ropIndex r + k)

/-- 256 bytes written to destination `r`, moved on by `k` operands (R74, R147). -/
def State.vput (s : State) (g : Guard) (r : BitVec 8) (k N : Nat) : State :=
  let bs := leBytes 256 N
  if ropLevel r = 0 then s.wrWin (s.dstV g (ropIndex r + k)) bs
  else s.modMe fun x => x.setOfile (unitB g) (ropIndex r + k) bs

/-- The unit's latch takes 256 bytes; in a marked slot no latch is written (R128, R310). -/
def State.vlatch (s : State) (g : Guard) (N : Nat) : State :=
  if g.dup then s else s.latchLv (unitB g) (leBytes 256 N)

/-- A vector operation completes: destination, latch, flags and clamps (R128, R129).
DEDUCED: notes/assumptions/18.md. -/
def State.vdone (s : State) (g : Guard) (r : BitVec 8) (N : Nat) (fl : Flags) (clamps : Nat) : State :=
  ((s.vput g r 0 N).vlatch g N).addFlags g fl clamps

/-- Whether element e of width w is active under a mask (R72). -/
def activeElem (m : Mask) (w e : Nat) : Bool := m.getLsbD (e * w / 32)

/-- An element-wise result (R128): element e is `f e`, bits and flags, where its lane is active; the old code stays
elsewhere. -/
def mapElems (m : Mask) (w n old : Nat) (f : Nat → Nat × Flags) : Nat × Flags :=
  let rs := (List.range n).map fun e => if activeElem m w e then f e else (elemAt w old e, 0)
  (packElems w (rs.map Prod.fst), orFlags (rs.map Prod.snd))

/-- The tensor entry N of the issuing tile (R151). -/
def State.tid (s : State) (n : Nat) : Tid := FMap.get {} (s.tile s.myTile).tids n

/-- TID_INVALID on an invalid entry (R151); its subcode is the entry number (R349). -/
def State.needTid (s : State) (slot n : Nat) : Except Stop Unit :=
  require (s.tid n).valid (.trap { code := trapTID_INVALID, sub := BitVec.ofNat 16 n, slot := slot })

/-- The code format of a tensor entry (R126, R152). -/
def Tid.fmt (d : Tid) : NarrowFmt := narrowFmt (d.desc.extractLsb' 0 32)

/-- The type of code `t` for an operation whose narrow format, if it needs one, is that of entry `n` (R77, R126). -/
def State.etype (s : State) (t n : Nat) : ElemFmt := elemFmt (s.tid n).fmt t

end Sys2Proof.Machine
end

