-- ==== Sys2Proof/Machine/Vector.lean ====
section
/-! DEFINITION. The vector slots: spec/05_vector.md R126 to R150. -/

namespace Sys2Proof.Machine

/-! Shared forms. -/

/-- The type of TYPE codes 0 to 8. -/
def vtype (b : VectorBody) : ElemFmt := elemFmt (narrowFmt 0) b.type.toNat
/-- RM of a vector body (R127). -/
def vrm (b : VectorBody) : RMode := rmode (bitsOf b.aux 10 8)
/-- SAT of a vector body (R127). -/
def vsat (b : VectorBody) : Bool := b.aux.getLsbD 7
/-- OPT of a vector body (R127). -/
def vopt (b : VectorBody) : Bool := b.aux.getLsbD 6

/-- The effect of an element-wise operation on up to three sources (R128, R129). -/
def vecEff (g : Guard) (b : VectorBody) (t : ElemFmt) (f : Nat → Nat → Nat → Nat → Nat × Flags) (s : State) : State :=
  let w := t.bits
  let A := s.vsrc g b.va t
  let B := s.vsrc g b.vb t
  let C := s.vsrc g b.vc t
  let (N, fl) := mapElems (s.lanes g) w t.count (s.vold g b.vd 0) fun e => f e (elemAt w A e) (elemAt w B e) (elemAt w C e)
  s.vdone g b.vd N fl 0

/-- An element-wise operation (R128): element e is `f e a b c`. -/
def vecElem (i : Instr) (g : Guard) (b : VectorBody) (f : Nat → Nat → Nat → Nat → Nat × Flags) (s : State) :
    Host.Outcome State Fault Refusal :=
  atIssueLanes i noCheck (fun s => .ok (vecEff g b (vtype b) f s)) s

/-- An arithmetic operation of R131. -/
def vecArith (i : Instr) (g : Guard) (b : VectorBody) (op : ArithOp) (s : State) : Host.Outcome State Fault Refusal :=
  vecElem i g b (fun _ x y z => arithElem op (vtype b) (vrm b) (vsat b) x y z) s

def execNopVector (g : Guard) (body : BitVec 47) (s : State) : Host.Outcome State Fault Refusal :=
  atIssueLanes (.nopVector g body) noCheck (fun s => .ok s) s

/-! Element-wise arithmetic and logic (R131 to R133). -/

def execVadd (g : Guard) (b : VectorBody) (s : State) : Host.Outcome State Fault Refusal := vecArith (.vadd g b) g b .add s
def execVsub (g : Guard) (b : VectorBody) (s : State) : Host.Outcome State Fault Refusal := vecArith (.vsub g b) g b .sub s
def execVmul (g : Guard) (b : VectorBody) (s : State) : Host.Outcome State Fault Refusal :=
  vecArith (.vmul g b) g b (if vopt b then .mulHi else .mul) s
def execVfma (g : Guard) (b : VectorBody) (s : State) : Host.Outcome State Fault Refusal := vecArith (.vfma g b) g b .fma s
def execVmin (g : Guard) (b : VectorBody) (s : State) : Host.Outcome State Fault Refusal :=
  vecElem (.vmin g b) g b (fun _ x y _ => minMaxElem false (vtype b) x y) s
def execVmax (g : Guard) (b : VectorBody) (s : State) : Host.Outcome State Fault Refusal :=
  vecElem (.vmax g b) g b (fun _ x y _ => minMaxElem true (vtype b) x y) s
def execVabs (g : Guard) (b : VectorBody) (s : State) : Host.Outcome State Fault Refusal :=
  vecElem (.vabs g b) g b (fun _ x _ _ => signElem false (vtype b) (vsat b) x) s
def execVneg (g : Guard) (b : VectorBody) (s : State) : Host.Outcome State Fault Refusal :=
  vecElem (.vneg g b) g b (fun _ x _ _ => signElem true (vtype b) (vsat b) x) s
def execVand (g : Guard) (b : VectorBody) (s : State) : Host.Outcome State Fault Refusal :=
  vecElem (.vand g b) g b (fun _ x y _ => (x &&& y, 0)) s
def execVor (g : Guard) (b : VectorBody) (s : State) : Host.Outcome State Fault Refusal :=
  vecElem (.vor g b) g b (fun _ x y _ => (x ||| y, 0)) s
def execVxor (g : Guard) (b : VectorBody) (s : State) : Host.Outcome State Fault Refusal :=
  vecElem (.vxor g b) g b (fun _ x y _ => (x ^^^ y, 0)) s
def execVshl (g : Guard) (b : VectorBody) (s : State) : Host.Outcome State Fault Refusal :=
  vecElem (.vshl g b) g b (fun _ x y _ => (x * 2 ^ (y % (vtype b).bits) % 2 ^ (vtype b).bits, 0)) s

/-- A right shift: sign fill for TYPE 0 to 2, zero fill for 3 to 5 (R131). -/
def vshrElem (signed : Bool) (w x y : Nat) : Nat :=
  (intOfBits signed w x / (2 ^ (y % w) : Nat) % (2 ^ w : Nat)).toNat

def execVshr (g : Guard) (b : VectorBody) (s : State) : Host.Outcome State Fault Refusal :=
  vecElem (.vshr g b) g b (fun _ x y _ => (vshrElem (decide (b.type.toNat < 3)) (vtype b).bits x y, 0)) s

/-! Compare and select (R134, R135). -/

/-- The mask and flags of VCMP: lane i is tested over its elements (R134). -/
def vcmpMask (m : Mask) (t : ElemFmt) (code : Nat) (any : Bool) (A B : Nat) : Mask × Flags :=
  let w := t.bits
  let per := 32 / w
  let lane (i : Nat) : List (Bool × Flags) :=
    if m.getLsbD i then (List.range per).map fun k => vcmpCond t code (elemAt w A (i * per + k)) (elemAt w B (i * per + k))
    else []
  let rs := (List.range 64).map fun i =>
    let l := lane i
    (m.getLsbD i && (if any then l.any Prod.fst else l.all Prod.fst), orFlags (l.map Prod.snd))
  (BitVec.ofNat 64 (packElems 1 (rs.map fun r => r.1.toNat)), orFlags (rs.map Prod.snd))

def execVcmp (g : Guard) (b : VectorBody) (s : State) : Host.Outcome State Fault Refusal :=
  atIssueLanes (.vcmp g b) noCheck (fun s =>
    let t := vtype b
    let (v, fl) := vcmpMask (s.lanes g) t (bitsOf b.aux 9 6) (b.aux.getLsbD 10) (s.vsrc g b.va t) (s.vsrc g b.vb t)
    .ok (((s.putP (bitsOf b.vd 3 0) v).vlatch g v.toNat).addFlags g fl 0)) s
def execVsel (g : Guard) (b : VectorBody) (s : State) : Host.Outcome State Fault Refusal :=
  atIssueLanes (.vsel g b) noCheck (fun s =>
    let p := s.rp (bitsOf b.vc 3 0)
    let w := (vtype b).bits
    let A := s.vsrc g b.va (vtype b)
    let B := s.vsrc g b.vb (vtype b)
    let (N, fl) := mapElems (s.lanes g) w (vtype b).count (s.vold g b.vd 0) fun e =>
      (if activeElem p w e then elemAt w A e else elemAt w B e, 0)
    .ok (s.vdone g b.vd N fl 0)) s

/-! Conversion and quantisation (R136 to R139). -/

/-- Offset, among the elements that take part, of destination element d; none where it is unchanged (R136). -/
def partOffset (ws wd part d : Nat) : Option Nat :=
  let n := 2048 / max ws wd
  if ws ≥ wd then (if part * n ≤ d ∧ d < part * n + n then some (d - part * n) else none) else some d

/-- The source element of offset j (R136). -/
def partSource (ws wd part j : Nat) : Nat := if ws ≥ wd then j else part * (2048 / max ws wd) + j

/-- The codes of a width-changing operation: `f j` gives the result of offset j; inactive and untouched destination
elements stay (R128, R136). The clamps of active elements are counted (R138). -/
def convElems (m : Mask) (ws wd part old : Nat) (f : Nat → Coded) : Nat × Flags × Nat :=
  let rs : List Coded := (List.range (2048 / wd)).map fun d =>
    match partOffset ws wd part d with
    | some j => if activeElem m wd d then f j else (elemAt wd old d, 0, false)
    | none => (elemAt wd old d, 0, false)
  (packElems wd (rs.map Prod.fst), orFlags (rs.map fun r => r.2.1), (rs.filter fun r => r.2.2).length)

/-- PART of a vector body (R136). -/
def vpartNo (b : VectorBody) : Nat := bitsOf b.vc 4 0

/-- The run-time checks of an operation on the narrow format of entry `n`: the entry is valid (R151), PART is in range
(R136). -/
def State.narrowChecks (s : State) (g : Guard) (n ws wd part : Nat) : Except Stop Unit := do
  s.needTid g.slot.toNat n
  require (decide (part < max ws wd / min ws wd)) (limitTrap g.slot.toNat)

/-- VCVT (R137). -/
def vcvtEff (g : Guard) (b : VectorBody) (s : State) : Except Stop State := do
  let n := bitsOf b.aux 5 0
  let st := s.etype b.type.toNat n
  let dt := s.etype (bitsOf b.vb 3 0) n
  if b.type.toNat = 9 ∨ bitsOf b.vb 3 0 = 9 then s.narrowChecks g n st.bits dt.bits (vpartNo b)
  let A := s.vsrc g b.va st
  let (N, fl, _) := convElems (s.lanes g) st.bits dt.bits (vpartNo b) (s.vold g b.vd 0) fun j =>
    convertElem st dt (vrm b) (elemAt st.bits A (partSource st.bits dt.bits (vpartNo b) j))
  .ok (s.vdone g b.vd N fl 0)

def execVcvt (g : Guard) (b : VectorBody) (s : State) : Host.Outcome State Fault Refusal :=
  atIssueLanes (.vcvt g b) noCheck (vcvtEff g b) s

/-- The exact product of two values, with INV for a signalling NaN and for infinity × 0 (R47).
DEDUCED: notes/assumptions/20.md. -/
def fpProd (a c : Fp) : Fp × Flags :=
  let sig := flagIf (a.isSig || c.isSig) flagINV
  if a.isNan || c.isNan then (.nan false, sig)
  else if a.isInf || c.isInf then
    (if a.isZero || c.isZero then (.nan false, flagINV) else (.inf (a.sign != c.sign), 0))
  else
    let d := a.dy.mul c.dy
    (.fin (a.sign != c.sign) d.m.natAbs d.e, 0)

/-- The multiplier's index of offset j (R138). -/
def groupIndex (b : VectorBody) (j : Nat) : Nat :=
  match bitsOf b.aux 7 6 with
  | 0 => j
  | 1 => j / 16
  | 2 => j / 32
  | _ => 0

/-- VQUANT and VDEQ: `quant` from TYPE to the narrow format, else the other way (R138, R139). VQUANT counts an element that
its encode saturated or replaced, and every one whose multiplier is NaN or infinite. The LIMIT check comes before every
element. DESIGN CHOICE: notes/assumptions/70.md. DEDUCED: notes/assumptions/20.md. -/
def quantEff (quant : Bool) (g : Guard) (b : VectorBody) (s : State) : Except Stop State := do
  let n := bitsOf b.aux 5 0
  let nt := ElemFmt.narrow (s.tid n).fmt
  let st := if quant then vtype b else nt
  let dt := if quant then nt else vtype b
  s.narrowChecks g n st.bits dt.bits (vpartNo b)
  let m := s.lanes g
  require ((List.range (2048 / dt.bits)).all fun d =>
    match partOffset st.bits dt.bits (vpartNo b) d with
    | some j => !activeElem m dt.bits d || decide (groupIndex b j < 64)
    | none => true) (limitTrap g.slot.toNat)
  let A := s.vsrc g b.va st
  let B := s.vsrc g b.vb (.fp fp32)
  let (N, fl, clamps) := convElems m st.bits dt.bits (vpartNo b) (s.vold g b.vd 0) fun j =>
    let x := st.decode (elemAt st.bits A (partSource st.bits dt.bits (vpartNo b) j))
    let y := decodeFp fp32 (elemAt 32 B (groupIndex b j))
    let (p, pf) := fpProd x y
    let (c, cf, cl) := dt.encode (vrm b) p.sign p.withQ
    (c, pf ||| cf, quant && (cl || y.isNan || y.isInf))
  .ok (s.vdone g b.vd N fl clamps)

def execVquant (g : Guard) (b : VectorBody) (s : State) : Host.Outcome State Fault Refusal :=
  atIssueLanes (.vquant g b) noCheck (quantEff true g b) s
def execVdeq (g : Guard) (b : VectorBody) (s : State) : Host.Outcome State Fault Refusal :=
  atIssueLanes (.vdeq g b) noCheck (quantEff false g b) s

/-! Defined functions (R140). -/

/-- A defined function on one element: the input converted to FP32, the result rounded to TYPE (R59, R140). -/
def fnElem (f : FpFmt → Fp → Nat × Flags) (t : ElemFmt) (x : Nat) : Nat × Flags :=
  match t with
  | .fp fmt => f fmt (decodeFp fmt x)
  | _ => (x, 0)

def execVexp2 (g : Guard) (b : VectorBody) (s : State) : Host.Outcome State Fault Refusal :=
  vecElem (.vexp2 g b) g b (fun _ x _ _ => fnElem fnExp2 (vtype b) x) s
def execVlog2 (g : Guard) (b : VectorBody) (s : State) : Host.Outcome State Fault Refusal :=
  vecElem (.vlog2 g b) g b (fun _ x _ _ => fnElem fnLog2 (vtype b) x) s
def execVrcp (g : Guard) (b : VectorBody) (s : State) : Host.Outcome State Fault Refusal :=
  vecElem (.vrcp g b) g b (fun _ x _ _ => fnElem fnRcp (vtype b) x) s
def execVrsq (g : Guard) (b : VectorBody) (s : State) : Host.Outcome State Fault Refusal :=
  vecElem (.vrsq g b) g b (fun _ x _ _ => fnElem fnRsq (vtype b) x) s

/-! Reductions (R141 to R144). -/

/-- The result type of a reduction (R141). -/
def redType (b : VectorBody) : ElemFmt :=
  if b.type.toNat < 3 then .int true 32 else if b.type.toNat < 6 then .int false 32 else .fp fp32

/-- The active element numbers of an operand. -/
def activeIdx (m : Mask) (t : ElemFmt) : List Nat := (List.range t.count).filter (activeElem m t.bits)

/-- 32-bit elements 0, 1, … of a destination replaced, the rest unchanged (R141). -/
def replaceLow (old : Nat) (vs : List Nat) : Nat :=
  old / 2 ^ (32 * vs.length) * 2 ^ (32 * vs.length) + packElems 32 vs

/-- One level of the fixed tree: adjacent values added in FP32 RNE (R142). -/
def treeLevel : List (Nat × Flags) → List (Nat × Flags)
  | a :: b :: rest =>
    let (v, f) := fpAdd fp32 .rne (decodeFp fp32 a.1) (decodeFp fp32 b.1)
    (v, a.2 ||| b.2 ||| f) :: treeLevel rest
  | l => l

/-- The fixed tree over at most 2^n values (R142). -/
def treeSum : Nat → List (Nat × Flags) → Nat × Flags
  | 0, l => l.headD (0, 0)
  | n + 1, l => treeSum n (treeLevel l)

/-- VSUMR on values (R142): `addend` as RT; #zero gives the tree none. -/
def sumElems (b : VectorBody) (m : Mask) (A addend : Nat) : Nat × Flags :=
  let t := vtype b
  let w := t.bits
  match redType b with
  | .int sg _ =>
    let tot := ((activeIdx m t).map fun e => intOfBits sg w (elemAt w A e)).foldl (· + ·) (intOfBits sg 32 addend)
    reduceInt sg (vsat b) 32 tot
  | _ =>
    if vopt b then
      (((activeIdx m t).map fun e => t.decode (elemAt w A e)).foldl SumSt.addTerm
        (SumSt.zero.addTerm (decodeFp fp32 addend))).round fp32 (vrm b)
    else
      let leaves := (List.range t.count).map fun e =>
        if activeElem m w e then roundFp fp32 .rne (t.decode (elemAt w A e)) else (0, 0)
      let (v, f) := treeSum 8 leaves
      if ropLevel b.vb = 3 ∧ ropIndex b.vb = 0 then (v, f)
      else
        let (v', f') := fpAdd fp32 .rne (decodeFp fp32 v) (decodeFp fp32 addend)
        (v', f ||| f')

def execVsumr (g : Guard) (b : VectorBody) (s : State) : Host.Outcome State Fault Refusal :=
  atIssueLanes (.vsumr g b) noCheck (fun s =>
    let (v, fl) := sumElems b (s.lanes g) (s.vsrc g b.va (vtype b)) (elemAt 32 (s.vsrc g b.vb (redType b)) 0)
    .ok (s.vdone g b.vd (replaceLow (s.vold g b.vd 0) [v]) fl 0)) s

/-- The least value of a 32-bit type (R143, R148). -/
def leastOf : ElemFmt → Nat
  | .int true _ => 0x80000000
  | .int false _ => 0
  | _ => 0xFF800000

/-- The greatest of values with its position, the first of equals; NaN is skipped (R143). -/
def greatest (vs : List (Nat × Fp)) : Option (Nat × Fp) :=
  vs.foldl (fun acc v =>
    if v.2.isNan then acc
    else match acc with
      | none => some v
      | some a => if a.2.less v.2 then some v else acc) none

/-- VMAXR on values: the two result elements and the flags (R143). -/
def maxElems (b : VectorBody) (m : Mask) (A : Nat) : Nat × Nat × Flags :=
  let t := vtype b
  let vs := (activeIdx m t).map fun e => (e, t.decode (elemAt t.bits A e))
  let fl := flagIf (vs.any fun v => v.2.isSig) flagINV
  match greatest vs with
  | none => (leastOf (redType b), 0xFFFFFFFF, fl)
  | some (e, v) => (((redType b).encode .rne v.sign v.withQ).1, e, fl)

def execVmaxr (g : Guard) (b : VectorBody) (s : State) : Host.Outcome State Fault Refusal :=
  atIssueLanes (.vmaxr g b) noCheck (fun s =>
    let (v, k, fl) := maxElems b (s.lanes g) (s.vsrc g b.va (vtype b))
    .ok (s.vdone g b.vd (replaceLow (s.vold g b.vd 0) (if vopt b then [v, k] else [v])) fl 0)) s

/-- VDOT on values (R144). -/
def dotElems (b : VectorBody) (m : Mask) (A B addend : Nat) : Nat × Flags :=
  let t := vtype b
  let w := t.bits
  match redType b with
  | .int sg _ =>
    let tot := ((activeIdx m t).map fun e => intOfBits sg w (elemAt w A e) * intOfBits sg w (elemAt w B e)).foldl (· + ·)
      (intOfBits sg 32 addend)
    reduceInt sg (vsat b) 32 tot
  | _ =>
    ((activeIdx m t).foldl (fun st e => st.addProd (t.decode (elemAt w A e)) (t.decode (elemAt w B e)))
      (SumSt.zero.addTerm (decodeFp fp32 addend))).round fp32 (vrm b)

def execVdot (g : Guard) (b : VectorBody) (s : State) : Host.Outcome State Fault Refusal :=
  atIssueLanes (.vdot g b) noCheck (fun s =>
    let (v, fl) := dotElems b (s.lanes g) (s.vsrc g b.va (vtype b)) (s.vsrc g b.vb (vtype b))
      (elemAt 32 (s.vsrc g b.vc (redType b)) 0)
    .ok (s.vdone g b.vd (replaceLow (s.vold g b.vd 0) [v]) fl 0)) s

/-! Permutation and compaction (R145, R146). -/

/-- An element-wise operation that reads whole sources (R145). -/
def vecPerm (i : Instr) (g : Guard) (b : VectorBody) (f : (A B C e : Nat) → Nat) (s : State) :
    Host.Outcome State Fault Refusal :=
  atIssueLanes i noCheck (fun s =>
    let t := vtype b
    let A := s.vsrc g b.va t
    let B := s.vsrc g b.vb t
    let C := s.vsrc g b.vc t
    let (N, fl) := mapElems (s.lanes g) t.bits t.count (s.vold g b.vd 0) fun e => (f A B C e, 0)
    .ok (s.vdone g b.vd N fl 0)) s

def execVshuf (g : Guard) (b : VectorBody) (s : State) : Host.Outcome State Fault Refusal :=
  vecPerm (.vshuf g b) g b (fun A B C e =>
    let w := (vtype b).bits
    let n := (vtype b).count
    let i := elemAt w B e
    if i < n then elemAt w A i else if i < 2 * n then elemAt w C (i - n) else 0) s
def execVbcast (g : Guard) (b : VectorBody) (s : State) : Host.Outcome State Fault Refusal :=
  vecPerm (.vbcast g b) g b (fun A _ _ _ => elemAt (vtype b).bits A (bitsOf b.aux 7 0)) s
def execVslide (g : Guard) (b : VectorBody) (s : State) : Host.Outcome State Fault Refusal :=
  vecPerm (.vslide g b) g b (fun A B _ e =>
    let w := (vtype b).bits
    let n := (vtype b).count
    let d := bitsOf b.aux 8 0
    if b.aux.getLsbD 9 then (if d ≤ e then elemAt w A (e - d) else elemAt w B (n - d + e))
    else if e + d < n then elemAt w A (e + d) else elemAt w B (e + d - n)) s
def execViota (g : Guard) (b : VectorBody) (s : State) : Host.Outcome State Fault Refusal :=
  vecPerm (.viota g b) g b (fun A _ _ e =>
    let w := (vtype b).bits
    (elemAt w A 0 + e * bitsOf b.aux 7 0) % 2 ^ w) s
def execVcompr (g : Guard) (b : VectorBody) (s : State) : Host.Outcome State Fault Refusal :=
  atIssueLanes (.vcompr g b) noCheck (fun s =>
    let t := vtype b
    let A := s.vsrc g b.va t
    let cs := (activeIdx (s.lanes g) t).map fun e => elemAt t.bits A e
    .ok ((s.vdone g b.vd (packElems t.bits cs) 0 0).putS (bitsOf b.vc 5 0) (BitVec.ofNat 64 cs.length))) s

/-! Sorting (R147, R148). -/

/-- LIST and OFFS of VPART over keys 0 to K − 1 (R147). -/
def partition (m : Mask) (keys : Nat) (A : Nat) : List Nat × List Nat :=
  (List.range keys).foldl (fun (lst, offs) key =>
    (lst ++ (List.range 64).filter (fun e => m.getLsbD e && elemAt 32 A e == key), offs ++ [lst.length])) ([], [])

/-- A list filled up to 64 elements. -/
def fillTo64 (v : Nat) (l : List Nat) : List Nat := l ++ List.replicate (64 - l.length) v

def execVpart (g : Guard) (b : VectorBody) (s : State) : Host.Outcome State Fault Refusal :=
  atIssueLanes (.vpart g b) noCheck (fun s =>
    let (lst, offs) := partition (s.lanes g) (bitsOf b.aux 5 0 + 1) (s.vsrc g b.va (vtype b))
    let N := packElems 32 (fillTo64 0xFFFFFFFF lst)
    .ok ((((s.vput g b.vd 0 N).vput g b.vd 1 (packElems 32 (fillTo64 lst.length offs))).vlatch g N).putS
      (bitsOf b.vc 5 0) (BitVec.ofNat 64 lst.length))) s

/-- A candidate of VTOPK: value and index codes. -/
abbrev Cand := Nat × Nat

/-- Whether candidate x ranks strictly before y (R148). -/
def ranksBefore (t : ElemFmt) (x y : Cand) : Bool :=
  let a := t.decode x.1
  let c := t.decode y.1
  let above (p q : Fp) : Bool := (q.isNan && !p.isNan) || q.less p
  above a c || (!above c a && decide (x.2 < y.2))

/-- A candidate put into its place: behind those that do not rank after it (R148). -/
def insertCand (t : ElemFmt) (x : Cand) : List Cand → List Cand
  | [] => [x]
  | y :: ys => if ranksBefore t x y then x :: y :: ys else y :: insertCand t x ys

/-- Candidates in rank order; of equals the earlier in the list comes first (R148). -/
def rankCands (t : ElemFmt) (cs : List Cand) : List Cand := cs.foldl (fun acc x => insertCand t x acc) []

def execVtopk (g : Guard) (b : VectorBody) (s : State) : Host.Outcome State Fault Refusal :=
  atIssueLanes (.vtopk g b) noCheck (fun s =>
    let t := vtype b
    let A := s.vsrc g b.va t
    let B := s.vsrc g b.vb (.int false 32)
    let own := (activeIdx (s.lanes g) t).map fun e => (elemAt 32 A e, elemAt 32 B e)
    let nxt := s.vsrc g (b.vc + 1) (.int false 32)
    let prev := s.vsrc g b.vc t
    let old := if vopt b then (List.range 64).map fun e => (elemAt 32 prev e, elemAt 32 nxt e) else []
    let top := (rankCands t (own ++ old)).take (bitsOf b.aux 5 0 + 1)
    let N := packElems 32 (fillTo64 (leastOf t) (top.map Prod.fst))
    .ok (((s.vput g b.vd 0 N).vput g b.vd 1 (packElems 32 (fillTo64 0xFFFFFFFF (top.map Prod.snd)))).vlatch g N)) s

/-! Scalar exchange (R149, R150). -/

/-- The value VMOVS writes: sign-extended for TYPE 0 to 2, else zero-extended (R149). -/
def vmovsVal (b : VectorBody) (A k : Nat) : Word :=
  let w := (vtype b).bits
  BitVec.ofInt 64 (intOfBits (decide (b.type.toNat < 3)) w (elemAt w A k))

def execVmovs (g : Guard) (b : VectorBody) (s : State) : Host.Outcome State Fault Refusal :=
  atIssue (.vmovs g b) g noCheck (fun s =>
    let k := if b.aux.getLsbD 10 then (s.rs (b.vb.extractLsb' 0 6)).toNat % (vtype b).count else bitsOf b.aux 7 0
    let v := vmovsVal b (s.vsrc g b.va (vtype b)) k
    .ok ((s.putS (bitsOf b.vd 5 0) v).vlatch g v.toNat)) s
def execVins (g : Guard) (b : VectorBody) (s : State) : Host.Outcome State Fault Refusal :=
  atIssueLanes (.vins g b) noCheck (fun s =>
    let w := (vtype b).bits
    let v := (s.rs (b.va.extractLsb' 0 6)).toNat % 2 ^ w
    let old := s.vold g b.vd 0
    let (N, fl) := mapElems (s.lanes g) w (vtype b).count old fun e =>
      (if b.aux.getLsbD 10 || e == bitsOf b.aux 7 0 then v else elemAt w old e, 0)
    .ok (s.vdone g b.vd N fl 0)) s

end Sys2Proof.Machine
end

