-- ==== Sys2Proof/Machine/WellOps.lean ====
section
/-! DEFINITION. Reads of a tile's well through its committed page map, with its error handling:
spec/20_normally_off.md R378 to R380, spec/06_matrix.md R162. -/

namespace Sys2Proof.Machine

/-- The first reserved well offset (R379). -/
def wellReserved : Nat := 0x2FBC000
/-- The well offset of shadow page j (R379). -/
def shadowOff (j : Nat) : Nat := 0x2FC0000 + 4096 * j

/-- What a descriptor slot reads: copy 0 where its CRC is correct, else copy 1 where its is (R380).
DEDUCED: notes/assumptions/40.md. -/
def readSlot (c0 c1 : PageDesc) : Option PageDesc := if c0.good then some c0 else if c1.good then some c1 else none

/-- Whether GEN a is newer than b (R380). DEDUCED: notes/assumptions/40.md. -/
def genNewer (a b : BitVec 32) : Bool := decide (1 ≤ (a - b).toNat) && decide ((a - b).toNat < 2 ^ 31)

/-- The number of the active slot, with its descriptor (R380); slot 0 where neither is newer, and, with a descriptor
that redirects nothing, where neither is readable. DEDUCED: notes/assumptions/40.md. -/
def Well.active (w : Well) : Nat × PageDesc :=
  match readSlot w.desc00 w.desc01, readSlot w.desc10 w.desc11 with
  | some a, some b => if genNewer b.gen a.gen then (1, b) else (0, a)
  | some a, none => (0, a)
  | none, some b => (1, b)
  | none, none => (0, {})

/-- The page that a read of page p goes to: its shadow while the active descriptor redirects it (R380). -/
def Well.pageOf (w : Well) (p : Nat) : Nat :=
  if w.active.2.redir then
    match (w.redirect.take w.active.2.nred).find? fun e => e.1 == p with
    | some (_, j) => shadowOff j / 4096
    | none => p
  else p

/-- Pieces of a well read, page by page: physical page, offset in it, length (R380). -/
def Well.pieces (w : Well) : Nat → Nat → Nat → List (Nat × Nat × Nat)
  | 0, _, _ => []
  | fuel + 1, off, n =>
    if n = 0 then []
    else
      let k := min n (4096 - off % 4096)
      (w.pageOf (off / 4096), off % 4096, k) :: w.pieces fuel (off + k) (n - k)

/-- One piece of a well read. The error of a read that faults WELL_ECC holds the page to be marked bad, where it is not
marked already (R378). -/
def State.wellPiece (s : State) (t : Nat) (q : Nat × Nat × Nat) : Except (Option Nat) (List Byte) :=
  let (p, o, n) := q
  let a := 4096 * p + o
  let w := s.well t
  if w.badPages.contains p then .error none
  else if w.eccDouble.any fun k => decide (a / 8 ≤ k ∧ k ≤ (a + n - 1) / 8) then .error (some p)
  else if n = 4096 ∧ w.crcBad.contains p then .error (some p)
  else .ok (s.rdBytes (s.wellPa t a) n)

/-- The pieces of a well read in order. -/
def State.wellPieces (s : State) (t : Nat) : List (Nat × Nat × Nat) → Except (Option Nat) (List Byte)
  | [] => .ok []
  | q :: qs => do
    let bs ← s.wellPiece t q
    let cs ← s.wellPieces t qs
    .ok (bs ++ cs)

/-- A matrix or pump read of n bytes of a tile's well: bytes of the reserved range read zero (R379), the rest goes
through the page map (R162, R380). -/
def State.wellRead (s : State) (t off n : Nat) : Except (Option Nat) (List Byte) := do
  let m := min n (wellReserved - off)
  let bs ← s.wellPieces t ((s.well t).pieces (m / 4096 + 2) off m)
  .ok (bs ++ List.replicate (n - m) 0)

/-- The trap WELL_ECC of a read, with the page it marks (R349, R378). -/
def wellTrap (slot t off : Nat) (page : Option Nat) : Stop :=
  .trap { code := trapWELL_ECC, sub := BitVec.ofNat 16 slot, slot := slot, off := off, bad := page.map fun p => (t, p) }

end Sys2Proof.Machine
end

