-- ==== Sys2Proof/Machine/MatrixDense.lean ====
section
/-! DEFINITION. The matrix slot's dense instructions: spec/06_matrix.md R151 to R168, with the arithmetic of
spec/02_numbers.md R51 to R56. -/

namespace Sys2Proof.Machine

/-! Descriptors (R152, R153). -/

def Tid.kblk (d : Tid) : Nat := bitsOf d.desc 79 64
def Tid.nblk (d : Tid) : Nat := bitsOf d.desc 95 80
def Tid.loc (d : Tid) : Bool := d.desc.getLsbD 96
def Tid.skind (d : Tid) : Bool := d.desc.getLsbD 97
def Tid.shape (d : Tid) : Nat := bitsOf d.desc 100 98
def Tid.base (d : Tid) : Nat := bitsOf d.desc 175 128
def Tid.sbase (d : Tid) : Nat := bitsOf d.desc 239 192
/-- BB = 128 × cw (R153). -/
def Tid.bb (d : Tid) : Nat := 128 * d.fmt.container
/-- Offset of block (kb, nb) from the space's start (R153). -/
def Tid.blockOff (d : Tid) (kb nb : Nat) : Nat := d.base + (kb * d.nblk + nb) * d.bb

/-- h and wd of a SHAPE (R52). -/
def scaleShape (shape : Nat) : Nat × Nat := (2 ^ shape, 2 ^ (5 - shape))

/-- Index of the scale of the weight at global row and column (R52). -/
def Tid.scaleIndex (d : Tid) (row col : Nat) : Nat :=
  let (h, wd) := scaleShape d.shape
  row / h * (32 * d.nblk / wd) + col / wd

/-- The value of a scale byte (R51). -/
def Tid.scaleVal (d : Tid) (b : Nat) : Fp :=
  if d.skind then decodeNarrow (narrowFmt (d.desc.extractLsb' 32 32)) b else .fin false 1 ((b : Int) - 127)

/-- The cursor after one step (R156). -/
def Tid.advance (d : Tid) : Tid :=
  if d.desc.getLsbD 101 then
    (if d.nb + 1 = d.nblk then { d with nb := 0, kb := if d.kblk = 0 then 0 else (d.kb + 1) % d.kblk }
     else { d with nb := d.nb + 1 })
  else if d.kb + 1 = d.kblk then { d with kb := 0, nb := if d.nblk = 0 then 0 else (d.nb + 1) % d.nblk }
  else { d with kb := d.kb + 1 }

/-- Tensor entry N of the issuing tile replaced. -/
def State.setTid (s : State) (n : Nat) (d : Tid) : State :=
  s.modTile s.myTile fun x => { x with tids := FMap.set {} x.tids n d }

/-- The checks TIDSET and the launch unit make on a descriptor, in order (R154): REASON of ILLEGAL_OP. -/
def descReason (v : BitVec 512) : Option Nat :=
  let d : Tid := { desc := v }
  let blocks := d.kblk * d.nblk
  if bitsOf v 319 288 != 0 || bitsOf v 255 240 != 0 || bitsOf v 191 176 != 0 || bitsOf v 127 108 != 0 ||
      bitsOf v 103 102 != 0 || (bitsOf v 63 32 != 0 && !d.skind) || (bitsOf v 107 104 != 0 && !d.loc) then some 3
  else if 6 ≤ d.shape then some 5
  else if !validFormat (v.extractLsb' 0 32) || (d.skind && !validFormat (v.extractLsb' 32 32)) then some 7
  else if d.kblk == 0 || d.nblk == 0 || decide (d.kblk ≤ bitsOf v 271 256) || decide (d.nblk ≤ bitsOf v 287 272) ||
      d.base % d.bb != 0 ||
      (!d.loc && (decide (wellBytes < d.base + blocks * d.bb) || decide (wellBytes < d.sbase + 32 * blocks))) then some 11
  else none

/-- The checks of TIDSET on a descriptor with its captured capability (R154).
DEDUCED: notes/assumptions/15.md. DEDUCED: notes/assumptions/22.md. -/
def tidChecks (v : BitVec 512) (cap : Cap) (sup : Bool) : Except Stop Unit := do
  match descReason v with
  | some r => .error (illegal 3 r 63)
  | none => .ok ()
  let loc := v.getLsbD 96
  require (loc || sup) (slotTrap trapCAP_RIGHTS 3 0 0)
  require (!loc || cap.tag) (slotTrap trapCAP_TAG 3 cap.obj 0)
  require (!loc || (cap.kind == kSCRATCH && cap.rights.getLsbD rR)) (slotTrap trapCAP_RIGHTS 3 cap.obj 0)

/-- The entry a descriptor sets over `old`: CAP only for a local tensor (R154). -/
def tidEntry (v : BitVec 512) (cap : Cap) (owner : Nat) (old : Tid) : Tid :=
  { old with
    valid := true, owner := owner, desc := v, cap := if v.getLsbD 96 then cap else old.cap,
    kb := bitsOf v 271 256, nb := bitsOf v 287 272 }

/-! Block reads (R162). -/

/-- Scratchpad bytes read through a captured capability: tag, kind, rights and bounds, then translation (R162, R230). -/
def State.rdScratchCap (s : State) (slot : Nat) (c : Cap) (off n : Nat) : Except Stop (State × List Byte) := do
  let eo := (c.offset + off) % 2 ^ 48
  capCheck slot c [kSCRATCH] [rR] [] eo n
  require (!s.otherScratch s.myTile s.me.sys.asid c.obj eo n) (slotTrap trapCAP_RIGHTS slot c.obj eo)
  let (s1, ps, _) ← s.translate s.myTile s.me.sys.asid slot c.obj kSCRATCH [rR] [] eo n
  .ok (s1, s1.rdPieces ps)

/-- Bytes of a tensor's space: the well or the scratchpad (R162). -/
def State.rdTensor (s : State) (d : Tid) (off n : Nat) : Except Stop (State × List Byte) :=
  if d.loc then s.rdScratchCap 3 d.cap off n
  else match s.wellRead s.myTile off n with
    | .ok bs => .ok (s, bs)
    | .error p => .error (wellTrap 3 s.myTile off p)

/-- Single bytes of a tensor's space, in order. -/
def State.rdTensorBytes (s : State) (d : Tid) : List Nat → Except Stop (State × List Byte)
  | [] => .ok (s, [])
  | a :: as => do
    let (s1, x) ← s.rdTensor d a 1
    let (s2, y) ← s1.rdTensorBytes d as
    .ok (s2, x ++ y)

/-- A 32 × 32 block with its 32 scale bytes (R52, R153, R162): weight codes in index order, and for each index its
scale. -/
def State.rdBlock (s : State) (d : Tid) (kb nb : Nat) : Except Stop (State × List Nat × List Fp) := do
  let (s1, cs) ← s.rdTensor d (d.blockOff kb nb) d.bb
  let (h, wd) := scaleShape d.shape
  let addrs := (List.range (32 / h)).flatMap fun r => (List.range (32 / wd)).map fun c =>
    d.sbase + d.scaleIndex (32 * kb + r * h) (32 * nb + c * wd)
  let (s2, ss) ← s1.rdTensorBytes d addrs
  let sv := ss.map fun b => d.scaleVal b.toNat
  .ok (s2, elems d.fmt.container 1024 (leNat cs),
    (List.range 1024).map fun e => sv.getD (e / 32 / h * (32 / wd) + e % 32 / wd) (.nan false))

/-! Accumulator tiles (R53 to R56, R160). -/

/-- The window offset of accumulator operand `k` from operand r; a base that is no multiple of 4 KiB traps LIMIT where
it executes (R160). -/
def cOffset (env : ViewEnv) (r : BitVec 8) : Except Stop Nat := do
  require (env.base .c % 4096 == 0) (limitTrap 3)
  .ok (env.start .c (ropIndex r))

/-- The anchor, OVF and UFC beside a window offset (R160). -/
def State.acc (s : State) (off : Nat) : Acc := FMap.get {} s.me.acc (off / 4096)
/-- The anchor, OVF and UFC beside a window offset replaced. DEDUCED: notes/assumptions/22.md. -/
def State.setAcc (s : State) (off : Nat) (a : Acc) : State := s.modMe fun x => { x with acc := FMap.set {} x.acc (off / 4096) a }

/-- The 512 elements of an accumulator: 64-bit ones, or pairs of 128 bits (R53, R56). -/
def State.rdAccum (s : State) (wide : Bool) (off : Nat) : List Int :=
  let lo := elems 64 512 (leNat (s.rdWin off 4096))
  if wide then
    let hi := elems 64 512 (leNat (s.rdWin (off + 4096) 4096))
    (lo.zip hi).map fun (l, h) => intOfBits true 128 (l + 2 ^ 64 * h)
  else lo.map (intOfBits true 64)

/-- The 512 elements of an accumulator written. -/
def State.wrAccum (s : State) (wide : Bool) (off : Nat) (vs : List Int) : State :=
  let codes := vs.map fun v => (v % 2 ^ 128).toNat
  let s1 := s.wrWin off (leBytes 4096 (packElems 64 codes))
  if wide then s1.wrWin (off + 4096) (leBytes 4096 (packElems 64 (codes.map (· / 2 ^ 64)))) else s1

/-- The matrix latch takes an accumulator tile (R425); a marked slot latches nothing (R310). -/
def State.latchAccum (s : State) (g : Guard) (off : Nat) : State := if g.dup then s else s.latchLm (s.rdWin off 4096)

/-- Bounds of an element (R53, R56). -/
def accMax (wide : Bool) : Int := 2 ^ (if wide then 127 else 63) - 1
def accMin (wide : Bool) : Int := -2 ^ (if wide then 127 else 63)

/-- UFC counted up, saturating (R55). -/
def addUfc (u : BitVec 32) (n : Nat) : BitVec 32 := BitVec.ofNat 32 (min (u.toNat + n) (2 ^ 32 - 1))

/-- One element of a step (R53, R54): new value, OVF, and what it adds to UFC. -/
def stepElem (wide : Bool) (anchor : Int) (I : Int) (ps : List Fp) : Int × Bool × Nat :=
  let special := ps.filter fun p => p.isNan || p.isInf
  if special.isEmpty then
    let gs := ps.map fun p => (p.dy.m, p.dy.roundToGrid anchor)
    let sum := (gs.map Prod.snd).foldl (· + ·) I
    let ufc := (gs.filter fun (m, r) => m != 0 && r == 0).length
    if accMax wide < sum then (accMax wide, true, ufc)
    else if sum < accMin wide then (accMin wide, true, ufc)
    else (sum, false, ufc)
  else if special.all fun p => p.isInf && !p.sign then (accMax wide, true, 0)
  else (accMin wide, true, 0)

/-- A 16 × 32 × 32 step: `act` the 512 activations, `w` the 1,024 weights with `sc` their scales (R53, R161). -/
def stepTile (wide : Bool) (anchor : Int) (old : List Int) (act w sc : List Fp) : List Int × Bool × Nat :=
  let rows := (List.range 16).map fun i => (act.drop (32 * i)).take 32
  let cols := (List.range 32).map fun n => (List.range 32).map fun k =>
    (w.getD (32 * k + n) (.nan false), sc.getD (32 * k + n) (.nan false))
  let prods := rows.flatMap fun r => cols.map fun c =>
    (r.zip c).map fun (a, x, q) => (fpProd (fpProd a x).1 q).1
  let rs := (old.zip prods).map fun (I, ps) => stepElem wide anchor I ps
  (rs.map Prod.fst, rs.any fun r => r.2.1, (rs.map fun r => r.2.2).foldl (· + ·) 0)

/-- The activations of MMA, MMAT and MMAW (R161). -/
def State.activations (s : State) (b : MatrixBody) : List Fp :=
  let N := leNat (s.rdWin (s.me.viewEnv.start .t (ropIndex b.srcA)) 1024)
  if b.aux.getLsbD 15 then
    let f := (s.tid (bitsOf b.aux 5 0)).fmt
    (elems f.container 512 N).map (decodeNarrow f)
  else (elems 16 512 N).map (decodeFp bf16)

/-- A step accumulated into the destination (R53 to R56): elements, OVF and UFC, and the latch. -/
def State.accumulate (s : State) (g : Guard) (b : MatrixBody) (wide : Bool) (off : Nat) (w sc : List Fp) : State :=
  let a := s.acc off
  let (vs, ovf, ufc) := stepTile wide a.anchor.toInt (s.rdAccum wide off) (s.activations b) w sc
  ((s.wrAccum wide off vs).setAcc off { a with ovf := a.ovf || ovf, ufc := addUfc a.ufc ufc }).latchAccum g off

/-- What happens to a trap found after issue: the context takes it in a state that keeps what stands (R163, R348). -/
def keeping (s : State) : Except Stop State → Except Stop State
  | .error (.trap t) => .ok (s.takeTrap t)
  | r => r

/-- The execution of MMA and MMAW on the block at a captured cursor (R161). -/
def mmaRun (g : Guard) (b : MatrixBody) (wide : Bool) (s : State) (kb nb : Nat) : Except Stop State := do
  let n := b.tid.toNat
  s.needTid 3 n
  if b.aux.getLsbD 15 then s.needTid 3 (bitsOf b.aux 5 0)
  let off ← cOffset (s.me.dstEnv g) b.dst
  let d := s.tid n
  let (s1, cs, sc) ← s.rdBlock d kb nb
  .ok (s1.accumulate g b wide off (cs.map (decodeNarrow d.fmt)) sc)

/-- MMA and MMAW (R156, R161): the cursor is captured and, unless held or marked, advanced at issue; the advance stands
if the execution traps (R163). -/
def mmaEff (g : Guard) (b : MatrixBody) (wide : Bool) (s : State) : Except Stop State :=
  let n := b.tid.toNat
  let d := s.tid n
  let s1 := if b.aux.getLsbD 16 || g.dup || !d.valid then s else s.setTid n d.advance
  keeping s1 (mmaRun g b wide s1 d.kb d.nb)

def execNopMatrix (g : Guard) (body : BitVec 47) (s : State) : Host.Outcome State Fault Refusal :=
  nopForm (.nopMatrix g body) g s

def execMma (g : Guard) (b : MatrixBody) (s : State) : Host.Outcome State Fault Refusal :=
  atIssue (.mma g b) g noCheck (mmaEff g b false) s
/-- MMAW needs the group WIDE (R113, R161). -/
def checkMmaw (s : State) : Except Stop Unit := s.needFeature 7 3
def execMmaw (g : Guard) (b : MatrixBody) (s : State) : Host.Outcome State Fault Refusal :=
  atIssue (.mmaw g b) g checkMmaw (mmaEff g b true) s

/-- MMAT (R161): the weights are BF16 in two T views, with scale 1. -/
def mmatEff (g : Guard) (b : MatrixBody) (s : State) : Except Stop State := do
  if b.aux.getLsbD 15 then s.needTid 3 (bitsOf b.aux 5 0)
  let off ← cOffset (s.me.dstEnv g) b.dst
  let N := leNat (s.rdWin (s.me.viewEnv.start .t (ropIndex b.srcB)) 2048)
  .ok (s.accumulate g b false off ((elems 16 1024 N).map (decodeFp bf16)) (List.replicate 1024 (.fin false 1 0)))

def execMmat (g : Guard) (b : MatrixBody) (s : State) : Host.Outcome State Fault Refusal :=
  atIssue (.mmat g b) g noCheck (mmatEff g b) s

/-! Anchors, flags and clearing (R164 to R167). -/

/-- MZERO (R164). -/
def mzeroEff (g : Guard) (b : MatrixBody) (s : State) : Except Stop State := do
  let off ← cOffset (s.me.dstEnv g) b.dst
  let wide := b.aux.getLsbD 16
  .ok (((s.wrAccum wide off (List.replicate 512 0)).setAcc off
    { anchor := b.aux.extractLsb' 0 16, ovf := false, ufc := 0 }).latchAccum g off)

def execMzero (g : Guard) (b : MatrixBody) (s : State) : Host.Outcome State Fault Refusal :=
  atIssue (.mzero g b) g noCheck (mzeroEff g b) s

/-- I × 2^(ao − an) where it is an integer. -/
def rescale (I : Int) (ao an : Int) : Option Int :=
  if an ≤ ao then some (I * 2 ^ (ao - an).toNat)
  else
    let k : Int := 2 ^ (an - ao).toNat
    if I % k = 0 then some (I / k) else none

/-- MANCHOR on the elements (R165): none where an exact re-anchoring is impossible. -/
def reanchor (wide rnd : Bool) (ao an : Int) (vs : List Int) : Option (List Int × Bool × Nat) :=
  if rnd then
    let gs := vs.map fun I => (I, ({ m := I, e := ao } : Dy).roundToGrid an)
    some (gs.map fun (_, g) => max (accMin wide) (min (accMax wide) g),
      gs.any (fun (_, g) => decide (g < accMin wide ∨ accMax wide < g)),
      (gs.filter fun (I, g) => I != 0 && g == 0).length)
  else
    let rs := vs.map fun I => rescale I ao an
    if rs.all fun r => match r with | some v => decide (accMin wide ≤ v ∧ v ≤ accMax wide) | none => false then
      some (rs.map fun r => r.getD 0, false, 0)
    else none

/-- MANCHOR (R165). -/
def manchorEff (g : Guard) (b : MatrixBody) (s : State) : Except Stop State := do
  let off ← cOffset (s.me.dstEnv g) b.dst
  let wide := b.aux.getLsbD 0
  let an := (s.rs (b.srcA.extractLsb' 0 6)).extractLsb' 0 16
  let a := s.acc off
  match reanchor wide (b.aux.getLsbD 1) a.anchor.toInt an.toInt (s.rdAccum wide off) with
  | none => .ok ((s.setAcc off { a with ovf := true }).latchAccum g off)
  | some (vs, ovf, ufc) =>
    .ok (((s.wrAccum wide off vs).setAcc off
      { anchor := an, ovf := a.ovf || ovf, ufc := addUfc a.ufc ufc }).latchAccum g off)

def execManchor (g : Guard) (b : MatrixBody) (s : State) : Host.Outcome State Fault Refusal :=
  atIssue (.manchor g b) g noCheck (manchorEff g b) s

/-- A 64-bit result with zero behind it in the matrix latch (R425). -/
def State.latchLmWord (s : State) (v : Word) : State := s.latchLm (leBytes 8 v.toNat)

/-- An effect left to the operation's turn in the matrix queue (R19). -/
def State.pushLate (s : State) (e : LateEff) : State :=
  s.modTile s.myTile fun x => { x with lateQ := x.lateQ ++ [{ ctx := s.myCtx, bundle := s.me.bundleNo, eff := e }] }

/-- The calibration test on an accumulator's fields (R166). -/
def SysRegs.calFails (y : SysRegs) (ovf : Bool) (ufc : BitVec 32) : Bool :=
  ovf || y.ufmax.ult ufc || y.clampmax.ult y.qclamp

/-- MSTAT (R166): .cal tests when it executes. -/
def mstatEff (b : MatrixBody) (s : State) : Except Stop State := do
  let off ← cOffset s.me.viewEnv b.srcA
  let a := s.acc off
  if bitsOf b.aux 1 0 = 0 then .ok (s.pushLate (.test (bitsOf b.dst 3 0) a.ovf a.ufc))
  else
    let v := BitVec.ofBool a.ovf ++ 0#15 ++ a.anchor ++ a.ufc
    .ok ((s.putS (bitsOf b.dst 5 0) v).latchLmWord v)

def execMstat (g : Guard) (b : MatrixBody) (s : State) : Host.Outcome State Fault Refusal :=
  atIssue (.mstat g b) g noCheck (mstatEff b) s

/-- MCLR (R167). -/
def mclrEff (b : MatrixBody) (s : State) : Except Stop State := do
  let off ← cOffset s.me.viewEnv b.dst
  let a := s.acc off
  .ok (s.setAcc off { a with ovf := a.ovf && bitsOf b.aux 1 0 == 2, ufc := if bitsOf b.aux 1 0 = 1 then a.ufc else 0 })

def execMclr (g : Guard) (b : MatrixBody) (s : State) : Host.Outcome State Fault Refusal :=
  atIssue (.mclr g b) g noCheck (mclrEff b) s

/-! Reading out (R168). -/

/-- The destination type of MREAD (R168). -/
def State.mreadType (s : State) (b : MatrixBody) : ElemFmt :=
  match bitsOf b.aux 2 0 with
  | 0 => .fp bf16
  | 1 => .fp fp16
  | 2 => .fp fp32
  | _ => .narrow (s.tid b.tid.toNat).fmt

/-- MREAD (R168). DEDUCED: notes/assumptions/22.md. -/
def mreadEff (g : Guard) (b : MatrixBody) (s : State) : Except Stop State := do
  let dt := bitsOf b.aux 2 0
  if dt = 3 then s.needTid 3 b.tid.toNat
  let wide := b.aux.getLsbD 7
  let off ← cOffset s.me.viewEnv b.srcA
  let a := s.acc off
  let t := s.mreadType b
  let S := s.vsrc g b.srcB (.fp fp32)
  let rs : List Coded := (s.rdAccum wide off).mapIdx fun e I =>
    let q := decodeFp fp32 (elemAt 32 S (if b.aux.getLsbD 6 then e % 32 else 0))
    let (p, pf) := fpProd (Dy.toFp { m := I, e := a.anchor.toInt }) q
    let (c, cf, _) := t.encode (rmode (bitsOf b.aux 5 3)) p.sign p.withQ
    (c, pf ||| cf, false)
  let kind := if dt = 2 then ViewKind.v else .t
  let at0 := (s.me.dstEnv g).start kind (ropIndex b.dst)
  let s1 := s.wrWin at0 (leBytes (64 * t.bits) (packElems t.bits (rs.map Prod.fst)))
  let s2 := if g.dup then s1 else s1.latchLm (s1.rdWin at0 (if dt = 2 then 2048 else 1024))
  .ok (s2.addFlags g (orFlags (rs.map fun r => r.2.1)) 0)

def execMread (g : Guard) (b : MatrixBody) (s : State) : Host.Outcome State Fault Refusal :=
  atIssue (.mread g b) g noCheck (mreadEff g b) s

/-! Entries (R154, R158). -/

/-- TIDSET (R154): its checks; the entry is set when it executes. -/
def tidsetEff (b : MatrixBody) (s : State) : Except Stop State := do
  let v := BitVec.ofNat 512 (leNat (s.rdWin (s.me.viewEnv.start .v (ropIndex b.srcA)) 64))
  let cap := s.ra (bitsOf v 107 104)
  tidChecks v cap s.me.sys.sup
  .ok (s.pushLate (.entry b.tid.toNat v cap))

def execTidset (g : Guard) (b : MatrixBody) (s : State) : Host.Outcome State Fault Refusal :=
  atIssue (.tidset g b) g noCheck (tidsetEff b) s

/-- A TIDSTEP on an invalid entry traps at issue (R158). -/
def checkTidstep (b : MatrixBody) (s : State) : Except Stop Unit := s.needTid 3 b.tid.toNat

/-- The cursor moved by signed steps (R158). -/
def Tid.move (d : Tid) (dk dn : Int) : Tid :=
  { d with kb := (((d.kb : Int) + dk) % d.kblk).toNat, nb := (((d.nb : Int) + dn) % d.nblk).toNat }

def execTidstep (g : Guard) (b : MatrixBody) (s : State) : Host.Outcome State Fault Refusal :=
  atIssue (.tidstep g b) g (checkTidstep b) (fun s =>
    let n := b.tid.toNat
    .ok (s.setTid n ((s.tid n).move (b.aux.extractLsb' 8 8).toInt (b.aux.extractLsb' 0 8).toInt))) s

/-- TIDSTEP.set: the entry is valid and both values lie below their limits (R158). -/
def checkTidstepSet (b : MatrixBody) (s : State) : Except Stop Unit := do
  let d := s.tid b.tid.toNat
  s.needTid 3 b.tid.toNat
  require (decide ((s.rs (b.srcA.extractLsb' 0 6)).toNat < d.kblk) && decide ((s.rs (b.srcB.extractLsb' 0 6)).toNat < d.nblk))
    (limitTrap 3)

def execTidstepSet (g : Guard) (b : MatrixBody) (s : State) : Host.Outcome State Fault Refusal :=
  atIssue (.tidstepSet g b) g (checkTidstepSet b) (fun s =>
    let n := b.tid.toNat
    .ok (s.setTid n { s.tid n with kb := (s.rs (b.srcA.extractLsb' 0 6)).toNat,
                                   nb := (s.rs (b.srcB.extractLsb' 0 6)).toNat })) s

end Sys2Proof.Machine
end

