-- ==== Sys2Proof/Machine/LowRank.lean ====
section
/-! DEFINITION. The low-rank instructions of the matrix slot: spec/07_low_rank.md R169 to R189.
Elements are FP32 codes; an exact zero rounds to +0. -/

namespace Sys2Proof.Machine

/-! Rounded arithmetic (R57, R173). -/

/-- RoundF of an exact sum of products of FP32 codes (R57, R173). -/
def lrSum (ps : List (Nat × Nat)) : Nat :=
  (exactDot fp32 .rne (ps.map fun (a, b) => (decodeFp fp32 a, decodeFp fp32 b))).1
/-- ExactDot of two vectors of FP32 codes, rounded to FP32 (R57). -/
def lrDot (xs ys : List Nat) : Nat := lrSum (xs.zip ys)
/-- The FP32 codes of 1 and 2. -/
def f32one : Nat := 0x3F800000
def f32two : Nat := 0x40000000
/-- The code with the sign inverted. -/
def f32neg (x : Nat) : Nat := if 2 ^ 31 ≤ x then x - 2 ^ 31 else x + 2 ^ 31
/-- The code without its sign. -/
def f32abs (x : Nat) : Nat := x % 2 ^ 31
/-- Whether a code is finite. -/
def f32fin (x : Nat) : Bool := decide (f32abs x < 0x7F800000)
/-- RoundF(x − f × w). -/
def lrAxpy (x f w : Nat) : Nat := lrSum [(x, f32one), (f, f32neg w)]
/-- SQRT of a code ≥ 0 (R173). -/
def lrSqrt (x : Nat) : Nat := fpSqrt (decodeFp fp32 x)

/-- RoundF of the exact quotient of two exact values, the special cases as IEEE 754. -/
def lrQuo (x y : Fp) : Nat :=
  let neg := x.sign != y.sign
  if x.isNan || y.isNan then fp32.nanBits
  else if x.isInf then (if y.isInf then fp32.nanBits else fp32.infBits neg)
  else if y.isInf then fp32.zeroBits neg
  else if y.isZero then (if x.isZero then fp32.nanBits else fp32.infBits neg)
  else (encodeFp fp32 .rne neg (x.dy.div y.dy)).1

/-- Twice a value. -/
def Fp.twice : Fp → Fp
  | .fin n m e => .fin n (2 * m) e
  | x => x

/-- The exact sum of two values; a NaN for opposite infinities. -/
def Fp.plus (x y : Fp) : Fp :=
  if x.isNan || y.isNan then .nan false
  else if x.isInf then (if y.isInf && x.sign != y.sign then .nan false else x)
  else if y.isInf then y
  else (x.dy.add y.dy).toFp

/-- All codes finite (R189). -/
def allFin (xs : List Nat) : Bool := xs.all f32fin

/-! Operators (R169, R171). -/

/-- An operator as read: the columns of its factors, or its rows. -/
inductive LrOp where
  | factored (u v : List (List Nat))
  | dense (rows : List (List Nat))
deriving DecidableEq, Repr

/-- The rank field of an operator (R170). -/
def LrOp.rank : LrOp → Nat
  | .factored u _ => u.length
  | .dense _ => 255

/-- A list cut into `n` pieces of length `k`. -/
def chunk {α : Type} (k : Nat) : Nat → List α → List (List α)
  | 0, _ => []
  | n + 1, xs => xs.take k :: chunk k n (xs.drop k)

/-- Rows and columns exchanged, `n` columns. -/
def columns (n : Nat) (rows : List (List Nat)) : List (List Nat) :=
  (List.range n).map fun j => rows.map fun r => r.getD j 0

/-- `n` codes of `w` bits from a window offset. -/
def State.rdCodes (s : State) (off w n : Nat) : List Nat := elems w n (leNat (s.rdWin off (n * w / 8)))

/-- An operator of a rank field from its bytes (R169, R171). -/
def lrOfCodes (rank : Nat) (cs : List Nat) : LrOp :=
  if rank = 255 then .dense (chunk 128 128 cs)
  else
    let us := chunk 256 rank cs
    .factored (us.map fun u => u.take 128) (us.map fun u => u.drop 128)

/-- The number of bytes that an operator of a rank field holds (R169, R171). -/
def lrBytes (rank : Nat) : Nat := if rank = 255 then 65536 else 1024 * rank

/-- The rank field of K register `k`. -/
def Ctx.rank (x : Ctx) (k : Nat) : Nat := FMap.get 0 x.views.ranks k
/-- The operator in a K operand (R169 to R171). -/
def State.rdK (s : State) (r : BitVec 8) : LrOp :=
  let rk := s.me.rank (ropIndex r)
  lrOfCodes rk (s.rdCodes (s.me.viewEnv.start .k (ropIndex r)) 32 (lrBytes rk / 4))

/-- The FP32 codes of an operator in memory order (R169, R171). -/
def LrOp.codes : LrOp → List Nat
  | .factored u v => (u.zip v).flatMap fun (a, b) => a ++ b
  | .dense rows => rows.flatten

/-- The rank field of K register `k` written (R170). -/
def State.setRank (s : State) (k rank : Nat) : State :=
  s.modMe fun x => { x with views := { x.views with ranks := FMap.set 0 x.views.ranks k rank } }

/-- An operator written to a K operand with its rank field (R169). -/
def State.putK (s : State) (r : BitVec 8) (o : LrOp) : State :=
  (s.wrWin (s.me.viewEnv.start .k (ropIndex r)) (leBytes (lrBytes o.rank) (packElems 32 o.codes))).setRank (ropIndex r) o.rank

/-- The matrix latch takes the first bytes of a K register (R425). -/
def State.latchK (s : State) (r : BitVec 8) : State :=
  s.latchLm (s.rdWin (s.me.viewEnv.start .k (ropIndex r)) (min 4096 (1024 * s.me.views.kCap)))

/-- 128 × 128 BF16 from a T operand as rows, widened exactly (R180, R188). -/
def State.rdBf (s : State) (r : BitVec 8) : List (List Nat) :=
  chunk 128 128 ((s.rdCodes (s.me.viewEnv.start .t (ropIndex r)) 16 16384).map (· * 65536))

/-! Householder QR (R185). -/

/-- The reflector of a column: none where NULL, else w and be. -/
abbrev Reflector := Option (List Nat × Nat)

/-- A reflector applied to a vector from entry c on (R185). -/
def reflect (c : Nat) (w : List Nat) (be : Nat) (y : List Nat) : List Nat :=
  let f := lrQuo (decodeFp fp32 (lrDot w (y.drop c))).twice (decodeFp fp32 be)
  y.take c ++ ((y.drop c).zip w).map fun (a, b) => lrAxpy a f b

/-- The QR of the columns from column `c` on (R185); none where a value written is NaN or infinite (R189).
DEDUCED: notes/assumptions/21.md. -/
def qrFrom (c : Nat) : Nat → List (List Nat) → Option (List (List Nat) × List Reflector)
  | 0, _ => some ([], [])
  | _ + 1, [] => some ([], [])
  | fuel + 1, x0 :: rest =>
    let x := x0.drop c
    let sg := lrDot x x
    if sg = 0 then do
      let (cs, rs) ← qrFrom (c + 1) fuel rest
      some (x0 :: cs, none :: rs)
    else
      let al0 := lrSqrt sg
      let x1 := x.headD 0
      let al := if x1 ≤ 2 ^ 31 then f32neg al0 else al0
      let w := lrSum [(x1, f32one), (f32neg al, f32one)] :: x.tail
      let be := lrDot w w
      let rest' := rest.map (reflect c w be)
      if f32fin al && rest'.all allFin then do
        let (cs, rs) ← qrFrom (c + 1) fuel rest'
        some ((x0.take c ++ al :: List.replicate (127 - c) 0) :: cs, some (w, be) :: rs)
      else none

/-- Rmat by rows (R185). -/
def rmat (r : Nat) (cols : List (List Nat)) : List (List Nat) :=
  (List.range r).map fun i => (List.range r).map fun j => if i ≤ j then (cols.getD j []).getD i 0 else 0

/-- ApplyQ (R185): the last reflector first. -/
def applyQ (rs : List Reflector) (y : List Nat) : List Nat :=
  rs.zipIdx.foldr (fun (o, c) z => match o with
    | none => z
    | some (w, be) => reflect c w be z) y

/-! One-sided Jacobi (R186). -/

/-- cs and sn of a rotation from a, b and g (R186). -/
def rotation (a b g : Nat) : Nat × Nat :=
  let z := lrQuo ((decodeFp fp32 b).plus (decodeFp fp32 a).negate) (decodeFp fp32 g).twice
  let zv := decodeFp fp32 z
  let t :=
    if zv.isInf then 0
    else if !zv.isNan && decide (0x5F000000 ≤ f32abs z) then lrQuo (.fin false 1 0) zv.twice
    else
      let sq := lrSqrt (lrSum [(f32one, f32one), (z, z)])
      lrQuo (.fin (zv.sign && !zv.isZero) 1 0) ((decodeFp fp32 (f32abs z)).plus (decodeFp fp32 sq))
  let c := lrQuo (.fin false 1 0) (decodeFp fp32 (lrSqrt (lrSum [(f32one, f32one), (t, t)])))
  (c, lrSum [(t, c)])

/-- Columns p and q of a matrix rotated (R186); none where a value written is NaN or infinite (R189). -/
def rotateCols (p q cs sn : Nat) (m : List (List Nat)) : Option (List (List Nat)) :=
  let ps := (m.getD p []).zip (m.getD q [])
  let np := ps.map fun (x, y) => lrSum [(cs, x), (sn, f32neg y)]
  let nq := ps.map fun (x, y) => lrSum [(sn, x), (cs, y)]
  if allFin np && allFin nq then some ((m.set p np).set q nq) else none

/-- One pair of a sweep (R186). -/
def jacobiPair (p q : Nat) (aj : List (List Nat) × List (List Nat)) : Option (List (List Nat) × List (List Nat)) :=
  let x := aj.1.getD p []
  let y := aj.1.getD q []
  let g := lrDot x y
  if g % 0x80000000 = 0 then some aj
  else do
    let (cs, sn) := rotation (lrDot x x) (lrDot y y) g
    let a ← rotateCols p q cs sn aj.1
    let j ← rotateCols p q cs sn aj.2
    some (a, j)

/-- The sweeps of R186 over a matrix of n columns: A and J as columns. DEDUCED: notes/assumptions/21.md. -/
def jacobi (n sweeps : Nat) (a : List (List Nat)) : Option (List (List Nat) × List (List Nat)) :=
  let ident := (List.range n).map fun j => (List.range n).map fun i => if i = j then f32one else 0
  let pairs := (List.range n).flatMap fun p => ((List.range n).filter fun q => decide (p < q)).map fun q => (p, q)
  (List.replicate sweeps pairs).flatten.foldlM (fun aj (p, q) => jacobiPair p q aj) (a, ident)

/-! Selection (R187). -/

/-- An index put into a list in descending order of e, behind those of equal e. -/
def insertDesc (x : Nat × Nat) : List (Nat × Nat) → List (Nat × Nat)
  | [] => [x]
  | y :: ys => if y.1 < x.1 then x :: y :: ys else y :: insertDesc x ys

/-- (e[j], j) in the order of R187: descending e, lower j first. -/
def orderE (es : List Nat) : List (Nat × Nat) := es.zipIdx.foldl (fun acc x => insertDesc x acc) []

/-- The exact sum of codes without sign; none where one is infinite. -/
def sumE (es : List Nat) : Option Dy :=
  if allFin es then some (es.foldl (fun d e => d.add (decodeFp fp32 e).dy) Dy.zero) else none

/-- The threshold of R187 from TOL, ABS and E: none inside where it is infinite; none where it is 0 × ∞, for which the
spec states no result. -/
def threshold (tol : Nat) (absolute : Bool) (es : List Nat) : Option (Option Dy) :=
  let d := (decodeFp fp32 tol).dy
  let t2 := d.mul d
  if absolute then some (some t2)
  else match sumE es with
    | some e => some (some (t2.mul e))
    | none => if t2.m = 0 then none else some none

/-- t of R187: how many of the ordered values precede the first suffix whose exact sum is at most the threshold. -/
def selectRank (thr : Option Dy) : List Nat → Nat
  | [] => 0
  | e :: es =>
    let le := match thr, sumE (e :: es) with
      | none, _ => true
      | some d, some x => x.le d
      | some _, none => false
    if le then 0 else 1 + selectRank thr es

/-- What R187 needs beside its matrix: TOL, ABS, and the free value that stands for t where the spec states none. -/
structure LrTol where
  tol : Nat
  absolute : Bool
  open_ : Nat
deriving DecidableEq, Repr

/-- R186 and R187 on a matrix of n columns; `u` and `v` finish the columns of U′ and V′. None: a trap of R189. -/
def jacobiSelect (y : LrTol) (n sweeps : Nat) (a : List (List Nat)) (u v : List Nat → List Nat) : Option LrOp := do
  let (a', j) ← jacobi n sweeps a
  let es := a'.map fun c => lrDot c c
  let ord := orderE es
  let t := match threshold y.tol y.absolute es with
    | some thr => selectRank thr (ord.map Prod.fst)
    | none => y.open_ % (n + 1)
  let sel := (ord.take t).map Prod.snd
  let us := sel.map fun k => u (a'.getD k [])
  let vs := sel.map fun k => v (j.getD k [])
  if us.all allFin && vs.all allFin then some (.factored us vs) else none

/-- LRCOMP's procedure on the rows of a dense operand (R187, R188). DEDUCED: notes/assumptions/21.md. -/
def compress (y : LrTol) (rows : List (List Nat)) : Option LrOp :=
  if f32fin y.tol && rows.all allFin then jacobiSelect y 128 10 (columns 128 rows) id id else none

/-- LRTRUNC's procedure (R185 to R187). None: a trap of R189. A source of rank 0 does not run it, whatever TOL holds.
DESIGN CHOICE: notes/assumptions/71.md. -/
def truncate (y : LrTol) : LrOp → Option LrOp
  | .dense rows => compress y rows
  | .factored u v =>
    let r := u.length
    if r = 0 then some (.factored [] [])
    else if f32fin y.tol && u.all allFin && v.all allFin then do
      let (xu, qu) ← qrFrom 0 r u
      let (xv, qv) ← qrFrom 0 r v
      let rv := rmat r xv
      let core := (rmat r xu).map fun ru => rv.map fun w => lrDot ru w
      let pad := List.replicate (128 - r) 0
      if core.all allFin then
        jacobiSelect y r 8 (columns r core) (fun c => applyQ qu (c ++ pad)) (fun c => applyQ qv (c ++ pad))
      else none
    else none

/-! Results (R175 to R181). -/

/-- A dense operator from its elements. -/
def denseOf (f : Nat → Nat → Nat) : LrOp :=
  .dense ((List.range 128).map fun i => (List.range 128).map fun n => f i n)

/-- The products whose exact sum is element (i, n) of an operator: its dense element, or its factored terms. -/
def LrOp.terms (o : LrOp) (i n : Nat) : List (Nat × Nat) :=
  match o with
  | .dense rows => [((rows.getD i []).getD n 0, f32one)]
  | .factored u v => (u.zip v).map fun (a, b) => (a.getD i 0, b.getD n 0)

/-- LRADD's result before R175 (R178). -/
def lrAdd : LrOp → LrOp → LrOp
  | .factored ua va, .factored ub vb => .factored (ua ++ ub) (va ++ vb)
  | a, b => denseOf fun i n => lrSum (a.terms i n ++ b.terms i n)

/-- LRSCALE (R176). -/
def lrScale (f : Nat) : LrOp → LrOp
  | .factored u v => .factored (u.map fun c => c.map fun x => lrSum [(x, f)]) v
  | .dense rows => .dense (rows.map fun r => r.map fun x => lrSum [(x, f)])

/-- ExactDot of each row of a matrix with a vector. -/
def rowsDot (rows : List (List Nat)) (x : List Nat) : List Nat := rows.map fun r => lrDot r x

/-- LRMUL (R179). -/
def lrMul (a b : LrOp) : LrOp :=
  if a.rank = 0 ∨ b.rank = 0 then .factored [] []
  else match a, b with
  | .dense ra, .dense rb => let cb := columns 128 rb; .dense (ra.map fun r => cb.map fun c => lrDot r c)
  | .dense ra, .factored ub vb => .factored (ub.map fun c => rowsDot ra c) vb
  | .factored ua va, .dense rb => let cb := columns 128 rb; .factored ua (va.map fun c => rowsDot cb c)
  | .factored ua va, .factored ub vb =>
    let g := va.map fun c => ub.map fun d => lrDot c d
    if ua.length ≤ ub.length then .factored ua (g.map fun row => rowsDot (columns 128 vb) row)
    else .factored ((columns ub.length g).map fun col => rowsDot (columns 128 ua) col) vb

/-- LRMULD (R180). -/
def lrMulDense (left : Bool) (m : List (List Nat)) (a : LrOp) : LrOp :=
  match a with
  | .factored u v =>
    if left then .factored (u.map fun c => rowsDot m c) v
    else let cm := columns 128 m; .factored u (v.map fun c => rowsDot cm c)
  | .dense rows =>
    if left then let ca := columns 128 rows; .dense (m.map fun r => ca.map fun c => lrDot r c)
    else let cm := columns 128 m; .dense (rows.map fun r => cm.map fun c => lrDot r c)

/-- LRDENSE (R181). -/
def lrDense : LrOp → LrOp
  | .dense rows => .dense rows
  | o => denseOf fun i n => lrSum (o.terms i n)

/-! The instructions. -/

/-- The checks of every LR instruction at issue: FEATURE, then LIMIT at K capacity 0 (R170, R173). -/
def checkLr (s : State) : Except Stop Unit := do
  s.needFeature 1 3
  require (s.me.views.kCap != 0) (limitTrap 3)

/-- SR.TOL and SR.TOLMODE with a free value (R183, R184). DEDUCED: notes/assumptions/21.md. -/
def State.lrTol (s : State) : LrTol :=
  { tol := s.me.sys.tol.toNat, absolute := s.me.sys.tolAbs, open_ := (Config.freeWord s.freeCtr).toNat }

/-- A trap of R189 where there is no result. -/
def orLimit {α : Type} : Option α → Except Stop α
  | some x => .ok x
  | none => .error (limitTrap 3)

/-- A result written to the destination, latched, and one free value used up (R169, R425). -/
def State.lrDone (s : State) (d : BitVec 8) (o : LrOp) : State :=
  let s1 := (s.putK d o).latchK d
  { s1 with freeCtr := s1.freeCtr + 1 }

/-- LRANK for a rank t above the capacity (R175): a user trap with cause 128, INFO t and D. -/
def State.lrank (s : State) (d : BitVec 8) (t : Nat) : State :=
  let info := BitVec.ofNat 16 (t * 256 + ropIndex d)
  s.takeUserTrap 128 info { code := trapLRANK, sub := info, slot := 3 }

/-- A result that may exceed the capacity (R175). -/
def State.lrFit (s : State) (d : BitVec 8) (at_ : Bool) (o : LrOp) : Except Stop State :=
  let tooBig (x : LrOp) : Bool := x.rank != 255 && decide (s.me.views.kCap < x.rank)
  if !tooBig o then .ok (s.lrDone d o)
  else if at_ then do
    let x ← orLimit (truncate s.lrTol o)
    .ok (if tooBig x then s.lrank d x.rank else s.lrDone d x)
  else .ok (s.lrank d o.rank)

/-- LRZERO (R176). -/
def execLrzero (g : Guard) (b : MatrixBody) (s : State) : Host.Outcome State Fault Refusal :=
  atIssue (.lrzero g b) g checkLr (fun s => .ok (s.setRank (ropIndex b.dst) 0)) s

/-- The columns of an LRSET source (R177). -/
def State.lrsetCols (s : State) (b : MatrixBody) (r : BitVec 8) : List (List Nat) :=
  let n := bitsOf b.aux 6 0
  if b.aux.getLsbD 15 then
    chunk 128 n ((s.rdCodes (s.me.viewEnv.start .t (ropIndex r)) 16 (128 * n)).map (· * 65536))
  else chunk 128 n (s.rdCodes (s.me.viewEnv.start .v (ropIndex r)) 32 (128 * n))

/-- LRSET (R177). -/
def execLrset (g : Guard) (b : MatrixBody) (s : State) : Host.Outcome State Fault Refusal :=
  atIssue (.lrset g b) g checkLr
    (fun s => s.lrFit b.dst (b.aux.getLsbD 16) (.factored (s.lrsetCols b b.srcA) (s.lrsetCols b b.srcB))) s
/-- LRADD (R178). -/
def execLradd (g : Guard) (b : MatrixBody) (s : State) : Host.Outcome State Fault Refusal :=
  atIssue (.lradd g b) g checkLr
    (fun s => s.lrFit b.dst (b.aux.getLsbD 16) (lrAdd (s.rdK b.srcA) (s.rdK b.srcB))) s
/-- LRSCALE (R176). -/
def execLrscale (g : Guard) (b : MatrixBody) (s : State) : Host.Outcome State Fault Refusal :=
  atIssue (.lrscale g b) g checkLr
    (fun s => .ok (s.lrDone b.dst (lrScale ((s.rs (b.srcB.extractLsb' 0 6)).toNat % 2 ^ 32) (s.rdK b.srcA)))) s
/-- LRMUL (R179). -/
def execLrmul (g : Guard) (b : MatrixBody) (s : State) : Host.Outcome State Fault Refusal :=
  atIssue (.lrmul g b) g checkLr (fun s => .ok (s.lrDone b.dst (lrMul (s.rdK b.srcA) (s.rdK b.srcB)))) s
/-- LRMULD (R180). -/
def execLrmuld (g : Guard) (b : MatrixBody) (s : State) : Host.Outcome State Fault Refusal :=
  atIssue (.lrmuld g b) g checkLr
    (fun s => .ok (s.lrDone b.dst (lrMulDense (b.aux.getLsbD 0) (s.rdBf b.srcB) (s.rdK b.srcA)))) s
/-- LRTRUNC (R185 to R187). -/
def execLrtrunc (g : Guard) (b : MatrixBody) (s : State) : Host.Outcome State Fault Refusal :=
  atIssue (.lrtrunc g b) g checkLr (fun s => do
    let x ← orLimit (truncate s.lrTol (s.rdK b.srcA))
    s.lrFit b.dst false x) s

/-- LRDENSE traps LIMIT at issue below capacity 64 (R181). -/
def checkLrdense (s : State) : Except Stop Unit := do
  checkLr s
  require (s.me.views.kCap == 64) (limitTrap 3)

/-- LRDENSE (R181). -/
def execLrdense (g : Guard) (b : MatrixBody) (s : State) : Host.Outcome State Fault Refusal :=
  atIssue (.lrdense g b) g checkLrdense (fun s => .ok (s.lrDone b.dst (lrDense (s.rdK b.srcA)))) s

/-- LRCOMP's result (R188): a factored source of rank 1 to 64 traps LIMIT. -/
def State.lrcomp (s : State) (b : MatrixBody) : Except Stop LrOp :=
  if b.aux.getLsbD 0 then orLimit (compress s.lrTol (s.rdBf b.srcA))
  else match s.rdK b.srcA with
    | .dense rows => orLimit (compress s.lrTol rows)
    | .factored [] _ => .ok (.factored [] [])
    | .factored (_ :: _) _ => .error (limitTrap 3)

/-- LRCOMP (R188). -/
def execLrcomp (g : Guard) (b : MatrixBody) (s : State) : Host.Outcome State Fault Refusal :=
  atIssue (.lrcomp g b) g checkLr (fun s => do
    let x ← s.lrcomp b
    s.lrFit b.dst false x) s

/-- The values y of R182 by row, 16 rows of 128. -/
def applyRows (x : List (List Nat)) : LrOp → List (List Nat)
  | .dense rows => let cs := columns 128 rows; x.map fun r => cs.map fun c => lrDot r c
  | .factored u v =>
    let vr := columns 128 v
    x.map fun r => let z := u.map fun c => lrDot r c; vr.map fun w => lrDot z w

/-- X of R182: 16 rows of 128 BF16, widened, from four T views. -/
def State.rdX (s : State) (r : BitVec 8) : List (List Nat) :=
  let at0 := s.me.viewEnv.start .t (ropIndex r)
  let ts := (List.range 4).map fun k => chunk 32 16 ((s.rdCodes (at0 + 1024 * k) 16 512).map (· * 65536))
  (List.range 16).map fun i => ts.flatMap fun t => t.getD i []

/-- 512 values added into the accumulator tile at a window offset (R182). -/
def State.applyTile (s : State) (off : Nat) (ys : List Nat) : State :=
  let a := s.acc off
  let rs := ((s.rdAccum false off).zip ys).map fun (I, y) => stepElem false a.anchor.toInt I [decodeFp fp32 y]
  (s.wrAccum false off (rs.map Prod.fst)).setAcc off
    { a with ovf := a.ovf || rs.any fun r => r.2.1, ufc := addUfc a.ufc ((rs.map fun r => r.2.2).foldl (· + ·) 0) }

/-- LRAPPLY (R182). -/
def lrapplyEff (b : MatrixBody) (s : State) : Except Stop State := do
  let off ← cOffset s.me.viewEnv b.dst
  match s.rdK b.srcB with
  | .factored [] _ => .ok (s.latchLm (s.rdWin off 4096))
  | o =>
    let ys := applyRows (s.rdX b.srcA) o
    let s1 := (List.range 4).foldl (fun a k =>
      a.applyTile (off + 4096 * k) (ys.flatMap fun r => (r.drop (32 * k)).take 32)) s
    .ok (s1.latchLm (s1.rdWin off 4096))

def execLrapply (g : Guard) (b : MatrixBody) (s : State) : Host.Outcome State Fault Refusal :=
  atIssue (.lrapply g b) g checkLr (lrapplyEff b) s

/-- LRRANK (R176). -/
def execLrrank (g : Guard) (b : MatrixBody) (s : State) : Host.Outcome State Fault Refusal :=
  atIssue (.lrrank g b) g checkLr (fun s =>
    let v := BitVec.ofNat 64 (s.me.rank (ropIndex b.srcA))
    .ok ((s.putS (bitsOf b.dst 5 0) v).latchLmWord v)) s

end Sys2Proof.Machine
end

