-- ==== Sys2Proof/Machine/Load.lean ====
section
/-! DEFINITION. Accesses to memory and the load slot: spec/08_memory_sync_isa.md R192 to R200, spec/07_low_rank.md R190,
spec/09_memory_model.md R230, R235. -/

namespace Sys2Proof.Machine

/-! Addresses and checks at issue (R192 to R195). -/

/-- The effective offset with OFF24 (R192). -/
def State.memEo (s : State) (b : MemBody) : Nat := effOff (s.ra b.areg.toNat) b.off24.toInt
/-- The effective offset with the low n bits of OFF24 (R192, R201). -/
def State.memEoLow (s : State) (b : MemBody) (n : Nat) : Nat :=
  effOff (s.ra b.areg.toNat) (b.off24.extractLsb' 0 n).toInt
/-- The number of bytes 2^SIZE. -/
def memLen (b : MemBody) : Nat := 2 ^ b.size.toNat

/-- The capability checks of an access at issue (R193, R194, R230); another tile's scratchpad is refused, after the bounds
have been checked. DESIGN CHOICE: notes/assumptions/64.md. -/
def State.portCheck (s : State) (slot : Nat) (c : Cap) (kinds rs : List Nat) (eo len : Nat) : Except Stop Unit := do
  capCheck slot c kinds rs [] eo len
  require (c.kind != kSCRATCH || !s.otherScratch s.myTile s.me.sys.asid c.obj eo len) (slotTrap trapCAP_RIGHTS slot c.obj eo)

/-- The checks at issue of an access of `len` bytes at `eo` (R194, R195). -/
def State.accessCheck (s : State) (slot : Nat) (c : Cap) (kinds rs : List Nat) (eo len : Nat) : Except Stop Unit := do
  s.portCheck slot c kinds rs eo len
  require (eo % min len 64 == 0) (limitTrap slot)

/-- The check of a load or store of 2^SIZE bytes with OFF24 (R193 to R195). -/
def checkMemOp (kinds rs : List Nat) (g : Guard) (b : MemBody) (s : State) : Except Stop Unit :=
  s.accessCheck g.slot.toNat (s.ra b.areg.toNat) kinds rs (s.memEo b) (memLen b)

def kindsGM : List Nat := [kGLOBAL, kMAILBOX]
def kindsS : List Nat := [kSCRATCH]
def kindsGMS : List Nat := [kGLOBAL, kMAILBOX, kSCRATCH]
def kindsC : List Nat := [kCAPSTORE]

/-- The first byte of row i of TLDS and TSTS, and their 16 rows (R198); a row's address wraps as R192's does.
DESIGN CHOICE: notes/assumptions/65.md. -/
def State.tileRows (s : State) (b : MemBody) : List (Nat × Nat) :=
  let eo := effOff (s.ra b.areg.toNat) (64 * (b.off24.extractLsb' 12 12).toInt)
  (List.range 16).map fun i => ((eo + 64 * bitsOf b.off24 11 0 * i) % 2 ^ 48, 64)

/-- Every row's capability check, in order. -/
def State.rowChecks (s : State) (slot : Nat) (c : Cap) (rs : List Nat) : List (Nat × Nat) → Except Stop Unit
  | [] => .ok ()
  | (eo, n) :: ps => do
    s.portCheck slot c kindsS rs eo n
    s.rowChecks slot c rs ps

/-- The check of TLDS and TSTS: every row, then alignment (R195, R198). -/
def checkTileRows (rs : List Nat) (g : Guard) (b : MemBody) (s : State) : Except Stop Unit := do
  s.rowChecks g.slot.toNat (s.ra b.areg.toNat) rs (s.tileRows b)
  require ((s.tileRows b).all fun p => p.1 % 64 == 0) (limitTrap g.slot.toNat)

/-! Bytes at the memory port. -/

/-- The runs of bytes that active lanes cover in an access of n bytes, as offset and length (R72, R197). -/
def laneRuns (m : Mask) (n : Nat) : List (Nat × Nat) :=
  (List.range (n / 4)).foldr (fun i acc =>
    if m.getLsbD (i % 64) then
      match acc with
      | (o, l) :: rest => if o = 4 * i + 4 then (4 * i, l + 4) :: rest else (4 * i, 4) :: acc
      | [] => [(4 * i, 4)]
    else acc) []

/-- Whether an object carries the remote-copy attribute (R235, R353). -/
def State.isRcopy (s : State) (obj : Nat) : Bool :=
  match s.lookObj s.myTile s.me.sys.asid obj with
  | none => false
  | some e => e.getLsbD 81

/-- The port's translation of an access that is no matrix and no pump access: a well-backed object is refused (R226,
R230). -/
def State.port (s : State) (slot : Nat) (c : Cap) (rs : List Nat) (eo len : Nat) :
    Except Stop (State × List Piece × List Nat) := do
  let r ← s.translate s.myTile s.me.sys.asid slot c.obj c.kind rs [] eo len
  require (r.2.1.all fun p => paSpace p.1 != 3) (slotTrap trapCAP_RIGHTS slot c.obj eo)
  .ok r

/-- One run of a load as the context sees it (R33, R230, R235). -/
def State.loadRun (s : State) (slot : Nat) (c : Cap) (rs : List Nat) (scope eo len : Nat) :
    Except Stop (State × List Byte) := do
  let (s1, ps, _) ← s.port slot c rs eo len
  let remote := ps.filter fun p => paPkg p.1 != s.net.pkg
  let s2 := if s1.isRcopy c.obj then s1.keepCopies (decide (5 ≤ scope)) remote else s1
  .ok (s2.touchPieces ps, s2.rdOwn (s1.isRcopy c.obj && decide (scope ≤ 4)) ps)

/-- Runs of a load written to a window offset, in order: run (o, l) of memory from eo goes to byte o. -/
def State.loadRuns (s : State) (slot : Nat) (c : Cap) (rs : List Nat) (scope eo at0 : Nat) :
    List (Nat × Nat) → Except Stop State
  | [] => .ok s
  | (o, l) :: ps => do
    let (s1, bs) ← s.loadRun slot c rs scope (eo + o) l
    let s2 ← s1.loadRuns slot c rs scope eo at0 ps
    .ok (s2.wrWin (at0 + o) bs)

/-! The load slot. -/

def execNopLoad (g : Guard) (body : BitVec 47) (s : State) : Host.Outcome State Fault Refusal :=
  nopForm (.nopLoad g body) g s

/-- The effect of LD, LDA and LDS (R196). -/
def scalarLoad (rs : List Nat) (g : Guard) (b : MemBody) (s : State) : Except Stop State := do
  let (s1, bs) ← s.loadRun g.slot.toNat (s.ra b.areg.toNat) rs b.scope.toNat (s.memEo b) (memLen b)
  .ok ((s1.putS (bitsOf b.data 5 0) (BitVec.ofNat 64 (leNat bs))).latchLl bs)

/-- LD (R196). -/
def execLd (g : Guard) (b : MemBody) (s : State) : Host.Outcome State Fault Refusal :=
  atIssue (.ld g b) g (checkMemOp kindsGM [rR] g b) (scalarLoad [rR] g b) s
/-- LDA (R196): an acquire; its order is the step's (R234). -/
def execLda (g : Guard) (b : MemBody) (s : State) : Host.Outcome State Fault Refusal :=
  atIssue (.lda g b) g (checkMemOp kindsGM [rR] g b) (scalarLoad [rR] g b) s
/-- LDS (R196). -/
def execLds (g : Guard) (b : MemBody) (s : State) : Host.Outcome State Fault Refusal :=
  atIssue (.lds g b) g (checkMemOp kindsS [rR] g b) (scalarLoad [rR] g b) s

/-- The effect of VLD and VLDS (R197): inactive lanes are not read, their register bytes stay. -/
def vectorLoad (g : Guard) (b : MemBody) (s : State) : Except Stop State := do
  let at0 := s.me.viewEnv.start .v (ropIndex b.data)
  let s1 ← s.loadRuns g.slot.toNat (s.ra b.areg.toNat) [rR] b.scope.toNat (s.memEo b) at0
    (laneRuns (s.lanes g) (memLen b))
  .ok (s1.latchLl (s1.rdWin at0 (memLen b)))

/-- VLD (R197). -/
def execVld (g : Guard) (b : MemBody) (s : State) : Host.Outcome State Fault Refusal :=
  atIssueLanes (.vld g b) (checkMemOp kindsGM [rR] g b) (vectorLoad g b) s
/-- VLDS (R197). -/
def execVlds (g : Guard) (b : MemBody) (s : State) : Host.Outcome State Fault Refusal :=
  atIssueLanes (.vlds g b) (checkMemOp kindsS [rR] g b) (vectorLoad g b) s

/-- Rows of a T view loaded one by one (R198). -/
def State.loadRows (s : State) (slot : Nat) (c : Cap) (scope at0 : Nat) : List (Nat × Nat) → Except Stop State
  | [] => .ok s
  | (eo, n) :: ps => do
    let (s1, bs) ← s.loadRun slot c [rR] scope eo n
    let s2 ← s1.loadRows slot c scope (at0 + n) ps
    .ok (s2.wrWin at0 bs)

/-- TLDS (R198). -/
def execTlds (g : Guard) (b : MemBody) (s : State) : Host.Outcome State Fault Refusal :=
  atIssue (.tlds g b) g (checkTileRows [rR] g b) (fun s => do
    let at0 := s.me.viewEnv.start .t (ropIndex b.data)
    let s1 ← s.loadRows g.slot.toNat (s.ra b.areg.toNat) b.scope.toNat at0 (s.tileRows b)
    .ok (s1.latchLl (s1.rdWin at0 1024))) s

/-- The elements of VGATH and VSCAT that move, in ascending order: element number and address (R199). -/
def State.gatherElems (s : State) (g : Guard) (b : MemBody) : List (Nat × Nat) :=
  let idx := elems 32 64 (leNat (s.rdWin (s.me.viewEnv.start .v (bitsOf b.off24 21 16)) 256))
  (idx.zipIdx.filter fun (x, i) => (s.lanes g).getLsbD i && x != 0xFFFFFFFF).map fun (x, i) =>
    (i, effOff (s.ra b.areg.toNat) ((b.off24.extractLsb' 0 16).toInt + (x * memLen b : Nat)))

/-- The check of one element where it executes (R194, R199). -/
def State.elemCheck (s : State) (slot : Nat) (c : Cap) (rs : List Nat) (addr es : Nat) : Except Stop Unit := do
  s.portCheck slot c kindsGMS rs addr es
  require (addr % es == 0) (limitTrap slot)

/-- VGATH's elements in order; with the state, the stop of the first that fails (R199). -/
def State.gather (s : State) (slot : Nat) (c : Cap) (scope es at0 : Nat) : List (Nat × Nat) → State × Option Stop
  | [] => (s, none)
  | (i, addr) :: es' =>
    match (do s.elemCheck slot c [rR] addr es; s.loadRun slot c [rR] scope addr es) with
    | .error e => (s, some e)
    | .ok (s1, bs) => (s1.wrWin (at0 + i * es) bs).gather slot c scope es at0 es'

/-- What an operation that has failed part of the way leaves: what it did stands, and the context takes the trap.
DESIGN CHOICE: notes/assumptions/11.md. DEDUCED: notes/assumptions/12.md. -/
def stopWith (s : State) : Stop → Except Stop State
  | .trap t => .ok (s.takeTrap t)
  | .fault f => .error (.fault f)

/-- VGATH (R199). -/
def execVgath (g : Guard) (b : MemBody) (s : State) : Host.Outcome State Fault Refusal :=
  atIssueLanes (.vgath g b) noCheck (fun s =>
    let at0 := s.me.viewEnv.start .v (ropIndex b.data)
    match s.gather g.slot.toNat (s.ra b.areg.toNat) b.scope.toNat (memLen b) at0 (s.gatherElems g b) with
    | (s1, none) => .ok (s1.latchLl (s1.rdWin at0 (64 * memLen b)))
    | (s1, some e) => stopWith s1 e) s

/-- CAPLD (R200). -/
def execCapld (g : Guard) (b : MemBody) (s : State) : Host.Outcome State Fault Refusal :=
  atIssue (.capld g b) g (checkMemOp kindsC [rR, rC] g b) (fun s => do
    let (s1, ps, _) ← s.port g.slot.toNat (s.ra b.areg.toNat) [rR, rC] (s.memEo b) 16
    let bs := s1.rdOwn false ps
    let pa := (ps.headD (0, 0)).1
    let c : Cap := { bits := BitVec.ofNat 128 (leNat bs), tag := forwardTag s1.me.commitQ pa (s1.rdTag pa) }
    .ok (((s1.touchPieces ps).putA (bitsOf b.data 3 0) c).latchLl bs)) s

/-- The checks of LRLDS and LRSTS at issue (R170, R173, R190). DEDUCED: notes/assumptions/21.md. -/
def checkLrMem (rs : List Nat) (g : Guard) (b : MemBody) (s : State) : Except Stop Unit := do
  let slot := g.slot.toNat
  let c := s.ra b.areg.toNat
  let eo := s.memEo b
  s.needFeature 1 slot
  require (s.me.views.kCap != 0) (limitTrap slot)
  require c.tag (slotTrap trapCAP_TAG slot c.obj eo)
  require (c.kind == kSCRATCH && hasRights c.rights rs) (slotTrap trapCAP_RIGHTS slot c.obj eo)
  require (!s.otherScratch s.myTile s.me.sys.asid c.obj eo 64) (slotTrap trapCAP_RIGHTS slot c.obj eo)
  require (eo % 64 == 0) (limitTrap slot)
  capCheck slot c kindsS rs [] eo 64

/-- LRLDS (R190): the header first, then the whole image. DEDUCED: notes/assumptions/21.md. -/
def lrldsEff (g : Guard) (b : MemBody) (s : State) : Except Stop State := do
  let slot := g.slot.toNat
  let c := s.ra b.areg.toNat
  let eo := s.memEo b
  let (s1, h) ← s.loadRun slot c [rR] b.scope.toNat eo 64
  let rk := (h.headD 0).toNat
  let cap := s.me.views.kCap
  require (h.tail.all (· == 0) && (if rk = 255 then cap == 64 else decide (rk ≤ 64) && decide (rk ≤ cap)))
    (limitTrap slot)
  capCheck slot c kindsS [rR] [] eo (64 + lrBytes rk)
  let (s2, bs) ← s1.loadRun slot c [rR] b.scope.toNat (eo + 64) (lrBytes rk)
  .ok (((s2.wrWin (s.me.viewEnv.start .k (ropIndex b.data)) bs).setRank (ropIndex b.data) rk).latchLl bs)

/-- LRLDS (R190). -/
def execLrlds (g : Guard) (b : MemBody) (s : State) : Host.Outcome State Fault Refusal :=
  atIssue (.lrlds g b) g (checkLrMem [rR] g b) (lrldsEff g b) s

end Sys2Proof.Machine
end

