-- ==== Sys2Proof/Machine/Store.lean ====
section
/-! DEFINITION. The store slot and atomics: spec/08_memory_sync_isa.md R193 to R203, spec/07_low_rank.md R190.
A global store or atomic enters the commit stage; a scratchpad one performs where it executes. -/

namespace Sys2Proof.Machine

/-- CB_CONFIG; its subcode is the handle (R349). -/
def cbTrap (slot h : Nat) : Stop := .trap { code := trapCB_CONFIG, sub := BitVec.ofNat 16 h, slot := slot }

/-- A named handle at issue (R28, R33, R201): no open region, COUNT not 0. -/
def State.handleCheck (s : State) (slot h : Nat) : Except Stop Unit :=
  require (!s.regionOpen && (s.me.handle h).count != 0) (cbTrap slot h)

/-- HE and HANDLE of STS and VSTS (R201). -/
def stsHe (b : MemBody) : Option Nat := if b.off24.getLsbD 23 then some (bitsOf b.off24 22 19) else none
/-- HE and HANDLE of ATOMS (R201). -/
def atomsHe (b : MemBody) : Option Nat := if b.off24.getLsbD 19 then some (bitsOf b.off24 18 15) else none

/-- The check of a handle that may be named. DEDUCED: notes/assumptions/28.md. -/
def State.heCheck (s : State) (slot : Nat) : Option Nat → Except Stop Unit
  | none => .ok ()
  | some h => s.handleCheck slot h

/-- The check of STS and VSTS (R194, R195, R201). -/
def checkSts (g : Guard) (b : MemBody) (s : State) : Except Stop Unit := do
  s.accessCheck g.slot.toNat (s.ra b.areg.toNat) kindsS [rW] (s.memEoLow b 19) (memLen b)
  s.heCheck g.slot.toNat (stsHe b)

/-- Runs of bytes translated for writing: cells and page entries to mark. Run (o, bs) goes to eo + o. -/
def State.storeCells (s : State) (slot : Nat) (c : Cap) (rs : List Nat) (eo : Nat) :
    List (Nat × List Byte) → Except Stop (State × List (Nat × Byte) × List Nat)
  | [] => .ok (s, [], [])
  | (o, bs) :: rest => do
    let (s1, ps, ds) ← s.port slot c rs (eo + o) bs.length
    let (s2, cs, es) ← s1.storeCells slot c rs eo rest
    .ok (s2, cellsOf ps bs ++ cs, ds ++ es)

/-- A global store enters the commit stage (R34, R193). -/
def State.storeGlobal (s : State) (g : Guard) (b : MemBody) (eo : Nat) (runs : List (Nat × List Byte)) :
    Except Stop State := do
  let (s1, cs, ds) ← s.storeCells g.slot.toNat (s.ra b.areg.toNat) [rW] eo runs
  if cs.isEmpty then .ok s1 else s1.commit g.slot.toNat b.cls.toNat b.scope.toNat (.store cs ds)

/-- Bytes charged to a handle of the issuing context, by scratchpad offset (R30, R201). -/
def State.chargeMe (s : State) (he : Option Nat) (off len : Nat) : State :=
  match he with
  | none => s
  | some h => s.modMe fun x => x.setHandle h ((x.handle h).charge off len)

/-- The offset in its tile's scratchpad of a physical address in scratchpad space (R354). -/
def scratchOff (pa : Nat) : Nat := pa % 2 ^ 21

/-- A scratchpad store performs; the bytes are charged to the handle, if one is named (R193, R201). -/
def State.storeScratch (s : State) (slot : Nat) (c : Cap) (rs : List Nat) (he : Option Nat) (eo : Nat) :
    List (Nat × List Byte) → Except Stop State
  | [] => .ok s
  | (o, bs) :: rest => do
    let (s1, ps, ds) ← s.port slot c rs (eo + o) bs.length
    let s2 := s1.performStore ds (cellsOf ps bs)
    (ps.foldl (fun a (pa, n) => a.chargeMe he (scratchOff pa) n) s2).storeScratch slot c rs he eo rest

/-! The store slot. -/

def execNopStore (g : Guard) (body : BitVec 47) (s : State) : Host.Outcome State Fault Refusal :=
  nopForm (.nopStore g body) g s

/-- The bytes of a scalar store (R196). -/
def State.scalarBytes (s : State) (b : MemBody) : List Byte := leBytes (memLen b) (s.rs (b.data.extractLsb' 0 6)).toNat

/-- ST (R196). -/
def execSt (g : Guard) (b : MemBody) (s : State) : Host.Outcome State Fault Refusal :=
  atIssue (.st g b) g (checkMemOp kindsGM [rW] g b) (fun s => s.storeGlobal g b (s.memEo b) [(0, s.scalarBytes b)]) s
/-- STL (R196): a release; its order is that of the commit stage (R234). -/
def execStl (g : Guard) (b : MemBody) (s : State) : Host.Outcome State Fault Refusal :=
  atIssue (.stl g b) g (checkMemOp kindsGM [rW] g b) (fun s => s.storeGlobal g b (s.memEo b) [(0, s.scalarBytes b)]) s
/-- STS (R196, R201). -/
def execSts (g : Guard) (b : MemBody) (s : State) : Host.Outcome State Fault Refusal :=
  atIssue (.sts g b) g (checkSts g b) (fun s =>
    s.storeScratch g.slot.toNat (s.ra b.areg.toNat) [rW] (stsHe b) (s.memEoLow b 19) [(0, s.scalarBytes b)]) s

/-- The runs of a vector store with their bytes (R197). -/
def State.vectorRuns (s : State) (g : Guard) (b : MemBody) : List (Nat × List Byte) :=
  let at0 := s.me.viewEnv.start .v (ropIndex b.data)
  (laneRuns (s.lanes g) (memLen b)).map fun (o, l) => (o, s.rdWin (at0 + o) l)

/-- VST (R197). -/
def execVst (g : Guard) (b : MemBody) (s : State) : Host.Outcome State Fault Refusal :=
  atIssueLanes (.vst g b) (checkMemOp kindsGM [rW] g b) (fun s => s.storeGlobal g b (s.memEo b) (s.vectorRuns g b)) s
/-- VSTS (R197, R201). -/
def execVsts (g : Guard) (b : MemBody) (s : State) : Host.Outcome State Fault Refusal :=
  atIssueLanes (.vsts g b) (checkSts g b) (fun s =>
    s.storeScratch g.slot.toNat (s.ra b.areg.toNat) [rW] (stsHe b) (s.memEoLow b 19) (s.vectorRuns g b)) s

/-- Rows of a T view stored one by one (R198). -/
def State.storeRows (s : State) (slot : Nat) (c : Cap) (at0 : Nat) : List (Nat × Nat) → Except Stop State
  | [] => .ok s
  | (eo, n) :: ps => do
    let s1 ← s.storeScratch slot c [rW] none eo [(0, s.rdWin at0 n)]
    s1.storeRows slot c (at0 + n) ps

/-- TSTS (R198). -/
def execTsts (g : Guard) (b : MemBody) (s : State) : Host.Outcome State Fault Refusal :=
  atIssue (.tsts g b) g (checkTileRows [rW] g b) (fun s =>
    s.storeRows g.slot.toNat (s.ra b.areg.toNat) (s.me.viewEnv.start .t (ropIndex b.data)) (s.tileRows b)) s

/-- VSCAT's elements in order: the state, the cells and page entries of a global scatter so far, and the stop of the
first element that fails (R199). DEDUCED: notes/assumptions/30.md. -/
def State.scatter (s : State) (slot : Nat) (c : Cap) (es at0 : Nat) :
    List (Nat × Nat) → State × List (Nat × Byte) × List Nat × Option Stop
  | [] => (s, [], [], none)
  | (i, addr) :: rest =>
    match (do s.elemCheck slot c [rW] addr es; s.storeCells slot c [rW] addr [(0, s.rdWin (at0 + i * es) es)]) with
    | .error e => (s, [], [], some e)
    | .ok (s1, cs, ds) =>
      let s2 := if c.kind = kSCRATCH then s1.performStore ds cs else s1
      let (s3, cs', ds', e) := s2.scatter slot c es at0 rest
      (s3, if c.kind = kSCRATCH then cs' else cs ++ cs', if c.kind = kSCRATCH then ds' else ds ++ ds', e)

/-- The effect of VSCAT (R199): outside a region the elements below a failing one leave the commit stage. -/
def vscatEff (g : Guard) (b : MemBody) (s : State) : Except Stop State :=
  let slot := g.slot.toNat
  let (s1, cs, ds, e) := s.scatter slot (s.ra b.areg.toNat) (memLen b) (s.me.viewEnv.start .v (ropIndex b.data))
    (s.gatherElems g b)
  match e with
  | none => if cs.isEmpty then .ok s1 else s1.commit slot b.cls.toNat b.scope.toNat (.store cs ds)
  | some e =>
    stopWith (if cs.isEmpty || s1.regionOpen then s1
      else s1.modMe fun x => { x with commitQ := x.commitQ ++
        [{ bundle := x.bundleNo, pc := x.pc, cls := b.cls.toNat, scope := b.scope.toNat, stands := true,
           op := .store cs ds }] }) e

/-- VSCAT (R199). -/
def execVscat (g : Guard) (b : MemBody) (s : State) : Host.Outcome State Fault Refusal :=
  atIssueLanes (.vscat g b) noCheck (vscatEff g b) s

/-- CAPST (R200). -/
def execCapst (g : Guard) (b : MemBody) (s : State) : Host.Outcome State Fault Refusal :=
  atIssue (.capst g b) g (checkMemOp kindsC [rW, rC] g b) (fun s => do
    let (s1, ps, ds) ← s.port g.slot.toNat (s.ra b.areg.toNat) [rW, rC] (s.memEo b) 16
    s1.commit g.slot.toNat b.cls.toNat b.scope.toNat (.capStore (ps.headD (0, 0)).1 (s.ra (bitsOf b.data 3 0)) ds)) s

/-! Atomics (R201 to R203). -/

/-- The new memory value of an atomic of w bits on old value m (R202). -/
def atomicNew (op w m v c : Nat) : Nat :=
  let sm := intOfBits true w m
  let sv := intOfBits true w v
  match op with
  | 0 => (m + v) % 2 ^ w
  | 1 => m &&& v
  | 2 => m ||| v
  | 3 => m ^^^ v
  | 4 => if sm ≤ sv then m else v
  | 5 => if sv ≤ sm then m else v
  | 6 => min m v
  | 7 => max m v
  | 8 => v
  | 9 => if m = v then c else m
  | _ => (fpAdd fp32 .rne (decodeFp fp32 m) (decodeFp fp32 v)).1

/-- OP of ATOM and ATOMS (R201). -/
def atomOp (b : MemBody) : Nat := bitsOf b.off24 23 20
/-- Operand v of an atomic, its low w bits (R201). -/
def State.atomV (s : State) (b : MemBody) : Nat := (s.rs (b.data.extractLsb' 0 6)).toNat % 2 ^ (8 * memLen b)
/-- s[D + 1] of .cas, its low w bits (R202). -/
def State.atomC (s : State) (b : MemBody) : Nat := (s.rs (b.data.extractLsb' 0 6 + 1)).toNat % 2 ^ (8 * memLen b)

/-- The check of ATOM (R193 to R195). -/
def checkAtom (g : Guard) (b : MemBody) (s : State) : Except Stop Unit :=
  s.accessCheck g.slot.toNat (s.ra b.areg.toNat) [kGLOBAL] [rA] (s.memEoLow b 20) (memLen b)

/-- ATOM (R201 to R203): it enters the commit stage and performs at its home. -/
def execAtom (g : Guard) (b : MemBody) (s : State) : Host.Outcome State Fault Refusal :=
  atIssue (.atom g b) g (checkAtom g b) (fun s => do
    let (s1, ps, ds) ← s.port g.slot.toNat (s.ra b.areg.toNat) [rA] (s.memEoLow b 20) (memLen b)
    s1.commit g.slot.toNat b.cls.toNat b.scope.toNat
      (.atomic (ps.headD (0, 0)).1 (atomOp b) b.size.toNat (BitVec.ofNat 64 (s.atomV b)) (BitVec.ofNat 64 (s.atomC b))
        (bitsOf b.data 5 0) ds)) s

/-- The check of ATOMS (R193 to R195, R201). -/
def checkAtoms (g : Guard) (b : MemBody) (s : State) : Except Stop Unit := do
  s.accessCheck g.slot.toNat (s.ra b.areg.toNat) kindsS [rA] (s.memEoLow b 15) (memLen b)
  s.heCheck g.slot.toNat (atomsHe b)

/-- ATOMS (R201 to R203): it performs in the issuing tile's store unit. -/
def execAtoms (g : Guard) (b : MemBody) (s : State) : Host.Outcome State Fault Refusal :=
  atIssue (.atoms g b) g (checkAtoms g b) (fun s => do
    let n := memLen b
    let (s1, ps, ds) ← s.port g.slot.toNat (s.ra b.areg.toNat) [rA] (s.memEoLow b 15) n
    let m := leNat (s1.rdPieces ps)
    let s2 := s1.performStore ds (cellsOf ps (leBytes n (atomicNew (atomOp b) (8 * n) m (s.atomV b) (s.atomC b))))
    .ok ((s2.chargeMe (atomsHe b) (scratchOff (ps.headD (0, 0)).1) n).putS (bitsOf b.data 5 0) (BitVec.ofNat 64 m))) s

/-- LRSTS (R190): the rank field as it stands decides the image's length. DEDUCED: notes/assumptions/21.md. -/
def lrstsEff (g : Guard) (b : MemBody) (s : State) : Except Stop State := do
  let c := s.ra b.areg.toNat
  let k := ropIndex b.data
  let rk := s.me.rank k
  capCheck g.slot.toNat c kindsS [rW] [] (s.memEo b) (64 + lrBytes rk)
  s.storeScratch g.slot.toNat c [rW] none (s.memEo b)
    [(0, leBytes 64 rk ++ s.rdWin (s.me.viewEnv.start .k k) (lrBytes rk))]

/-- LRSTS (R190). -/
def execLrsts (g : Guard) (b : MemBody) (s : State) : Host.Outcome State Fault Refusal :=
  atIssue (.lrsts g b) g (checkLrMem [rW] g b) (lrstsEff g b) s

end Sys2Proof.Machine
end

