-- ==== Sys2Proof/Machine/Pump.lean ====
section
/-! DEFINITION. The pump slot's copy commands, their delivery and their completion: spec/08_memory_sync_isa.md R204 to
R210 and R426, spec/01_tile_execution.md R28 to R33. A posted command is a record in `Core.cmds`; what it does later are
the steps PUMP_DELIVERY and PUMP_COMMAND_COMPLETE. -/

namespace Sys2Proof.Machine

/-! Posting (R21, R33, R34, R204). -/

/-- The command that a pump-slot operation posts, with its registers captured (R21, R204). -/
def State.mkCmd (s : State) (i : Instr) (b : PumpBody) : PumpCmd :=
  { id := s.nextId, tile := s.myTile, ctx := s.myCtx, bundle := s.me.bundleNo, pc := s.me.pc, asid := s.me.sys.asid,
    opc := match slotFields i with | some f => f.opc.toNat | none => 0,
    body := b, cap0 := s.ra b.areg0.toNat, cap1 := s.ra b.areg1.toNat, s0 := s.rs b.s0, s1 := s.rs b.s1,
    slotWord := match slotFields i with | some f => packSlot f.opc f.g f.body | none => 0, place := .port,
    step := s.me.task.bind fun k => k.step, arm := s.me.task.bind fun k => k.arm }

/-- A command joins the commands of the package. -/
def State.addCmd (s : State) (m : PumpCmd) : State := { s with core := { s.core with cmds := s.core.cmds ++ [m] } }

/-- A command is posted: through the commit stage, or, with `local`, to the pump port at once (R33, R34, R204). -/
def State.post (s : State) (scratch : Bool) (m : PumpCmd) : Except Stop State :=
  let s1 := { s with nextId := s.nextId + 1 }
  if scratch then .ok (s1.addCmd m) else s1.commit 6 m.body.cls.toNat 0 (.pump m)

/-- HE and SG of a copy command (R204). -/
def pumpHe (b : PumpBody) : Bool := b.aux.getLsbD 0
def pumpSg (b : PumpBody) : Bool := b.aux.getLsbD 1

def kindsCopy : List Nat := [kGLOBAL, kMAILBOX, kSCRATCH]

/-- The check of a signal operand (R205). -/
def State.signalCheck (s : State) (a : Nat) : Except Stop Unit := do
  let c := s.ra a
  capCheck 6 c [kSIGNAL] [rW] [] c.offset 8
  require (c.offset % 8 == 0) (limitTrap 6)

/-- The check of the signal where SG names one. -/
def State.sgCheck (s : State) (b : PumpBody) : Except Stop Unit :=
  if pumpSg b then s.signalCheck b.areg1.toNat else .ok ()

/-- HE (R33, R201, R205): the handle is set up, no region is open, and the destination, a capability and its bytes where
they are known, is the issuing tile's scratchpad. -/
def State.heChecks (s : State) (b : PumpBody) (dst : Option (Cap × Nat)) : Except Stop Unit :=
  if pumpHe b then do
    s.handleCheck 6 b.handle.toNat
    match dst with
    | none => .ok ()
    | some (c, n) =>
      require (c.kind == kSCRATCH && !s.notScratch s.myTile s.me.sys.asid c.obj c.offset n) (cbTrap 6 b.handle.toNat)
  else .ok ()

/-- A length above 2^32 − 1 traps LIMIT (R204). DEDUCED: notes/assumptions/29.md. -/
def State.lengthCheck (s : State) (b : PumpBody) : Except Stop Unit :=
  require (decide ((s.rs b.s0).toNat < 2 ^ 32)) (limitTrap 6)

/-- The check of a range operand of S0 bytes (R194, R205). -/
def State.rangeCheck (s : State) (b : PumpBody) (a : Nat) (kinds rs any : List Nat) : Except Stop Unit :=
  let c := s.ra a
  capCheck 6 c kinds rs any c.offset (s.rs b.s0).toNat

/-- The signal a command with SG carries. -/
def State.withSignal (s : State) (b : PumpBody) (m : PumpCmd) : PumpCmd :=
  { m with signal := if pumpSg b then some (s.ra b.areg1.toNat) else none }

def execNopPump (g : Guard) (body : BitVec 47) (s : State) : Host.Outcome State Fault Refusal :=
  nopForm (.nopPump g body) g s

/-- The check of PCOPY (R204, R205). -/
def checkPcopy (b : PumpBody) (s : State) : Except Stop Unit := do
  s.lengthCheck b
  s.rangeCheck b b.areg0.toNat kindsCopy [rPD] []
  s.rangeCheck b b.areg1.toNat kindsCopy [rPS] []
  s.heChecks b (some (s.ra b.areg0.toNat, (s.rs b.s0).toNat))

/-- PCOPY (R204, R207). -/
def execPcopy (g : Guard) (b : PumpBody) (s : State) : Host.Outcome State Fault Refusal :=
  atIssue (.pcopy g b) g (checkPcopy b)
    (fun s => s.post ((s.ra b.areg0.toNat).kind == kSCRATCH) (s.mkCmd (.pcopy g b) b)) s

/-- The check of PFILL (R204, R205). -/
def checkPfill (b : PumpBody) (s : State) : Except Stop Unit := do
  s.lengthCheck b
  s.rangeCheck b b.areg0.toNat kindsCopy [rPD] []
  s.sgCheck b
  s.heChecks b (some (s.ra b.areg0.toNat, (s.rs b.s0).toNat))

/-- PFILL (R204, R207). -/
def execPfill (g : Guard) (b : PumpBody) (s : State) : Host.Outcome State Fault Refusal :=
  atIssue (.pfill g b) g (checkPfill b)
    (fun s => s.post ((s.ra b.areg0.toNat).kind == kSCRATCH) (s.withSignal b (s.mkCmd (.pfill g b) b))) s

/-- A 64-byte descriptor in a CAPSTORE object: R and C, its offset a multiple of 64 (R206). -/
def State.descCheck (s : State) (a : Nat) : Except Stop Unit := do
  let c := s.ra a
  capCheck 6 c [kCAPSTORE] [rR, rC] [] c.offset 64
  require (c.offset % 64 == 0) (limitTrap 6)

/-- The check of PGATH and PSCAT (R206). -/
def checkProws (b : PumpBody) (s : State) : Except Stop Unit := do
  s.descCheck b.areg0.toNat
  s.sgCheck b
  s.heChecks b none

/-- PGATH (R206): without HE it is held until commit whatever its descriptor names (R33). -/
def execPgath (g : Guard) (b : PumpBody) (s : State) : Host.Outcome State Fault Refusal :=
  atIssue (.pgath g b) g (checkProws b)
    (fun s => s.post (pumpHe b) (s.withSignal b (s.mkCmd (.pgath g b) b))) s
/-- PSCAT (R206): held until commit whatever its descriptor names (R33). -/
def execPscat (g : Guard) (b : PumpBody) (s : State) : Host.Outcome State Fault Refusal :=
  atIssue (.pscat g b) g (checkProws b)
    (fun s => s.post false (s.withSignal b (s.mkCmd (.pscat g b) b))) s

/-- The check of PDECL (R205). -/
def checkPdecl (b : PumpBody) (s : State) : Except Stop Unit := do
  s.lengthCheck b
  s.rangeCheck b b.areg0.toNat [kGLOBAL] [] [rW, rPD]

/-- PDECL (R205, R208). -/
def execPdecl (g : Guard) (b : PumpBody) (s : State) : Host.Outcome State Fault Refusal :=
  atIssue (.pdecl g b) g (checkPdecl b) (fun s => s.post false (s.mkCmd (.pdecl g b) b)) s

/-- The check of PFLUSHX (R205). -/
def checkPflushx (b : PumpBody) (s : State) : Except Stop Unit := do
  s.lengthCheck b
  s.rangeCheck b b.areg0.toNat [kGLOBAL, kMAILBOX] [] [rR, rW]
  s.sgCheck b

/-- PFLUSHX (R205, R209). -/
def execPflushx (g : Guard) (b : PumpBody) (s : State) : Host.Outcome State Fault Refusal :=
  atIssue (.pflushx g b) g (checkPflushx b)
    (fun s => s.post false (s.withSignal b (s.mkCmd (.pflushx g b) b))) s

/-! Commands under way. -/

/-- A posted command. -/
def State.cmd (s : State) (id : Nat) : Option PumpCmd := s.core.cmds.find? fun m => m.id == id
/-- A posted command replaced. -/
def State.setCmd (s : State) (m : PumpCmd) : State :=
  { s with core := { s.core with cmds := s.core.cmds.map fun x => if x.id = m.id then m else x } }
/-- A command gone. -/
def State.dropCmd (s : State) (id : Nat) : State :=
  { s with core := { s.core with cmds := s.core.cmds.filter fun x => x.id != id } }

/-- Whether two commands are of one context. -/
def PumpCmd.sameCtx (m x : PumpCmd) : Bool := m.tile == x.tile && m.ctx == x.ctx && m.owned && x.owned

/-- Whether a command is a KV command. -/
def PumpCmd.isKv (m : PumpCmd) : Bool := decide (7 ≤ m.opc) && decide (m.opc ≤ 16)

/-- Whether a command must wait for earlier ones of its context in its class (R207): stores and atomics that have not
performed, commands that have not made their last write, commands still held. DEDUCED: notes/assumptions/29.md. -/
def State.cmdBlocked (s : State) (m : PumpCmd) : Bool :=
  m.owned &&
  (((s.ctx m.tile m.ctx).commitQ.any fun e => match e.op with
      | .pump x => e.cls == m.body.cls.toNat && decide (x.bundle < m.bundle)
      | .atomic .. => decide (e.bundle ≤ m.bundle) && (!e.held || e.cls == m.body.cls.toNat)
      | _ => e.cls == m.body.cls.toNat && decide (e.bundle ≤ m.bundle)) ||
    (s.core.homeQ.any fun h => h.tile == m.tile && h.ctx == m.ctx && decide (h.bundle ≤ m.bundle)) ||
    (s.core.cmds.any fun x => x.sameCtx m && x.body.cls == m.body.cls && decide (x.bundle < m.bundle) && !x.finished &&
      x.place != .accepted && !(x.place == .resolved && x.isKv && m.isKv)))

/-- A command stopped by a trap: it has finished with FAULT (R206, R210). -/
def PumpCmd.fail (m : PumpCmd) (t : Trap) : PumpCmd :=
  { m with finished := true, status := 2, fault := some (t.code, t.sub, t.obj, t.off) }

/-- A command stopped before it was posted: no signal is updated (R206). -/
def PumpCmd.refuse (m : PumpCmd) (t : Trap) : PumpCmd := { m.fail t with signal := none }

/-- What a trap of a command's work does at once, and the trap it leaves with the command: a page found bad is marked
(R378); a page to be regenerated starts its regeneration and counts as PAGE_ABSENT (R359). -/
def State.cmdStop (s : State) (m : PumpCmd) (t : Trap) : State × Trap :=
  let s1 := match t.bad with
    | some (u, p) => s.markBad u p
    | none => s
  if t.code = trapPAGE_REGEN then (s1.requestRegen m.asid t.obj t.off, { t with code := trapPAGE_ABSENT }) else (s1, t)

/-- A stop of a command's work: a trap stays with the command (R206, R359, R378). -/
def State.failCmd (s : State) (posted : Bool) (m : PumpCmd) : Stop → Except Stop State
  | .fault f => .error (.fault f)
  | .trap t =>
    let (s1, t1) := s.cmdStop m t
    .ok (s1.setCmd (if posted then m.fail t1 else m.refuse t1))

/-- The pump's translation of [off, off + len) of an operand. -/
def State.pumpPort (s : State) (m : PumpCmd) (c : Cap) (rs any : List Nat) (off len : Nat) :
    Except Stop (State × List Piece × List Nat) := s.translate m.tile m.asid 6 c.obj c.kind rs any off len

/-- Bytes of pieces as a pump reads them: a well-backed piece through its tile's page map (R205, R380). -/
def State.rdPump (s : State) : List Piece → Except Stop (List Byte)
  | [] => .ok []
  | (pa, n) :: ps => do
    let bs ← if paSpace pa = 3 then
        (match s.wellRead (paAddr pa / 2 ^ 26 % 512) (paAddr pa % 2 ^ 26) n with
          | .ok bs => .ok bs
          | .error p => .error (wellTrap 6 (paAddr pa / 2 ^ 26 % 512) (paAddr pa % 2 ^ 26) p))
      else .ok (s.rdBytes pa n)
    let cs ← s.rdPump ps
    .ok (bs ++ cs)

/-- Bytes charged to a slot are noted with the command (R362). -/
def noteCharge (h : Handle) (charged : FMap Nat) (off len : Nat) : FMap Nat :=
  (h.parts off len).1.foldl (fun a (k, b) => FMap.set 0 a k (FMap.get 0 a k + b)) charged

/-- Pieces of a destination written with bytes, or only charged, for a command with HE (R29, R30, R206). -/
def State.deliverPieces (s : State) (m : PumpCmd) (he write : Bool) : List Piece → List Byte → State × PumpCmd
  | [], _ => (s, m)
  | (pa, n) :: ps, bs =>
    let s1 := if write then s.performStore [] (cellsOf [(pa, n)] (bs.take n)) else s
    let h := (s1.ctx m.tile m.ctx).handle m.body.handle.toNat
    let s2 := if he then s1.modCtx m.tile m.ctx fun x => x.setHandle m.body.handle.toNat (h.charge (scratchOff pa) n) else s1
    let m2 := if he then { m with charged := noteCharge h m.charged (scratchOff pa) n } else m
    s2.deliverPieces m2 he write ps (bs.drop n)

/-! Descriptors of PGATH and PSCAT (R206). -/

def gathDst (v : BitVec 512) (tags : List Bool) : Cap := { bits := v.extractLsb' 0 128, tag := tags.getD 0 false }
def gathSrc (v : BitVec 512) (tags : List Bool) : Cap := { bits := v.extractLsb' 128 128, tag := tags.getD 1 false }
def gathIdx (v : BitVec 512) (tags : List Bool) : Cap := { bits := v.extractLsb' 256 128, tag := tags.getD 2 false }
def gathRowb (v : BitVec 512) : Nat := bitsOf v 415 384
def gathCount (v : BitVec 512) : Nat := bitsOf v 431 416

/-- The descriptor bytes of a command as one number. -/
def PumpCmd.descBits (m : PumpCmd) : BitVec 512 := BitVec.ofNat 512 (leNat m.desc)

/-- Tag, kind and rights of a capability found in a descriptor (R206). -/
def descCap (c : Cap) (kinds rs : List Nat) : Except Stop Unit := do
  require c.tag (slotTrap trapCAP_TAG 6 c.obj c.offset)
  require (kinds.contains c.kind && hasRights c.rights rs) (slotTrap trapCAP_RIGHTS 6 c.obj c.offset)

/-- `n` descriptor bytes at the offset of a capability with the tags of their 16-byte units (R206, R257, R292). -/
def State.rdDesc (s : State) (m : PumpCmd) (c : Cap) (rs : List Nat) (n : Nat) :
    Except Stop (State × List Byte × List Bool) := do
  let (s1, ps, _) ← s.pumpPort m c rs [] c.offset n
  let pa := (ps.headD (0, 0)).1
  .ok (s1.touchPieces ps, s1.rdPieces ps, (List.range (n / 16)).map fun i => s1.rdTag (pa + 16 * i))

/-- The descriptor of PGATH or PSCAT read and checked (R206). -/
def State.readGath (s : State) (m : PumpCmd) : Except Stop (State × PumpCmd) := do
  let (s1, bs, tags) ← s.rdDesc m m.cap0 [rR, rC] 64
  let m1 := { m with desc := bs, descTags := tags }
  let v := m1.descBits
  require (bitsOf v 511 432 == 0) (illegal 6 3 63)
  require (decide (1 ≤ gathRowb v) && decide (gathRowb v ≤ 2 ^ 20)) (limitTrap 6)
  descCap (gathDst v tags) kindsCopy [rPD]
  descCap (gathSrc v tags) kindsCopy [rPS]
  descCap (gathIdx v tags) [kSCRATCH] [rR]
  let ix := gathIdx v tags
  require (!s1.otherScratch m.tile m.asid ix.obj ix.offset (4 * gathCount v)) (slotTrap trapCAP_RIGHTS 6 ix.obj 0)
  let d := gathDst v tags
  require (!(m.opc == 3 && pumpHe m.body) ||
      (d.kind == kSCRATCH && !s1.notScratch m.tile m.asid d.obj d.offset (gathRowb v * gathCount v)))
    (cbTrap 6 m.body.handle.toNat)
  .ok (s1, m1)

/-- The first byte of row i's index, and of row number k of an operand, in PGATH and PSCAT (R206); they wrap as R192's
addresses do. DESIGN CHOICE: notes/assumptions/65.md. -/
def gathIdxAt (v : BitVec 512) (i : Nat) : Nat := ((gathIdx v []).offset + 4 * i) % 2 ^ 48
/-- DESIGN CHOICE: notes/assumptions/65.md. -/
def gathRowAt (c : Cap) (v : BitVec 512) (k : Nat) : Nat := (c.offset + k * gathRowb v) % 2 ^ 48

/-- One row of PGATH or PSCAT (R206): the index, the checks, the copy, the charge. -/
def State.moveRow (s : State) (m : PumpCmd) (i : Nat) : Except Stop (State × PumpCmd) := do
  let v := m.descBits
  let dst := gathDst v m.descTags
  let src := gathSrc v m.descTags
  let ix := gathIdx v m.descTags
  let n := gathRowb v
  let he := m.opc == 3 && pumpHe m.body
  let io := gathIdxAt v i
  capCheck 6 ix [kSCRATCH] [rR] [] io 4
  let (s1, ips, _) ← s.pumpPort m ix [rR] [] io 4
  let k := leNat (s1.rdPieces ips)
  if k = 0xFFFFFFFF ∧ !he then .ok (s1, m)
  else
    let so := gathRowAt src v (if m.opc = 3 then k else i)
    let dO := gathRowAt dst v (if m.opc = 3 then i else k)
    capCheck 6 dst kindsCopy [rPD] [] dO n
    let (s2, dps, ds) ← s1.pumpPort m dst [rPD] [] dO n
    if k = 0xFFFFFFFF then .ok (s2.deliverPieces m he false dps [])
    else do
      capCheck 6 src kindsCopy [rPS] [] so n
      let (s3, sps, _) ← s2.pumpPort m src [rPS] [] so n
      let bs ← s3.rdPump sps
      .ok (((s3.touchPieces sps).markDirty ds).deliverPieces m he true dps bs)

/-- Rows from number i on, at most `k` of them; the first failing row stops the command (R206). -/
def State.moveRows (s : State) (m : PumpCmd) : Nat → Except Stop State
  | 0 => .ok (s.setCmd m)
  | k + 1 =>
    let n := gathRowb m.descBits
    if m.moved = n * gathCount m.descBits then .ok (s.setCmd { m with finished := true })
    else match s.moveRow m (m.moved / n) with
      | .error e => s.failCmd true m e
      | .ok (s1, m1) =>
        let m2 := { m1 with moved := m.moved + n }
        s1.moveRows { m2 with finished := m2.moved == n * gathCount m.descBits } k

/-! PUMP_DELIVERY (R30, R204 to R209, R426). -/

/-- The island that serves a command: its tile's. -/
def PumpCmd.island (m : PumpCmd) : Nat := m.tile / 8

/-- The commands in an island pump's queue, in the order in which they reached it (R19, R426). -/
def State.islandQueue (s : State) (i : Nat) : List PumpCmd :=
  s.core.cmds.filter fun x => x.island == i && x.place == .queued && !x.finished

/-- Whether the island's pump may start this command now: it heads the queue, and of the copies at most 8 are under way
at once (R426). DEDUCED: notes/assumptions/29.md. -/
def State.mayStart (s : State) (m : PumpCmd) : Bool :=
  (decide (6 < m.opc) ||
      decide ((s.core.cmds.filter fun x => x.island == m.island && x.place == .started && !x.finished).length < 8)) &&
    ((s.islandQueue m.island).head?.map fun x => x.id) == some m.id

/-- Whether the tile's port passes this command on now (R19, R204): it is the first there, no command that was issued
before it is on its way to the port, and the island's queue has room. DEDUCED: notes/assumptions/29.md. -/
def State.mayPass (s : State) (m : PumpCmd) : Bool :=
  ((s.core.cmds.find? fun x => x.tile == m.tile && x.place == .port).map fun x => x.id) == some m.id &&
    !(m.owned && (s.ctx m.tile m.ctx).commitQ.any fun e => !e.held && decide (e.bundle < m.bundle) && (match e.op with
      | .pump _ => true
      | _ => false)) &&
    decide ((s.islandQueue m.island).length < 32)

/-- Whether a command still stands where the island pump has not started it: in a port, or in the queue behind another
(R19, R426). -/
def State.notStarted (s : State) (m : PumpCmd) : Bool := m.place == .port || (m.place == .queued && !s.mayStart m)

/-- The pattern of PFILL: byte j is byte j mod 8 of s[S1] (R207). -/
def fillBytes (v : Word) (n : Nat) : List Byte :=
  let p := leBytes 8 v.toNat
  ((List.replicate (n / 8 + 1) p).flatten).take n

/-- Host-visible bytes brought up to date (R209, R238). -/
def State.exportPieces (s : State) (ps : List Piece) : State :=
  { s with core := { s.core with exported := ps.foldl (fun x (pa, n) => FMap.setRun 0 x pa (s.rdBytes pa n)) s.core.exported } }

/-- The rights that a copy command needs on the range at its AREG0: all of the first list, one of the second (R205). -/
def PumpCmd.dstRights (m : PumpCmd) : List Nat × List Nat :=
  if m.opc = 5 then ([], [rW, rPD]) else if m.opc = 6 then ([], [rR, rW]) else ([rPD], [])

/-- The page-map entries that rows of PGATH or PSCAT will mark DIRTY: row numbers of the destination, up to the first that
cannot be reached (R208). -/
def State.rowDirty (s : State) (m : PumpCmd) : List Nat → List Nat
  | [] => []
  | k :: ks =>
    let d := gathDst m.descBits m.descTags
    match s.pumpPort m d [rPD] [] (gathRowAt d m.descBits k) (gathRowb m.descBits) with
    | .ok (_, _, ds) => ds ++ s.rowDirty m ks
    | .error _ => []

/-- The rows that the index list of PSCAT names (R206); an index that cannot be read ends the list. -/
def State.scatRows (s : State) (m : PumpCmd) : List Nat → List Nat
  | [] => []
  | i :: is =>
    match s.pumpPort m (gathIdx m.descBits m.descTags) [rR] [] (gathIdxAt m.descBits i) 4 with
    | .ok (s1, ps, _) =>
      let k := leNat (s1.rdPieces ps)
      if k = 0xFFFFFFFF then s.scatRows m is else k :: s.scatRows m is
    | .error _ => []

/-- The pages of the declared range of PGATH or PSCAT marked dirty in one burst (R208). DEDUCED: notes/assumptions/29.md. -/
def State.declareRows (s : State) (m : PumpCmd) : State :=
  let is := List.range (gathCount m.descBits)
  s.markDirty (s.rowDirty m (if m.opc = 3 then is else s.scatRows m is))

/-- The island pump accepts a command from the port (R206 to R209): the descriptor of PGATH and PSCAT is read, ranges are
translated, the pages of the declared range marked dirty in one burst. -/
def State.pumpAccept (s : State) (m : PumpCmd) : Except Stop (State × PumpCmd) := do
  let n := m.s0.toNat
  let m := { m with place := .queued }
  if m.opc = 3 ∨ m.opc = 4 then .ok (if m.opc = 3 then s.declareRows m else s, { m with finished := gathCount m.descBits == 0 })
  else if 6 < m.opc then .ok (s, m)
  else if n = 0 then .ok (s, { m with finished := true })
  else
    let (s1, _, ds) ← s.pumpPort m m.cap0 m.dstRights.1 m.dstRights.2 m.cap0.offset n
    .ok (if m.opc = 6 then s1 else s1.markDirty ds, m)

/-- A copy moves on by at most `k` bytes; the first time it reads its source whole (R207). -/
def State.moveBytes (s : State) (m : PumpCmd) (k : Nat) : Except Stop State :=
  let n := min k (m.s0.toNat - m.moved)
  match (do
    let (s0, bs) ← (if m.opc = 1 ∧ m.source = [] then do
        let (s0, sps, _) ← s.pumpPort m m.cap1 [rPS] [] m.cap1.offset m.s0.toNat
        let bs ← s0.rdPump sps
        .ok (s0.touchPieces sps, bs)
      else .ok (s, if m.opc = 1 then m.source else fillBytes m.s1 m.s0.toNat))
    let (s1, ps, ds) ← s0.pumpPort m m.cap0 [rPD] [] (m.cap0.offset + m.moved) n
    .ok (s1, bs, ps, ds) : Except Stop (State × List Byte × List Piece × List Nat)) with
  | .error e => s.failCmd true m e
  | .ok (s1, bs, ps, ds) =>
    let (s2, m2) := (s1.markDirty ds).deliverPieces { m with source := bs } (pumpHe m.body) true ps ((bs.drop m.moved).take n)
    .ok (s2.setCmd { m2 with moved := m.moved + n, finished := m.moved + n == m.s0.toNat })

/-- A started command that nothing blocks moves on: rows, bytes; PDECL has nothing more to do; PFLUSHX brings what hosts see up to
date (R205 to R209). DEDUCED: notes/assumptions/29.md. -/
def State.pumpMove (s : State) (m : PumpCmd) (bytes : Nat) : Except Stop State :=
  if m.opc = 3 ∨ m.opc = 4 then
    (if m.opc = 4 ∧ m.moved = 0 then s.declareRows m else s).moveRows m (max 1 (bytes / gathRowb m.descBits))
  else if m.opc = 5 then .ok (s.setCmd { m with finished := true })
  else if m.opc = 6 then
    match s.pumpPort m m.cap0 m.dstRights.1 m.dstRights.2 m.cap0.offset m.s0.toNat with
    | .error e => s.failCmd true m e
    | .ok (s1, ps, _) =>
      .ok ((if m.cap0.kind = kMAILBOX then s1 else s1.exportPieces ps).setCmd { m with finished := true })
  else s.moveBytes m bytes

/-- One delivery of a copy command that the island pump has accepted: it starts, if it has not and may, and, unless a
command before it blocks it, moves at most `bytes` bytes, or whole rows (R207, R426). -/
def State.pumpDeliver (s : State) (m : PumpCmd) (bytes : Nat) : Except Stop State :=
  if m.place = .queued ∧ !s.mayStart m then .ok s
  else
    let m1 := { m with place := .started }
    if s.cmdBlocked m then .ok (s.setCmd m1) else s.pumpMove m1 bytes

/-! PUMP_COMMAND_COMPLETE (R204, R206, R210). -/

/-- The update of a completing command's signal (R10, R210), its page marked DIRTY first (R358); a port fault is the
command's own (R359). -/
def State.signalCmd (s : State) (m : PumpCmd) : Except Stop (State × PumpCmd) :=
  match m.signal with
  | none => .ok (s, m)
  | some c =>
    match s.pumpPort m c [rW] [] c.offset 8 with
    | .ok (s1, ps, ds) =>
      let pa := (ps.headD (0, 0)).1
      let s2 := s1.markDirty ds
      .ok (if m.job = some 0 then s2.cpSignal pa m.status else s2.signalAt pa (-1) m.status, m)
    | .error (.trap t) =>
      let (s1, t1) := s.cmdStop m t
      .ok (s1, if m.fault.isSome then m else m.fail t1)
    | .error e => .error e

/-- Whether stores or atomics that the context issued before a command have not performed (R234 axiom 4). -/
def State.ownBefore (s : State) (m : PumpCmd) : Bool :=
  m.owned && (((s.ctx m.tile m.ctx).commitQ.any fun e => decide (e.bundle ≤ m.bundle) && (match e.op with
      | .store _ _ => true
      | .capStore _ _ _ => true
      | .atomic .. => true
      | _ => false)) ||
    s.core.homeQ.any fun h => h.tile == m.tile && h.ctx == m.ctx && decide (h.bundle ≤ m.bundle))

/-- Whether an earlier command of the context in the same class has not completed. -/
def State.classBefore (s : State) (m : PumpCmd) : Bool :=
  ((s.ctx m.tile m.ctx).commitQ.any fun e => match e.op with
      | .pump x => m.owned && x.body.cls == m.body.cls && decide (x.bundle < m.bundle)
      | _ => false) ||
    s.core.cmds.any fun x => x.sameCtx m && x.body.cls == m.body.cls && decide (x.bundle < m.bundle)

/-- Whether a finished command must wait before it completes: its signal's update is a release (R210, R234 axiom 4); a
copy of length 0 completes after the earlier commands of its class (R204). -/
def State.completeWaits (s : State) (m : PumpCmd) : Bool :=
  (m.signal.isSome && s.ownBefore m) || (([1, 2, 5, 6].contains m.opc && m.s0 == 0) && s.classBefore m)

/-- Whether the context still runs what posted the command, so that a trap after issue is taken there (R348). -/
def Ctx.live (x : Ctx) : Bool :=
  match x.phase with
  | .idle => false
  | .draining _ => false
  | _ => true

/-- The trap of a failed command is taken by its context (R206, R348). -/
def State.cmdTrap (s : State) (m : PumpCmd) : State :=
  match m.fault with
  | none => s
  | some (code, sub, obj, off) =>
    if m.owned && (s.ctx m.tile m.ctx).live then
      s.takeSystemTrap m.tile m.ctx { code := code, sub := sub, slot := 6, obj := obj, off := off } m.pc m.bundle
    else s

/-- The status of a job node whose command has completed (R340). -/
def jobStatus (m : PumpCmd) : Nat :=
  if m.status = 0 then 0 else if m.status = 6 ∧ 17 ≤ m.opc ∧ m.opc ≤ 20 then 6 else 2

/-- A job node's command has completed with its status (R340). -/
def State.cmdJob (s : State) (m : PumpCmd) : State :=
  match m.job with
  | none => s
  | some 0 => s
  | some g => s.modGang g fun x => { x with status := mergeStatus x.status (jobStatus m), job := none }

/-- A finished command completes: signal, record, trap, and the wait of a region abort ends (R36, R204, R210). -/
def State.completeCmd (s : State) (m : PumpCmd) : Except Stop State := do
  let (s1, m1) ← s.signalCmd m
  let s2 := (s1.dropCmd m.id).cmdJob m1
  let s3 := if !m.owned then s2
    else s2.modCtx m.tile m.ctx fun x => { x with awaitCmds := x.awaitCmds.filter fun k => k != m.id }
  .ok ((s3.cmdTrap m1).settle m.tile m.ctx)

/-- PUMP_COMMAND_COMPLETE (R204, R210); a command that is not there, has not finished or must wait changes nothing. -/
def execPumpCommandComplete (id : Nat) (s : State) : Host.Outcome State Fault Refusal :=
  match s.cmd id with
  | none => .next s
  | some m => if m.finished && !s.completeWaits m then finish s (s.completeCmd m) else .next s

end Sys2Proof.Machine
end

