-- ==== Sys2Proof/Machine/Sync.lean ====
section
/-! DEFINITION. The sync slot: spec/08_memory_sync_isa.md R211 to R225, spec/01_tile_execution.md R28, R29 and R35,
spec/11_timed_streams.md R276. A wait whose condition does not hold leaves its context sleeping and does nothing else. -/

namespace Sys2Proof.Machine

def execNopSync (g : Guard) (body : SyncBody) (s : State) : Host.Outcome State Fault Refusal :=
  nopForm (.nopSync g body) g s

/-- The class that operations without CLASS carry in the commit stage: none of the sixteen. -/
def noClass : Nat := 16

/-! Branches and fences (R212, R213). -/

/-- BR (R212). -/
def execBr (g : Guard) (b : SyncBody) (s : State) : Host.Outcome State Fault Refusal :=
  atIssue (.br g b) g noCheck (fun s => .ok (s.modMe fun x => { x with target := some (s.rb (bitsOf b 2 0)) })) s

/-- BRL (R212): with N = 7 the old b7 is the target. -/
def execBrl (g : Guard) (b : SyncBody) (s : State) : Host.Outcome State Fault Refusal :=
  atIssue (.brl g b) g noCheck (fun s =>
    let t := s.rb (bitsOf b 2 0)
    .ok ((s.putB 7 s.me.nextPc).modMe fun x => { x with target := some t })) s

/-- FENCE (R213): with MASK 0 it has no effect. Later bundles are held by the step. -/
def execFence (g : Guard) (b : SyncBody) (s : State) : Host.Outcome State Fault Refusal :=
  atIssue (.fence g b) g noCheck (fun s =>
    let m := b.extractLsb' 0 16
    .ok (if m = 0 then s else s.modMe fun x => { x with fences := x.fences ++ [(m, b.getLsbD 16, x.bundleNo)] })) s

/-! Buffer handles (R28, R29, R215, R216). -/

/-- N and n of the handle operations (R211). -/
def cbN (b : SyncBody) : Nat := bitsOf b 46 43
def cbCount (b : SyncBody) : Nat := bitsOf b 6 0

/-- The slots from `k` onward, n of them, modulo COUNT (R29). -/
def Handle.ring (h : Handle) (k n : Nat) : List Nat := (List.range n).map fun i => (k + i) % h.count

/-- Whether the n slots from `k` onward are all in a state. -/
def Handle.allSt (h : Handle) (k n : Nat) (x : SlotState) : Bool := (h.ring k n).all fun j => h.st j == x

/-- CBADV on a handle (R29); none where it traps CB_CONFIG. -/
def Handle.advance (h : Handle) (produce : Bool) (n : Nat) : Option Handle :=
  if n = 0 then some h
  else if h.count < n then none
  else if produce then
    (if h.allSt h.fill n .free then
      some { h with state := (h.ring h.fill n).foldl (fun m j => FMap.set .free m j .filling) h.state,
                    left := (h.ring h.fill n).foldl (fun m j => FMap.set 0 m j h.expect) h.left,
                    fill := (h.fill + n) % h.count }
    else none)
  else if h.allSt h.drain n .filled then
    some { h with state := (h.ring h.drain n).foldl (fun m j => FMap.set .free m j .free) h.state,
                  drain := (h.drain + n) % h.count }
  else none

/-- The handle that CBSET sets up from s[A] and s[B] (R28, R215); none where it traps CB_CONFIG. -/
def cbsetHandle (a b : Word) : Option Handle :=
  let base := bitsOf a 20 0
  let ssize := bitsOf b 8 0
  let count := bitsOf b 22 16
  let expect := bitsOf b 48 32
  if bitsOf a 63 21 = 0 ∧ bitsOf b 15 9 = 0 ∧ bitsOf b 31 23 = 0 ∧ bitsOf b 63 49 = 0 ∧ base % 256 = 0 ∧
      1 ≤ ssize ∧ ssize ≤ 256 ∧ 1 ≤ count ∧ count ≤ 64 ∧ 1 ≤ expect ∧ expect ≤ ssize * 256 ∧
      base + count * ssize * 256 ≤ scratchBytes then
    some { base := base, ssize := ssize, count := count, expect := expect }
  else none

/-- Whether a command names handle `h`: a copy or stream command with HE, or a KV command that delivers records. -/
def PumpCmd.namesHandle (m : PumpCmd) (h : Nat) : Bool :=
  m.body.handle.toNat == h && (m.opc == 8 || (pumpHe m.body && [1, 2, 3, 16, 22].contains m.opc))

/-- Whether an operation that names handle h of the context is incomplete (R215). DEDUCED: notes/assumptions/28.md. -/
def State.handleBusy (s : State) (h : Nat) : Bool :=
  (s.core.cmds.any fun m => m.tile == s.myTile && m.ctx == s.myCtx && m.owned && m.namesHandle h) ||
    s.me.commitQ.any fun e => match e.op with
      | .pump m => m.namesHandle h
      | _ => false

/-- CBSET takes effect on a context, or traps CB_CONFIG (R215). DEDUCED: notes/assumptions/28.md. -/
def Ctx.cbset (x : Ctx) (h : Nat) (a b : Word) : Except Stop Ctx :=
  match cbsetHandle a b with
  | some v => .ok (x.setHandle h v)
  | none => .error (cbTrap 7 h)

/-- CBADV takes effect on a context, or traps CB_CONFIG (R29, R216). -/
def Ctx.cbadv (x : Ctx) (produce : Bool) (h n : Nat) : Except Stop Ctx :=
  match (x.handle h).advance produce n with
  | some v => .ok (x.setHandle h v)
  | none => .error (cbTrap 7 h)

/-- A handle operation takes effect on a context, or traps (R215, R216). -/
def Ctx.syncOp (x : Ctx) : SyncOp → Except Stop Ctx
  | .cbset h a b => x.cbset h a b
  | .cbadv produce h n => x.cbadv produce h n

/-- Whether a handle operation of the issuing context may execute once it heads the sync queue: a CBSET waits while an
operation that names its handle is incomplete (R215). DEDUCED: notes/assumptions/28.md. -/
def State.syncFree (s : State) : SyncOp → Bool
  | .cbset h _ _ => !s.handleBusy h
  | .cbadv _ _ _ => true

/-- A handle operation of the issuing context put at the end of the sync queue (R19). -/
def State.pushSync (s : State) (bundle : Nat) (pc : Off) (op : SyncOp) : State :=
  let w : SyncWait := { id := s.nextId, ctx := s.myCtx, bundle := bundle, pc := pc, op := op }
  { s with nextId := s.nextId + 1 }.modTile s.myTile fun x => { x with syncQ := x.syncQ ++ [w] }

/-- A handle operation of the issuing context reaches the sync queue (R19, R215, R216): where nothing waits there and it
may execute, it takes effect at once; else it waits. DEDUCED: notes/assumptions/28.md. -/
def State.enterSync (s : State) (bundle : Nat) (pc : Off) (op : SyncOp) : Except Stop State :=
  if (s.tile s.myTile).syncQ.isEmpty && s.syncFree op then do
    let x ← s.me.syncOp op
    .ok (s.setMe x)
  else .ok (s.pushSync bundle pc op)

/-- CBSET (R215): it waits in the sync queue while an operation that names the handle is incomplete, and behind what
waits there already (R19). -/
def execCbset (g : Guard) (b : SyncBody) (s : State) : Host.Outcome State Fault Refusal :=
  atIssue (.cbset g b) g noCheck (fun s =>
    s.enterSync s.me.bundleNo s.me.pc (.cbset (cbN b) (s.rs (b.extractLsb' 37 6)) (s.rs (b.extractLsb' 31 6)))) s

/-- A context asleep on its wait (R214). -/
def State.sleepMe (s : State) : State := s.modMe fun x => { x with phase := .sleeping }

/-- CB_CONFIG of CBWAIT and CBSPACE at issue (R28, R29). DEDUCED: notes/assumptions/27.md. -/
def checkCbwait (b : SyncBody) (s : State) : Except Stop Unit :=
  let h := s.me.handle (cbN b)
  require (h.count != 0 && !h.overrun && decide (cbCount b ≤ h.count)) (cbTrap 7 (cbN b))
def checkCbspace (b : SyncBody) (s : State) : Except Stop Unit :=
  let h := s.me.handle (cbN b)
  require (h.count != 0 && decide (cbCount b ≤ h.count)) (cbTrap 7 (cbN b))

/-- The conditions of CBWAIT and CBSPACE (R29). DEDUCED: notes/assumptions/27.md. -/
def readyCbwait (b : SyncBody) (s : State) : Bool :=
  let h := s.me.handle (cbN b)
  h.allSt h.drain (cbCount b) .filled
def readyCbspace (b : SyncBody) (s : State) : Bool :=
  let h := s.me.handle (cbN b)
  h.allSt h.fill (cbCount b) .free

/-- A wait: its effect where the condition holds, else the context sleeps (R214). DEDUCED: notes/assumptions/27.md. -/
def waitEff (ready : State → Except Stop Bool) (sleep eff : State → State) (s : State) : Except Stop State := do
  if ← ready s then .ok (eff s) else .ok (sleep s)

def execCbwait (g : Guard) (b : SyncBody) (s : State) : Host.Outcome State Fault Refusal :=
  atIssue (.cbwait g b) g (checkCbwait b) (waitEff (fun s => .ok (readyCbwait b s)) State.sleepMe id) s
def execCbspace (g : Guard) (b : SyncBody) (s : State) : Host.Outcome State Fault Refusal :=
  atIssue (.cbspace g b) g (checkCbspace b) (waitEff (fun s => .ok (readyCbspace b s)) State.sleepMe id) s

/-- A CBADV on a handle that is not set up traps CB_CONFIG (R28). -/
def checkCbadv (b : SyncBody) (s : State) : Except Stop Unit :=
  require ((s.me.handle (cbN b)).count != 0) (cbTrap 7 (cbN b))

/-- CBADV (R29, R216): with n = 0 it has no effect; in an open region it is held until commit; else it takes effect in
the order of the sync queue (R19). DEDUCED: notes/assumptions/28.md. -/
def cbadvEff (produce : Bool) (b : SyncBody) (s : State) : Except Stop State :=
  if cbCount b = 0 then .ok s
  else if s.regionOpen then s.commit 7 noClass 0 (.cbadv produce (cbN b) (cbCount b))
  else s.enterSync s.me.bundleNo s.me.pc (.cbadv produce (cbN b) (cbCount b))

def execCbadvProduce (g : Guard) (b : SyncBody) (s : State) : Host.Outcome State Fault Refusal :=
  atIssue (.cbadvProduce g b) g (checkCbadv b) (cbadvEff true b) s
def execCbadvConsume (g : Guard) (b : SyncBody) (s : State) : Host.Outcome State Fault Refusal :=
  atIssue (.cbadvConsume g b) g (checkCbadv b) (cbadvEff false b) s

/-! Signals and job control blocks (R217 to R219). -/

/-- The capability of a signal or job operation (R211). -/
def syCap (b : SyncBody) (s : State) : Cap := s.ra (bitsOf b 46 43)

/-- The checks at issue of a signal or job operation: kind, right, alignment (R217, R218). -/
def checkSy (rs : List Nat) (n : Nat) (b : SyncBody) (s : State) : Except Stop Unit := do
  let c := syCap b s
  capCheck 7 c [kSIGNAL] rs [] c.offset n
  require (c.offset % n == 0) (limitTrap 7)

/-- The physical address of a signal or job control block (R230), and the page-map entries that a write of it marks
DIRTY (R358). -/
def State.syPort (s : State) (c : Cap) (rs : List Nat) (n : Nat) : Except Stop (State × Nat × List Nat) := do
  let (s1, ps, ds) ← s.port 7 c rs c.offset n
  .ok (s1, (ps.headD (0, 0)).1, ds)

/-- The first byte and length that an operation in the commit stage updates at its home. -/
def CommitOp.touches : CommitOp → Option (Nat × Nat)
  | .atomic pa _ size _ _ _ _ => some (pa, 2 ^ size)
  | .sigAdd pa _ _ => some (pa, 8)
  | .jobRaise pa _ _ _ => some (pa, 32)
  | .jobPost pa _ _ _ => some (pa, 32)
  | _ => none

/-- Whether an update by an earlier bundle of the context of bytes [pa, pa + n) has not performed (R234). -/
def State.ownPending (s : State) (pa n : Nat) : Bool :=
  s.me.commitQ.any fun e => !e.held && decide (e.bundle < s.me.bundleNo) && (match e.op.touches with
    | some (a, m) => decide (a < pa + n) && decide (pa < a + m)
    | none => match e.op with
      | .store bs _ => bs.any fun (a, _) => decide (pa ≤ a) && decide (a < pa + n)
      | _ => false)

/-- A condition of R217 on a signal word. -/
def sigTest (cond : Nat) (x : Nat) (w : Word) : Bool :=
  match cond with
  | 0 => sigValue w == x
  | 1 => sigValue w != x
  | 2 => decide (sigValue w ≤ x)
  | 3 => decide (x ≤ sigValue w)
  | _ => sigErr w

/-- SIGWAIT ends: its condition holds or ERR = 1 (R217). -/
def sigCond (cond : Nat) (x : Nat) (w : Word) : Bool := sigErr w || sigTest cond x w

/-- The update of SIGADD at a signal's home (R217). -/
def State.sigAddAt (s : State) (pa : Nat) (v : Word) : State :=
  s.signalAt pa (v.extractLsb' 0 56).toInt (bitsOf v 62 56)

/-- The word SIGWAIT reads, where its condition holds (R217). -/
def readSigwait (b : SyncBody) (s : State) : Except Stop (Option Word) := do
  let (s1, pa, _) ← s.syPort (syCap b s) [rR] 8
  let w := BitVec.ofNat 64 (s1.rdNat pa 8)
  .ok (if sigCond (bitsOf b 27 25) (bitsOf (s.rs (b.extractLsb' 31 6)) 55 0) w && !s1.ownPending pa 8 then some w else none)

/-- The condition of SIGWAIT. -/
def readySigwait (b : SyncBody) (s : State) : Except Stop Bool := do
  let w ← readSigwait b s
  .ok w.isSome

/-- The read of SIGWAIT or JOBWAIT, in `n` bytes, at its home: it may refresh a remote copy, and wakes the slice (R235,
R375). -/
def State.acquireSy (s : State) (b : SyncBody) (n : Nat) : State :=
  match s.syPort (syCap b s) [rR] n with
  | .ok (_, pa, _) => (s.acquireAt (bitsOf b 30 28) pa).touchPieces [(pa, n)]
  | .error _ => s

/-- SIGWAIT (R217). -/
def execSigwait (g : Guard) (b : SyncBody) (s : State) : Host.Outcome State Fault Refusal :=
  atIssue (.sigwait g b) g (checkSy [rR] 8 b) (fun s => do
    match ← readSigwait b s with
    | some w => .ok ((s.acquireSy b 8).putS (bitsOf b 42 37) w)
    | none => .ok s.sleepMe) s

/-- SIGADD (R217): it leaves from the commit stage. -/
def execSigadd (g : Guard) (b : SyncBody) (s : State) : Host.Outcome State Fault Refusal :=
  atIssue (.sigadd g b) g (checkSy [rW] 8 b) (fun s => do
    let (s1, pa, ds) ← s.syPort (syCap b s) [rW] 8
    s1.commit 7 noClass (bitsOf b 30 28) (.sigAdd pa (s.rs (b.extractLsb' 31 6)) ds)) s

/-- The checks of JOBRAISE and JOBPOST: a producer number above 63 traps LIMIT (R219). -/
def checkJob (b : SyncBody) (s : State) : Except Stop Unit := do
  checkSy [rW] 32 b s
  require (decide ((s.rs (b.extractLsb' 37 6)).toNat ≤ 63)) (limitTrap 7)

/-- JOBRAISE (R219). -/
def execJobraise (g : Guard) (b : SyncBody) (s : State) : Host.Outcome State Fault Refusal :=
  atIssue (.jobraise g b) g (checkJob b) (fun s => do
    let (s1, pa, ds) ← s.syPort (syCap b s) [rW] 32
    s1.commit 7 noClass (bitsOf b 30 28) (.jobRaise pa (s.rs (b.extractLsb' 37 6)).toNat (s.rs (b.extractLsb' 31 6)) ds)) s
/-- JOBPOST (R219). -/
def execJobpost (g : Guard) (b : SyncBody) (s : State) : Host.Outcome State Fault Refusal :=
  atIssue (.jobpost g b) g (checkJob b) (fun s => do
    let (s1, pa, ds) ← s.syPort (syCap b s) [rW] 32
    s1.commit 7 noClass (bitsOf b 30 28) (.jobPost pa (s.rs (b.extractLsb' 37 6)).toNat (s.rs (b.extractLsb' 31 6)) ds)) s

/-- COMPLETE of a job control block (R218). -/
def jobComplete (v : BitVec 256) : Bool := v.getLsbD 192

/-- JOBRAISE on a block; none where it traps JOB_ORDER (R219). -/
def jobRaise (v : BitVec 256) (p : Nat) (n : Word) : Option (BitVec 256) :=
  if v.getLsbD (128 + p) || jobComplete v || decide (2 ^ 64 ≤ bitsOf v 63 0 + n.toNat) then none
  else some (setBits v 0 64 (bitsOf v 63 0 + n.toNat))

/-- JOBPOST on a block; none where it traps JOB_ORDER (R219). -/
def jobPost (v : BitVec 256) (p : Nat) (n : Word) : Option (BitVec 256) :=
  if v.getLsbD (128 + p) || jobComplete v then none
  else
    let d := min (bitsOf v 127 64 + n.toNat) (2 ^ 64 - 1)
    let e := bitsOf v 63 0
    let v1 := setBits (setBits v 64 64 d) (128 + p) 1 1
    some (if e ≤ d then setBits (setBits v1 192 1 1) 193 1 (if e < d then 1 else bitsOf v 193 193) else v1)

/-- The condition of JOBWAIT (R219). -/
def readyJobwait (b : SyncBody) (s : State) : Except Stop Bool := do
  let (s1, pa, _) ← s.syPort (syCap b s) [rR] 32
  .ok (jobComplete (BitVec.ofNat 256 (s1.rdNat pa 32)) && !s1.ownPending pa 32)

/-- JOBWAIT (R219). -/
def execJobwait (g : Guard) (b : SyncBody) (s : State) : Host.Outcome State Fault Refusal :=
  atIssue (.jobwait g b) g (checkSy [rR] 32 b) (waitEff (readyJobwait b) State.sleepMe fun s => s.acquireSy b 32) s

/-! Gang barrier (R220). -/

/-- The member number of a gang's member at which the issuing context stands, and its gang. -/
def State.myMember (s : State) : Option (Nat × Nat) := s.me.task.map fun k => (k.gang, k.member)

/-- Whether nothing of the context's earlier bundles is on its way from the commit stage: their stores, atomics and
signal operations have performed, as the release of R220 asks. -/
def State.drained (s : State) : Bool :=
  s.me.commitQ.all (fun e => decide (s.me.bundleNo ≤ e.bundle)) && !s.core.homeQ.any fun h => h.tile == s.myTile && h.ctx == s.myCtx

/-- The issuing member arrives at its next generation (R220); BAR is a release, so it arrives once it has drained. -/
def State.barArrive (s : State) : State :=
  match s.myMember with
  | none => s
  | some (g, m) => if !s.drained then s else s.modGang g fun x => { x with barGens := FMap.set 0 x.barGens m (s.me.barGen + 1) }

/-- The condition of BAR (R220): every other member has arrived at this generation or has ended, and no RPLW. -/
def readyBar (s : State) : Bool :=
  s.drained && match s.myMember with
  | none => true
  | some (g, m) =>
    let x := s.gang g
    !x.rplw && (List.range x.members.length).all fun j =>
      j == m || x.members.getD j .ended == .ended || decide (s.me.barGen + 1 ≤ FMap.get 0 x.barGens j)

/-- A member that sleeps in BAR: an open region commits first (R35, R214). -/
def barSleep (s : State) : State :=
  ((s.modMe Ctx.commitEarlier).barArrive.modMe fun x => { x with barWaiting := true }).sleepMe

/-- BAR (R35, R220). -/
def execBar (g : Guard) (b : SyncBody) (s : State) : Host.Outcome State Fault Refusal :=
  atIssue (.bar g b) g noCheck (waitEff (fun s => .ok (readyBar s)) barSleep fun s =>
    (s.modMe Ctx.commitEarlier).barArrive.modMe fun x => { x with barGen := x.barGen + 1, barWaiting := false }) s

/-! Launch (R221). -/

/-- The checks of LAUNCH at issue: GLOBAL with R, 128-byte aligned (R221). -/
def checkLaunchNb (b : SyncBody) (s : State) : Except Stop Unit := do
  let c := syCap b s
  capCheck 7 c [kGLOBAL] [rR] [] c.offset 128
  require (c.offset % 128 == 0) (limitTrap 7)

/-- The region of the launching task (R221). -/
def State.myRegion (s : State) : Nat := (s.me.task.map fun k => k.region).getD 0

/-- The blocking form traps LIMIT where that region has a reservation of zero (R221). -/
def checkLaunch (b : SyncBody) (s : State) : Except Stop Unit := do
  checkLaunchNb b s
  require (s.regionPlres s.myRegion != 0) (limitTrap 7)

/-- The reference of a capability at its offset. -/
def State.refOf (s : State) (c : Cap) : Ref := { asid := s.me.sys.asid, obj := c.obj, off := c.offset }

/-- LAUNCH, blocking (R221). -/
def execLaunch (g : Guard) (b : SyncBody) (s : State) : Host.Outcome State Fault Refusal :=
  atIssue (.launch g b) g (checkLaunch b)
    (fun s => s.commit 7 noClass 0 (.launchWait (s.refOf (syCap b s)) s.myRegion)) s

/-- LAUNCH.nb (R221): the entry is taken at issue; p[D] tells whether there was one. -/
def execLaunchNb (g : Guard) (b : SyncBody) (s : State) : Host.Outcome State Fault Refusal :=
  atIssue (.launchNb g b) g (checkLaunchNb b) (fun s =>
    match s.takeEntry s.myRegion with
    | none => .ok (s.putP (bitsOf b 3 0) 0)
    | some (r, s1) => (s1.putP (bitsOf b 3 0) (allBits true)).commit 7 noClass 0 (.launch (s.refOf (syCap b s)) true r)) s

/-! Events (R222). -/

/-- The record EVREAD returns, whether it is one, and the context after it (R11, R222): the oldest record, else the
overflow record, else an empty record: CODE and PAYLOAD are 0, TIME and SOURCE free values. DEDUCED: notes/assumptions/31.md. -/
def evreadRecord (tile : Nat) (free : Nat → Word) (x : Ctx) : EventRec × Bool × Ctx :=
  match x.events with
  | r :: rs => (r, true, { x with events := rs })
  | [] =>
    if x.drops = 0 then
      ({ time := free 0, source := BitVec.ofNat 16 (nthSource 0 ((free 1).toNat % 1129) sourceCounts), code := 0,
         payload := 0 }, false, x)
    else ({ time := x.firstDrop, source := BitVec.ofNat 16 tile, code := 1, payload := x.drops.zeroExtend 160 }, true,
      { x with drops := 0, firstDrop := 0 })

/-- EVREAD (R222). -/
def execEvread (g : Guard) (b : SyncBody) (s : State) : Host.Outcome State Fault Refusal :=
  atIssue (.evread g b) g noCheck (fun s =>
    let (r, got, x) := evreadRecord s.myTile (fun k => Config.freeWord (s.freeCtr + k)) s.me
    let s1 := { s.setMe x with freeCtr := s.freeCtr + 2 }
    let s2 := s1.wrWin (s.me.viewEnv.start .v (bitsOf b 12 7)) (leBytes 32 (eventBits r).toNat)
    .ok (s2.putP (bitsOf b 3 0) (allBits got))) s

/-- The condition of EVWAIT (R222). -/
def readyEvwait (b : SyncBody) (s : State) : Bool :=
  let t := (s.rs (b.extractLsb' 37 6)).toNat
  !s.me.events.isEmpty || (t != 0 && decide (t ≤ s.ns))

/-- EVWAIT (R222). -/
def execEvwait (g : Guard) (b : SyncBody) (s : State) : Host.Outcome State Fault Refusal :=
  atIssue (.evwait g b) g noCheck (waitEff (fun s => .ok (readyEvwait b s)) State.sleepMe fun s =>
    s.putP (bitsOf b 3 0) (allBits (!s.me.events.isEmpty))) s

/-! Duplicate check, wide replay, ticks (R223 to R225, R276). -/

/-- CHK needs the group DUP (R113, R223). -/
def checkChk (s : State) : Except Stop Unit := s.needFeature 6 7

/-- The index of the first difference of two byte lists. -/
def firstDiff : List Byte → List Byte → Option Nat
  | a :: as, b :: bs => if a = b then (firstDiff as bs).map (· + 1) else some 0
  | _, _ => none

/-- CHK (R115, R223). -/
def execChk (g : Guard) (b : SyncBody) (s : State) : Host.Outcome State Fault Refusal :=
  atIssue (.chk g b) g checkChk (fun s =>
    let kd := chkKindOf b
    let n := (match kd with | .t => 1024 | .c => 4096 | _ => 256) * (bitsOf b 28 23 + 1)
    match firstDiff (s.rdWin (s.me.viewEnv.start kd (bitsOf b 44 39)) n) (s.rdWin (s.me.viewEnv.start kd (bitsOf b 36 31)) n) with
    | none => .ok s
    | some i =>
      let info := BitVec.ofNat 16 (min i 0xFFFF)
      .ok (s.takeUserTrap 129 info { code := trapDUPMISMATCH, sub := info, slot := 7 })) s

/-- RPLW inside a wide variant traps WIDE; where the kernel has no wide variant, LIMIT (R67, R224).
DEDUCED: notes/assumptions/32.md. -/
def checkRplw (s : State) : Except Stop Unit := do
  let k := s.me.task.getD {}
  require (!k.isWide) (illegal 7 10 63)
  require k.wide.isSome (limitTrap 7)

/-- A task ends at once without a fault: its open region aborts, what it has committed stands, and it waits for its
operations (R224, R347). -/
def State.endNow (s : State) (t c status : Nat) : State :=
  ((s.abortRegion t c).modCtx t c fun x =>
    { x with phase := .draining status, loops := [], captured := none, target := none, redirect := none, checked := false,
             launchStall := false, barWaiting := false }).settle t c

/-- One member of a gang that RPLW replaces (R224, R298): on a context, that stays reserved; saved, it is discarded. -/
def State.rplwMember (s : State) (g m : Nat) : State :=
  match (s.gang g).members.getD m .ended with
  | .on t c => (s.modGang g fun x => { x with reserved := x.reserved ++ [(m, t, c)] }).endNow t c 0
  | .saved k => (s.dropSave k).modGang g fun x => { x with members := x.members.set m .ended }
  | .ended => s

/-- RPLW (R224): steps 1 and 2; the launch of the wide variant is WIDE_VARIANT_LAUNCH. -/
def rplwEff (s : State) : State :=
  match s.myMember with
  | none => s
  | some (g, _) =>
    if (s.gang g).rplw then s
    else
      let s1 := s.modGang g fun x => { x with rplw := true }
      (List.range (s1.gang g).members.length).foldl (fun a m => a.rplwMember g m) s1

def execRplw (g : Guard) (b : SyncBody) (s : State) : Host.Outcome State Fault Refusal :=
  atIssue (.rplw g b) g checkRplw (fun s => .ok (rplwEff s)) s

/-- TICKWAIT needs the group STREAM and a node that a timed arm launched (R113, R225). -/
def checkTickwait (s : State) : Except Stop Unit := do
  s.needFeature 3 7
  require ((s.me.task.bind fun k => k.arm).isSome) (limitTrap 7)

/-- The condition of TICKWAIT (R276): a tick that was not skipped has come since its bundle reached issue. -/
def readyTickwait (s : State) : Bool := s.me.tickTarget.isSome

/-- A task that sleeps in TICKWAIT notes when its bundle reached issue (R35, R214, R276). -/
def tickSleep (s : State) : State :=
  ((s.modMe Ctx.commitEarlier).modMe fun x => { x with waitSince := some (x.waitSince.getD s.now) }).sleepMe

/-- TICKWAIT (R35, R225, R276): on its return the task's step is the tick's number. -/
def execTickwait (g : Guard) (b : SyncBody) (s : State) : Host.Outcome State Fault Refusal :=
  atIssue (.tickwait g b) g checkTickwait (waitEff (fun s => .ok (readyTickwait s)) tickSleep fun s =>
    (s.modMe Ctx.commitEarlier).modMe fun x =>
      { x with task := x.task.map fun k => { k with step := x.tickTarget }, tickTarget := none, waitSince := none }) s

end Sys2Proof.Machine
end

