-- ==== Sys2Proof/Machine/Kv.lean ====
section
/-! DEFINITION. Key-value arenas, the ten KV commands, cistern attention and the compaction engines:
spec/10_attention_kv.md R239 to R265. A block holds its tokens as KVAPPEND's source held them; `blockBytes` lays them out
as R241 does. -/

namespace Sys2Proof.Machine

/-! Links (R282): which packages can be reached. -/

/-- The UP edges of the link state in force: lower package, higher package, port (R282). -/
def State.linkEdges (s : State) : List (Nat × Nat × Nat) :=
  ((s.net.sets.find? fun x => x.version == s.net.applied).map fun x => x.edges).getD []

/-- Packages reached from `seen` in at most `fuel` rounds over edges. -/
def reachFrom (edges : List (Nat × Nat × Nat)) : Nat → List Nat → List Nat
  | 0, seen => seen
  | fuel + 1, seen =>
    reachFrom edges fuel (edges.foldl (fun acc (a, b, _) =>
      if acc.contains a && !acc.contains b then acc ++ [b]
      else if acc.contains b && !acc.contains a then acc ++ [a] else acc) seen)

/-- Whether a package can be reached from this one. -/
def State.reachable (s : State) (p : Nat) : Bool :=
  p == s.net.pkg || (reachFrom s.linkEdges 64 [s.net.pkg]).contains p

/-! Descriptors (R244). -/

def kvLen (d : BitVec 512) : Nat := bitsOf d 31 0
def kvNent (d : BitVec 512) : Nat := bitsOf d 127 112
def kvWin (d : BitVec 512) : Nat := bitsOf d 159 128
/-- H (R244). -/
def kvHeads (d : BitVec 512) : Nat := bitsOf d 171 168 + 1
/-- d (R244). -/
def kvDim (d : BitVec 512) : Nat := 32 * (bitsOf d 175 172 + 1)
def kvAshard (d : BitVec 512) : Nat := bitsOf d 183 180
def kvLastErr (d : BitVec 512) : Nat := bitsOf d 191 184
def kvNarrow (d : BitVec 512) : Bool := d.getLsbD 240
def kvValid (d : BitVec 512) : Bool := d.getLsbD 241
def kvScoreN (d : BitVec 512) : Nat := bitsOf d 335 304
def kvStream (d : BitVec 512) : Nat := bitsOf d 239 224
/-- The narrow format of the arena's elements. -/
def kvFmt (d : BitVec 512) : NarrowFmt := narrowFmt (d.extractLsb' 192 32)
/-- Bits of one element (R241). -/
def kvCw (d : BitVec 512) : Nat := if kvNarrow d then (kvFmt d).container else 16
/-- Shard s: its package in the upper six bits, its die in the lower three (R244). -/
def kvShardDie (d : BitVec 512) (s : Nat) : Nat := bitsOf d (336 + 9 * s + 8) (336 + 9 * s)
/-- The package of shard s (R244). -/
def kvShardPkg (d : BitVec 512) (s : Nat) : Nat := kvShardDie d s / 8
/-- Bytes of one head's keys, or values, of a token. -/
def kvHalf (d : BitVec 512) : Nat := kvDim d * kvCw d / 8
/-- Bytes of a token's elements (R251). -/
def kvTokBytes (d : BitVec 512) : Nat := kvHeads d * 2 * kvHalf d

/-! Arenas. -/

/-- A 32-bit counter raised, saturating (R265, R275). -/
def satAdd (c : BitVec 32) (n : Nat) : BitVec 32 := BitVec.ofNat 32 (min (c.toNat + n) (2 ^ 32 - 1))

/-- An arena. -/
def State.arena (s : State) (k : Nat) : Arena := FMap.get {} s.eng.arenas k
/-- An arena changed. -/
def State.modArena (s : State) (k : Nat) (f : Arena → Arena) : State :=
  { s with eng := { s.eng with arenas := FMap.set {} s.eng.arenas k (f (s.arena k)) } }
/-- The sequence at a descriptor offset. -/
def State.seq (s : State) (k off : Nat) : Seq := FMap.get {} (s.arena k).seqs off
/-- A sequence changed. -/
def State.modSeq (s : State) (k off : Nat) (f : Seq → Seq) : State :=
  s.modArena k fun a => { a with seqs := FMap.set {} a.seqs off (f (FMap.get {} a.seqs off)) }
/-- A block. -/
def State.block (s : State) (k b : Nat) : Block := FMap.get {} (s.arena k).blocks b
/-- A block changed. -/
def State.modBlock (s : State) (k b : Nat) (f : Block → Block) : State :=
  s.modArena k fun a => { a with blocks := FMap.set {} a.blocks b (f (FMap.get {} a.blocks b)) }
/-- An allocation that failed, counted (R265). -/
def State.noRoom (s : State) (k die : Nat) : State :=
  s.modArena k fun a => { a with fails := FMap.set 0 a.fails die (satAdd (FMap.get 0 a.fails die) 1) }

/-! Space (R239, R241, R353). -/

/-- Bytes of a block with room for n tokens (R241). -/
def kvBlockSize (d : BitVec 512) (n : Nat) : Nat :=
  let kb := n * kvDim d * kvCw d / 8
  (4 * n + 2 * kvHeads d * kb + (if kvNarrow d then 8 * kvHeads d * n / 16 else 0) + 255) / 256 * 256

/-- A list of bytes that have been written, and `n` in all; what has not been written has none. -/
def padNone (n : Nat) (bs : List Byte) : List (Option Byte) := bs.map some ++ List.replicate (n - bs.length) none

/-- The bytes of a block from its handle (R241): POS, then each head's keys and values, then the scales, then zeros.
`none` where no token has been written. DEDUCED: notes/assumptions/48.md. -/
def blockBytes (d : BitVec 512) (b : Block) : List (Option Byte) :=
  let n := if b.sealed then 256 else 16
  let half := kvHalf d
  let set (j : Nat) : List (Option Byte) := padNone (n * half) (b.toks.flatMap fun t => (t.drop (j * half)).take half)
  let scale (h : Nat) : List (Option Byte) :=
    padNone (8 * n / 16) (b.scales.flatMap fun g => leBytes 4 (g.getD h (0, 0)).1.toNat ++ leBytes 4 (g.getD h (0, 0)).2.toNat)
  let body := padNone (4 * n) (b.pos.flatMap fun p => leBytes 4 p.toNat) ++ (List.range (2 * kvHeads d)).flatMap set ++
    (if kvNarrow d then (List.range (kvHeads d)).flatMap scale else [])
  body ++ List.replicate (kvBlockSize d n - body.length) (some 0)

/-- A record of an arena's shard list (R353). -/
structure Carve where
  base : Nat := 0
  len : Nat := 0
  spillBase : Nat := 0
  spillLen : Nat := 0
deriving DecidableEq, Repr

/-- Record i of the shard list at k (R353). -/
def State.shardRec (s : State) (k i : Nat) : Carve :=
  let word (j : Nat) : Nat := s.rdNat (k + 32 * i + 8 * j) 8
  { base := word 0, len := word 1, spillBase := word 2, spillLen := word 3 }

/-- An arena's carve-out and spill extent on a die: nothing where no record in use lies there (R239, R353).
DEDUCED: notes/assumptions/48.md. -/
def State.carve (s : State) (k die : Nat) : Carve :=
  (((List.range 16).map (s.shardRec k)).find? fun c =>
    c.len != 0 && paPkg c.base == die / 8 && Config.carveDie c.base % 8 == die % 8).getD {}

/-- The package and the die that hold a descriptor (R231, R240). -/
def State.seqDie (s : State) (k off : Nat) : Nat := s.net.pkg % 64 * 8 + Config.arenaDie k off % 8

/-- Bytes in use of a die's carve-out: blocks that are not spilled, live descriptors, tables and score tables (R239).
DEDUCED: notes/assumptions/48.md. -/
def State.carveUsed (s : State) (k die : Nat) : Nat :=
  ((s.arena k).blocks.map fun (_, b) => if b.die == die && !b.spilled then b.size else 0).foldl (· + ·) 0 +
    ((s.arena k).seqs.map fun (off, q) =>
      if kvValid q.desc && s.seqDie k off == die then 64 + 8 * q.table.length + 4 * kvScoreN q.desc else 0).foldl (· + ·) 0

/-- Bytes in use of a die's spill extent. -/
def State.spillUsed (s : State) (k die : Nat) : Nat :=
  ((s.arena k).blocks.map fun (_, b) => if b.die == die && b.spilled then b.size else 0).foldl (· + ·) 0

/-- Whether the spill extent has room for n more bytes. -/
def State.spillRoom (s : State) (k die n : Nat) : Bool := decide (s.spillUsed k die + n ≤ (s.carve k die).spillLen)

/-- A place for `size` bytes in an extent, a multiple of 256 (R242); which one is open. -/
def freePlace (w : Word) (len size : Nat) : Nat := w.toNat % ((len - size) / 256 + 1) * 256

/-- Whether a block is pinned in some table. -/
def Arena.pinned (a : Arena) (b : Nat) : Bool := a.seqs.any fun (_, q) => q.table.any fun e => e.block == b && e.pin

/-- The sealed unpinned block of a die that has not been read for the longest time (R239). -/
def Arena.victim (a : Arena) (die : Nat) : Option Nat :=
  (a.blocks.foldl (fun acc (n, b) =>
    if b.sealed && !b.spilled && b.die == die && !a.pinned n then
      (match acc with
        | some (m, t) => if b.lastRead < t then some (n, b.lastRead) else some (m, t)
        | none => some (n, b.lastRead))
    else acc) none).map Prod.fst

/-- A block moved to its die's spill extent (R239). -/
def State.spillBlock (s : State) (k n : Nat) : State :=
  let b := s.block k n
  let at' := freePlace (Config.freeWord s.freeCtr) (s.carve k b.die).spillLen b.size
  let s1 := s.modBlock k n fun x => { x with spilled := true, handle := at' }
  { s1 with freeCtr := s1.freeCtr + 1 }

/-- Room made for n bytes in a die's carve-out: the least recently read unpinned sealed blocks move to the spill extent
while there is none (R239). The fuel bounds how many. DEDUCED: notes/assumptions/48.md. -/
def State.makeRoom (k die n : Nat) : Nat → State → Option State
  | fuel, s =>
    if n = 0 ∨ s.carveUsed k die + n ≤ (s.carve k die).len then some s
    else match fuel, (s.arena k).victim die with
      | fuel + 1, some v =>
        if s.spillRoom k die (s.block k v).size then State.makeRoom k die n fuel (s.spillBlock k v) else none
      | _, _ => none

/-- Room for n bytes, every block of the arena being at hand to move. -/
def State.roomFor (s : State) (k die n : Nat) : Option State := State.makeRoom k die n (s.arena k).blocks.length s

/-- A new block in a shard, at a place the spec leaves open: in the carve-out or, for a sealed block, where that has no
room, in the spill extent (R239, R242); none where there is no room, which the die counts (R265).
DEDUCED: notes/assumptions/48.md. -/
def State.allocBlock (s : State) (k : Nat) (d : BitVec 512) (shard : Nat) (isSealed : Bool) : State × Option Nat :=
  let die := kvShardDie d shard
  let size := kvBlockSize d (if isSealed then 256 else 16)
  let new (x : State) (spilled : Bool) : State × Option Nat :=
    let n := (x.arena k).nextBlock
    let c := x.carve k die
    let at' := freePlace (Config.freeWord (x.freeCtr + 1)) (if spilled then c.spillLen else c.len) size
    let y := (x.modBlock k n fun _ =>
      { sealed := isSealed, refs := 1, shard := shard, die := die, size := size, spilled := spilled, handle := at',
        slice := bitsOf (Config.freeWord x.freeCtr) 5 0, lastRead := x.ns }).modArena k fun a => { a with nextBlock := n + 1 }
    ({ y with freeCtr := y.freeCtr + 2 }, some n)
  match s.roomFor k die size with
  | some x => new x false
  | none => if isSealed && s.spillRoom k die size then new s true else (s.noRoom k die, none)

/-- A block read: one that is spilled comes back where the carve-out can take it (R239).
DEDUCED: notes/assumptions/48.md. -/
def State.readBlock (s : State) (k n : Nat) : State :=
  let b := s.block k n
  let s0 := if b.die / 8 = s.net.pkg then s.touchSlice (b.die % 8 * 64 + b.slice) else s
  let s1 := s0.modBlock k n fun x => { x with lastRead := s.ns }
  if !b.spilled then s1
  else match s1.roomFor k b.die b.size with
    | none => s1
    | some y =>
      let at' := freePlace (Config.freeWord y.freeCtr) (y.carve k b.die).len b.size
      let z := y.modBlock k n fun x => { x with spilled := false, handle := at' }
      { z with freeCtr := z.freeCtr + 1 }

/-- A reference to a block dropped; with the last one it is freed (R245). -/
def State.dropRef (s : State) (k n : Nat) : State :=
  if 1 < (s.block k n).refs then s.modBlock k n fun x => { x with refs := x.refs - 1 } else s.modBlock k n fun _ => {}

/-- A reference to a block gained. -/
def State.addRef (s : State) (k n : Nat) : State := s.modBlock k n fun x => { x with refs := x.refs + 1 }

/-- The number of tokens of an entry's block. -/
def State.entrySize (s : State) (k : Nat) (e : TableEntry) : Nat := (s.block k e.block).toks.length

/-- A new table version (R245), none where its array finds no room (R239); its place is open. `entries` are blocks with
their PIN, and the blocks already carry the reference of the new table; the old table's are dropped. -/
def State.newVersion (s : State) (k off : Nat) (entries : List (Nat × Bool)) (len : Nat) : Option State :=
  (s.roomFor k (s.seqDie k off) (8 * entries.length)).map fun s0 =>
    let s1 := (s0.seq k off).table.foldl (fun a e => a.dropRef k e.block) s0
    let t := entries.map fun (b, p) => ({ block := b, pin := p, shared := decide (1 < (s1.block k b).refs) } : TableEntry)
    let w := Config.freeWord s1.freeCtr
    let s2 := s1.modSeq k off fun x =>
      { x with table := t,
               desc := setBits (setBits (setBits (setBits (setBits x.desc 64 48 (bitsOf w 47 0)) 112 16 t.length) 0 32 len)
                 32 32 (bitsOf x.desc 63 32 + 1)) 160 8 (t.filter fun e => e.pin).length }
    { s2 with freeCtr := s2.freeCtr + 1 }

/-- The same with the references of the new table taken first. -/
def State.renewVersion (s : State) (k off : Nat) (entries : List (Nat × Bool)) (len : Nat) : Option State :=
  (entries.foldl (fun a (b, _) => a.addRef k b) s).newVersion k off entries len

/-! Tokens (R241, R243, R251). -/

/-- A token of a sequence. -/
structure KvTok where
  pos : BitVec 32
  bytes : List Byte
  scales : List (BitVec 32 × BitVec 32)
  pin : Bool
  block : Nat
deriving DecidableEq, Repr

/-- The tokens of a sequence in token order (R243). -/
def State.kvTokens (s : State) (k off : Nat) : List KvTok :=
  (s.seq k off).table.flatMap fun e =>
    let b := s.block k e.block
    (b.toks.zip b.pos).zipIdx.map fun ((t, p), i) =>
      { pos := p, bytes := t, scales := b.scales.getD (i / 16) [], pin := e.pin, block := e.block }

/-- The codes of a token's keys, or values, of head h (R251). -/
def kvCodes (d : BitVec 512) (value : Bool) (h : Nat) (t : List Byte) : List Nat :=
  let n := kvHalf d
  elems (kvCw d) (kvDim d) (leNat ((t.drop ((2 * h + if value then 1 else 0) * n)).take n))

/-- The exact values of a token's keys, or values, of head h (R241). -/
def kvVals (d : BitVec 512) (value : Bool) (h : Nat) (t : KvTok) : List Fp :=
  let cs := kvCodes d value h t.bytes
  if kvNarrow d then
    let (ks, vs) := t.scales.getD h (0, 0)
    cs.map fun c => (fpProd (decodeNarrow (kvFmt d) c) (decodeFp fp32 (if value then vs else ks).toNat)).1
  else cs.map (decodeFp bf16)

/-! Attention (R259, R260). -/

/-- RoundF of an exact value (R173). -/
def roundF : Fp → Nat
  | .nan _ => fp32.nanBits
  | .inf n => fp32.infBits n
  | v => (encodeFp fp32 .rne false v.dy.toQ).1

/-- The exact value of a sum (R57). -/
def SumSt.value (x : SumSt) : Fp :=
  if x.nan || (x.pinf && x.ninf) then .nan false
  else if x.pinf then .inf false
  else if x.ninf then .inf true
  else x.sum.toFp

/-- The exact sum of products. -/
def exactSum (ps : List (Fp × Fp)) : Fp := (ps.foldl (fun s (a, b) => s.addProd a b) SumSt.zero).value

/-- A score (R259). -/
def kvScore (sigma : Fp) (q k : List Fp) : Nat := roundF (fpProd sigma (exactSum (q.zip k))).1

/-- EXP2(RoundF(x − m)) on FP32 codes (R259, R260, R263). -/
def expDiff (x m : Nat) : Nat :=
  (fnExp2 fp32 (decodeFp fp32 (roundF (exactSum [(decodeFp fp32 x, .fin false 1 0), (decodeFp fp32 m, .fin true 1 0)])))).1

/-- A triple (m, ℓ, o). -/
structure Triple where
  m : Nat
  l : Nat
  o : List Nat
deriving DecidableEq, Repr

/-- The canonical NaN in every element. -/
def Triple.nan (d : Nat) : Triple := { m := fp32.nanBits, l := fp32.nanBits, o := List.replicate d fp32.nanBits }
/-- The identity (−infinity, 0, 0). -/
def Triple.empty (d : Nat) : Triple := { m := fp32.infBits true, l := 0, o := List.replicate d 0 }

/-- IEEE maximum of two FP32 codes that are not NaN. DEDUCED: notes/assumptions/48.md. -/
def maxF (a b : Nat) : Nat := if (decodeFp fp32 a).less (decodeFp fp32 b) then b else a

/-- A leaf (R259): scores and value vectors of its tokens. -/
def leafTriple (d : Nat) (xs : List Nat) (vs : List (List Fp)) : Triple :=
  match xs with
  | [] => Triple.empty d
  | x :: rest =>
    let m := rest.foldl maxF x
    if (xs.any fun y => (decodeFp fp32 y).isNan) || m = fp32.infBits false then Triple.nan d
    else
      let ps := xs.map fun y => decodeFp fp32 (expDiff y m)
      { m := m, l := roundF (exactSum (ps.map fun p => (p, .fin false 1 0))),
        o := (List.range d).map fun i => roundF (exactSum (ps.zip (vs.map fun v => v.getD i (.fin false 0 0)))) }

/-- Merge (R260). -/
def mergeTriple (a b : Triple) : Triple :=
  if a.m = fp32.infBits true then b
  else if b.m = fp32.infBits true then a
  else if (decodeFp fp32 a.m).isNan || (decodeFp fp32 b.m).isNan then Triple.nan a.o.length
  else
    let m := maxF a.m b.m
    let fa := decodeFp fp32 (expDiff a.m m)
    let fb := decodeFp fp32 (expDiff b.m m)
    let comb (x y : Nat) : Nat := roundF (exactSum [(fa, decodeFp fp32 x), (fb, decodeFp fp32 y)])
    { m := m, l := comb a.l b.l, o := (a.o.zip b.o).map fun (x, y) => comb x y }

/-- Tree (R260): left-balanced; the fuel bounds its depth. -/
def treeTriple (d : Nat) : Nat → List Triple → Triple
  | 0, _ => Triple.empty d
  | _ + 1, [] => Triple.empty d
  | _ + 1, [x] => x
  | fuel + 1, xs =>
    let k := 2 ^ Nat.log2 (xs.length - 1)
    mergeTriple (treeTriple d fuel (xs.take k)) (treeTriple d fuel (xs.drop k))

/-- The leaves of [lo, hi): the token indices of each 16-token group (R259). -/
def leafRanges (lo hi : Nat) : List (List Nat) :=
  if hi ≤ lo then []
  else (List.range ((hi + 15) / 16 - lo / 16)).map fun j =>
    let g := lo / 16 + j
    (List.range 16).filterMap fun i => if lo ≤ 16 * g + i ∧ 16 * g + i < hi then some (16 * g + i) else none

/-- The triple of one query over a range of tokens (R259 to R261). -/
def attention (desc : BitVec 512) (head lo hi : Nat) (sigma : Fp) (q : List Fp) (ts : List KvTok) : Triple :=
  let d := kvDim desc
  let tok (i : Nat) : KvTok := ts.getD i { pos := 0, bytes := [], scales := [], pin := false, block := 0 }
  let leaves := (leafRanges lo hi).map fun is =>
    leafTriple d (is.map fun i => kvScore sigma q (kvVals desc false head (tok i)))
      (is.map fun i => kvVals desc true head (tok i))
  treeTriple d (leaves.length + 1) leaves

/-- Record j of KVATTN (R261): o, m, ℓ and zeros, 4d + 256 bytes. -/
def tripleBytes (t : Triple) : List Byte :=
  (t.o ++ [t.m, t.l]).flatMap (leBytes 4) ++ List.replicate 248 0

/-! Failures (R246, R247). -/

/-- Why a command does not take effect: a code of R247, or a stop. -/
inductive KvStop where
  | code (c : Nat)
  | stop (e : Stop)
deriving DecidableEq, Repr

/-- A stop inside a KV command. -/
def liftKv {α : Type} : Except Stop α → Except KvStop α
  | .ok x => .ok x
  | .error e => .error (.stop e)

/-- The code `c` unless the condition holds. -/
def needKv (ok : Bool) (c : Nat) : Except KvStop Unit := if ok then .ok () else .error (.code c)

def kvSEQ_INVALID : Nat := 1
def kvRANGE : Nat := 2
def kvARENA_FULL : Nat := 3
def kvLIST : Nat := 4
def kvSHARD : Nat := 5
def kvFORMAT : Nat := 6
def kvTABLE_FULL : Nat := 7

/-- Bytes delivered into the issuing tile's scratchpad and charged to a handle (R29, R261, R264).
DEDUCED: notes/assumptions/48.md. -/
def State.deliverScratch (s : State) (m : PumpCmd) (he : Bool) (off : Nat) (bs : List Byte) : State :=
  let keep := bs.take (scratchBytes - off)
  if keep.isEmpty then s
  else
    let (s1, m1) := s.deliverPieces m he true [(s.scratchPa m.tile off, keep.length)] keep
    s1.setCmd m1

/-- Where KVATTN's record goes (R261). -/
def State.attnAt (s : State) (m : PumpCmd) : Nat :=
  let h := (s.ctx m.tile m.ctx).handle m.body.handle.toNat
  h.base + bitsOf m.body.aux 5 0 * h.ssize * 256

/-- G and the head of KVATTN and KVSCORE (R249). -/
def kvG (m : PumpCmd) : Nat := bitsOf m.body.aux 18 16 + 1
def kvHead (m : PumpCmd) : Nat := bitsOf m.body.aux 15 12
/-- lo and hi (R249). -/
def kvLo (m : PumpCmd) : Nat := bitsOf m.s0 31 0
def kvHi (m : PumpCmd) : Nat := bitsOf m.s1 31 0

/-- KVATTN's record of canonical NaNs (R246, R247). -/
def State.nanRecord (s : State) (m : PumpCmd) (desc : BitVec 512) : State :=
  s.deliverScratch m true (s.attnAt m) ((List.replicate (kvG m) (tripleBytes (Triple.nan (kvDim desc)))).flatten)

/-- A command finished with a status. -/
def State.finishCmd (s : State) (id status : Nat) : State :=
  match s.cmd id with
  | none => s
  | some m => s.setCmd { m with finished := true, place := .resolved, status := status }

/-- A failure of R247: LASTERR, STATUS, KVATTN's record. -/
def State.failKv (s : State) (m : PumpCmd) (k off c : Nat) : State :=
  let d := (s.seq k off).desc
  let s1 := s.modSeq k off fun q => if kvLastErr q.desc = 0 then { q with desc := setBits q.desc 184 8 c } else q
  let s2 := if m.opc = 8 then s1.nanRecord m d else s1
  s2.finishCmd m.id (if c = kvSHARD then 6 else 2)

/-! The commands at resolution. -/

/-- A live sequence is needed (R247). -/
def State.needSeq (s : State) (k off : Nat) : Except KvStop Unit := needKv (kvValid (s.seq k off).desc) kvSEQ_INVALID

/-- `n` bytes of the command's scratchpad source (R246). -/
def State.kvSource (s : State) (m : PumpCmd) (n : Nat) : Except KvStop (State × List Byte) := liftKv do
  capCheck 6 m.cap1 [kSCRATCH] [rPS] [] m.cap1.offset n
  let (s1, ps, _) ← s.pumpPort m m.cap1 [rPS] [] m.cap1.offset n
  .ok (s1, s1.rdPieces ps)

/-- A new block in ASHARD (R243, R255); an allocation that fails is counted even so. -/
def State.kvAlloc (s : State) (k off : Nat) (isSealed : Bool) : State × Option Nat :=
  s.allocBlock k (s.seq k off).desc (kvAshard (s.seq k off).desc) isSealed

/-- What a command does at resolution: the state after it, or a failure with the state it is found in. -/
abbrev KvResult := State × Option KvStop

/-- A failure that leaves the state as it was. -/
def kvRun (s : State) : Except KvStop State → KvResult
  | .ok s' => (s', none)
  | .error e => (s, some e)

/-- What an allocation for a sequence made, or ARENA_FULL and the state a failure leaves (R239, R247). -/
def kvMade (s : State) (k off : Nat) : Option State → KvResult
  | some s' => (s', none)
  | none => (s.noRoom k (s.seqDie k off), some (.code kvARENA_FULL))

/-- The rest of a command whose checks have passed. -/
def kvThen {α : Type} (s : State) (pre : Except KvStop α) (f : α → KvResult) : KvResult :=
  match pre with
  | .error e => (s, some e)
  | .ok x => f x

/-- A token written into the last block, and LEN (R251). -/
def State.putToken (s : State) (k off b : Nat) (pos : BitVec 32) (bytes : List Byte) (scales : List (BitVec 32 × BitVec 32)) :
    State :=
  let group := (s.block k b).toks.length % 16 == 0
  (s.modBlock k b fun x => { x with toks := x.toks ++ [bytes], pos := x.pos ++ [pos],
                                    scales := if group then x.scales ++ [scales] else x.scales }).modSeq k off
    fun q => { q with desc := setBits q.desc 0 32 (kvLen q.desc + 1) }

/-- The scales at the end of a narrow token's source (R251). -/
def kvScales (d : BitVec 512) (bs : List Byte) : List (BitVec 32 × BitVec 32) :=
  if kvNarrow d then
    (chunk 8 (kvHeads d) (bs.drop (kvTokBytes d))).map fun x =>
      (BitVec.ofNat 32 (leNat (x.take 4)), BitVec.ofNat 32 (leNat (x.drop 4)))
  else []

/-- A new tail block, by an in-place extension of the table (R245, R251); `s` is the state a failure leaves. -/
def kvExtend (k off : Nat) (s s1 : State) (d : BitVec 512) (put : State → Nat → State) : KvResult :=
  if 65535 ≤ kvNent d then (s, some (.code kvTABLE_FULL))
  else if !s1.reachable (kvShardPkg d (kvAshard d)) then (s, some (.code kvSHARD))
  else match s1.kvAlloc k off false with
    | (s2, none) => (s2, some (.code kvARENA_FULL))
    | (s2, some b) => kvMade s k off ((s2.roomFor k (s2.seqDie k off) 8).map fun s3 =>
      put (s3.modSeq k off fun q => { q with table := q.table ++ [{ block := b }],
                                             desc := setBits q.desc 112 16 (q.table.length + 1) }) b)

/-- KVAPPEND at resolution (R251). -/
def kvAppend (m : PumpCmd) (k off : Nat) (s : State) : KvResult :=
  let d := (s.seq k off).desc
  kvThen s (do
    s.needSeq k off
    needKv (decide (kvLen d + 1 < 2 ^ 32)) kvRANGE
    s.kvSource m (kvTokBytes d + if kvNarrow d then 8 * kvHeads d else 0)) fun (s1, bs) =>
    let put (x : State) (b : Nat) : State :=
      x.putToken k off b (m.s0.extractLsb' 0 32) (bs.take (kvTokBytes d)) (kvScales d bs)
    let last := (s1.seq k off).table.getLast?
    match last with
    | some e =>
      let b := s1.block k e.block
      if !b.sealed && decide (b.toks.length < 16) then
        (if s1.reachable (kvShardPkg d b.shard) then (put s1 e.block, none) else (s, some (.code kvSHARD)))
      else kvExtend k off s s1 d put
    | none => kvExtend k off s s1 d put

/-- The start indices of entries with their sizes. -/
def startsOf : Nat → List Nat → List Nat
  | _, [] => []
  | a, n :: ns => a :: startsOf (a + n) ns

/-- The blocks that hold a token of [lo, hi). -/
def State.blocksIn (s : State) (k off lo hi : Nat) : List Nat :=
  let t := (s.seq k off).table
  let sizes := t.map (s.entrySize k)
  (t.zip ((startsOf 0 sizes).zip sizes)).filterMap fun (e, a, n) =>
    if lo < hi ∧ a < hi ∧ lo < a + n then some e.block else none

/-- The checks of a read of [lo, hi) by KVATTN and KVSCORE (R247, R262). -/
def State.kvReach (s : State) (k off lo hi : Nat) : Except KvStop Unit :=
  needKv ((s.blocksIn k off lo hi).all fun b => s.reachable ((s.block k b).die / 8)) kvSHARD

/-- The blocks of [lo, hi) read (R239). -/
def State.kvTouch (s : State) (k off lo hi : Nat) : State :=
  (s.blocksIn k off lo hi).foldl (fun a b => a.readBlock k b) s

/-- The queries at the start of a source (R259). -/
def kvQueries (d : BitVec 512) (g : Nat) (bs : List Byte) : List (List Fp) :=
  (chunk (2 * kvDim d) g bs).map fun q => (elems 16 (kvDim d) (leNat q)).map (decodeFp bf16)

/-- σ: s[S1][63:32] (R259). -/
def kvSigma (m : PumpCmd) : Fp := decodeFp fp32 (bitsOf m.s1 63 32)

/-- KVATTN at resolution (R259 to R262). -/
def kvAttn (m : PumpCmd) (k off : Nat) (s : State) : KvResult := kvRun s do
  let d := (s.seq k off).desc
  s.needSeq k off
  needKv (decide (kvHead m < kvHeads d)) kvRANGE
  let (s1, bs) ← s.kvSource m (2 * kvDim d * kvG m)
  let lo := kvLo m
  let hi := min (kvHi m) (kvLen d)
  s1.kvReach k off lo hi
  let ts := s1.kvTokens k off
  let recs := (kvQueries d (kvG m) bs).map fun q => attention d (kvHead m) lo hi (kvSigma m) q ts
  .ok ((s1.kvTouch k off lo hi).deliverScratch m true (s1.attnAt m) (recs.flatMap tripleBytes))

/-- One token's additions of KVSCORE (R263): queries in order with their m and ℓ. -/
def scoreToken (sigma : Fp) (key : List Fp) (qs : List (List Fp × Nat × Nat)) (old : Nat) : Nat :=
  qs.foldl (fun acc (q, m, l) =>
    let w := lrQuo (decodeFp fp32 (expDiff (kvScore sigma q key) m)) (decodeFp fp32 l)
    lrSum [(acc, f32one), (w, f32one)]) old

/-- KVSCORE at resolution (R263). -/
def kvScoreCmd (m : PumpCmd) (k off : Nat) (s : State) : KvResult := kvRun s do
  let d := (s.seq k off).desc
  let lo := kvLo m
  let hi := min (kvHi m) (kvLen d)
  s.needSeq k off
  needKv (decide (kvHead m < kvHeads d)) kvRANGE
  needKv (decide (hi ≤ kvScoreN d)) kvRANGE
  let g := kvG m
  let (s1, bs) ← s.kvSource m ((2 * kvDim d + 8) * g)
  s1.kvReach k off lo hi
  let mls := (chunk 8 g (bs.drop (2 * kvDim d * g))).map fun x => (leNat (x.take 4), leNat (x.drop 4))
  let qs := ((kvQueries d g bs).zip mls).map fun (q, ml) => (q, ml.1, ml.2)
  let ts := s1.kvTokens k off
  let scores := ((List.range hi).drop lo).foldl (fun acc t =>
    let old := if m.body.aux.getLsbD 0 then 0 else (FMap.get (0 : BitVec 32) acc t).toNat
    let key := match ts[t]? with | some x => kvVals d false (kvHead m) x | none => []
    FMap.set 0 acc t (BitVec.ofNat 32 (scoreToken (kvSigma m) key qs old))) (s1.seq k off).scores
  .ok ((s1.kvTouch k off lo hi).modSeq k off fun q => { q with scores := scores })

/-- KVFREE at resolution (R252). -/
def kvFree (k off : Nat) (s : State) : KvResult := kvRun s do
  s.needSeq k off
  let q := s.seq k off
  .ok ((q.table.foldl (fun a e => a.dropRef k e.block) s).modSeq k off fun x => { x with desc := 0, table := [], scores := [] })

/-- KVPIN at resolution (R253). -/
def kvPin (n k off : Nat) (s : State) : KvResult :=
  let q := s.seq k off
  let sizes := q.table.map (s.entrySize k)
  let starts := startsOf 0 sizes
  let ents := (q.table.zip (starts.zip sizes)).map fun (e, a, w) => (e.block, decide (a + w ≤ n))
  kvThen s (do
    s.needSeq k off
    needKv (n == 0 || n == kvLen q.desc || starts.contains n) kvRANGE
    needKv (decide ((ents.filter fun e => e.2).length ≤ 255)) kvRANGE) fun _ =>
      kvMade s k off (s.renewVersion k off ents (kvLen q.desc))

/-- The entries KVWIN keeps (R254): of the unpinned part, given with sizes, how many leading ones go. -/
def winDrops (win sink : Nat) : Nat → List Nat → Nat
  | _, [] => 0
  | _, [_] => 0
  | len, w :: ws => if len - sink - w < win then 0 else 1 + winDrops win sink (len - w) ws

/-- Scores with the entries [a, a + n) removed and those above moved down (R254). -/
def shiftScores (m : FMap (BitVec 32)) (a n : Nat) : FMap (BitVec 32) :=
  m.filterMap fun (t, v) => if t < a then some (t, v) else if t < a + n then none else some (t - n, v)

/-- KVWIN at resolution (R254). -/
def kvWinCmd (w k off : Nat) (s : State) : KvResult := kvThen s (s.needSeq k off) fun _ =>
  let s1 := s.modSeq k off fun q => { q with desc := setBits q.desc 128 32 w }
  let q := s1.seq k off
  let pins := q.table.filter fun e => e.pin
  let rest := q.table.filter fun e => !e.pin
  let sink := ((pins.map (s1.entrySize k)).foldl (· + ·) 0)
  let sizes := rest.map (s1.entrySize k)
  let c := if w = 0 then 0 else winDrops w sink (kvLen q.desc) sizes
  if c = 0 then (s1, none)
  else
    let gone := ((sizes.take c).foldl (· + ·) 0)
    kvMade s k off ((s1.renewVersion k off ((pins ++ rest.drop c).map fun e => (e.block, e.pin)) (kvLen q.desc - gone)).map
      fun x => x.modSeq k off fun y => { y with scores := shiftScores y.scores sink gone })

/-- The table entry as 64 bits (R242). -/
def State.entryBits (s : State) (k : Nat) (e : TableEntry) : Nat :=
  let b := s.block k e.block
  2 ^ 63 + b.sealed.toNat * 2 ^ 62 + e.pin.toNat * 2 ^ 61 + e.shared.toNat * 2 ^ 60 + b.sealed.toNat * 2 ^ 58 +
    b.shard % 16 * 2 ^ 54 + b.slice % 64 * 2 ^ 48 + b.handle % 2 ^ 48

/-- The arena record of a die (R265), in blocks of the shape that descriptor d gives: spaces left in the carve-out, sealed
blocks spilled, versions that the die's engine holds, allocations that failed. DEDUCED: notes/assumptions/48.md. -/
def State.arenaRecord (s : State) (k die : Nat) (d : BitVec 512) : Nat :=
  let a := s.arena k
  let left := (s.carve k die).len - s.carveUsed k die
  let spilled := (a.blocks.filter fun (_, b) => b.die == die && b.spilled).length
  let jobs := if die / 8 = s.net.pkg then FMap.get [] s.eng.jobs (die % 8) else []
  let holds := (jobs.filter fun j => j.arena == k && j.built).length
  left / kvBlockSize d 16 % 2 ^ 32 + left / kvBlockSize d 256 % 2 ^ 32 * 2 ^ 32 +
    spilled % 2 ^ 32 * 2 ^ 64 + holds % 2 ^ 32 * 2 ^ 96 + (FMap.get 0 a.fails die).toNat * 2 ^ 128

/-- The bytes KVSTAT copies (R264). -/
def State.statBytes (s : State) (m : PumpCmd) (k off : Nat) : List Byte :=
  let q := s.seq k off
  let lo := kvLo m
  let clip (n w : Nat) (f : Nat → Nat) : List Byte :=
    ((List.range (min (kvHi m) n)).drop lo).flatMap fun i => leBytes w (f i)
  match bitsOf m.body.aux 6 4 with
  | 0 => leBytes 64 q.desc.toNat
  | 1 => clip (min (kvLen q.desc) (kvScoreN q.desc)) 4 fun i => (FMap.get (0 : BitVec 32) q.scores i).toNat
  | 2 => clip (kvLen q.desc) 4 fun i => ((s.kvTokens k off)[i]?.map fun t => t.pos.toNat).getD 0
  | 3 => clip (kvNent q.desc) 8 fun i => (q.table[i]?.map (s.entryBits k)).getD 0
  | _ => leBytes 64 (s.arenaRecord k (if kvValid q.desc then kvShardDie q.desc 0 else s.seqDie k off) q.desc)

/-- KVSTAT at resolution (R264). DEDUCED: notes/assumptions/48.md. -/
def kvStat (m : PumpCmd) (k off : Nat) (s : State) : KvResult := kvRun s do
  let pos := bitsOf m.body.aux 6 4 = 2
  let hi := min (kvHi m) (kvLen (s.seq k off).desc)
  if pos then s.kvReach k off (kvLo m) hi
  let bs := s.statBytes m k off
  let s1 ← (if bs.isEmpty then .ok s
    else liftKv do
      capCheck 6 m.cap1 [kSCRATCH] [rPD] [] m.cap1.offset bs.length
      let (s1, ps, _) ← (if pos then s.kvTouch k off (kvLo m) hi else s).pumpPort m m.cap1 [rPD] [] m.cap1.offset bs.length
      let (s2, m2) := s1.deliverPieces m (pumpHe m.body) true ps bs
      .ok (s2.setCmd m2))
  .ok (if m.body.aux.getLsbD 2 then s1.modSeq k off fun q => { q with desc := setBits q.desc 184 8 0 } else s1)

/-! Forks (R250). -/

/-- Whether a template can make a sequence (R247). DEDUCED: notes/assumptions/48.md. -/
def templateOk (t : BitVec 512) : Bool :=
  bitsOf t 511 480 == 0 && bitsOf t 255 242 == 0 && decide (bitsOf t 175 172 ≤ 7) &&
    (if kvNarrow t then validFormat (t.extractLsb' 192 32) else bitsOf t 223 192 == 0) &&
    bitsOf t 303 256 == 0 && decide (kvAshard t ≤ bitsOf t 179 176) && !kvValid t

/-- The descriptor that KVFORK.new writes (R244, R250): its own die as shard 0; the places of its table and its score
table are open. -/
def newDesc (t : BitVec 512) (die : Nat) (w v : Word) : BitVec 512 :=
  let clear := setBits (setBits (setBits (setBits t 0 64 0) 112 16 0) 160 8 0) 184 8 0
  setBits (setBits (setBits (setBits clear 336 9 die) 64 48 (bitsOf w 47 0)) 256 48 (bitsOf v 47 0)) 241 1 1

/-- KVFORK.new at resolution (R250). -/
def kvForkNew (m : PumpCmd) (k off : Nat) (s : State) : KvResult :=
  kvThen s (do
    needKv (!kvValid (s.seq k off).desc) kvSEQ_INVALID
    let (s1, bs) ← liftKv (do
      let (s1, ps, _) ← s.pumpPort m m.cap1 [rR] [] m.cap1.offset 64
      .ok (s1, s1.rdPieces ps))
    needKv (templateOk (BitVec.ofNat 512 (leNat bs))) kvFORMAT
    .ok (s1, BitVec.ofNat 512 (leNat bs))) fun (s1, t) =>
      kvMade s k off ((s1.roomFor k (s.seqDie k off) (64 + 4 * kvScoreN t)).map fun s2 =>
        let d := newDesc t (s.seqDie k off) (Config.freeWord s2.freeCtr) (Config.freeWord (s2.freeCtr + 1))
        { s2 with freeCtr := s2.freeCtr + 2 }.modSeq k off fun q => { q with desc := d, table := [], scores := [] })

/-- The entries of a table that a fork shares: all but a partial last block (R250). -/
def State.forkWhole (s : State) (k : Nat) (t : List TableEntry) : Nat :=
  match t.getLast? with
  | some e => if !(s.block k e.block).sealed && decide (s.entrySize k e < 16) then t.length - 1 else t.length
  | none => 0

/-- The private copy of a partial last block for a fork (R250), in ASHARD. -/
def State.forkTail (s : State) (k src : Nat) : List TableEntry → KvResult × List TableEntry
  | [] => ((s, none), [])
  | e :: _ =>
    let d := (s.seq k src).desc
    let o := s.block k e.block
    if !s.reachable (o.die / 8) || !s.reachable (kvShardPkg d (kvAshard d)) then ((s, some (.code kvSHARD)), [])
    else match s.kvAlloc k src false with
      | (s2, none) => ((s2, some (.code kvARENA_FULL)), [])
      | (s2, some b) =>
        ((s2.modBlock k b fun x => { x with toks := o.toks, pos := o.pos, scales := o.scales }, none), [{ block := b, pin := e.pin }])

/-- KVFORK at resolution (R250); `src` is the source's descriptor offset. -/
def kvFork (m : PumpCmd) (k off src : Nat) (s : State) : KvResult :=
  let q := s.seq k src
  let n := s.forkWhole k q.table
  let shared := (q.table.take n).map fun e => { e with shared := true }
  kvThen s (do
    needKv (m.cap0.obj == m.cap1.obj) kvSEQ_INVALID
    needKv (!kvValid (s.seq k off).desc) kvSEQ_INVALID
    s.needSeq k src) fun _ =>
      match s.forkTail k src (q.table.drop n) with
      | ((s1, some e), _) => (s1, some e)
      | ((s1, none), tail) =>
        kvMade s k off ((s1.roomFor k (s.seqDie k off) (64 + 8 * q.table.length + 4 * kvScoreN q.desc)).map fun s2 =>
          let w := Config.freeWord s2.freeCtr
          let v := Config.freeWord (s2.freeCtr + 1)
          let s3 := (q.table.take n).foldl (fun a e => a.addRef k e.block) { s2 with freeCtr := s2.freeCtr + 2 }
          (s3.modSeq k src fun z => { z with table := shared ++ z.table.drop n }).modSeq k off fun z =>
            { z with desc := setBits (setBits (setBits (setBits q.desc 64 48 (bitsOf w 47 0)) 256 48 (bitsOf v 47 0)) 184 8 0) 241 1 1,
                     table := shared ++ tail, scores := q.scores })

/-! Jobs of the compaction engines (R255 to R258). -/

/-- The die whose engine serves a sequence (R255). -/
def engineDie (k off : Nat) : Nat := Config.arenaDie k off % 8

/-- The jobs of a die's engine. -/
def State.jobsOf (s : State) (die : Nat) : List Job := FMap.get [] s.eng.jobs die
/-- The jobs of a die's engine replaced. -/
def State.setJobs (s : State) (die : Nat) (js : List Job) : State :=
  { s with eng := { s.eng with jobs := FMap.set [] s.eng.jobs die js } }

/-- The first entry of KVSEAL's run: after the last entry that is sealed or pinned (R256). -/
def State.sealStart (s : State) (k off : Nat) : Nat :=
  ((s.seq k off).table.zipIdx.foldl (fun acc (e, i) => if e.pin || (s.block k e.block).sealed then i + 1 else acc) 0)

/-- Whether the run from entry i qualifies (R256). -/
def State.sealOk (s : State) (k off i : Nat) : Bool :=
  let run := ((s.seq k off).table.drop i).take 16
  run.length == 16 && run.all fun e => !e.pin && !(s.block k e.block).sealed && s.entrySize k e == 16

/-- KVSEAL at resolution (R256): a run that does not qualify completes at once; otherwise a job is queued. -/
def kvSeal (m : PumpCmd) (k off : Nat) (s : State) : KvResult := kvRun s do
  s.needSeq k off
  let i := s.sealStart k off
  if s.sealOk k off i then
    .ok ((s.setJobs (engineDie k off) (s.jobsOf (engineDie k off) ++
      [{ cmd := m.id, arena := k, seqOff := off, start := i }])).modSeq k off fun q => { q with sealing := true })
  else .ok (s.finishCmd m.id 0)

/-- The survivor list of KVCOMPACT, as the pump port read it (R257, R258, R300). -/
def PumpCmd.survivors (m : PumpCmd) : List Nat := elems 32 (bitsOf m.descBits 415 384) (leNat m.source)

/-- A strictly rising list below a bound (R247). -/
def risingBelow (bound : Nat) : List Nat → Bool
  | [] => true
  | [x] => decide (x < bound)
  | x :: y :: xs => decide (x < y) && risingBelow bound (y :: xs)

/-- KVCOMPACT at resolution (R255, R258): the job is queued. -/
def kvCompact (m : PumpCmd) (k off : Nat) (s : State) : KvResult := kvRun s do
  s.needSeq k off
  let xs := m.survivors
  needKv (risingBelow (kvLen (s.seq k off).desc) xs) kvLIST
  needKv (decide ((xs.length + 15) / 16 ≤ 65535)) kvTABLE_FULL
  .ok ((s.setJobs (engineDie k off) (s.jobsOf (engineDie k off) ++
    [{ cmd := m.id, arena := k, seqOff := off, compact := true, survivors := xs }])).modSeq k off
      fun q => { q with compacting := true })

/-- A job taken off its engine's queue, its sequence free of it. -/
def State.endJob (s : State) (die : Nat) (j : Job) : State :=
  (s.setJobs die (s.jobsOf die).tail).modSeq j.arena j.seqOff fun q =>
    if j.compact then { q with compacting := false } else { q with sealing := false }

/-- The state after an install, or ARENA_FULL where the new table found no room. -/
def State.installed (s : State) (j : Job) : Option State → State × Option Nat
  | some s' => (s', none)
  | none => (s.noRoom j.arena (s.seqDie j.arena j.seqOff), some kvARENA_FULL)

/-- A seal installed (R256). -/
def State.installSeal (s : State) (j : Job) : State × Option Nat :=
  let k := j.arena
  let q := s.seq k j.seqOff
  if !s.reachable (kvShardPkg q.desc (kvAshard q.desc)) then (s, some kvSHARD)
  else match s.kvAlloc k j.seqOff true with
    | (s1, none) => (s1, some kvARENA_FULL)
    | (s1, some b) =>
      let run := ((q.table.drop j.start).take 16).map fun e => s.block k e.block
      let s2 := s1.modBlock k b fun x =>
        { x with toks := run.flatMap fun r => r.toks, pos := run.flatMap fun r => r.pos, scales := run.flatMap fun r => r.scales }
      let keep := (q.table.take j.start).map fun e => (e.block, e.pin)
      let after := (q.table.drop (j.start + 16)).map fun e => (e.block, e.pin)
      let s3 := (keep ++ after).foldl (fun a (n, _) => a.addRef k n) s2
      s.installed j (s3.newVersion k j.seqOff (keep ++ (b, false) :: after) (kvLen q.desc))

/-- The larger of two scales; a NaN where either is NaN. DEDUCED: notes/assumptions/48.md. -/
def maxScale (a b : BitVec 32) : BitVec 32 :=
  if (decodeFp fp32 a.toNat).isNan || (decodeFp fp32 b.toNat).isNan then BitVec.ofNat 32 fp32.nanBits
  else BitVec.ofNat 32 (maxF a.toNat b.toNat)

/-- A code re-encoded from scale `o` to scale `w` (R258). -/
def recode (f : NarrowFmt) (o w : BitVec 32) (c : Nat) : Nat :=
  let p := (fpProd (decodeNarrow f c) (decodeFp fp32 o.toNat)).1
  let n := decodeFp fp32 w.toNat
  let neg := p.sign != n.sign
  let v : Fp × Q :=
    if p.isNan || n.isNan || (p.isInf && n.isInf) || (p.isZero && n.isZero) then (.nan false, Dy.zero.toQ)
    else if p.isInf || n.isZero then (.inf neg, Dy.zero.toQ)
    else if n.isInf then (.fin neg 0 0, Dy.zero.toQ)
    else (.fin neg 1 0, p.dy.div n.dy)
  (encodeNarrow f .rne v).1

/-- The codes of one set re-encoded, unless the whole group has one original scale. -/
def recodeSet (f : NarrowFmt) (same : Bool) (o w : BitVec 32) (cs : List Nat) : List Nat :=
  if same then cs else cs.map (recode f o w)

/-- The survivors of one new block (R258): its token bytes and its group's scales. -/
def compactGroup (d : BitVec 512) (ts : List KvTok) : List (List Byte) × List (BitVec 32 × BitVec 32) :=
  if !kvNarrow d then (ts.map fun t => t.bytes, [])
  else
    let f := kvFmt d
    let old (t : KvTok) (h : Nat) : BitVec 32 × BitVec 32 := t.scales.getD h (0, 0)
    let fst := ts.headD { pos := 0, bytes := [], scales := [], pin := false, block := 0 }
    let new (h : Nat) : BitVec 32 × BitVec 32 :=
      ts.tail.foldl (fun a t => (maxScale a.1 (old t h).1, maxScale a.2 (old t h).2)) (old fst h)
    let sameK (h : Nat) : Bool := ts.all fun t => (old t h).1 == (old fst h).1
    let sameV (h : Nat) : Bool := ts.all fun t => (old t h).2 == (old fst h).2
    let heads := List.range (kvHeads d)
    (ts.map fun t => heads.flatMap fun h =>
        leBytes (kvHalf d) (packElems (kvCw d) (recodeSet f (sameK h) (old t h).1 (new h).1 (kvCodes d false h t.bytes))) ++
        leBytes (kvHalf d) (packElems (kvCw d) (recodeSet f (sameV h) (old t h).2 (new h).2 (kvCodes d true h t.bytes))),
      heads.map fun h => if sameK h && sameV h then old fst h
        else (if sameK h then (old fst h).1 else (new h).1, if sameV h then (old fst h).2 else (new h).2))

/-- New tail blocks for groups of survivors; the number of the first that finds no room stops it. -/
def State.buildBlocks (s : State) (k off : Nat) (d : BitVec 512) : List (List KvTok) → State × Option (List (Nat × Bool))
  | [] => (s, some [])
  | ts :: rest =>
    match s.kvAlloc k off false with
    | (s1, none) => (s1, none)
    | (s1, some b) =>
      let (toks, sc) := compactGroup d ts
      let s2 := s1.modBlock k b fun x => { x with toks := toks, pos := ts.map fun t => t.pos, scales := [sc] }
      match s2.buildBlocks k off d rest with
      | (s3, none) => (s3.dropRef k b, none)
      | (s3, some bs) => (s3, some ((b, ts.any fun t => t.pin) :: bs))

/-- A compaction installed (R258). -/
def State.installCompact (s : State) (j : Job) : State × Option Nat :=
  let k := j.arena
  let q := s.seq k j.seqOff
  let ts := s.kvTokens k j.seqOff
  let kept := j.survivors.filterMap fun i => ts[i]?
  if !kept.isEmpty && !s.reachable (kvShardPkg q.desc (kvAshard q.desc)) ||
      !(kept.all fun t => s.reachable ((s.block k t.block).die / 8)) then (s, some kvSHARD)
  else match s.buildBlocks k j.seqOff q.desc (chunk 16 ((kept.length + 15) / 16) kept) with
    | (s1, none) => (s1, some kvARENA_FULL)
    | (s1, some bs) =>
      let scores := (j.survivors.zipIdx.foldl (fun m (i, t) => FMap.set 0 m t (FMap.get (0 : BitVec 32) q.scores i)) [])
      s.installed j ((s1.newVersion k j.seqOff bs kept.length).map fun x =>
        x.modSeq k j.seqOff fun y => { y with scores := scores })

/-- The head job of a die's engine. -/
def State.headJob (s : State) (die : Nat) : Option Job := (s.jobsOf die).head?

/-- The blocks that a job reads, reachable or not: the run, or those of the survivors. -/
def State.jobBlocks (s : State) (j : Job) : List Nat :=
  if j.compact then
    let ts := s.kvTokens j.arena j.seqOff
    (j.survivors.filterMap fun i => ts[i]?.map fun t => t.block).eraseDups
  else (((s.seq j.arena j.seqOff).table.drop j.start).take 16).map fun e => e.block

/-- COMPACTION_JOB (R255): the engine takes its next job and reads under a hold; a spilled block is read back (R239). -/
def execCompactionJob (die : Nat) (s : State) : Host.Outcome State Fault Refusal :=
  match s.jobsOf die with
  | j :: js => .next ((s.jobBlocks j).foldl (fun a b => a.readBlock j.arena b) (s.setJobs die ({ j with built := true } :: js)))
  | [] => .next s

/-- COMPACTION_INSTALL (R245, R256, R258): one update; a failure found changes no sequence state. -/
def execCompactionInstall (die : Nat) (s : State) : Host.Outcome State Fault Refusal :=
  match s.headJob die with
  | none => .next s
  | some j =>
    if !j.built then .next s
    else
      let (s1, e) := if j.compact then s.installCompact j else s.installSeal j
      let s2 := s1.endJob die j
      match e with
      | none => .next (s2.finishCmd j.cmd 0)
      | some c =>
        match s2.cmd j.cmd with
        | some m => .next (s2.failKv m j.arena j.seqOff c)
        | none => .next s2

/-- SPILL_READBACK (R239): a spilled block is read and comes back into the carve-out; where that is full others leave. -/
def execSpillReadback (asid obj block : Nat) (s : State) : Host.Outcome State Fault Refusal :=
  match s.walkObj asid obj with
  | none => .next s
  | some e =>
    let k := bitsOf e 159 96
    if bitsOf e 83 82 ≠ 2 ∨ !(s.block k block).spilled then .next s else .next (s.readBlock k block)

/-! Issue (R240, R246, R248, R249). -/

/-- The check of a sequence capability (R240). -/
def State.seqCheck (s : State) (a : Nat) : Except Stop Unit := do
  let c := s.ra a
  capCheck 6 c [kARENA] [rKV] [] c.offset 64
  require (c.offset % 64 == 0) (limitTrap 6)

/-- Tag, kind and rights of a scratchpad operand of the issuing tile (R246, R249). -/
def State.scratchOperand (s : State) (a right : Nat) : Except Stop Unit := do
  let c := s.ra a
  require c.tag (slotTrap trapCAP_TAG 6 c.obj c.offset)
  require (c.kind == kSCRATCH && c.rights.getLsbD right && !s.otherScratch s.myTile s.me.sys.asid c.obj c.offset 1)
    (slotTrap trapCAP_RIGHTS 6 c.obj c.offset)

/-- FEATURE, then the sequence (R240, R246). -/
def checkKv (b : PumpBody) (s : State) : Except Stop Unit := do
  s.needFeature 2 6
  s.seqCheck b.areg0.toNat

/-- The check of KVAPPEND and KVSCORE. -/
def checkKvSource (b : PumpBody) (s : State) : Except Stop Unit := do
  checkKv b s
  s.scratchOperand b.areg1.toNat rPS

/-- The check of KVATTN (R248, R261). -/
def checkKvattn (b : PumpBody) (s : State) : Except Stop Unit := do
  checkKvSource b s
  s.handleCheck 6 b.handle.toNat
  require (decide (bitsOf b.aux 5 0 < (s.me.handle b.handle.toNat).count)) (cbTrap 6 b.handle.toNat)

/-- The check of KVSEAL, KVFREE, KVPIN and KVWIN. -/
def checkKvSg (b : PumpBody) (s : State) : Except Stop Unit := do
  checkKv b s
  s.sgCheck b

/-- The check of KVCOMPACT (R249, R257). -/
def checkKvcompact (b : PumpBody) (s : State) : Except Stop Unit := do
  s.needFeature 2 6
  s.descCheck b.areg0.toNat

/-- The check of KVFORK (R249). -/
def checkKvfork (b : PumpBody) (s : State) : Except Stop Unit := do
  checkKv b s
  s.seqCheck b.areg1.toNat

/-- The check of KVFORK.new (R249, R250). -/
def checkKvforkNew (b : PumpBody) (s : State) : Except Stop Unit := do
  checkKv b s
  let c := s.ra b.areg1.toNat
  capCheck 6 c [kGLOBAL] [rR] [] c.offset 64

/-- The check of KVSTAT (R248, R249): the 64 bytes of MODE 0 and 4 depend on nothing that resolution finds (R264). -/
def checkKvstat (b : PumpBody) (s : State) : Except Stop Unit := do
  checkKv b s
  s.scratchOperand b.areg1.toNat rPD
  let c := s.ra b.areg1.toNat
  if !(bitsOf b.aux 6 4 ∈ [1, 2, 3]) then capCheck 6 c [kSCRATCH] [rPD] [] c.offset 64
  if pumpHe b then s.handleCheck 6 b.handle.toNat

/-- A KV command posted through the commit stage (R246, R248). -/
def kvPost (i : Instr) (b : PumpBody) (s : State) : Except Stop State := s.post false (s.withSignal b (s.mkCmd i b))
/-- A KV command without SG. -/
def kvPostPlain (i : Instr) (b : PumpBody) (s : State) : Except Stop State := s.post false (s.mkCmd i b)

def execKvappend (g : Guard) (b : PumpBody) (s : State) : Host.Outcome State Fault Refusal :=
  atIssue (.kvappend g b) g (checkKvSource b) (kvPostPlain (.kvappend g b) b) s
def execKvattn (g : Guard) (b : PumpBody) (s : State) : Host.Outcome State Fault Refusal :=
  atIssue (.kvattn g b) g (checkKvattn b) (kvPostPlain (.kvattn g b) b) s
def execKvscore (g : Guard) (b : PumpBody) (s : State) : Host.Outcome State Fault Refusal :=
  atIssue (.kvscore g b) g (checkKvSource b) (kvPostPlain (.kvscore g b) b) s
def execKvseal (g : Guard) (b : PumpBody) (s : State) : Host.Outcome State Fault Refusal :=
  atIssue (.kvseal g b) g (checkKvSg b) (kvPost (.kvseal g b) b) s
def execKvcompact (g : Guard) (b : PumpBody) (s : State) : Host.Outcome State Fault Refusal :=
  atIssue (.kvcompact g b) g (checkKvcompact b) (kvPostPlain (.kvcompact g b) b) s
def execKvfork (g : Guard) (b : PumpBody) (s : State) : Host.Outcome State Fault Refusal :=
  atIssue (.kvfork g b) g (checkKvfork b) (kvPostPlain (.kvfork g b) b) s
def execKvforkNew (g : Guard) (b : PumpBody) (s : State) : Host.Outcome State Fault Refusal :=
  atIssue (.kvforkNew g b) g (checkKvforkNew b) (kvPostPlain (.kvforkNew g b) b) s
def execKvfree (g : Guard) (b : PumpBody) (s : State) : Host.Outcome State Fault Refusal :=
  atIssue (.kvfree g b) g (checkKvSg b) (kvPost (.kvfree g b) b) s
def execKvpin (g : Guard) (b : PumpBody) (s : State) : Host.Outcome State Fault Refusal :=
  atIssue (.kvpin g b) g (checkKvSg b) (kvPost (.kvpin g b) b) s
def execKvwin (g : Guard) (b : PumpBody) (s : State) : Host.Outcome State Fault Refusal :=
  atIssue (.kvwin g b) g (checkKvSg b) (kvPost (.kvwin g b) b) s
/-- KVSTAT runs as a scratchpad command (R248). -/
def execKvstat (g : Guard) (b : PumpBody) (s : State) : Host.Outcome State Fault Refusal :=
  atIssue (.kvstat g b) g (checkKvstat b) (fun s => s.post true (s.mkCmd (.kvstat g b) b)) s

/-! Resolution (R246). -/

/-- The capability of the command's sequence: AREG0, or KVCOMPACT's SEQ. -/
def PumpCmd.seqCap (m : PumpCmd) : Cap :=
  if m.opc = 11 then { bits := m.descBits.extractLsb' 0 128, tag := m.descTags.getD 0 false } else m.cap0

/-- The survivor list read by the pump port, after its descriptor (R300). -/
def State.readList (s : State) (m : PumpCmd) (lst : Cap) (n : Nat) : Except Stop (State × List Byte) :=
  if n = 0 then .ok (s, [])
  else do
    capCheck 6 lst [kSCRATCH] [rR] [] lst.offset (4 * n)
    let (s1, ps, _) ← s.pumpPort m lst [rR] [] lst.offset (4 * n)
    .ok (s1, s1.rdPieces ps)

/-- KVCOMPACT's descriptor read and checked by the pump port (R257, R300). -/
def State.readCompact (s : State) (m : PumpCmd) : Except Stop (State × PumpCmd) := do
  let (s1, bs, tags) ← s.rdDesc m m.cap0 [rR, rC] 64
  let m1 := { m with desc := bs, descTags := tags }
  let v := m1.descBits
  require (bitsOf v 511 417 == 0) (illegal 6 3 63)
  descCap m1.seqCap [kARENA] [rKV]
  let lst : Cap := { bits := v.extractLsb' 128 128, tag := tags.getD 1 false }
  descCap lst [kSCRATCH] [rR]
  require (!s1.otherScratch m.tile m.asid lst.obj lst.offset (4 * bitsOf v 415 384)) (slotTrap trapCAP_RIGHTS 6 lst.obj lst.offset)
  let sig : Cap := { bits := v.extractLsb' 256 128, tag := tags.getD 2 false }
  if v.getLsbD 416 then do
    descCap sig [kSIGNAL] [rW]
    require (sig.offset % 8 == 0) (limitTrap 6)
  .ok (s1, { m1 with signal := if v.getLsbD 416 then some sig else none })

/-- The survivor list of KVCOMPACT read, each element once (R257, R258). -/
def State.readSurvivors (s : State) (m : PumpCmd) : Except Stop (State × PumpCmd) := do
  let v := m.descBits
  let (s1, xs) ← s.readList m { bits := v.extractLsb' 128 128, tag := m.descTags.getD 1 false } (bitsOf v 415 384)
  .ok (s1, { m with source := xs })

/-- The arena and descriptor offset that a sequence capability leads to at the port (R230, R240, R353). -/
def State.seqHome (s : State) (m : PumpCmd) (c : Cap) : Except Stop (State × Nat × Nat) := do
  capCheck 6 c [kARENA] [rKV] [] c.offset 64
  require (c.offset % 64 == 0) (limitTrap 6)
  match s.lookObj m.tile m.asid c.obj with
  | none => .error (slotTrap trapCAP_BOUNDS 6 c.obj c.offset)
  | some e =>
    require (bitsOf e 87 84 == kARENA && bitsOf e 83 82 == 2 && (e.extractLsb' 88 8).getLsbD rKV)
      (slotTrap trapCAP_RIGHTS 6 c.obj c.offset)
    require (decide (c.offset + 64 ≤ bitsOf e 207 160)) (slotTrap trapCAP_BOUNDS 6 c.obj c.offset)
    .ok (s.fillObj m.tile m.asid c.obj e, bitsOf e 159 96, c.offset)

/-- Whether a sequence holds a command back (R246). -/
def Seq.holdsBack (q : Seq) (m : PumpCmd) : Bool :=
  (match q.waiting with | [] => false | w :: _ => w != m.id) || q.compacting ||
    (q.sealing && [10, 11, 12, 13, 14, 15].contains m.opc)

/-- The sequences of an arena that a command names: its own, and KVFORK's source (R246). -/
def kvNames (m : PumpCmd) (off : Nat) (src : Option Nat) : List Nat :=
  if m.opc = 12 then off :: src.toList else [off]

/-- Whether a command must wait at its sequences (R246, R255). -/
def State.kvWaits (s : State) (m : PumpCmd) (k off : Nat) (src : Option Nat) : Bool :=
  ((kvNames m off src).any fun o => (s.seq k o).holdsBack m) ||
    ([10, 11].contains m.opc && decide (16 ≤ (s.jobsOf (engineDie k off)).length))

/-- The command's effect at resolution. -/
def kvEffect (m : PumpCmd) (k off : Nat) (src : Option Nat) (s : State) : KvResult :=
  match m.opc with
  | 7 => kvAppend m k off s
  | 8 => kvAttn m k off s
  | 9 => kvScoreCmd m k off s
  | 10 => kvSeal m k off s
  | 11 => kvCompact m k off s
  | 12 => if pumpHe m.body then kvForkNew m k off s else kvFork m k off (src.getD off) s
  | 13 => kvFree k off s
  | 14 => kvPin (kvLo m) k off s
  | 15 => kvWinCmd (kvLo m) k off s
  | _ => kvStat m k off s

/-- A command resolves (R246, R247): it takes effect, fails with a code, or traps after issue. KVSEAL and KVCOMPACT
finish when their job is done. -/
def State.kvResolve (s : State) (m : PumpCmd) (k off : Nat) (src : Option Nat) : Except Stop State :=
  let s0 := (kvNames m off src).foldl (fun a o => a.modSeq k o fun q => { q with waiting := q.waiting.filter fun w => w != m.id })
    (s.setCmd { m with place := .resolved })
  match kvEffect m k off src s0 with
  | (s1, none) => .ok (if m.opc = 10 ∨ m.opc = 11 then s1 else s1.finishCmd m.id 0)
  | (s1, some (.code c)) => .ok (s1.failKv m k off c)
  | (s1, some (.stop e)) =>
    let s2 := if m.opc = 8 then s1.nanRecord m (s1.seq k off).desc else s1
    s2.failCmd true ((s2.cmd m.id).getD m) e

/-- A command accepted at its descriptor's home (R246): it waits there, or resolves. -/
def State.kvAccept (s : State) (m : PumpCmd) : Except Stop State :=
  match m.home with
  | some (k, off) => if s.kvWaits m k off none then .ok s else s.kvResolve m k off none
  | none => do
  let (s1, m1) ← (if m.opc = 11 ∧ m.place = .queued then s.readSurvivors m else .ok (s, m))
  let (s2, k, off) ← s1.seqHome m1 m1.seqCap
  let (s3, src) ← (if m1.opc = 12 ∧ !pumpHe m1.body then do
      let (x, k2, o) ← s2.seqHome m1 m1.cap1
      .ok (x, if k2 = k then some o else none)
    else .ok (s2, none))
  if s3.kvWaits m1 k off src then
    .ok ((kvNames m1 off src).foldl (fun a n => a.modSeq k n fun q =>
      if q.waiting.contains m1.id then q else { q with waiting := q.waiting ++ [m1.id] }) (s3.setCmd { m1 with place := .resolving }))
  else s3.kvResolve m1 k off src

/-- KV_COMMAND_RESOLVE (R246); a command that is not there, no KV command, or held back changes nothing. A stop before
it has resolved is the command's own. -/
def execKvCommandResolve (id : Nat) (s : State) : Host.Outcome State Fault Refusal :=
  match s.cmd id with
  | none => .next s
  | some m =>
    if m.finished || m.place == .resolved || s.notStarted m || !m.isKv || s.cmdBlocked m then .next s
    else match s.kvAccept m with
      | .ok s' => .next s'
      | .error e => finish s (s.failCmd true m e)

end Sys2Proof.Machine
end

