-- ==== Sys2Proof/Machine/Collective.lean ====
section
/-! DEFINITION. Collectives: groups, trees, combining, acceptance, chunks, recovery and COLSTAT:
spec/12_collectives.md R280 to R297, spec/15_program_fabric.md R301 to R303. Peers come in as the arguments of the
steps. -/

namespace Sys2Proof.Machine

/-! Descriptors and groups (R280, R292). -/

def colCount (v : BitVec 512) : Nat := bitsOf v 287 256
def colSeq (v : BitVec 512) : Nat := bitsOf v 319 288
def colAnchor (v : BitVec 512) : Int := (v.extractLsb' 320 16).toInt
def colGroup (v : BitVec 512) : Nat := bitsOf v 343 336
def colRoot (v : BitVec 512) : Nat := bitsOf v 349 344
def colType (v : BitVec 512) : Nat := bitsOf v 354 352
def colOp (v : BitVec 512) : Nat := bitsOf v 357 356
def colDst (v : BitVec 512) (tags : List Bool) : Cap := { bits := v.extractLsb' 0 128, tag := tags.getD 0 false }
def colSrc (v : BitVec 512) (tags : List Bool) : Cap := { bits := v.extractLsb' 128 128, tag := tags.getD 1 false }

/-- Bytes of an element of ITYPE (R292). -/
def colElem (v : BitVec 512) : Nat := match colType v with | 0 => 4 | 1 => 8 | 2 => 4 | 3 => 2 | _ => 1
/-- Whether the input is floating point, which travels as AFX64 (R286). -/
def colFloat (v : BitVec 512) : Bool := colType v == 2 || colType v == 3
/-- Bytes of a wire element (R286). -/
def colWire (v : BitVec 512) : Nat := if colFloat v then 8 else colElem v

/-- A group. -/
def State.group (s : State) (g : Nat) : Group := FMap.get {} s.eng.groups g
/-- A group changed. -/
def State.modGroup (s : State) (g : Nat) (f : Group → Group) : State :=
  { s with eng := { s.eng with groups := FMap.set {} s.eng.groups g (f (s.group g)) } }

def Group.pmask (x : Group) : BitVec 64 := x.entry.extractLsb' 128 64
/-- The participants, ascending (R280). -/
def membersOf (m : BitVec 64) : List Nat := (List.range 64).filter fun p => m.getLsbD p

/-- Bytes that the command writes here in all (R288). -/
def colOut (opc : Nat) (v : BitVec 512) (p : Nat) : Nat :=
  match opc with
  | 17 => colCount v * colElem v
  | 18 => colCount v / p * colElem v
  | 19 => colCount v * p
  | _ => colCount v

/-- A buffer of a collective: GLOBAL, or SCRATCH of the issuing tile (R292). -/
def State.colBuffer (s : State) (m : PumpCmd) (c : Cap) (r n : Nat) : Except Stop Unit := do
  require c.tag (slotTrap trapCAP_TAG 6 c.obj c.offset)
  require ([kGLOBAL, kSCRATCH].contains c.kind && !(c.kind == kSCRATCH && s.otherScratch m.tile m.asid c.obj c.offset n))
    (slotTrap trapCAP_RIGHTS 6 c.obj c.offset)
  capCheck 6 c [kGLOBAL, kSCRATCH] [r] [] c.offset n

/-- The descriptor read and checked by the pump port before the command is posted (R292, R301). -/
def State.readCol (s : State) (m : PumpCmd) : Except Stop (State × PumpCmd) := do
  let (s1, bs, tags) ← s.rdDesc m m.cap0 [rR, rC] 64
  let m1 := { m with desc := bs, descTags := tags }
  let v := m1.descBits
  let red := decide (m.opc ≤ 18)
  require (bitsOf v 511 358 == 0 && !v.getLsbD 355 && bitsOf v 351 350 == 0 && (red || colOp v == 0) &&
    (m.opc == 20 || colRoot v == 0) && (colFloat v || bitsOf v 335 320 == 0)) (illegal 6 3 63)
  require (colOp v != 3 && decide (colType v ≤ 4) && (if red then colType v != 4 else colType v == 4)) (illegal 6 5 63)
  let p := max 1 (membersOf (s1.group (colGroup v)).pmask).length
  s1.colBuffer m (colSrc v tags) rPS (colCount v * colElem v)
  s1.colBuffer m (colDst v tags) rPD (colOut m.opc v p)
  .ok (s1, m1)

/-- A collective command passed into its group's queue (R292, R293). -/
def State.colPass (s : State) (m : PumpCmd) : State :=
  (s.setCmd { m with place := .collective }).modGroup (colGroup m.descBits) fun x =>
    { x with waiting := x.waiting ++ [m.id] }

/-! Trees (R283 to R285). -/

/-- An edge: lower package, higher package, port on the lower. -/
abbrev Edge := Nat × Nat × Nat

/-- The other end of an edge at package u, if u is an end of it. -/
def Edge.other (e : Edge) (u : Nat) : Option Nat :=
  if e.1 = u then some e.2.1 else if e.2.1 = u then some e.1 else none

/-- E(V) among the participants, ascending (R283). -/
def edgesAmong (P : List Nat) (es : List Edge) : List Edge := es.filter fun e => P.contains e.1 && P.contains e.2.1

/-- Visit (R284): packages seen and edges taken; `fuel` bounds the depth. -/
def visit (es used : List Edge) : Nat → Nat → List Nat × List Edge → List Nat × List Edge
  | 0, _, st => st
  | fuel + 1, u, st =>
    es.foldl (fun st e =>
      match Edge.other e u with
      | some v => if used.contains e || st.1.contains v then st else visit es used fuel v (st.1 ++ [v], st.2 ++ [e])
      | none => st) st

/-- The edge-disjoint trees from number j on (R284): root and edges of each. -/
def disjointTrees (P : List Nat) (es : List Edge) : Nat → Nat → List Edge → List (Nat × List Edge)
  | 0, _, _ => []
  | n + 1, j, used =>
    let root := P.getD (j % P.length) 0
    let (seen, tree) := visit es used 65 root ([root], [])
    if seen.length = P.length then (root, tree) :: disjointTrees P es n (j + 1) (used ++ tree) else []

/-- The trees in use for a message of more than one chunk (R284): one empty tree for a single participant. -/
def edgeTrees (P : List Nat) (es : List Edge) : List (Nat × List Edge) :=
  if P.length = 1 then [(P.headD 0, [])] else disjointTrees P es 6 0 []

/-- One layer of a breadth-first walk: packages found, edges taken, next layer (R285). -/
def bfsLayer (es : List Edge) (layer : List Nat) (seen : List Nat) (tree : List Edge) : List Nat × List Edge × List Nat :=
  layer.foldl (fun st u =>
    es.foldl (fun (sn, tr, nx) e =>
      match Edge.other e u with
      | some v => if sn.contains v then (sn, tr, nx) else (sn ++ [v], tr ++ [e], nx ++ [v])
      | none => (sn, tr, nx)) st) (seen, tree, [])

/-- The breadth-first tree: packages reached, edges, eccentricity (R285). -/
def bfs (es : List Edge) : Nat → List Nat → List Nat → List Edge → Nat → List Nat × List Edge × Nat
  | 0, _, seen, tree, d => (seen, tree, d)
  | fuel + 1, layer, seen, tree, d =>
    let (sn, tr, nx) := bfsLayer es layer seen tree
    if nx.isEmpty then (sn, tr, d) else bfs es fuel nx sn tr (d + 1)

/-- The latency tree (R285): root and edges; none where some participant is unreachable. -/
def latencyTree (P : List Nat) (es : List Edge) : Option (Nat × List Edge) :=
  let all := P.map fun r => (r, bfs es 65 [r] [r] [] 0)
  if all.all fun (_, sn, _, _) => sn.length == P.length then
    (all.foldl (fun best (r, _, tr, d) =>
      match best with
      | none => some (d, r, tr)
      | some (d0, r0, t0) => if d < d0 then some (d, r, tr) else some (d0, r0, t0)) none).map fun (_, r, tr) => (r, tr)
  else none

/-! Combining (R287). -/

/-- The codes that stand for NaN and the infinities among 64-bit wire elements. -/
def wireNan : Int := 2 ^ 63 - 1
def wirePinf : Int := 2 ^ 63 - 2
def wireNinf : Int := 2 ^ 63 - 3

/-- The format of a floating-point input. -/
def colFmt (v : BitVec 512) : FpFmt := if colType v = 2 then fp32 else bf16

/-- The wire element of an input element, as a signed integer, and whether it was clamped. -/
def toWire (v : BitVec 512) (c : Nat) : Int × Bool :=
  if colFloat v then
    match decodeFp (colFmt v) c with
    | .nan _ => (wireNan, false)
    | .inf neg => (if neg then wireNinf else wirePinf, false)
    | x =>
      let g := x.dy.roundToGrid (colAnchor v)
      if 2 ^ 57 - 1 < g then (2 ^ 57 - 1, true) else if g < -2 ^ 57 then (-2 ^ 57, true) else (g, false)
  else (intOfBits true (8 * colElem v) c, false)

/-- Two wire elements combined. -/
def combine (v : BitVec 512) (a b : Int) : Int :=
  let special (x : Int) : Bool := colFloat v && decide (wireNinf ≤ x)
  let plain := match colOp v with
    | 0 => a + b
    | 1 => min a b
    | _ => max a b
  if special a || special b then
    (if a = wireNan ∨ b = wireNan ∨ (special a && special b && a != b) then wireNan else if special a then a else b)
  else plain

/-- The output element of a combined value, and whether it is out of range. -/
def fromWire (v : BitVec 512) (x : Int) : Nat × Bool :=
  if colFloat v then
    if x = wireNan then ((colFmt v).nanBits, false)
    else if x = wirePinf then ((colFmt v).infBits false, false)
    else if x = wireNinf then ((colFmt v).infBits true, false)
    else
      let (c, fl) := encodeFp (colFmt v) .rne false ({ m := x, e := colAnchor v } : Dy).toQ
      (c, fl &&& flagOVF != 0)
  else ((x % 2 ^ (8 * colElem v)).toNat, false)

/-- One output element from the contributions. -/
def reduceElem (v : BitVec 512) (xs : List Int) : Nat × Bool :=
  match xs with
  | [] => (0, false)
  | x :: rest => fromWire v (rest.foldl (combine v) x)

/-- Wire bytes as elements. -/
def wireElems (v : BitVec 512) (bs : List Byte) : List Int :=
  (elems (8 * colWire v) (bs.length / colWire v) (leNat bs)).map fun c => intOfBits true (8 * colWire v) c

/-- Input bytes as wire elements, and whether any was clamped. -/
def inputElems (v : BitVec 512) (bs : List Byte) : List Int × Bool :=
  let xs := (elems (8 * colElem v) (bs.length / colElem v) (leNat bs)).map (toWire v)
  (xs.map Prod.fst, xs.any Prod.snd)

/-- Wire elements as bytes. -/
def wireBytes (v : BitVec 512) (xs : List Int) : List Byte :=
  xs.flatMap fun x => leBytes (colWire v) (x % 2 ^ (8 * colWire v)).toNat

/-! The control block and its record (R281, R297). -/

/-- The 64-byte record (R297). -/
def Coll.record (x : Coll) : Nat :=
  x.tdone % 2 ^ 64 * 2 ^ 448 + x.tacc % 2 ^ 64 * 2 ^ 384 + x.pmask.toNat * 2 ^ 320 + x.seq % 2 ^ 32 * 2 ^ 288 +
    x.version % 2 ^ 32 * 2 ^ 256 + x.nchunk % 2 ^ 32 * 2 ^ 224 + x.bcast.length % 2 ^ 32 * 2 ^ 192 +
    min x.redos (2 ^ 32 - 1) * 2 ^ 160 + x.err % 16 * 2 ^ 12 + x.trees % 8 * 2 ^ 9 + x.lat.toNat * 2 ^ 8 +
    x.ovf.toNat * 2 ^ 7 + x.accepted.toNat * 2 ^ 6 + x.state % 8

/-- The progress bits (R281). -/
def Coll.progress (x : Coll) : Nat :=
  (List.range x.nchunk).foldl (fun n c =>
    n + ((x.reduced.contains c).toNat + 2 * (x.bcast.contains c).toNat) * 4 ^ c) 0

/-- Bytes written into the group's control block, an object of the command's address space; none where it cannot be
reached. DEDUCED: notes/assumptions/49.md. -/
def State.wrCcb (s : State) (g : Nat) (x : Coll) (off : Nat) (bs : List Byte) : Option State :=
  match s.translate x.tile x.asid 6 (bitsOf (s.group g).entry 127 108) kGLOBAL [] [] off bs.length with
  | .ok (s1, ps, ds) => some (s1.performStore ds (cellsOf ps bs))
  | .error _ => none

/-- A collective of a group replaced, with its header and progress bits in the control block (R281). -/
def State.setColl (s : State) (g : Nat) (x : Coll) : State :=
  let s1 := s.modGroup g fun y => { y with colls := y.colls.map fun z => if z.cmd = x.cmd then x else z }
  (s1.wrCcb g x 0 (leBytes 256 x.record ++ leBytes ((x.nchunk + 3) / 4) x.progress)).getD s1

/-- The collective of a group that is under way. -/
def Group.live (x : Group) : Option Coll := x.colls.find? fun c => c.state == 1 || c.state == 2

/-- A collective ends (R294): `err` 0 is completion; DISCONNECTED gives STATUS 6. -/
def State.endColl (s : State) (g : Nat) (x : Coll) (err : Nat) : State :=
  (s.setColl g { x with state := if err = 0 then 3 else 4, err := err, tdone := s.ns }).finishCmd x.cmd
    (if err = 0 then 0 else if err = 4 then 6 else 2)

def colGROUP : Nat := 1
def colSEQ : Nat := 2
def colPARAM : Nat := 3
def colDISC : Nat := 4
def colTIMEOUT : Nat := 5
def colFAULT : Nat := 6

/-! Acceptance (R293). -/

/-- Why a command is not accepted. DEDUCED: notes/assumptions/49.md. -/
def State.colRefused (s : State) (m : PumpCmd) : Option Nat :=
  let v := m.descBits
  let x := s.group (colGroup v)
  if !x.entry.getLsbD 0 || !x.pmask.getLsbD s.net.pkg || (m.opc == 20 && !x.pmask.getLsbD (colRoot v)) then some colGROUP
  else if colSeq v ≠ bitsOf x.entry 223 192 then some colSEQ
  else if bitsOf x.entry 95 64 * 4096 < 20480 + colCount v * colWire v then some colPARAM
  else none

/-- The input bytes read at acceptance: none where this package is not the source of a broadcast (R288).
DEDUCED: notes/assumptions/49.md. -/
def State.colInput (s : State) (m : PumpCmd) : Except Stop (State × List Byte) :=
  let v := m.descBits
  let c := colSrc v m.descTags
  let n := colCount v * colElem v
  if n = 0 ∨ (m.opc = 20 ∧ colRoot v ≠ s.net.pkg) then .ok (s, [])
  else do
    let (s1, ps, _) ← s.pumpPort m c [rPS] [] c.offset n
    let bs ← s1.rdPump ps
    .ok (s1, bs)

/-- What a memory error of a collective leaves beside its end: a bad page marked (R378), a regeneration asked for (R359). -/
def State.colFailed (s : State) (asid : Nat) : Stop → State
  | .trap t =>
    let s1 := match t.bad with
      | some (u, p) => s.markBad u p
      | none => s
    if t.code = trapPAGE_REGEN then s1.requestRegen asid t.obj t.off else s1
  | .fault _ => s

/-- The head of a group's queue is accepted or ends (R293); with W = 0 it completes at once (R286).
DEDUCED: notes/assumptions/49.md. -/
def State.colAccept (s : State) (g : Nat) (m : PumpCmd) : State :=
  let v := m.descBits
  let x0 : Coll := { seq := colSeq v, cmd := m.id, kind := m.opc, desc := m.desc, asid := m.asid, tile := m.tile,
                     dst := colDst v m.descTags, state := 1, pmask := (s.group g).pmask, acceptedAt := s.now }
  let s1 := s.modGroup g fun y => { y with waiting := y.waiting.tail, colls := (y.colls ++ [x0]) }
  match s1.colRefused m with
  | some e => s1.endColl g x0 e
  | none =>
    match s1.colInput m with
    | .error e => (s1.colFailed m.asid e).endColl g x0 colFAULT
    | .ok (s2, bs) =>
      let (xs, clamped) := inputElems v bs
      let x := { x0 with accepted := true, staged := wireBytes v xs, ovf := clamped }
      let s3 := (s2.setCmd { m with place := .accepted }).modGroup g fun y =>
        { y with entry := setBits y.entry 192 32 (bitsOf y.entry 223 192 + 1) }
      match s3.wrCcb g x 20480 x.staged with
      | none => s3.endColl g x colFAULT
      | some s4 => if colCount v = 0 then s4.endColl g { x with tacc := s4.ns } 0 else s4.setColl g x

/-- Another participant's acceptance becomes known here. -/
def State.peerAccepts (s : State) (g : Nat) (a : PeerAccept) : State :=
  if (s.group g).pmask.getLsbD a.pkg ∧ a.pkg ≠ s.net.pkg then s.modGroup g fun y => { y with peers := y.peers ++ [a] } else s

/-- COLLECTIVE_ACCEPT (R293): a group runs its collectives one at a time; or another participant has accepted. -/
def execCollectiveAccept (news : AcceptNews) (s : State) : Host.Outcome State Fault Refusal :=
  let g := news.group
  match news.peer with
  | some a => s.whenUp (.next (s.peerAccepts g a))
  | none =>
    match (s.group g).waiting.head?.bind s.cmd with
    | none => .next s
    | some m => if (s.group g).live.isSome || s.cmdBlocked { m with place := .queued } then .next s else .next (s.colAccept g m)

/-! Agreement, chunks, recovery (R283, R286, R288 to R290). -/

/-- A collective's descriptor. -/
def Coll.v (x : Coll) : BitVec 512 := BitVec.ofNat 512 (leNat x.desc)

/-- The wire size W (R286). -/
def Coll.wire (x : Coll) : Nat :=
  match x.kind with
  | 17 => colCount x.v * colWire x.v
  | 18 => colCount x.v * colWire x.v
  | 19 => colCount x.v * (membersOf x.pmask).length
  | _ => colCount x.v

/-- The link set of a version that is kept (R282). -/
def State.linkSet (s : State) (v : Nat) : Option LinkSet := s.net.sets.find? fun x => x.version == v

/-- The trees of a collective at a link version, with VERSION, LAT and T of that derivation (R284, R285, R302); none in use:
DISCONNECTED. -/
def Coll.derive (x : Coll) (set : LinkSet) : Coll :=
  let P := membersOf x.pmask
  let es := edgesAmong P set.edges
  let y := { x with version := set.version, broken := [] }
  if x.wire ≤ 4096 then
    match latencyTree P es with
    | some (r, tr) => { y with lat := true, trees := 0, roots := [r], edges := [tr] }
    | none => { y with lat := true, trees := 0, roots := [], edges := [] }
  else
    let ts := edgeTrees P es
    { y with lat := false, trees := ts.length, roots := ts.map Prod.fst, edges := ts.map Prod.snd }

/-- When another participant accepted this collective, in ns, as far as is known here. -/
def Group.acceptOf (y : Group) (x : Coll) (p : Nat) : Option Nat :=
  (y.peers.find? fun a => a.pkg == p && a.seq == x.seq).map fun a => a.time

/-- The time at which every participant had accepted; none while one has not (R295, R297). -/
def State.allAccepted (s : State) (g : Nat) (x : Coll) : Option Nat :=
  ((membersOf x.pmask).mapM fun p => if p = s.net.pkg then some (x.acceptedAt / 65536) else (s.group g).acceptOf x p).map fun ts =>
    ts.foldl max 0

/-- The highest retained link set that every participant holds and in which no strait of a list is UP (R283, R290); `held` gives,
by rank, the versions that the other participants hold. -/
def State.agreed (s : State) (x : Coll) (held : List (List Nat)) (down : List Edge) : Option LinkSet :=
  let fit := s.net.sets.filter fun set => (down.all fun e => !set.edges.contains e) &&
    (membersOf x.pmask).zipIdx.all fun (p, r) => p == s.net.pkg || (held.getD r []).contains set.version
  fit.foldl (fun best set => match best with
    | none => some set
    | some b => if b.version < set.version then some set else some b) none

/-- Every participant has accepted, and the engines agree on a version (R283, R288, R293). -/
def State.colStart (s : State) (g : Nat) (x : Coll) (tacc : Nat) (set : LinkSet) (same : Bool) : State :=
  let y := { x with tacc := tacc }
  let p := (membersOf x.pmask).length
  if !same || (x.kind == 18 && colCount x.v % p != 0) || decide (2 ^ 28 < x.wire) then s.endColl g y colPARAM
  else
    let z := { y with nchunk := (x.wire + 4095) / 4096 }.derive set
    if z.roots.isEmpty then s.endColl g z colDISC else s.setColl g { z with state := 2 }

/-- VERSION_AGREEMENT (R283): once every participant has accepted, the highest version that all hold; `same` tells whether
the participants' parameters agree. DEDUCED: notes/assumptions/49.md. -/
def execVersionAgreement (g : Nat) (held : List (List Nat)) (same : Bool) (s : State) : Host.Outcome State Fault Refusal :=
  match (s.group g).live with
  | none => .next s
  | some x =>
    match s.allAccepted g x, s.agreed x held [] with
    | some t, some set => if x.state = 1 then .next (s.colStart g x t set same) else .next s
    | _, _ => .next s

/-- The elements, or for COLAG and COLBC the bytes, of a chunk (R286). -/
def Coll.range (x : Coll) (c : Nat) : Nat × Nat :=
  let k := 4096 / colWire x.v
  (c * k, min ((c + 1) * k) (x.wire / colWire x.v))

/-- The input elements that a participant of rank r brings to a chunk: from `own` of the whole input. -/
def Coll.share (x : Coll) (r c : Nat) : Nat × Nat :=
  let (lo, hi) := x.range c
  if x.kind = 19 then
    let n := colCount x.v
    (max lo (r * n) - r * n, min hi ((r + 1) * n) - r * n)
  else if x.kind = 20 ∧ (membersOf x.pmask).getD r 64 ≠ colRoot x.v then (lo, lo)
  else (lo, hi)

/-- The contribution of each rank to a chunk as wire elements, and whether any was clamped: this package's as staged,
the others' from the input bytes given. -/
def Coll.contributions (x : Coll) (pkg c : Nat) (given : List (List Byte)) : List (List Int) × Bool :=
  let xs := (membersOf x.pmask).zipIdx.map fun (p, r) =>
    let (lo, hi) := x.share r c
    if p = pkg then (((wireElems x.v x.staged).drop lo).take (hi - lo), false)
    else inputElems x.v ((given.getD r []).take ((hi - lo) * colElem x.v))
  (xs.map Prod.fst, xs.any Prod.snd)

/-- Whether what is given has the sizes that the chunk takes. -/
def Coll.sizesOk (x : Coll) (pkg c : Nat) (given : List (List Byte)) : Bool :=
  (membersOf x.pmask).zipIdx.all fun (p, r) =>
    p == pkg || (given.getD r []).length == ((x.share r c).2 - (x.share r c).1) * colElem x.v

/-- The output elements of a chunk, and OVF (R287, R288). -/
def Coll.output (x : Coll) (c : Nat) (xs : List (List Int)) : List Nat × Bool :=
  if x.kind ≤ 18 then
    let (lo, hi) := x.range c
    let os := (List.range (hi - lo)).map fun i => reduceElem x.v (xs.map fun l => l.getD i 0)
    (os.map Prod.fst, os.any Prod.snd)
  else (xs.flatten.map fun b => (b % 256).toNat, false)

/-- The part of a chunk that this participant's DST receives: first element of the chunk, number, byte offset (R288). -/
def Coll.dstPart (x : Coll) (pkg c : Nat) : Nat × Nat × Nat :=
  let (lo, hi) := x.range c
  let P := membersOf x.pmask
  if x.kind = 18 then
    let n := colCount x.v / P.length
    let r := P.findIdx fun p => p == pkg
    let a := max lo (r * n)
    let b := min hi ((r + 1) * n)
    (a - lo, b - a, (a - r * n) * colElem x.v)
  else (0, hi - lo, lo * colElem x.v)

/-- The number of the tree that carries a chunk (R286). -/
def Coll.treeOf (x : Coll) (c : Nat) : Nat := if x.lat then 0 else c % max 1 x.trees
/-- The root of the tree that carries a chunk. -/
def Coll.rootOf (x : Coll) (c : Nat) : Nat := x.roots.getD (x.treeOf c) 0

/-- Whether a chunk is the next of its tree: every lower one of that tree has been written here (R428). -/
def Coll.inTurn (x : Coll) (c : Nat) : Bool :=
  (List.range c).all fun d => x.treeOf d != x.treeOf c || x.written.contains d

/-- A reduced chunk reaches this participant, which writes it to DST (R288). -/
def State.colChunk (s : State) (g : Nat) (x : Coll) (c : Nat) (given : List (List Byte)) : State :=
  let (xs, clamped) := x.contributions s.net.pkg c given
  let (vals, ovr) := x.output c xs
  let (a, n, off) := x.dstPart s.net.pkg c
  let y := { x with ovf := x.ovf || clamped || ovr, written := c :: x.written,
                    reduced := if x.rootOf c = s.net.pkg then c :: x.reduced else x.reduced }
  let bs := ((vals.drop a).take n).flatMap (leBytes (colElem x.v))
  if bs.isEmpty then s.setColl g y
  else match s.translate x.tile x.asid 6 x.dst.obj x.dst.kind [rPD] [] (x.dst.offset + off) bs.length with
    | .ok (s1, ps, ds) => (s1.performStore ds (cellsOf ps bs)).setColl g y
    | .error e => (s.colFailed x.asid e).endColl g x colFAULT

/-- CHUNK_REDUCED (R287, R288, R290, R428): `given` holds, by rank, the input elements that the other participants bring to
the chunk; none: one of them met a memory or well error (R297). Nothing moves on trees that have lost a strait. -/
def execChunkReduced (g c : Nat) (given : Option (List (List Byte))) (s : State) : Host.Outcome State Fault Refusal :=
  match (s.group g).live with
  | none => .next s
  | some x =>
    if x.state = 2 ∧ x.broken = [] ∧ c < x.nchunk ∧ !x.written.contains c ∧ x.inTurn c then
      (match given with
        | none => .next (s.endColl g x colFAULT)
        | some bs => if x.sizesOk s.net.pkg c bs then .next (s.colChunk g x c bs) else .next s)
    else .next s

/-- CHUNK_BROADCAST_COMPLETE (R288, R289): the last one completes the collective. -/
def execChunkBroadcastComplete (g c : Nat) (s : State) : Host.Outcome State Fault Refusal :=
  match (s.group g).live with
  | none => .next s
  | some x =>
    if x.state = 2 ∧ x.broken = [] ∧ x.written.contains c ∧ !x.bcast.contains c then
      let y := { x with bcast := c :: x.bcast }
      .next (if y.bcast.length = y.nchunk then s.endColl g y 0 else s.setColl g y)
    else .next s

/-- COLLECTIVE_RECOVERY (R290, R302, R303): straits of its trees have gone DOWN, and the engines agree on `version`;
`unfinished` are the chunks whose BCAST is clear at some other participant. Each failure starts recovery again, and its redo
set counts. DEDUCED: notes/assumptions/49.md. -/
def execCollectiveRecovery (g version : Nat) (held : List (List Nat)) (unfinished : List Nat) (s : State) :
    Host.Outcome State Fault Refusal :=
  match (s.group g).live with
  | none => .next s
  | some x =>
    if x.state = 2 ∧ x.broken ≠ [] then
      (match (s.agreed x held x.broken).filter fun set => set.version == version with
        | none => .next s
        | some set =>
          let redo := (List.range x.nchunk).filter fun c => unfinished.contains c || !x.bcast.contains c
          let y := { x.derive set with redos := min (x.redos + x.broken.length * redo.length) (2 ^ 32 - 1) }
          if y.roots.isEmpty then .next (s.endColl g y colDISC)
          else .next (s.setColl g { y with reduced := x.reduced.filter fun c => !redo.contains c,
                                           written := x.written.filter fun c => !redo.contains c }))
    else .next s

/-- COLLECTIVE_TIMEOUT (R295): WAITLIM has passed since acceptance here and some participant has not accepted; or it has
passed at another participant, which tells of its package and SEQ. -/
def execCollectiveTimeout (news : TimeoutNews) (s : State) : Host.Outcome State Fault Refusal :=
  let g := news.group
  match (s.group g).live with
  | none => .next s
  | some x =>
    let lim := bitsOf (s.group g).entry 255 224
    let due := match news.peer with
      | some (p, seq) => x.pmask.getLsbD p && p != s.net.pkg && seq == x.seq
      | none => lim != 0 && decide (x.acceptedAt + lim * 65536000 ≤ s.now)
    if x.state = 1 ∧ due = true ∧ (s.allAccepted g x).isNone then .next (s.endColl g x colTIMEOUT) else .next s

/-! Issue (R291, R297). -/

/-- The check of COLAR, COLRS, COLAG and COLBC (R291). -/
def checkCol (b : PumpBody) (s : State) : Except Stop Unit := do
  s.needFeature 4 6
  s.descCheck b.areg0.toNat
  s.sgCheck b

def execColar (g : Guard) (b : PumpBody) (s : State) : Host.Outcome State Fault Refusal :=
  atIssue (.colar g b) g (checkCol b) (kvPost (.colar g b) b) s
def execColrs (g : Guard) (b : PumpBody) (s : State) : Host.Outcome State Fault Refusal :=
  atIssue (.colrs g b) g (checkCol b) (kvPost (.colrs g b) b) s
def execColag (g : Guard) (b : PumpBody) (s : State) : Host.Outcome State Fault Refusal :=
  atIssue (.colag g b) g (checkCol b) (kvPost (.colag g b) b) s
def execColbc (g : Guard) (b : PumpBody) (s : State) : Host.Outcome State Fault Refusal :=
  atIssue (.colbc g b) g (checkCol b) (kvPost (.colbc g b) b) s

/-- The check of COLSTAT (R297). -/
def checkColstat (b : PumpBody) (s : State) : Except Stop Unit := do
  s.needFeature 4 6
  s.scratchOperand b.areg0.toNat rPD

/-- COLSTAT (R297): a scratchpad command. -/
def execColstat (g : Guard) (b : PumpBody) (s : State) : Host.Outcome State Fault Refusal :=
  atIssue (.colstat g b) g (checkColstat b) (fun s => s.post true (s.mkCmd (.colstat g b) b)) s

/-- The collective that COLSTAT reports: the one of lowest SEQ that is not complete, else the last (R297). -/
def Group.reported (x : Group) : Option Coll :=
  if x.colls.any fun c => c.accepted then (match x.live with | some c => some c | none => x.colls.getLast?) else none

/-- Bytes written for a status command into its scratchpad destination of 64 bytes (R264, R275, R297). -/
def State.statWrite (s : State) (m : PumpCmd) (bs : List Byte) : Except Stop State := do
  capCheck 6 m.cap0 [kSCRATCH] [rPD] [] m.cap0.offset 64
  let (s1, ps, _) ← s.pumpPort m m.cap0 [rPD] [] m.cap0.offset bs.length
  let (s2, m2) := s1.deliverPieces m false true ps bs
  .ok (s2.setCmd { m2 with place := .started, finished := true })

/-- COLSTAT at the collective engine (R297); of a group that never accepted a command only STATE 0 is written, the lowest byte.
DEDUCED: notes/assumptions/49.md. -/
def State.colstat (s : State) (m : PumpCmd) : Except Stop State :=
  let bs := match (s.group (bitsOf m.s0 7 0)).reported with
    | some x => leBytes 64 x.record
    | none => [0]
  match s.statWrite m bs with
  | .ok s' => .ok s'
  | .error e => s.failCmd true m e

end Sys2Proof.Machine
end

