-- ==== Sys2Proof/WellFormed.lean ====
section
/-! DEFINITION. Which instructions are well formed: the slot serves the operation's class (R69), the fields are those
of the row of spec/opcode_table.json (where the table splits an opcode), and no encoding check of R84 but that of the
window fails. -/

namespace Sys2Proof

/-- The slot of a slot operation serves its class (R69). -/
def slotMatches (i : Instr) : Bool :=
  match Machine.slotFields i with
  | some f => decide (Machine.slotClass f.g.slot.toNat = f.cls)
  | none => true

/-- The destination index of a scalar body (R76). -/
def scalarRd : ScalarBody → Nat
  | .sr rd _ _ _ => rd.toNat
  | .si rd _ _ _ => rd.toNat

/-- The field by which the table splits an opcode holds the row's value: SRW by its register index (R15, R112, R116),
TIDSTEP by AUX[16] (R158), KVFORK by NEW (R249), CBADV by DIR and LAUNCH by NB (R211). -/
def rowMatches : Instr → Bool
  | .srw _ b => scalarRd b != 7 && scalarRd b != 6
  | .srWinWrite _ b => scalarRd b == 7
  | .srPrivWrite _ b => scalarRd b == 6
  | .tidstep _ b => !b.aux.getLsbD 16
  | .tidstepSet _ b => b.aux.getLsbD 16
  | .kvfork _ b => !b.aux.getLsbD 0
  | .kvforkNew _ b => b.aux.getLsbD 0
  | .cbadvProduce _ b => !b.getLsbD 7
  | .cbadvConsume _ b => b.getLsbD 7
  | .launch _ b => !b.getLsbD 4
  | .launchNb _ b => b.getLsbD 4
  | _ => true

/-- Well formed: the right slot, the right row, and no encoding check of R84 fails. -/
def wellFormed (i : Instr) : Bool :=
  slotMatches i && rowMatches i && (Machine.encodingFault none i).isNone

end Sys2Proof
end

