-- ==== Sys2Proof/Decode.lean ====
section
/-! DEFINITION. Decoding of slot words and bundles (R68 to R71, R83), total on any bits, and the encoder written from
the same tables. Reserved codes inside a body are no failure of decoding: R84 makes them traps at issue
(`Machine.encodingFault`). -/

namespace Sys2Proof

/-- Why a slot word is no operation of the table. -/
inductive DecodeError where
  /-- The opcode is unassigned in the slot's class (R83). -/
  | unassignedOpcode (opc : Nat)
deriving DecidableEq, Repr

/-- The common fields of a slot word (R71). -/
def decodeGuard (slot : Nat) (dup : Bool) (x : SlotWord) : Guard :=
  { slot := BitVec.ofNat 3 slot, pn := x.getLsbD 51, pred := x.extractLsb' 47 4, dup := dup }

/-- The operation that slot `slot` holds as word `x`; `dup`: its bit of the duplicate map (R318). -/
def decodeSlot (slot : Nat) (dup : Bool) (x : SlotWord) : Except DecodeError Instr :=
  let g := decodeGuard slot dup x
  let opc := (x.extractLsb' 52 8).toNat
  let body := x.extractLsb' 0 47
  let r := match Machine.slotClass slot with
    | .scalar => Machine.decodeScalar g body opc
    | .vector => Machine.decodeVector g body opc
    | .matrix => Machine.decodeMatrix g body opc
    | .load => Machine.decodeLoad g body opc
    | .store => Machine.decodeStore g body opc
    | .pump => Machine.decodePump g body opc
    | .sync => Machine.decodeSync g body opc
  match r with
  | some i => .ok i
  | none => .error (.unassignedOpcode opc)

/-- The slot word of a slot operation (R71, R83); none for the steps that are no slot operation. -/
def encode (i : Instr) : Option SlotWord :=
  (Machine.slotFields i).map fun f => Machine.packSlot f.opc f.g f.body

/-- The header of a bundle (R68). -/
structure Header where
  ver : BitVec 8
  reserved : BitVec 13
  rc : Bool
  rb : Bool
  pp : Bool
  occ : BitVec 8
deriving DecidableEq, Repr

/-- The header bits [31:0] of a bundle (R68). -/
def decodeHeader (w : BitVec 512) : Header :=
  { ver := w.extractLsb' 24 8, reserved := w.extractLsb' 11 13, rc := w.getLsbD 10, rb := w.getLsbD 9,
    pp := w.getLsbD 8, occ := w.extractLsb' 0 8 }

/-- The slot word of slot `n`: bits [32 + 60n + 59 : 32 + 60n] (R69). -/
def slotWord (w : BitVec 512) (n : Nat) : SlotWord := w.extractLsb' (32 + 60 * n) 60

/-- Whether slot `n` is occupied (R68). -/
def occupied (w : BitVec 512) (n : Nat) : Bool := w.getLsbD n

/-- Whether the bundle traps ILLEGAL_BUNDLE: the version, the reserved header bits, an unoccupied slot holding a 1
(R70). -/
def illegalBundle (w : BitVec 512) : Bool :=
  let h := decodeHeader w
  h.ver != 1 || h.reserved != 0 || (List.range 8).any fun n => !occupied w n && slotWord w n != 0

/-- The occupied slots of a bundle in ascending order, each decoded; `dups`: the bundle's byte of the duplicate map. -/
def decodeBundle (w : BitVec 512) (dups : BitVec 8) : List (Nat × Except DecodeError Instr) :=
  ((List.range 8).filter (occupied w)).map fun n => (n, decodeSlot n (dups.getLsbD n) (slotWord w n))

/-- The 512 bits of 64 bytes, the first byte lowest (R3, R68). -/
def bundleOfBytes (bs : List Byte) : BitVec 512 :=
  BitVec.ofNat 512 (bs.foldr (fun b acc => b.toNat + 256 * acc) 0)

/-- The bytes of a bundle, lowest first (R3). -/
def bytesOfBundle (w : BitVec 512) : List Byte := (List.range 64).map fun k => w.extractLsb' (8 * k) 8

/-- A bundle that holds one slot word in slot `n` and nothing else. -/
def bundleOfSlot (n : Nat) (x : SlotWord) : BitVec 512 :=
  BitVec.ofNat 512 (0x01000000 + 2 ^ n + x.toNat * 2 ^ (32 + 60 * n))

/-- The instruction of a bundle whose bits are `w`: the operation of its lowest occupied slot, or, with no slot
occupied, the header bit it sets; none where the bundle is illegal or the opcode unassigned.
The table gives its rows no bits, so the word is a whole bundle, bit 0 the least significant bit of its header. -/
def decodeTableWord (_nbits w : Nat) : Option Instr :=
  let b := BitVec.ofNat 512 w
  if illegalBundle b then none
  else match decodeBundle b 0 with
    | (_, .ok i) :: _ => some i
    | (_, .error _) :: _ => none
    | [] =>
      let h := decodeHeader b
      if h.rb then some .regionBegin else if h.rc then some .regionCommit
      else if h.pp then some .preemptionPoint else none

end Sys2Proof
end

