-- ==== Sys2Proof/Machine/WellJournal.lean ====
section
/-! DEFINITION. The well journal: spec/20_normally_off.md R378 to R385, spec/21_programs_system.md R387 to R389. A posted
WJ command runs at the tile's well controller with PUMP_DELIVERY: one step passes it to the controller; each later one
runs a unit or several of WJWRITE, or one unit write of another command (R387, R388). -/

namespace Sys2Proof.Machine

/-- Whether a command is a well-journal command. -/
def PumpCmd.isWj (m : PumpCmd) : Bool := decide (24 ≤ m.opc) && decide (m.opc ≤ 28)

/-! Issue (R383). -/

/-- FEATURE and SUP (R383). -/
def checkWjPriv (s : State) : Except Stop Unit := do
  s.needFeature 5 6
  require s.me.sys.sup (slotTrap trapCAP_RIGHTS 6 0 0)

/-- A scratchpad operand of the issuing tile over n bytes (R383). -/
def State.wjRange (s : State) (a right n : Nat) : Except Stop Unit := do
  let c := s.ra a
  capCheck 6 c [kSCRATCH] [right] [] c.offset n
  require (!s.otherScratch s.myTile s.me.sys.asid c.obj c.offset n) (slotTrap trapCAP_RIGHTS 6 c.obj c.offset)

/-- The check of WJOPEN, WJCOMMIT and WJABORT. -/
def checkWj (b : PumpBody) (s : State) : Except Stop Unit := do
  checkWjPriv s
  s.sgCheck b

/-- The check of WJWRITE. -/
def checkWjwrite (b : PumpBody) (s : State) : Except Stop Unit := do
  checkWjPriv s
  let n := (s.rs b.s1).toNat
  s.wjRange b.areg0.toNat rPS n
  require ((s.rs b.s0).toNat % 64 == 0 && n % 64 == 0 && decide (64 ≤ n) && decide (n ≤ 65536)) (limitTrap 6)
  s.sgCheck b

/-- The check of WJSTAT. DEDUCED: notes/assumptions/15.md. -/
def checkWjstat (b : PumpBody) (s : State) : Except Stop Unit := do
  checkWjPriv s
  require (decide (bitsOf b.aux 5 4 < 2)) (illegal 6 5 4)
  s.wjRange b.areg0.toNat rPD 64

/-- WJOPEN, WJWRITE, WJCOMMIT, WJABORT and WJSTAT are posted; all but WJSTAT are held by an open region (R384). -/
def execWjopen (g : Guard) (b : PumpBody) (s : State) : Host.Outcome State Fault Refusal :=
  atIssue (.wjopen g b) g (checkWj b) (fun s => s.post false (s.withSignal b (s.mkCmd (.wjopen g b) b))) s
def execWjwrite (g : Guard) (b : PumpBody) (s : State) : Host.Outcome State Fault Refusal :=
  atIssue (.wjwrite g b) g (checkWjwrite b) (fun s => s.post false (s.withSignal b (s.mkCmd (.wjwrite g b) b))) s
def execWjcommit (g : Guard) (b : PumpBody) (s : State) : Host.Outcome State Fault Refusal :=
  atIssue (.wjcommit g b) g (checkWj b) (fun s => s.post false (s.withSignal b (s.mkCmd (.wjcommit g b) b))) s
def execWjabort (g : Guard) (b : PumpBody) (s : State) : Host.Outcome State Fault Refusal :=
  atIssue (.wjabort g b) g (checkWj b) (fun s => s.post false (s.withSignal b (s.mkCmd (.wjabort g b) b))) s
def execWjstat (g : Guard) (b : PumpBody) (s : State) : Host.Outcome State Fault Refusal :=
  atIssue (.wjstat g b) g (checkWjstat b) (fun s => s.post true (s.mkCmd (.wjstat g b) b)) s

/-! Writing well units (R378, R385, R387). -/

/-- The pages of the descriptor slots and of the journal record (R379). -/
def descPage : Nat := wellReserved / 4096
def journalPage : Nat := shadowOff 0 / 4096

/-- One write attempt counted in the page's wear counter (R378). -/
def Well.wearUp (w : Well) (p : Nat) : Well :=
  let n := FMap.get 0 w.wear p
  { w with wear := FMap.set 0 w.wear p (if n = BitVec.allOnes 32 then n else n + 1) }

/-- A count of the journal record raised, saturating (R385). -/
def satUp (n : BitVec 32) : BitVec 32 := if n = BitVec.allOnes 32 then n else n + 1

/-- One attempt counted by the journal, and whether it failed its verify (R385). -/
def Well.countTry (w : Well) (ok : Bool) : Well :=
  { w with journal := { w.journal with attempts := satUp w.journal.attempts,
                                       retries := if ok then w.journal.retries else satUp w.journal.retries } }

/-- The attempts of WriteUnit on a unit of page p of a tile's well (R385): whether a read-back was equal is a free value
of each attempt. `counted`: ATTEMPTS and RETRIES count it too (R387). -/
def State.tryWrite (s : State) (t p : Nat) (counted : Bool) : Nat → State × Bool
  | 0 => (s, false)
  | k + 1 =>
    let ok := Config.writeVerifies s.freeCtr
    let s1 := { s with freeCtr := s.freeCtr + 1 }
    let s2 := s1.modWell t fun w => if counted then (w.wearUp p).countTry ok else w.wearUp p
    if ok then (s2, true) else s2.tryWrite t p counted k

/-- WriteUnit of the controller's own structures: nine attempts (R385, R387). -/
def State.writeOwn (s : State) (t p : Nat) : State × Bool := s.tryWrite t p false 9

/-- 64 free bytes, for a unit whose write never verified. -/
def State.freeUnit (s : State) : List Byte × State :=
  ((List.range 8).flatMap fun i => leBytes 8 (Config.freeWord (s.freeCtr + i)).toNat, { s with freeCtr := s.freeCtr + 8 })

/-- The errors of 64 bytes of a well are gone once they are written anew. DEDUCED: notes/assumptions/41.md. -/
def Well.mendUnit (w : Well) (off : Nat) : Well :=
  let far := fun k => decide (k < off / 8) || decide (off / 8 + 8 ≤ k)
  { w with eccSingle := w.eccSingle.filter far, eccDouble := w.eccDouble.filter far }

/-- WriteUnit of 64 bytes at a well offset (R385); a unit that never verifies holds free bytes.
DEDUCED: notes/assumptions/41.md. -/
def State.writeUnit (s : State) (t off : Nat) (bs : List Byte) : State × Bool :=
  let (s1, ok) := s.tryWrite t (off / 4096) true 9
  if ok then ((s1.wrBytes (s1.wellPa t off) bs).modWell t fun w => w.mendUnit off, true)
  else
    let (junk, s2) := s1.freeUnit
    (s2.wrBytes (s2.wellPa t off) junk, false)

/-- Units written from an offset up; the first that fails stops the rest. -/
def State.writeUnits (s : State) (t off : Nat) (bs : List Byte) : Nat → State × Bool
  | 0 => (s, true)
  | k + 1 =>
    match s.writeUnit t off (bs.take 64) with
    | (s1, true) => s1.writeUnits t (off + 64) (bs.drop 64) k
    | (s1, false) => (s1, false)

/-- A whole page written; once it verifies, its CRC is good and its bad mark clears (R385). -/
def State.writePage (s : State) (t p : Nat) (bs : List Byte) : State × Bool :=
  match s.writeUnits t (4096 * p) bs 64 with
  | (s1, true) => (s1.modWell t fun w =>
      { w with crcBad := w.crcBad.filter fun q => q != p, badPages := w.badPages.filter fun q => q != p }, true)
  | (s1, false) => (s1, false)

/-- One record copy rewritten (R387): whether it verified. -/
def State.writeRecord (s : State) (t copy : Nat) : State × Bool :=
  let (s1, a) := s.writeOwn t journalPage
  (s1.modWell t fun w =>
    if copy = 0 then { w with rec0 := if a then w.journal else w.rec0, rec0Good := a }
    else { w with rec1 := if a then w.journal else w.rec1, rec1Good := a }, a)

/-- Both record copies rewritten, copy 0 first (R387); whether both verified. -/
def State.writeRecords (s : State) (t : Nat) : State × Bool :=
  let (s1, a) := s.writeRecord t 0
  let (s2, b) := s1.writeRecord t 1
  (s2, a && b)

/-- One copy of a descriptor slot replaced. -/
def Well.setDesc (w : Well) (slot copy : Nat) (d : PageDesc) : Well :=
  match slot, copy with
  | 0, 0 => { w with desc00 := d }
  | 0, _ => { w with desc01 := d }
  | _, 0 => { w with desc10 := d }
  | _, _ => { w with desc11 := d }

/-- Copy 0 of a new descriptor written to the slot that is not active (R380): whether it verified. -/
def State.writeDesc0 (s : State) (t : Nat) (redir : Bool) (nred : Nat) : State × Bool :=
  let w := s.well t
  let (act, d) := w.active
  let (s1, a) := s.writeOwn t descPage
  (s1.modWell t fun w => w.setDesc (1 - act) 0
    { good := a, redir := redir, nred := nred, gen := d.gen + 1, jseq := w.journal.jseq }, a)

/-- Copy 1 of the descriptor whose copy 0 has just verified, which is now the active one (R380, R381). -/
def State.writeDesc1 (s : State) (t : Nat) : State × Bool :=
  let (act, d) := (s.well t).active
  let (s1, b) := s.writeOwn t descPage
  (s1.modWell t fun w => w.setDesc act 1 { d with good := b }, b)

/-- All shadow pages free (R382, R387). -/
def Well.freeShadows (w : Well) : Well :=
  { w with shadowMask := 0, shadows := [], journal := { w.journal with nshadow := 0 } }

/-! The commands at the controller (R384, R385). -/

def wjBUSY : Nat := 1
def wjNOTOPEN : Nat := 2
def wjRANGE : Nat := 3
def wjVERIFY : Nat := 4
def wjTENSOR : Nat := 5

/-- LASTERR set where it is 0 (R384). -/
def Well.lastErr (w : Well) (code : Nat) : Well :=
  { w with journal := { w.journal with lastErr := if w.journal.lastErr = 0 then code else w.journal.lastErr } }

/-- A failure found by the controller (R384): LASTERR and STATUS 2. -/
def State.wjFail (s : State) (m : PumpCmd) (code : Nat) : State :=
  (s.modWell m.tile fun w => w.lastErr code).setCmd { m with finished := true, status := 2 }

/-- A failed verify (R385): the journal stays OPEN, and later writes and commits fail.
DEDUCED: notes/assumptions/41.md. -/
def State.wjVerifyFail (s : State) (m : PumpCmd) : State :=
  (s.modWell m.tile fun w => { w with verifyFailed := true }).wjFail m wjVERIFY

/-- A command that has succeeded. -/
def State.wjDone (s : State) (m : PumpCmd) : State := s.setCmd { m with finished := true, status := 0 }

/-- The journal's range for a tensor entry: first page and number of pages (R385). -/
def Tid.pages (d : Tid) : Nat × Nat :=
  let n := d.kblk * d.nblk
  let lo := min (d.base / 4096) (d.sbase / 4096)
  let hi := max ((d.base + n * d.bb - 1) / 4096) ((d.sbase + 32 * n - 1) / 4096)
  (lo, hi + 1 - lo)

/-- The write of one record copy by a command, which goes on to its next write; after copy 1 it is done, and has failed
where a copy did not verify. -/
def State.wjRecord (s : State) (m : PumpCmd) (copy : Nat) (fail : State → State) : State :=
  let (s1, b) := s.writeRecord m.tile copy
  if copy = 0 then s1.setCmd { m with moved := m.moved + 1 }
  else if b && (s1.well m.tile).rec0Good then s1.wjDone m
  else fail s1

/-- WJOPEN (R382, R384, R385), one record copy at a time; on COMMITTED it waits. -/
def State.wjOpen (s : State) (m : PumpCmd) : State :=
  let w := s.well m.tile
  let d := FMap.get {} (s.tile m.tile).tids (bitsOf m.body.aux 13 8)
  if m.moved ≠ 0 then s.wjRecord m 1 fun a => a.wjVerifyFail m
  else if w.applyStep ≠ 0 then s
  else match w.journal.state with
  | .committed => s
  | .opened => s.wjFail m wjBUSY
  | .written => s.wjFail m wjBUSY
  | _ =>
    if !d.valid || d.loc then s.wjFail m wjTENSOR
    else
      let (first, n) := d.pages
      let s1 := s.modWell m.tile fun w =>
        { w.freeShadows with verifyFailed := false, applyNext := 0,
                             journal := { state := .opened, firstPg := first, npg := n, jseq := w.journal.jseq + 1,
                                          topen := BitVec.ofNat 64 s.ns } }
      s1.wjRecord m 0 id

/-- The shadow page of a home page in the open journal (R385). -/
def Well.shadowOf (w : Well) (p : Nat) : Option Nat := (w.shadows.find? fun e => e.1 == p).map Prod.snd

/-- The lowest free shadow page (R385, R387). -/
def Well.freeShadow (w : Well) : Option Nat :=
  ((List.range 63).find? fun i => !w.shadowMask.getLsbD i).map fun i => i + 1

/-- The bytes of a home page for its shadow: a bad page is copied as zero bytes (R385); one found bad is marked. -/
def State.homePage (s : State) (t p : Nat) : State × List Byte :=
  match s.wellPiece t (p, 0, 4096) with
  | .ok bs => (s, bs)
  | .error (some q) => (s.markBad t q, List.replicate 4096 0)
  | .error none => (s, List.replicate 4096 0)

/-- The shadow page of page p, taken now if there is none (R385); an error is the code. -/
def State.needShadow (s : State) (t p : Nat) : State × Except Nat Nat :=
  let w := s.well t
  match w.shadowOf p with
  | some j => (s, .ok j)
  | none =>
    match w.freeShadow with
    | none => (s, .error wjRANGE)
    | some j =>
      let (s1, bs) := s.homePage t p
      let s2 := s1.modWell t fun w =>
        { w with shadowMask := w.shadowMask ||| BitVec.ofNat 63 (2 ^ (j - 1)), shadows := w.shadows ++ [(p, j)],
                 journal := { w.journal with nshadow := w.journal.nshadow + 1 } }
      match s2.writePage t (shadowOff j / 4096) bs with
      | (s3, true) => (s3, .ok j)
      | (s3, false) => (s3, .error wjVERIFY)

/-- One unit of WJWRITE (R385); none where the command has failed. -/
def State.wjUnit (s : State) (m : PumpCmd) : State :=
  let w := s.well m.tile
  let off := m.s0.toNat + m.moved
  let p := off / 4096
  if p < w.journal.firstPg ∨ w.journal.firstPg + w.journal.npg ≤ p then s.wjFail m wjRANGE
  else match s.needShadow m.tile p with
    | (s1, .error code) => if code = wjVERIFY then s1.wjVerifyFail m else s1.wjFail m code
    | (s1, .ok j) =>
      match s1.writeUnit m.tile (shadowOff j + off % 4096) ((m.source.drop m.moved).take 64) with
      | (s2, false) => s2.wjVerifyFail m
      | (s2, true) =>
        let m1 := { m with moved := m.moved + 64 }
        if m1.moved = m.s1.toNat then s2.wjDone m1 else s2.setCmd m1

/-- Up to `k` units of WJWRITE. -/
def State.wjUnits (s : State) (id : Nat) : Nat → State
  | 0 => s
  | k + 1 =>
    match s.cmd id with
    | none => s
    | some m => if m.finished then s else (s.wjUnit m).wjUnits id k

/-- WJWRITE moves on (R385). -/
def State.wjWrite (s : State) (m : PumpCmd) (bytes : Nat) : Except Stop State :=
  let w := s.well m.tile
  if w.journal.state != .opened then .ok (s.wjFail m wjNOTOPEN)
  else if w.verifyFailed then .ok (s.wjFail m wjVERIFY)
  else if m.moved = 0 then do
    let n := m.s1.toNat
    let (s1, ps, _) ← s.pumpPort m m.cap0 [rPS] [] m.cap0.offset n
    .ok ((s1.setCmd { m with source := s1.rdPieces ps }).wjUnits m.id (max 1 (bytes / 64)))
  else .ok (s.wjUnits m.id (max 1 (bytes / 64)))

/-- The four redirect-list units written (R388). -/
def State.writeRedirects (s : State) (t : Nat) : Nat → State × Bool
  | 0 => (s, true)
  | k + 1 =>
    match s.writeOwn t journalPage with
    | (s1, true) => s1.writeRedirects t k
    | (s1, false) => (s1, false)

/-- STATE of the journal changed by the controller. -/
def State.wjState (s : State) (t : Nat) (x : JState) : State :=
  s.modWell t fun w => { w with journal := { w.journal with state := x } }

/-- WJCOMMIT fails a verify (R385): the journal is OPEN again, and, as at every change of STATE, both record copies are
rewritten (R387). -/
def State.wjReopen (s : State) (m : PumpCmd) : State := ((s.wjState m.tile .opened).writeRecords m.tile).1.wjVerifyFail m

/-- The next write of WJCOMMIT (R388); `moved` counts those done: the four redirect units, the two record copies WRITTEN,
the two descriptor copies, the two record copies COMMITTED. -/
def State.wjCommit (s : State) (m : PumpCmd) : State :=
  let t := m.tile
  let w := s.well t
  let go (s : State) := s.setCmd { m with moved := m.moved + 1 }
  let or (r : State × Bool) (fail : State → State) : State := if r.2 then go r.1 else fail r.1
  if m.moved = 0 ∧ w.journal.state ≠ .opened then s.wjFail m wjNOTOPEN
  else if m.moved = 0 ∧ w.verifyFailed then s.wjFail m wjVERIFY
  else match m.moved with
  | 0 | 1 | 2 => or (s.writeOwn t journalPage) fun a => a.wjVerifyFail m
  | 3 => or ((s.modWell t fun w => { w with redirect := w.shadows }).writeOwn t journalPage) fun a => a.wjVerifyFail m
  | 4 => or ((s.wjState t .written).writeRecord t 0) fun a => a.wjReopen m
  | 5 => or (s.writeRecord t 1) fun a => a.wjReopen m
  | 6 => or (s.writeDesc0 t true w.shadows.length) fun a => a.wjReopen m
  | 7 => go (s.writeDesc1 t).1
  | 8 => ((s.wjState t .committed).modWell t fun w => { w with applyNext := 0 }).wjRecord m 0 id
  | _ => s.wjRecord m 1 fun a => a.wjFail m wjVERIFY

/-- WJABORT (R382, R385), one record copy at a time. -/
def State.wjAbort (s : State) (m : PumpCmd) : State :=
  let t := m.tile
  if m.moved ≠ 0 then s.wjRecord m 1 fun a => a.wjFail m wjVERIFY
  else if (s.well t).journal.state != .opened then s.wjFail m wjNOTOPEN
  else
    let s1 := s.modWell t fun w =>
      let v := w.freeShadows
      { v with verifyFailed := false, journal := { v.journal with state := .free } }
    s1.wjRecord m 0 id

/-- STATE of a journal record (R385). -/
def JState.code : JState → Nat
  | .free => 0
  | .opened => 1
  | .written => 2
  | .committed => 3
  | .applied => 4

/-- A journal record as its 64 bytes (R385). -/
def JournalRec.bits (r : JournalRec) : BitVec 512 :=
  r.topen ++ r.attempts ++ r.retries ++ r.jseq ++ BitVec.ofNat 16 r.npg ++ BitVec.ofNat 16 r.firstPg ++
    BitVec.ofNat 8 r.nshadow ++ BitVec.ofNat 8 r.lastErr ++ BitVec.ofNat 304 r.state.code

/-- WJSTAT (R385): the journal record as the controller holds it, or wear counters. -/
def State.wjStat (s : State) (m : PumpCmd) : Except Stop State := do
  let w := s.well m.tile
  let bs := if bitsOf m.body.aux 5 4 = 0 then leBytes 64 w.journal.bits.toNat
    else (List.range 16).flatMap fun i =>
      leBytes 4 (if m.s0.toNat + i ≤ 12287 then (FMap.get 0 w.wear (m.s0.toNat + i)).toNat else 0)
  let (s1, ps, ds) ← s.pumpPort m m.cap0 [rPD] [] m.cap0.offset 64
  .ok ((s1.performStore ds (cellsOf ps bs)).wjDone m)

/-- The command that the well controller of a tile runs: the first of those passed to it (R384). -/
def State.wjHead (s : State) (t : Nat) : Option Nat :=
  (s.core.cmds.find? fun x => x.tile == t && x.isWj && x.place == .well && !x.finished).map fun x => x.id

/-- A command moves on at the controller. -/
def State.wjRun (s : State) (m : PumpCmd) (bytes : Nat) : Except Stop State :=
  match m.opc with
  | 24 => .ok (s.wjOpen m)
  | 25 => s.wjWrite m bytes
  | 26 => .ok (s.wjCommit m)
  | 27 => .ok (s.wjAbort m)
  | _ => s.wjStat m

/-- One delivery of a WJ command (R384): the port passes it to the controller, which runs those passed in order. -/
def State.wjDeliver (s : State) (m : PumpCmd) (bytes : Nat) : Except Stop State :=
  if m.finished then .ok s
  else if m.place = .well then
    (if s.wjHead m.tile = some m.id then
      (match s.wjRun m bytes with
        | .ok s' => .ok s'
        | .error e => s.failCmd true m e)
    else .ok s)
  else if s.cmdBlocked m then .ok s
  else .ok ((s.dropCmd m.id).addCmd { m with place := .well })

/-! Apply, repair and discard (R382, R389). -/

/-- The payload of WELL_APPLY_FAIL (R382). -/
def applyFailPayload (t j p : Nat) (jseq : BitVec 32) : BitVec 160 :=
  BitVec.ofNat 160 (t + j * 2 ^ 16 + p * 2 ^ 32 + jseq.toNat * 2 ^ 64)

/-- Whether a command of the well controller stands between two of its writes. -/
def State.wjMid (s : State) (t : Nat) : Bool :=
  s.core.cmds.any fun m => m.tile == t && m.isWj && m.place == .well && !m.finished && m.opc != 25 && m.moved != 0

/-- An apply that cannot go on stays COMMITTED with LASTERR 4 (R382). -/
def State.applyFail (s : State) (t : Nat) : State := s.modWell t fun w => { w.lastErr wjVERIFY with verifyFailed := true }

/-- Whether an apply goes on. -/
def Well.applying (w : Well) : Bool := w.applyStep != 0 || (w.journal.state == .committed && !w.verifyFailed)

/-- The next write that ends an apply once copy 0 of the descriptor has verified: its copy 1, then the two record copies
APPLIED, with every shadow page free (R382, R387). -/
def State.applyEnd (s : State) (t : Nat) : State :=
  let next (a : State) (k : Nat) : State := a.modWell t fun w => { w with applyStep := k }
  match (s.well t).applyStep with
  | 1 => next (s.writeDesc1 t).1 2
  | 2 => next ((s.modWell t fun w =>
      let v := w.freeShadows
      { v with applyNext := 0, journal := { v.journal with state := .applied } }).writeRecord t 0).1 3
  | _ => next (s.writeRecord t 1).1 0

/-- JOURNAL_APPLY (R382), which the active firmware complex drives (R390): the next redirect entry's shadow page is read
and copied home; after the last, the descriptor is rewritten with REDIR 0 and the shadow pages free. An apply that has
failed, and one whose shadow page reads bad (R378), is not tried again. DEDUCED: notes/assumptions/41.md. -/
def execJournalApply (t : Nat) (s : State) : Host.Outcome State Fault Refusal :=
  let w := s.well t
  if s.pow.down || !s.fwActive || !w.applying || s.wjMid t then .next s
  else if w.applyStep ≠ 0 then .next (s.applyEnd t)
  else match (w.redirect.take w.active.2.nred)[w.applyNext]? with
    | some (p, j) =>
      let failed (a : State) : State := (a.applyFail t).event t 0x0134 (applyFailPayload t j p w.journal.jseq)
      match s.wellPiece t (shadowOff j / 4096, 0, 4096) with
      | .error bad => .next (failed (match bad with
          | some q => s.markBad t q
          | none => s))
      | .ok bs =>
        match s.writePage t p bs with
        | (s1, true) => .next (s1.modWell t fun w => { w with applyNext := w.applyNext + 1 })
        | (s1, false) => .next (failed s1)
    | none =>
      match s.writeDesc0 t false 0 with
      | (s1, true) => .next (s1.modWell t fun w => { w with applyStep := 1 })
      | (s1, false) => .next (s1.applyFail t)

/-- The payload of JOURNAL_DISCARD (R389). -/
def discardPayload (t st : Nat) (jseq : BitVec 32) (freed : Nat) : BitVec 160 :=
  BitVec.ofNat 160 (t + st * 2 ^ 16 + jseq.toNat * 2 ^ 32 + freed * 2 ^ 64)

/-- The discard of R389; `st` is the state in the event. -/
def State.journalDiscard (s : State) (t st : Nat) : State :=
  let w := s.well t
  let freed := ((List.range 63).filter fun i => w.shadowMask.getLsbD i).length
  let s1 := (s.modWell t fun w => { w.freeShadows with journal := { w.journal with state := .free, nshadow := 0 } })
  let (s2, _) := s1.writeRecords t
  let (s3, _) := s2.writeRedirects t 4
  (s3.modWell t fun w => { w with redirect := [], shadowMask := 0 }).event t 0x0133
    (discardPayload t st w.journal.jseq freed)

/-- The journal on exit from OFF or at power-up (R382, R387): read from its record copies, repaired from the active
descriptor, discarded where it had not been committed. DEDUCED: notes/assumptions/41.md. -/
def State.journalRepair (s : State) (t : Nat) : State :=
  let w := s.well t
  let (_, d) := w.active
  let both := !w.rec0Good && !w.rec1Good
  let r : JournalRec := if w.rec0Good then w.rec0 else if w.rec1Good then w.rec1 else { jseq := d.jseq }
  let s1 := s.modWell t fun w => { w with journal := r, verifyFailed := false, applyNext := 0, applyStep := 0, shadows := w.redirect }
  if d.redir && d.jseq == r.jseq then
    s1.modWell t fun w => { w with journal := { w.journal with state := .committed } }
  else if both then s1.journalDiscard t 0
  else match r.state with
    | .opened => s1.journalDiscard t 1
    | .written => s1.journalDiscard t 2
    | _ => s1

/-! The scrubber (R378). -/

/-- Errors that have arisen in a well's words and pages (R378). -/
def Well.arise (w : Well) (e : WellErrors) : Well :=
  { w with eccSingle := w.eccSingle ++ e.single, eccDouble := w.eccDouble ++ e.double, crcBad := w.crcBad ++ e.crc }

/-- WELL_SCRUB (R378): a page whose CRC or a word fails is marked bad; words that needed correction are rewritten.
Errors that have arisen anywhere in the tile's well come with it. DEDUCED: notes/assumptions/41.md. -/
def execWellScrub (t : Nat) (scrub : PageScrub) (s : State) : Host.Outcome State Fault Refusal :=
  let p := scrub.page
  let s1 := s.modWell t fun w => w.arise scrub.arisen
  let w := s1.well t
  let mine := fun k => decide (512 * p ≤ k) && decide (k < 512 * p + 512)
  s.whenUp (
    if 12288 ≤ p ∨ w.badPages.contains p then .next s1
    else if w.crcBad.contains p || w.eccDouble.any mine then .next (s1.markBad t p)
    else .next (s1.modWell t fun w =>
      (w.eccSingle.filter mine).foldl (fun a _ => a.wearUp p) { w with eccSingle := w.eccSingle.filter fun k => !mine k }))

/-! A write that power loss interrupts (R376, R387, R388). -/

/-- What a 64-byte unit of a well holds: data, a record copy, a unit of the redirect list, a descriptor copy (R379). -/
inductive UnitKind where
  | data
  | record (copy : Nat)
  | list
  | desc (slot copy : Nat)
deriving DecidableEq, Repr

/-- The record copies of the journal page, the first at its offset 0 (R387). -/
def recordUnit (copy : Nat) : Nat := 64 * journalPage + copy
/-- A unit of the redirect list (R388). -/
def listUnit (k : Nat) : Nat := 64 * journalPage + 2 + k
/-- A copy of a descriptor slot (R379). -/
def descUnit (slot copy : Nat) : Nat := 64 * descPage + 2 * slot + copy

/-- Which of its units the controller may be writing next, for command `m` (R385, R388). -/
def State.unitOf (s : State) (m : PumpCmd) (n : Nat) : Option UnitKind :=
  let w := s.well m.tile
  let is (k : Nat) (x : UnitKind) : Option UnitKind := if n = k then some x else none
  match m.opc with
  | 25 =>
    let off := m.s0.toNat + m.moved
    match w.shadowOf (off / 4096) with
    | some j => is ((shadowOff j + off % 4096) / 64) .data
    | none => (match w.freeShadow with
      | some j => if n / 64 = shadowOff j / 4096 then some .data else none
      | none => none)
  | 26 =>
    if m.moved < 4 then is (listUnit m.moved) .list
    else if m.moved = 6 then is (descUnit (1 - w.active.1) 0) (.desc (1 - w.active.1) 0)
    else if m.moved = 7 then is (descUnit w.active.1 1) (.desc w.active.1 1)
    else is (recordUnit (m.moved % 2)) (.record (m.moved % 2))
  | 28 => none
  | _ => is (recordUnit m.moved) (.record m.moved)

/-- Whether the command at the controller writes a unit next: it has not failed, and it does not wait (R384, R385). -/
def State.wjWrites (s : State) (m : PumpCmd) : Bool :=
  let w := s.well m.tile
  m.moved != 0 || (match m.opc with
    | 24 => (w.journal.state == .free || w.journal.state == .applied) && w.applyStep == 0
    | 27 => w.journal.state == .opened
    | _ => w.journal.state == .opened && !w.verifyFailed)

/-- The redirect entry that an apply copies home next, where the controller has no command that writes. -/
def State.applyPage (s : State) (t : Nat) : Option (Nat × Nat) :=
  let w := s.well t
  let busy : Bool := match (s.wjHead t).bind fun i => s.cmd i with
    | some m => s.wjWrites m
    | none => false
  if busy || !s.fwActive || !w.applying || w.applyStep != 0 then none else (w.redirect.take w.active.2.nred)[w.applyNext]?

/-- The unit that an apply writes next after its pages. -/
def State.applyUnit (s : State) (t : Nat) : Nat × UnitKind :=
  let w := s.well t
  match w.applyStep with
  | 0 => (descUnit (1 - w.active.1) 0, .desc (1 - w.active.1) 0)
  | 1 => (descUnit w.active.1 1, .desc w.active.1 1)
  | 2 => (recordUnit 0, .record 0)
  | _ => (recordUnit 1, .record 1)

/-- Which unit of a tile's well a power loss may interrupt: one that its controller's command or an apply writes. -/
def State.openUnit (s : State) (t n : Nat) : Option UnitKind :=
  let own : Option UnitKind := if (s.well t).applying && s.fwActive then
      (match s.applyPage t with
        | some (p, _) => if n / 64 = p then some .data else none
        | none => if n = (s.applyUnit t).1 then some (s.applyUnit t).2 else none)
    else none
  match (s.wjHead t).bind fun i => s.cmd i with
  | some m => if s.wjWrites m then s.unitOf m n else own
  | none => own

/-- STATE of a journal record from its code (R385). -/
def jStateOf : Nat → JState
  | 1 => .opened
  | 2 => .written
  | 3 => .committed
  | 4 => .applied
  | _ => .free

/-- The record that 64 bytes hold (R385). -/
def JournalRec.ofBits (v : BitVec 512) : JournalRec :=
  { state := jStateOf (bitsOf v 2 0), lastErr := bitsOf v 311 304, nshadow := bitsOf v 319 312, firstPg := bitsOf v 335 320,
    npg := bitsOf v 351 336, jseq := v.extractLsb' 352 32, retries := v.extractLsb' 384 32, attempts := v.extractLsb' 416 32,
    topen := v.extractLsb' 448 64 }

/-- The descriptor that 64 bytes hold (R380). -/
def PageDesc.ofBits (v : BitVec 512) (good : Bool) : PageDesc :=
  { good := good, redir := v.getLsbD 72, nred := bitsOf v 71 64, gen := v.extractLsb' 32 32, jseq := v.extractLsb' 0 32 }

/-- The units of a page that an apply had written before the one in progress. -/
def State.appliedUnits (s : State) (t n : Nat) : State :=
  match s.applyPage t with
  | some (p, j) =>
    (s.wrBytes (s.wellPa t (4096 * p)) (s.rdBytes (s.wellPa t (shadowOff j)) (64 * (n % 64)))).modWell t fun w =>
      { w with crcBad := w.crcBad ++ [p] }
  | none => s

/-- A well write in progress leaves its 64-byte unit with any content (R376). -/
def State.tornUnit (s : State) (u : Option TornUnit) : State :=
  match u with
  | none => s
  | some u =>
    let v := BitVec.ofNat 512 (leNat u.bytes)
    let t := u.tile
    let s0 := s.modWell t fun w => w.wearUp (u.unit / 64)
    if u.bytes.length ≠ 64 then s
    else match s.openUnit t u.unit with
      | none => s
      | some .data =>
        ((s0.appliedUnits t u.unit).wrBytes (s.wellPa t (64 * u.unit)) u.bytes).modWell t fun w =>
          if u.ok then w.mendUnit (64 * u.unit)
          else { w with eccDouble := w.eccDouble ++ (List.range 8).map fun i => 8 * u.unit + i }
      | some (.record 0) => s0.modWell t fun w => { w with rec0 := JournalRec.ofBits v, rec0Good := u.ok }
      | some (.record _) => s0.modWell t fun w => { w with rec1 := JournalRec.ofBits v, rec1Good := u.ok }
      | some .list => s0
      | some (.desc slot copy) => s0.modWell t fun w => w.setDesc slot copy (PageDesc.ofBits v u.ok)

end Sys2Proof.Machine
end

