-- ==== Sys2Proof/Machine/Command.lean ====
section
/-! DEFINITION. What the command processor's work rests on: its walks of references, islands and wake requests, ready
lists, and the reading of graphs and nodes. Spec 18 R338 to R345, 20 R368 and R369, 22 R396 and R400. -/

namespace Sys2Proof.Machine

/-! The command processor's own accesses (R230, R332). It keeps no translation cache. -/

/-- The number under which the command processor walks the tables: no tile has it. -/
def cpTile : Nat := 4096

/-- Pieces and clean page entries of [off, off + len) of an object of one of some kinds, with rights; none where the
access fails its check. -/
def State.cpPort (s : State) (asid obj : Nat) (kinds rs any : List Nat) (off len : Nat) : Option (List Piece × List Nat) :=
  kinds.findSome? fun k =>
    match s.translate cpTile asid 0 obj k rs any off len with
    | .ok (_, ps, ds) => some (ps, ds)
    | .error _ => none

/-- `n` bytes read by the command processor. DEDUCED: notes/assumptions/42.md. -/
def State.cpRead (s : State) (asid obj : Nat) (kinds rs : List Nat) (off n : Nat) : Option (List Byte) :=
  (s.cpPort asid obj kinds rs [] off n).map fun p => s.rdPieces p.1

/-- An `n`-byte number read by the command processor. -/
def State.cpNat (s : State) (asid obj : Nat) (kinds rs : List Nat) (off n : Nat) : Option Nat :=
  (s.cpRead asid obj kinds rs off n).map leNat

/-- Every kind that bytes can be read from. -/
def kindsAny : List Nat := [kGLOBAL, kSCRATCH, kSIGNAL, kCODE, kCAPSTORE, kMAILBOX]

/-- Bytes written by the command processor; unchanged where the access fails. DEDUCED: notes/assumptions/42.md. -/
def State.cpWrite (s : State) (asid obj : Nat) (kinds rs : List Nat) (off : Nat) (bs : List Byte) : State :=
  match s.cpPort asid obj kinds rs [] off bs.length with
  | some (ps, ds) => s.performStore ds (cellsOf ps bs)
  | none => s

/-- The physical address of a signal, SIGNAL with W at an 8-byte-aligned offset (R332); its page entry is marked.
DEDUCED: notes/assumptions/43.md. -/
def State.signalRef (s : State) (asid obj off : Nat) (rs : List Nat) : Option (Nat × List Nat) :=
  if off % 8 = 0 then (s.cpPort asid obj [kSIGNAL] rs [] off 8).map fun p => ((p.1.headD (0, 0)).1, p.2) else none

/-! Islands and wake requests (R367 to R369). -/

/-- The partition entry (R401). -/
def State.partition (s : State) (p : Nat) : BitVec 256 := FMap.get 0 s.tab.partitions p
/-- The partition that an island belongs to. DEDUCED: notes/assumptions/34.md. -/
def State.partOf (s : State) (i : Nat) : Option Nat := (List.range 8).find? fun p => partHas (s.partition p) i

/-- The absolute islands of a set of relative ones (R401). -/
def State.absIslands (s : State) (part : Nat) (rel : BitVec 64) : List Nat :=
  let abs := s.islandsOf part
  ((List.range abs.length).filter fun r => rel.getLsbD r).map fun r => abs.getD r 0

/-! Ready lists (R341, R346, R360). -/

/-- Items put at the head of a queue's ready list; behind the head where that has been drawn and is held.
DEDUCED: notes/assumptions/44.md. -/
def State.readyFront (s : State) (q : Nat) (xs : List ReadyItem) : State :=
  s.modQueue q fun x =>
    if x.held.isSome then { x with ready := x.ready.take 1 ++ xs ++ x.ready.drop 1 } else { x with ready := xs ++ x.ready }

/-- The ready nodes of a tick's instance, ahead of every ready list (R346). A head that is held there is drawn again after
them. DEDUCED: notes/assumptions/44.md. -/
def State.readyAhead (s : State) (q : Nat) (xs : List ReadyItem) : State :=
  let s1 := s.modQueue q fun x => { x with ready := xs ++ x.ready, held := none }
  { s1 with cp := { s1.cp with ahead := s1.cp.ahead ++ xs.map fun it => (q, it) } }

/-- Items put at the end of a queue's ready list. DEDUCED: notes/assumptions/44.md. -/
def State.readyBack (s : State) (q : Nat) (xs : List ReadyItem) : State :=
  s.modQueue q fun x => { x with ready := x.ready ++ xs }

/-! Queue table entries (R328). -/

def qRegion (e : BitVec 512) : Nat := bitsOf e 179 164
def qAsid (e : BitVec 512) : Nat := bitsOf e 159 148
def qPriv (e : BitVec 512) : Bool := e.getLsbD 144
def qErrcnt (e : BitVec 512) : Nat := bitsOf e 143 128
def qHead (e : BitVec 512) : Nat := bitsOf e 127 96
def qNotify (e : BitVec 512) : Nat := bitsOf e 95 72
def qLog2n (e : BitVec 512) : Nat := bitsOf e 68 64
def qRing (e : BitVec 512) : Nat := bitsOf e 23 2
def qState (e : BitVec 512) : Nat := bitsOf e 1 0

/-- A queue's table entry changed. -/
def State.modEntry (s : State) (q : Nat) (f : BitVec 512 → BitVec 512) : State := s.modQueue q fun x => { x with entry := f x.entry }

/-! Graph headers, nodes, edges (R338, R339). -/

def hdrNnode (h : BitVec 512) : Nat := bitsOf h 31 0
def hdrCntoff (h : BitVec 512) : Nat := bitsOf h 191 128
def hdrCntobj (h : BitVec 512) : Nat := bitsOf h 211 192
def hdrEdgeoff (h : BitVec 512) : Nat := bitsOf h 287 240
def hdrRegoff (h : BitVec 512) : Nat := bitsOf h 335 288

/-- Reserved fields, version and limits of a graph header (R338). -/
def hdrOk (h : BitVec 512) : Bool :=
  bitsOf h 511 336 == 0 && bitsOf h 239 212 == 0 && bitsOf h 127 48 == 0 && bitsOf h 47 32 == 1 &&
    decide (1 ≤ hdrNnode h) && decide (hdrNnode h ≤ 65536) && hdrCntoff h % 4 == 0 && decide (hdrCntoff h < 2 ^ 48)

def nodeKind (v : BitVec 1024) : Nat := bitsOf v 3 0
def nodePlsel (v : BitVec 1024) : Nat := bitsOf v 11 8
def nodePred0 (v : BitVec 1024) : Nat := bitsOf v 31 16
def nodeSize (v : BitVec 1024) : Nat := bitsOf v 40 32 + 1
def nodeRegion (v : BitVec 1024) : Nat := bitsOf v 63 48
def nodeNedge (v : BitVec 1024) : Nat := bitsOf v 79 64
def nodeEdge (v : BitVec 1024) : Nat := bitsOf v 111 80
def nodeKoff (v : BitVec 1024) : Nat := bitsOf v 159 128
def nodeKobj (v : BitVec 1024) : Nat := bitsOf v 179 160
def nodeWake (v : BitVec 1024) : BitVec 64 := v.extractLsb' 192 64
def nodeSigoff (v : BitVec 1024) : Nat := bitsOf v 303 256
def nodeSigobj (v : BitVec 1024) : Nat := bitsOf v 339 320
def nodeSigen (v : BitVec 1024) : Bool := v.getLsbD 340
def nodeArgoff (v : BitVec 1024) : Nat := bitsOf v 431 384
def nodeArgobj (v : BitVec 1024) : Nat := bitsOf v 467 448
def nodeJobword (v : BitVec 1024) : BitVec 60 := v.extractLsb' 512 60
def nodeJs0 (v : BitVec 1024) : Word := v.extractLsb' 576 64
def nodeJs1 (v : BitVec 1024) : Word := v.extractLsb' 640 64

/-- Reserved bits, KIND and alignments of a node (R339). DEDUCED: notes/assumptions/43.md. -/
def nodeOk (v : BitVec 1024) : Bool :=
  bitsOf v 1023 704 == 0 && bitsOf v 575 572 == 0 && bitsOf v 511 468 == 0 && bitsOf v 447 432 == 0 &&
    bitsOf v 383 341 == 0 && bitsOf v 319 304 == 0 && bitsOf v 191 180 == 0 && bitsOf v 127 112 == 0 && bitsOf v 47 41 == 0 &&
    bitsOf v 15 12 == 0 && bitsOf v 7 4 == 0 && decide (1 ≤ nodeKind v) && decide (nodeKind v ≤ 5) &&
    nodeArgoff v % 16 == 0 && nodeSigoff v % 8 == 0

/-- Bytes of a graph object, GLOBAL with R. -/
def State.graphNat (s : State) (g : Ref) (off n : Nat) : Option Nat := s.cpNat g.asid g.obj [kGLOBAL] [rR] (g.off + off) n

/-- The words of node i of a graph (R338). DEDUCED: notes/assumptions/43.md. -/
def State.graphNode (s : State) (g : Ref) (i : Nat) : Option (BitVec 1024) :=
  (s.graphNat g (64 + 128 * i) 128).map fun v => BitVec.ofNat 1024 v

/-- A graph's header, where it and its node array can be read, its counter area can be read and written, and it passes
its checks (R338). -/
def State.graphHeader (s : State) (g : Ref) : Option (BitVec 512) :=
  match s.graphNat g 0 64 with
  | none => none
  | some v =>
    let h := BitVec.ofNat 512 v
    if hdrOk h && (s.cpPort g.asid g.obj [kGLOBAL] [rR] [] g.off (64 + 128 * hdrNnode h)).isSome &&
        (s.cpPort g.asid (hdrCntobj h) [kGLOBAL] [rR, rW] [] (hdrCntoff h) (4 * hdrNnode h)).isSome then some h else none

/-- A node's counter (R338). -/
def State.counter (s : State) (x : Inst) (i : Nat) : Option Nat :=
  s.cpNat x.asid (hdrCntobj x.header) [kGLOBAL] [rR, rW] (hdrCntoff x.header + 4 * i) 4
/-- A node's counter written. -/
def State.setCounter (s : State) (x : Inst) (i v : Nat) : State :=
  s.cpWrite x.asid (hdrCntobj x.header) [kGLOBAL] [rR, rW] (hdrCntoff x.header + 4 * i) (leBytes 4 v)

/-- An edge record (R338): successor, carried regions. -/
structure EdgeRec where
  succ : Nat := 0
  nreg : Nat := 0
  first : Nat := 0
deriving DecidableEq, Repr

/-- Edge record k of an instance; none where it cannot be read or is malformed. -/
def State.edgeRec (s : State) (x : Inst) (k : Nat) : Option EdgeRec :=
  match s.graphNat x.graph (hdrEdgeoff x.header + 8 * k) 8 with
  | none => none
  | some v =>
    let e : EdgeRec := { succ := v / 2 ^ 48, nreg := v / 2 ^ 40 % 2 ^ 8, first := v % 2 ^ 32 }
    if v / 2 ^ 32 % 2 ^ 8 = 0 ∧ e.succ < hdrNnode x.header then some e else none

/-- The outgoing edges of a node of an instance, in order; none for one that is malformed. -/
def State.edgesOf (s : State) (x : Inst) (v : BitVec 1024) : List (Option EdgeRec) :=
  (List.range (nodeNedge v)).map fun k => s.edgeRec x (nodeEdge v + k)

/-- The carried regions of an edge: object, offset, length (R338). -/
def State.carried (s : State) (x : Inst) (e : EdgeRec) : List (Nat × Nat × Nat) :=
  (List.range e.nreg).filterMap fun k =>
    match s.graphNat x.graph (hdrRegoff x.header + 16 * (e.first + k)) 16 with
    | none => none
    | some v => if v / 2 ^ 96 % 2 ^ 12 = 0 then some (v / 2 ^ 108, v / 2 ^ 48 % 2 ^ 48, v % 2 ^ 48) else none

/-- Copies of remote lines in a range of an object dropped (R237). -/
def State.dropCopies (s : State) (asid : Nat) (r : Nat × Nat × Nat) : State :=
  match s.cpPort asid r.1 kindsAny [] [] r.2.1 r.2.2 with
  | none => s
  | some (ps, _) =>
    { s with core := { s.core with remoteLines := s.core.remoteLines.filter fun (k, _) =>
        !(ps.any fun (pa, n) => decide (pa / 64 ≤ k) && decide (64 * k < pa + n)) } }

/-- The region under which a node runs: its own, or the queue's (R339). -/
def Inst.nodeRegion (x : Inst) (v : BitVec 1024) : Nat :=
  if Sys2Proof.Machine.nodeRegion v = 0 then x.region else Sys2Proof.Machine.nodeRegion v

/-! Early service (R396). -/

/-- Whether pieces lie where early service lets work reach: not in LPDDR6 from 1 GiB up. -/
def piecesEarly (ps : List Piece) : Bool := ps.all fun (pa, n) => paSpace pa != 0 || decide (paAddr pa + n ≤ 2 ^ 30)

/-- Whether a range of an object lies there. -/
def State.rangeEarly (s : State) (asid obj off n : Nat) : Bool :=
  match s.cpPort asid obj kindsAny [] [] off n with
  | none => true
  | some (ps, _) => piecesEarly ps

end Sys2Proof.Machine
end

