-- ==== Sys2Proof/Machine/Launch.lean ====
section
/-! DEFINITION. The launch unit: kernel descriptors, argument capabilities, placements, the contexts of a gang, and the
loading of its members. Spec 01 R13 and R15, 16 R311, 17 R319 to R321, 18 R339, R340 and R345. -/

namespace Sys2Proof.Machine

/-! Kernel descriptors (R319 to R321). -/

def kWin (h : BitVec 512) : Nat := bitsOf h 71 64
def kFeat (h : BitVec 512) : BitVec 8 := h.extractLsb' 72 8
def kSup (h : BitVec 512) : Bool := h.getLsbD 80
def kDup (h : BitVec 512) : Bool := h.getLsbD 81
def kIswide (h : BitVec 512) : Bool := h.getLsbD 82
def kWidek (h : BitVec 512) : Nat := bitsOf h 111 96
def kArgs (h : BitVec 512) : BitVec 16 := h.extractLsb' 112 16
def kNtid (h : BitVec 512) : Nat := bitsOf h 271 256
def kNbuf (h : BitVec 512) : Nat := bitsOf h 287 272
def kNpl (h : BitVec 512) : Nat := bitsOf h 291 288

/-- View base `k` in bytes: 0 V, 1 T, 2 C, 3 K (R319). -/
def kBase (h : BitVec 512) (k : Nat) : Nat := 256 * bitsOf h (128 + 16 * k + 15) (128 + 16 * k)
/-- Shadow base `k` in bytes where SHMASK gives one: 0 V, 1 T, 2 C. -/
def kShadow (h : BitVec 512) (k : Nat) : Option Nat :=
  if h.getLsbD (248 + k) then some (256 * bitsOf h (200 + 16 * k + 15) (200 + 16 * k)) else none

/-- The bytes of a descriptor with its lists; the next one is aligned to 64 bytes (R319, R320). -/
def kBytes (h : BitVec 512) : Nat := 64 + 8 * kNtid h + 16 * kNbuf h + 8 * kNpl h
def kNext (h : BitVec 512) : Nat := (kBytes h + 63) / 64 * 64

/-- Reserved bits and limits of a descriptor header (R319, R321). -/
def kHdrOk (h : BitVec 512) : Bool :=
  bitsOf h 511 384 == 0 && bitsOf h 319 292 == 0 && bitsOf h 255 251 == 0 && bitsOf h 95 83 == 0 &&
    decide (1 ≤ kWin h) && decide (kWin h ≤ 128) && decide (bitsOf h 199 192 ≤ 64) && decide (kNtid h ≤ 64) &&
    decide (kNbuf h ≤ 16) && decide (kNpl h ≤ 4) && (kDup h || bitsOf h 383 320 == 0) &&
    ((List.range 4).all fun k => decide (kBase h k < 4096 * kWin h)) &&
    (List.range 3).all fun k => match kShadow h k with
      | some b => decide (b < 4096 * kWin h)
      | none => true

/-- A placement as a kernel names it: number, REPLICA, heat signature, member entries (R311). -/
structure Placement where
  num : Nat := 0
  replica : Nat := 0xFF
  sig : BitVec 512 := 0
  members : List (Nat × Nat) := []
deriving DecidableEq, Repr

/-- A kernel as the launch unit reads it. -/
structure Kernel where
  hdr : BitVec 512 := 0
  image : Image := {}
  koff : Nat := 0
  tids : List (Nat × BitVec 512) := []
  bufs : List (Nat × Handle) := []
  /-- placement numbers and CONST offsets -/
  pls : List (Nat × Nat) := []
  wide : Option Nat := none
deriving DecidableEq, Repr

/-- The image whose KDESC object this is, where it is marked loaded (R317). -/
def State.imageOf (s : State) (asid kobj : Nat) : Option Image := s.cp.images.find? fun m => m.asid == asid && m.kdesc == kobj

/-- A descriptor's header. -/
def State.kernelHdr (s : State) (m : Image) (koff : Nat) : Option (BitVec 512) :=
  (s.cpNat m.asid m.kdesc kindsAny [] koff 64).map fun v => BitVec.ofNat 512 v

/-- The offset of the descriptor `k` places after the one at `off`: the first is at byte 64 (R319). -/
def State.kernelOff (s : State) (m : Image) : Nat → Nat → Option Nat
  | 0, off => some off
  | k + 1, off =>
    match s.kernelHdr m off with
    | none => none
    | some h => s.kernelOff m k (off + kNext h)

/-- `k` numbers of `n` bytes in the KDESC object. -/
def State.kdescList (s : State) (m : Image) (off n k : Nat) : Option (List Nat) :=
  (List.range k).mapM fun i => s.cpNat m.asid m.kdesc kindsAny [] (off + n * i) n

/-- A tensor entry of a kernel: number and template; none where a bit is reserved or the template cannot be read
(R320). -/
def State.kernelTid (s : State) (m : Image) (v : Nat) : Option (Nat × BitVec 512) :=
  let off := v / 2 ^ 16
  if v / 2 ^ 6 % 2 ^ 10 = 0 ∧ off % 64 = 0 then
    match m.const with
    | none => none
    | some c => (s.cpNat m.asid c kindsAny [] off 64).map fun t => (v % 64, BitVec.ofNat 512 t)
  else none

/-- A buffer entry of a kernel: number and handle; none where a bit is reserved or it breaks R28 (R320). -/
def kernelBuf (v : Nat) : Option (Nat × Handle) :=
  if v / 2 ^ 53 % 2 ^ 11 = 0 ∧ v / 2 ^ 4 % 2 ^ 28 = 0 then
    (cbsetHandle (BitVec.ofNat 64 (v / 2 ^ 32 % 2 ^ 21)) (BitVec.ofNat 64 (v / 2 ^ 64))).map fun h => (v % 16, h)
  else none

/-- A placement entry of a kernel: number and CONST offset. -/
def kernelPl (v : Nat) : Option (Nat × Nat) := if v / 2 ^ 2 % 2 ^ 14 = 0 then some (v % 4, v / 2 ^ 16) else none

/-- Whether no two of a list are equal. -/
def distinct : List Nat → Bool
  | [] => true
  | x :: xs => !xs.contains x && distinct xs

/-- The kernel at an offset of a loaded KDESC object, where its descriptor passes the checks of R321 that do not rest on
the arguments; `asWide`: it is wanted as a wide variant. -/
def State.kernel (s : State) (asid kobj koff : Nat) (asWide : Bool) : Option Kernel := do
  let m ← s.imageOf asid kobj
  let h ← s.kernelHdr m koff
  if !(kHdrOk h && kIswide h == asWide && koff % 64 == 0 && decide (64 ≤ koff)) then none
  else
    let ts ← s.kdescList m (koff + 64) 8 (kNtid h)
    let bs ← s.kdescList m (koff + 64 + 8 * kNtid h) 16 (kNbuf h)
    let ps ← s.kdescList m (koff + 64 + 8 * kNtid h + 16 * kNbuf h) 8 (kNpl h)
    let tids ← ts.mapM (s.kernelTid m)
    let bufs ← bs.mapM kernelBuf
    let pls ← ps.mapM kernelPl
    let wide ← (if kWidek h = 0xFFFF then some none
      else do
        let n ← s.cpNat m.asid m.kdesc kindsAny [] 0 8
        if n ≤ kWidek h then none
        else
          let off ← s.kernelOff m (kWidek h) 64
          let w ← s.kernelHdr m off
          if kIswide w then some (some off) else none)
    if distinct (tids.map Prod.fst) && distinct (bufs.map Prod.fst) then
      some { hdr := h, image := m, koff := koff, tids := tids, bufs := bufs, pls := pls, wide := wide }
    else none

/-! Argument capabilities (R339). -/

/-- Argument capability j of a node, translated in an ASID: loaded tagged; none where it fails its check. -/
def State.argCap (s : State) (asid : Nat) (node : BitVec 1024) (j : Nat) : Option Cap :=
  match s.cpNat asid (nodeArgobj node) kindsAny [] (nodeArgoff node + 16 * j) 16 with
  | none => none
  | some v =>
    let c : Cap := { bits := BitVec.ofNat 128 v, tag := true }
    match s.walkObj asid c.obj with
    | none => none
    | some e =>
      if c.kind = bitsOf e 87 84 ∧ c.rights &&& ~~~(e.extractLsb' 88 8) = 0 ∧ c.exp ≤ 48 ∧ c.we ≤ bitsOf e 207 160
      then some c else none

/-- The arguments of a mask, all of which must pass. -/
def State.argCaps (s : State) (asid : Nat) (node : BitVec 1024) (mask : BitVec 16) : Option (FMap Cap) :=
  ((List.range 16).filter fun j => mask.getLsbD j).mapM fun j => (s.argCap asid node j).map fun c => (j, c)

/-- The arguments of a mask that pass. -/
def State.argsThatPass (s : State) (asid : Nat) (node : BitVec 1024) (mask : BitVec 16) : FMap Cap :=
  ((List.range 16).filter fun j => mask.getLsbD j).filterMap fun j => (s.argCap asid node j).map fun c => (j, c)

/-- An argument as an a-register takes it: untagged where the mask does not name it (R321).
DEDUCED: notes/assumptions/43.md. -/
def argOf (mask : BitVec 16) (args : FMap Cap) (j : Nat) : Cap := if mask.getLsbD j then FMap.get {} args j else {}

/-- The tensor entries of a kernel with the arguments, checked as R154 (R321): number, descriptor and capability. -/
def Kernel.tensors (k : Kernel) (args : FMap Cap) : Option (List (Nat × BitVec 512 × Cap)) :=
  k.tids.mapM fun (n, t) =>
    let cap := argOf (kArgs k.hdr) args (bitsOf t 107 104)
    match tidChecks t cap (kSup k.hdr) with
    | .ok _ => some (n, t, cap)
    | .error _ => none

/-- Whether the kernel's largest save fits the partition's slots (R361). -/
def State.saveFits (s : State) (part : Nat) (k : Kernel) : Bool :=
  decide (7808 + 96 * 64 + 4096 * kWin k.hdr ≤ 4096 * bitsOf (s.service part) 319 304)

/-! Placements (R311, R345). -/

/-- A placement object of a kernel's CONST object. -/
def State.placement (s : State) (m : Image) (n off : Nat) : Option Placement := do
  let c ← m.const
  let h ← s.cpNat m.asid c kindsAny [] off 72
  let cnt := h / 2 ^ 512 % 2 ^ 16
  if h / 2 ^ 536 ≠ 0 ∨ 512 < cnt then none
  else
    let ws ← (List.range cnt).mapM fun i => s.cpNat m.asid c kindsAny [] (off + 72 + 2 * i) 2
    if ws.any fun w => w / 2 ^ 9 != 0 then none
    else some { num := n, replica := h / 2 ^ 528 % 2 ^ 8, sig := BitVec.ofNat 512 h,
                members := ws.map fun w => (w / 8 % 64, w % 8) }

/-- SIG[r]. -/
def Placement.sigAt (p : Placement) (r : Nat) : Nat := bitsOf p.sig (8 * r + 7) (8 * r)

/-- Whether a placement is usable for a gang of a size on a partition of so many islands (R311). -/
def Placement.usable (p : Placement) (size islands : Nat) : Bool :=
  p.members.length == size && (p.members.all fun e => decide ((p.members.filter fun f => f == e).length ≤ 4)) &&
    (p.members.all fun e => decide (e.1 < islands)) &&
    (List.range 64).all fun r => decide (r < islands) || p.sigAt r == 0

/-- The placements of a kernel that a node may use, in number order. -/
def State.placements (s : State) (k : Kernel) (node : BitVec 1024) (part : Nat) : List Placement :=
  let ps := k.pls.filterMap fun (n, off) =>
    if nodePlsel node = 0 ∨ (nodePlsel node).testBit n then s.placement k.image n off else none
  ((List.range 4).flatMap fun n => ps.filter fun p => p.num == n).filter fun p =>
    p.usable (nodeSize node) (s.islandsOf part).length

/-- The cost of a placement (R345). -/
def State.placeCost (s : State) (part : Nat) (p : Placement) : Nat :=
  let abs := s.islandsOf part
  ((List.range abs.length).map fun r => (FMap.get 0 s.pow.heat (abs.getD r 0)).toNat * p.sigAt r).foldl (· + ·) 0

/-- The tile of each member of a placement. -/
def State.placeTiles (s : State) (part : Nat) (p : Placement) : List Nat :=
  let abs := s.islandsOf part
  p.members.map fun (r, j) => 8 * abs.getD r 0 + j

/-- The islands of some tiles. -/
def tileIslands (ts : List Nat) : List Nat := (ts.map fun t => t / 8).eraseDups

/-! Contexts for members (R13, R15, R159, R345). -/

/-- Whether a context's window can have this size, in 4 KiB units: below 128 and clear of the other contexts' (R15).
DEDUCED: notes/assumptions/35.md. -/
def State.windowFits (s : State) (t c win : Nat) : Bool :=
  let b := (s.ctx t c).sys.winBase
  decide (b + win ≤ 128) && (List.range 4).all fun d =>
    d == c || decide (b + win ≤ (s.ctx t d).sys.winBase) ||
      decide ((s.ctx t d).sys.winBase + (s.ctx t d).sys.winSize ≤ b)

/-- Whether a tensor entry of a tile is owned by another context than `c` that holds a task (R159). -/
def State.tidTaken (s : State) (t c n : Nat) : Bool :=
  let d := FMap.get {} (s.tile t).tids n
  d.valid && d.owner != c && decide (d.owner < 4) && (s.ctx t d.owner).task.isSome

/-- Whether a context is kept for a wide variant, or held for another queue's node or saved task (R298, R344). -/
def State.spokenFor (s : State) (q t c : Nat) : Bool :=
  (s.cp.gangs.any fun (_, x) => x.reserved.any fun (_, u, d) => u == t && d == c) ||
    s.cp.queues.any fun (p, x) => p != q && match x.held with
      | some h => h.ctxs.contains (t, c)
      | none => false

/-- Whether context c of tile t can take a task with this window, feature requirement and tensor entries. -/
def State.canTake (s : State) (q t c win : Nat) (feat : BitVec 8) (tids : List Nat) : Bool :=
  (s.ctx t c).phase == .idle && (s.ctx t c).task.isNone && s.windowFits t c win && feat &&& ~~~(s.tile t).feat == 0 &&
    !s.spokenFor q t c && tids.all fun n => !s.tidTaken t c n

/-- A context taken in a scratch state, so that the next member sees it. -/
def State.markTaken (s : State) (t c win : Nat) (tids : List Nat) : State :=
  let s1 := s.modCtx t c fun x => { x with task := some {}, sys := { x.sys with winSize := win } }
  s1.modTile t fun x => { x with tids := tids.foldl (fun m n => FMap.set {} m n { valid := true, owner := c }) x.tids }

/-- A context for each member in turn, the lowest that can take it; none where its tile has none. -/
def State.pickCtxs (s : State) (q win : Nat) (feat : BitVec 8) (tids : List Nat) : List Nat → List (Option (Nat × Nat))
  | [] => []
  | t :: ts =>
    match (List.range 4).find? fun c => s.canTake q t c win feat tids with
    | some c => some (t, c) :: (s.markTaken t c win tids).pickCtxs q win feat tids ts
    | none => none :: s.pickCtxs q win feat tids ts

/-- Whether every tile's island lies in the region's effective ISLANDS (R345). -/
def State.tilesAllowed (s : State) (region : Nat) (ts : List Nat) : Bool :=
  let mine := s.regionTiles region
  ts.all fun t => mine.contains t

/-! Loading a member (R321). -/

/-- The context as the launch unit loads it (R13, R321): `x` as it was, idle. DEDUCED: notes/assumptions/35.md. -/
def loadCtx (x : Ctx) (k : Kernel) (args : FMap Cap) (task : Task) (place size asid : Nat) (cycles : Nat) : Ctx :=
  { phase := .running, pc := task.codeOff,
    regs := { a := ((List.range 16).filter fun j => argOf (kArgs k.hdr) args j != {}).map fun j =>
      (j, argOf (kArgs k.hdr) args j) },
    h := k.bufs.foldl (fun m (n, v) => FMap.set {} m n v) [],
    views := { v := kBase k.hdr 0, t := kBase k.hdr 1, c := kBase k.hdr 2, k := kBase k.hdr 3, kCap := bitsOf k.hdr 199 192 },
    sys := { winBase := x.sys.winBase, winSize := kWin k.hdr, gang := task.member, gangM1 := size - 1,
             place := place, asid := asid, sup := kSup k.hdr },
    preempt := x.preempt, rec0 := x.rec0, rec1 := x.rec1, cycStart := cycles, task := some task }

/-- The task of a member, without its number (R321). -/
def Kernel.task (k : Kernel) (queue inst node region : Nat) (terms : Terms) (gang : Nat) (step arm : Option Nat) (rgn : Bool) (now : Nat) : Task :=
  { queue := queue, inst := inst, node := node, region := region, gang := gang, step := step, arm := arm,
    code := k.image.code, codeOff := BitVec.ofNat 48 (64 * bitsOf k.hdr 31 0), kobj := k.image.kdesc, koff := k.koff,
    wide := k.wide, isWide := kIswide k.hdr, dup := kDup k.hdr, dupObj := k.image.dupmap, dupOff := bitsOf k.hdr 383 320,
    shV := kShadow k.hdr 0, shT := kShadow k.hdr 1, shC := kShadow k.hdr 2, feat := kFeat k.hdr, terms := terms, rgn := rgn,
    order := gang, started := now }

/-- Member m loaded on context c of tile t (R321). -/
def State.loadMember (s : State) (k : Kernel) (args : FMap Cap) (task : Task) (place size asid m t c : Nat) : State :=
  let x := s.ctx t c
  let s1 := s.setCtx t c (loadCtx x k args { task with member := m } place size asid (s.island (t / 8)).cycles)
  s1.modTile t fun y => { y with tids := ((k.tensors args).getD []).foldl (fun a (n, d, cap) =>
    FMap.set {} a n (tidEntry d cap c (FMap.get {} a n))) y.tids }

/-- Every member of a gang loaded in turn. -/
def State.loadMembers (s : State) (k : Kernel) (args : FMap Cap) (task : Task) (place size asid : Nat) :
    Nat → List (Nat × Nat) → State
  | _, [] => s
  | m, (t, c) :: xs => (s.loadMember k args task place size asid m t c).loadMembers k args task place size asid (m + 1) xs

/-! Job nodes (R340). -/

/-- The checks at issue of a pump command, beside those of its encoding. -/
def pumpCheck : Instr → State → Except Stop Unit
  | .pcopy _ b => checkPcopy b
  | .pfill _ b => checkPfill b
  | .pgath _ b => checkProws b
  | .pscat _ b => checkProws b
  | .pdecl _ b => checkPdecl b
  | .pflushx _ b => checkPflushx b
  | .kvappend _ b => checkKvSource b
  | .kvattn _ b => checkKvattn b
  | .kvscore _ b => checkKvSource b
  | .kvseal _ b => checkKvSg b
  | .kvcompact _ b => checkKvcompact b
  | .kvfork _ b => checkKvfork b
  | .kvforkNew _ b => checkKvforkNew b
  | .kvfree _ b => checkKvSg b
  | .kvpin _ b => checkKvSg b
  | .kvwin _ b => checkKvSg b
  | .kvstat _ b => checkKvstat b
  | .colar _ b => checkCol b
  | .colrs _ b => checkCol b
  | .colag _ b => checkCol b
  | .colbc _ b => checkCol b
  | .colstat _ b => checkColstat b
  | .wjopen _ b => checkWj b
  | .wjwrite _ b => checkWjwrite b
  | .wjcommit _ b => checkWj b
  | .wjabort _ b => checkWj b
  | .wjstat _ b => checkWjstat b
  | _ => noCheck

/-- The body of a pump operation. -/
def pumpBody (i : Instr) : PumpBody := match slotFields i with
  | some f => unpackPump f.body
  | none => ⟨0, 0, 0, 0, 0, 0, 0⟩

/-- The opcode of a slot operation. -/
def opcOf (i : Instr) : Nat := match slotFields i with
  | some f => f.opc.toNat
  | none => 0

/-- Whether a command has HE, for a command that knows it. -/
def hasHe (i : Instr) : Bool := match i with
  | .pcopy _ b => pumpHe b
  | .pfill _ b => pumpHe b
  | .pgath _ b => pumpHe b
  | .kvstat _ b => pumpHe b
  | _ => false

/-- Whether a command has SG, for a command that knows it. -/
def hasSg (i : Instr) : Bool := match i with
  | .pfill _ b => pumpSg b
  | .pgath _ b => pumpSg b
  | .pscat _ b => pumpSg b
  | .pflushx _ b => pumpSg b
  | .kvseal _ b => pumpSg b
  | .kvfree _ b => pumpSg b
  | .kvpin _ b => pumpSg b
  | .kvwin _ b => pumpSg b
  | .colar _ b => pumpSg b
  | .colrs _ b => pumpSg b
  | .colag _ b => pumpSg b
  | .colbc _ b => pumpSg b
  | _ => false

/-- Whether a command belongs to a job node's kind and is one that a job may run (R340). -/
def jobAllows (kind : Nat) (i : Instr) : Bool :=
  let o := opcOf i
  (match kind with
    | 2 => decide (7 ≤ o) && decide (o ≤ 16)
    | 3 => decide (1 ≤ o) && decide (o ≤ 6)
    | _ => decide (17 ≤ o) && decide (o ≤ 20)) &&
    o != 8 && !hasHe i && !hasSg i && (pumpBody i).handle == 0 && (encodingFault none i).isNone

/-- The command of a job node with its captured registers, as the pump port of tile t takes it; none where it fails
(R340). Its checks run on a context made for it: s1 and s2 hold JS0 and JS1. DEDUCED: notes/assumptions/43.md. -/
def State.jobCmd (s : State) (gang t asid : Nat) (node : BitVec 1024) : Option PumpCmd :=
  match decodeSlot 6 false (nodeJobword node) with
  | .error _ => none
  | .ok i =>
    if !jobAllows (nodeKind node) i then none
    else
      let b := pumpBody i
      let args := s.argsThatPass asid node (BitVec.allOnes 16)
      let x : Ctx := { phase := .running, sys := { asid := asid },
                       regs := { a := args, s := [(1, nodeJs0 node), (2, nodeJs1 node)] } }
      let s1 := { s.setCtx t 0 x with core := { (s.setCtx t 0 x).core with cur := (t, 0) } }
      let f := slotFields i
      let body : PumpBody := { b with s0 := 1, s1 := 2 }
      let j := match f with
        | some y => (match decodeSlot 6 false (packSlot y.opc y.g (packPump body)) with
          | .ok k => k
          | .error _ => i)
        | none => i
      match pumpCheck j s1 with
      | .error _ => none
      | .ok _ => some { s1.mkCmd j body with id := s.nextId, body := b, job := some gang, slotWord := nodeJobword node }

end Sys2Proof.Machine
end

