-- ==== Sys2Proof/Machine/Graph.lean ====
section
/-! DEFINITION. Graph instances, the lottery, dispatch, node completion, instance ends, wide variants and regenerations:
spec/18_queues_launch.md R338 to R346, spec/19_faults_preemption.md R359, spec/13_programs_compute.md R298. -/

namespace Sys2Proof.Machine

/-! Instances (R338, R346, R359, R377). -/

/-- Whether the graph of this header has a live instance (R338). -/
def State.graphLive (s : State) (g : Ref) : Bool := s.cp.insts.any fun (_, x) => x.graph == g

/-- An entry added to the loss list of 4,096 (R377). -/
def State.lossAdd (s : State) (l : Loss) : State :=
  if s.cp.loss.length < 4096 then { s with cp := { s.cp with loss := s.cp.loss ++ [l] } } else s
/-- An instance's entry removed from the loss list (R377). -/
def State.lossDrop (s : State) (i : Nat) : State :=
  { s with cp := { s.cp with loss := s.cp.loss.filter fun l => l.inst != i } }

/-- The cheapest of a list of placements, the lowest number among equals (R345). -/
def State.cheapest (s : State) (part : Nat) (ps : List Placement) : Option Placement :=
  ps.foldl (fun best p => match best with
    | none => some p
    | some b => if s.placeCost part p < s.placeCost part b then some p else best) none

/-- A node that becomes ready starts waking the islands of its cheapest placement (R345, R369). -/
def State.wakeForNode (s : State) (x : Inst) (node : BitVec 1024) : State :=
  let r := x.nodeRegion node
  let part := s.regionPart r
  match s.kernel (s.regionAsid r) (nodeKobj node) (nodeKoff node) false with
  | none => s
  | some k =>
    match s.cheapest part (s.placements k node part) with
    | none => s
    | some p => s.askWakes x.step.isSome (tileIslands (s.placeTiles part p))

/-- The nodes of a graph; none where one cannot be read. -/
def State.graphNodes (s : State) (g : Ref) (n : Nat) : Option (List (BitVec 1024)) := (List.range n).mapM fun i => s.graphNode g i

/-- The counters of an instance written from PRED0 (R338). -/
def State.initCounters (s : State) (x : Inst) (nodes : List (BitVec 1024)) : State :=
  nodes.zipIdx.foldl (fun a (v, i) => a.setCounter x i (nodePred0 v)) s

/-- An instance created (R338): the counters are written, the nodes without predecessors become ready, ahead of the
ready list for a tick's instance (R346). None where the header fails its checks. `x` says whose it is. -/
def State.createInst (s : State) (x : Inst) (front : Bool) : Option (State × Nat) := do
  let h ← s.graphHeader x.graph
  let nodes ← s.graphNodes x.graph (hdrNnode h)
  let i := s.nextId
  let ready := (nodes.zipIdx.filter fun (v, _) => nodePred0 v == 0).map Prod.snd
  let y := { x with header := h, asid := x.graph.asid, hasEnd := nodes.any fun v => nodeKind v == 5, created := s.now,
                    waiting := (List.range nodes.length).filter fun k => !ready.contains k }
  let s1 := ({ s with nextId := i + 1 }.initCounters y nodes).modInst i fun _ => y
  let s2 := s1.lossAdd { inst := i, queue := x.queue, graph := x.graph, signal := x.signalRef }
  let items := ready.map fun k => ReadyItem.node i k
  let s3 := if front then s2.readyAhead x.queue items else s2.readyBack x.queue items
  some ((ready.filterMap fun k => nodes[k]?).foldl (fun a v => a.wakeForNode y v) s3, i)

/-! What a ready node needs (R339, R340, R345). -/

/-- A node dispatched or tried: where it comes from. -/
structure Work where
  queue : Nat := 0
  inst : Nat := 0
  node : BitVec 1024 := 0
  idx : Option Nat := none
  entry : Option Nat := none
deriving DecidableEq, Repr

/-- The node of a ready item; none for a saved task. A node that cannot be read reads 0, which no KIND is. -/
def State.workOf (s : State) (q : Nat) : ReadyItem → Option Work
  | .node i k => some { queue := q, inst := i, node := (s.graphNode (s.inst i).graph k).getD 0, idx := some k }
  | .launched i v e => some { queue := q, inst := i, node := v, entry := e }
  | .saved _ => none

/-- The head item of a queue taken off, with what was held for it; its pending-launch entry returns (R221, R344). -/
def State.takeHead (s : State) (w : Work) : State :=
  let s1 := s.modQueue w.queue fun x => { x with ready := x.ready.drop 1, held := none }
  match w.entry with
  | some e => s1.returnEntry e
  | none => s1

/-- The record of a node dispatched now, with what it takes of its region (R337). -/
def State.gangOf (s : State) (w : Work) (region : Nat) : Gang :=
  { inst := w.inst, node := w.node, nodeIdx := w.idx, region := region, terms := s.regionTerms region, queue := w.queue }

/-- A node that runs nothing: it completes with a status (R339, R342). -/
def State.nullNode (s : State) (w : Work) (region status : Nat) : State :=
  let s1 := s.takeHead w
  { s1 with nextId := s1.nextId + 1 }.modGang s1.nextId fun _ => { s.gangOf w region with status := status }

/-- What dispatch does with a node: it has started or ended at once, or it is held. -/
inductive Tried where
  | done (s : State)
  | hold (s : State) (h : Hold)

/-- The placement on which a node is tried, and contexts for its members: the held one, or the cheapest that can
start, or the cheapest (R345). DEDUCED: notes/assumptions/44.md. -/
def State.choose (s : State) (part : Nat) (ps : List Placement) (held : Option Hold)
    (pick : List Nat → List (Option (Nat × Nat))) (ok : List Nat → Bool) : Option (Placement × List (Option (Nat × Nat))) :=
  let can (p : Placement) : Bool := ok (s.placeTiles part p) && (pick (s.placeTiles part p)).all Option.isSome
  let fixed := held.bind fun h => ps.find? fun p => p.num == h.place
  let p? := match fixed with
    | some p => some p
    | none => match s.cheapest part (ps.filter can) with
      | some p => some p
      | none => s.cheapest part ps
  p?.map fun p => (p, pick (s.placeTiles part p))

/-- On each tile that lacks a context the task of the lowest class below the node's is asked for, the latest started
among equals; none where the tile has such a request already (R360). -/
def State.askTile (s : State) (cls t : Nat) : State :=
  if (List.range 4).any fun c => match (s.ctx t c).preempt with
      | some r => r.kind == .heldNode
      | none => false then s
  else
    let cand := (List.range 4).filterMap fun c =>
      match (s.ctx t c).task with
      | some k => if cls < k.terms.cls then some (k.terms.cls, k.started, c) else none
      | none => none
    match cand.foldl (fun best x => match best with
        | none => some x
        | some b => if b.1 < x.1 ∨ (b.1 = x.1 ∧ b.2.1 < x.2.1) then some x else best) (none : Option (Nat × Nat × Nat)) with
    | some (_, _, c) => s.askPreempt t c .heldNode
    | none => s

/-- Whether early service lets a node run (R396). -/
def State.nodeEarly (s : State) (w : Work) : Bool :=
  s.sec.trained ||
    (let x := s.inst w.inst
     let asid := s.regionAsid (x.nodeRegion w.node)
     (match s.kernel asid (nodeKobj w.node) (nodeKoff w.node) false with
      | none => true
      | some k =>
        s.rangeEarly asid k.image.kdesc k.koff (kBytes k.hdr) &&
          s.rangeEarly asid k.image.code (64 * bitsOf k.hdr 31 0) (64 * bitsOf k.hdr 63 32)) &&
      ((List.range 16).all fun j => (s.cpPort asid (nodeArgobj w.node) kindsAny [] [] (nodeArgoff w.node + 16 * j) 16).isNone ||
        s.rangeEarly asid (nodeArgobj w.node) (nodeArgoff w.node + 16 * j) 16) &&
      (s.edgesOf x w.node).all fun e => match e with
        | some e => (s.carried x e).all fun r => s.rangeEarly x.asid r.1 r.2.1 r.2.2
        | none => true)

/-- A tile gang tried (R321, R345). -/
def State.tryGang (s : State) (w : Work) (r : Nat) (held : Option Hold) : Tried :=
  let x := s.inst w.inst
  let part := s.regionPart r
  let asid := s.regionAsid r
  match s.kernel asid (nodeKobj w.node) (nodeKoff w.node) false with
  | none => .done (s.nullNode w r 2)
  | some k =>
    match s.argCaps asid w.node (kArgs k.hdr) with
    | none => .done (s.nullNode w r 2)
    | some args =>
      match k.tensors args with
      | none => .done (s.nullNode w r 2)
      | some _ =>
        if !s.saveFits part k then .done (s.nullNode w r 2)
        else match s.choose part (s.placements k w.node part) held
            (s.pickCtxs w.queue (kWin k.hdr) (kFeat k.hdr) (k.tids.map Prod.fst)) (s.tilesAllowed r) with
          | none => .done (s.nullNode w r 2)
          | some (p, cs) =>
            let ts := s.placeTiles part p
            let s1 := s.askWakes x.step.isSome (tileIslands ts ++ s.absIslands part (nodeWake w.node))
            if cs.all Option.isSome && s.tilesAllowed r ts && (tileIslands ts).all fun i => (s.island i).state.up then
              let g := s1.nextId
              let got := cs.filterMap id
              let s2 := { s1.takeHead w with nextId := g + 1 }
              let wideArgs := (k.wide.bind fun off => s.kernelHdr k.image off).map kArgs
              let x0 := s.gangOf w r
              let s3 := s2.modGang g fun _ =>
                { x0 with members := got.map (fun (t, c) => .on t c), placement := p.num,
                                tiles := got.zipIdx.foldl (fun m (e, j) => FMap.set 0 m j e.1) [],
                                args := s.argsThatPass asid w.node (kArgs k.hdr ||| wideArgs.getD 0) }
              .done (s3.loadMembers k args (k.task w.queue w.inst (w.idx.getD 0) r (s.regionTerms r) g x.step x.arm x.regen.isSome s.now)
                p.num got.length asid 0 got)
            else .hold (((ts.zip cs).filter fun e => e.2.isNone).foldl (fun a e => a.askTile (s.regionClass r) e.1) s1)
              { place := p.num, tiles := ts, win := kWin k.hdr, ctxs := cs.filterMap id }

/-- A job node tried (R340). DEDUCED: notes/assumptions/43.md. -/
def State.tryJob (s : State) (w : Work) (r : Nat) (held : Option Hold) : Tried :=
  let x := s.inst w.inst
  let part := s.regionPart r
  let asid := s.regionAsid r
  match s.kernel asid (nodeKobj w.node) (nodeKoff w.node) false with
  | none => .done (s.nullNode w r 2)
  | some k =>
    match s.choose part (s.placements k w.node part) held (fun _ => []) (s.tilesAllowed r) with
    | none => .done (s.nullNode w r 2)
    | some (p, _) =>
      let ts := s.placeTiles part p
      let t := ts.headD 0
      let s1 := s.askWakes x.step.isSome (tileIslands ts ++ s.absIslands part (nodeWake w.node))
      if s.tilesAllowed r ts && (s.island (t / 8)).state.up then
        match s1.jobCmd s1.nextId t asid w.node with
        | none => .done (s1.nullNode w r 2)
        | some m =>
          let g := s1.nextId
          let m1 := { m with id := g + 1 }
          let s2 := { s1.takeHead w with nextId := g + 2 }
          .done ((s2.modGang g fun _ => { s.gangOf w r with placement := p.num, job := some m1.id }).addCmd m1)
      else .hold s1 { place := p.num, tiles := ts }

/-- A node tried (R339 to R342, R345). DEDUCED: notes/assumptions/44.md. -/
def State.tryNode (s : State) (w : Work) (held : Option Hold) : Tried :=
  let x := s.inst w.inst
  let r := x.nodeRegion w.node
  if !nodeOk w.node || s.regionBlock r == 0 then .done (s.nullNode w r 2)
  else if nodeKind w.node = 5 then .done ((s.modInst w.inst fun x => { x with endReleased := true }).nullNode w r 0)
  else if nodeKind w.node = 1 then s.tryGang w r held
  else s.tryJob w r held

/-! The lottery (R344, R403). -/

/-- Whether a region lies in the subtree of one whose POWERCAP was exceeded in the last tick (R335, R336, R403).
DEDUCED: notes/assumptions/44.md. -/
def State.powerCapped (s : State) (r : Nat) : Bool :=
  s.regionClass r != 0 &&
    s.cp.regions.any fun (a, b) => b.getLsbD 71 && bitsOf b 335 320 != 0 && s.inSubtree a 9 r &&
      decide (bitsOf b 335 320 * 1000 <
        ((s.pow.regionTick.filter fun (k, _) => s.inSubtree a 9 k).map Prod.snd).foldl (· + ·) 0)

/-- The region of a ready item. -/
def State.itemRegion (s : State) (q : Nat) (it : ReadyItem) : Nat :=
  match it with
  | .saved k => ((s.save k).ctx.task.getD {}).region
  | _ => match s.workOf q it with
    | some w => (s.inst w.inst).nodeRegion w.node
    | none => 0

/-- Whether a queue may be drawn (R344, R396, R403). DEDUCED: notes/assumptions/44.md. -/
def State.eligible (s : State) (q : Nat) : Bool :=
  let x := s.queue q
  match x.ready with
  | [] => false
  | it :: _ =>
    x.held.isNone && qState x.entry != 0 &&
      ((s.islandsOf (s.regionPart (qRegion x.entry))).any fun i =>
        (s.island i).state.up || (s.island i).state == .waking) &&
      !s.powerCapped (s.itemRegion q it) &&
      match s.workOf q it with
      | some w => s.nodeEarly w
      | none => true

/-- The tickets of a queue: its region's (R335). -/
def State.tickets (s : State) (q : Nat) : Nat := s.effField 2 (fun b => bitsOf b 159 128) 9 (qRegion (s.queue q).entry)

/-- One step of the generator (R344). -/
def lotteryStep (x : Word) : Word :=
  let a := x ^^^ (x <<< 13)
  let b := a ^^^ (a >>> 7)
  b ^^^ (b <<< 17)

/-- The first queue whose running sum of tickets exceeds r (R344). -/
def walkTickets (tk : Nat → Nat) (r : Nat) : Nat → List Nat → Option Nat
  | _, [] => none
  | acc, q :: qs => if r < acc + tk q then some q else walkTickets tk r (acc + tk q) qs

/-- A draw among queues of one class, in ascending number (R344). -/
def State.draw (s : State) (qs : List Nat) : State × Option Nat :=
  match qs with
  | [] => (s, none)
  | [q] => (s, some q)
  | _ =>
    let x := lotteryStep s.cp.lottery
    let total := (qs.map s.tickets).foldl (· + ·) 0
    ({ s with cp := { s.cp with lottery := x } },
      if total = 0 then qs.head? else walkTickets s.tickets (x.toNat % total) 0 qs)

/-- The eligible queues of the highest class among some (R344). -/
def State.topClass (s : State) (qs : List Nat) : List Nat :=
  let cls := qs.map fun q => s.regionClass (qRegion (s.queue q).entry)
  let best := cls.foldl min 4
  qs.filter fun q => s.regionClass (qRegion (s.queue q).entry) == best

/-- A queue's head tried; where it cannot start, it is held (R344). A saved task that is drawn waits to be resumed
(R360, R363). -/
def State.tryQueue (s : State) (q : Nat) : State × Bool :=
  match (s.queue q).ready with
  | [] => (s, false)
  | it :: _ =>
    match s.workOf q it with
    | none => (s.modQueue q fun x => { x with held := some (x.held.getD { place := 16 }) }, false)
    | some w =>
      match s.tryNode w (s.queue q).held with
      | .done s1 => (s1, true)
      | .hold s1 h => (s1.modQueue q fun x => { x with held := some h }, false)

/-- The held queues tried in ascending number (R344). -/
def State.tryHeld (s : State) : List Nat → State × Bool
  | [] => (s, false)
  | q :: qs =>
    match s.tryQueue q with
    | (s1, true) => (s1, true)
    | (s1, false) => s1.tryHeld qs

/-- Draws until a node starts or no eligible queue is left (R344). -/
def State.drawLoop (s : State) : Nat → State
  | 0 => s
  | fuel + 1 =>
    match s.draw (s.topClass (s.cp.queues.keys.filter s.eligible)) with
    | (s1, none) => s1
    | (s1, some q) =>
      match s1.tryQueue q with
      | (s2, true) => s2
      | (s2, false) => s2.drawLoop fuel

/-- The nodes of tick instances tried in their order, each where it heads its queue (R346). -/
def State.tryAhead (s : State) : List (Nat × ReadyItem) → State × Bool
  | [] => (s, false)
  | (q, it) :: xs =>
    if (s.queue q).ready.head? = some it ∧ ((s.queue q).held.isSome ∨ s.eligible q = true) then
      (match s.tryQueue q with
        | (s1, true) => (s1, true)
        | (s1, false) => s1.tryAhead xs)
    else s.tryAhead xs

/-- The nodes of tick instances that have left their ready lists are no longer listed. -/
def State.pruneAhead (s : State) : State :=
  { s with cp := { s.cp with ahead := s.cp.ahead.filter fun (q, it) => (s.queue q).ready.contains it } }

/-- What dispatch tries before it draws (R344, R346): the nodes of tick instances, then the held queues. -/
def State.tryFirst (s : State) : State × Bool :=
  let s0 := s.pruneAhead
  match s0.tryAhead s0.cp.ahead with
  | (s1, true) => (s1, true)
  | (s1, false) => s1.tryHeld (s1.cp.queues.keys.filter fun q => (s1.queue q).held.isSome && !(s1.queue q).ready.isEmpty)

/-- NODE_DISPATCH (R344 to R346): a tick's node or a held one starts if it can now; else one is drawn. -/
def execNodeDispatch (s : State) : Host.Outcome State Fault Refusal :=
  match s.tryFirst with
  | (s1, true) => .next s1
  | (s1, false) => .next (s1.drawLoop s1.cp.queues.length)

/-! Completion (R237, R341). -/

/-- One edge's decrement (R341): `cut` when the edge is malformed or its counter is at zero already. -/
def State.releaseEdge (s : State) (i : Nat) (e : Option EdgeRec) : State :=
  let x := s.inst i
  let spoil (s : State) := s.modInst i fun x => { x with status := mergeStatus x.status 2 }
  match e with
  | none => spoil s
  | some e =>
    match s.counter x e.succ with
    | none => spoil s
    | some 0 => spoil s
    | some (n + 1) =>
      let s1 := s.setCounter x e.succ n
      if n = 0 then
        let s2 := (s1.readyBack x.queue [.node i e.succ]).modInst i fun x =>
          { x with waiting := x.waiting.filter fun k => k != e.succ }
        (match s2.graphNode x.graph e.succ with
          | some v => s2.wakeForNode x v
          | none => s2)
      else s1

/-- Steps 3 and 4 of R341 and the successors' decrements. -/
def State.nodeEnd (s : State) (g : Nat) : State :=
  let x := s.gang g
  let i := s.inst x.inst
  let status := if x.wide ∧ x.status = 0 then 7 else x.status
  let s1 := if nodeSigen x.node then
      (match s.signalRef x.terms.asid (nodeSigobj x.node) (nodeSigoff x.node) [rW] with
        | some (pa, ds) => (s.markDirty ds).signalAt pa (-1) status
        | none => s)
    else s
  let s2 := s1.modInst x.inst fun y => { y with status := mergeStatus y.status status }
  let s3 := if i.discarded then s2
    else (s.edgesOf i x.node).foldl (fun a e => a.releaseEdge x.inst e)
      ((s.edgesOf i x.node).foldl (fun a e => match e with
        | some e => (s.carried i e).foldl (fun b r => b.dropCopies i.asid r) a
        | none => a) s2)
  { s3 with cp := { s3.cp with gangs := FMap.set {} s3.cp.gangs g {} } }

/-- Whether a node's completion may go on (R341): its members have ended, its job is done, its wide variant has run. -/
def Gang.finished (x : Gang) : Bool :=
  (x.members.all fun m => m == .ended) && x.job.isNone && (!x.rplw || x.wide)

/-- Whether an effect is in the hold buffer already. -/
def State.isHeld (s : State) (e : HeldEffect) : Bool :=
  match s.sec.fw.hold with
  | some h => h.any fun x => x.2.2 == e
  | none => false

/-- NODE_COMPLETE (R341, R400). -/
def execNodeComplete (g : Nat) (s : State) : Host.Outcome State Fault Refusal :=
  if !(s.cp.gangs.keys.contains g) || !(s.gang g).finished || s.isHeld (.gangDone g) || s.holdFull then .next s
  else if s.holding then .next (s.holdEffect (.gangDone g))
  else .next (s.nodeEnd g)

/-! The end of an instance (R273, R342, R346, R359). -/

/-- An arm. -/
def State.arm (s : State) (a : Nat) : Arm := FMap.get {} s.cp.arms a
/-- An arm changed. -/
def State.modArm (s : State) (a : Nat) (f : Arm → Arm) : State :=
  { s with cp := { s.cp with arms := FMap.set {} s.cp.arms a (f (s.arm a)) } }
/-- The time of tick k (R270). -/
def Arm.tickTime (x : Arm) (k : Nat) : Nat := x.phase + k * x.period

/-- An arm as the arming of its step k set it: the current one, or an earlier one of which that step still runs (R271). -/
def State.armOf (s : State) (a k : Nat) : Arm :=
  let y := s.arm a
  match y.past.find? fun p => p.step == k with
  | some p => { y with first := p.first, period := p.period, phase := p.phase }
  | none => y

/-- The status with DEADLINE_MISSED merged, where step k's graph under EACH ends at Tk+1 or later (R273).
DEDUCED: notes/assumptions/45.md. -/
def State.lateStatus (s : State) (x : Inst) (time : Nat) : Nat :=
  match x.arm, x.step with
  | some a, some k =>
    if !(s.armOf a k).first && decide ((s.armOf a k).tickTime (k + 1) ≤ time) then mergeStatus x.status 5 else x.status
  | _, _ => x.status

/-- The contexts that wait for a page (R359). -/
def State.pageWaiters (s : State) (asid obj start : Nat) : List (Nat × Nat) :=
  s.core.ctxs.filterMap fun (k, x) => if x.phase = .page asid obj start then some (k / 4, k % 4) else none

/-- A waiting context ends with PAGE_REGEN, its record that of the operation which met the page (R350, R359). -/
def State.failWaiter (s : State) (tc : Nat × Nat) (obj start : Nat) : State :=
  let x := s.ctx tc.1 tc.2
  let at_ := x.pageTrap.getD (0, x.pc)
  let s1 := s.writeFault tc.1 tc.2 0 { code := trapPAGE_REGEN, sub := BitVec.ofNat 16 at_.1, slot := at_.1, obj := obj, off := start } at_.2
  (match x.task with
    | some k => s1.faultDomain tc.1 tc.2 k
    | none => s1).stopTask tc.1 tc.2 x.bundleNo 2

/-- A context that waited for a page runs again (R359). -/
def State.pageOver (s : State) (tc : Nat × Nat) : State :=
  s.modCtx tc.1 tc.2 fun x => { x with phase := .running, pageTrap := none }

/-- The end of a regeneration (R359): its page becomes PRESENT and DIRTY and its waiters run again, or they end. -/
def State.regenEnd (s : State) (i status : Nat) : State :=
  match s.cp.regens.find? fun r => r.inst == some i with
  | none => s
  | some r =>
    let s1 := { s with cp := { s.cp with regens := s.cp.regens.filter fun q => q.inst != some i } }
    let ws := s1.pageWaiters r.asid r.obj r.start
    if status = 0 ∨ status = 7 then
      let s2 := s1.wr8 r.entry (s1.rd8 r.entry ||| 0x0C#8)
      ws.foldl State.pageOver s2
    else ws.foldl (fun a w => a.failWaiter w r.obj r.start) s1

/-- An arm whose step's graph instance has ended at a time (R271, R273). -/
def Arm.instOver (y : Arm) (i time : Nat) : Arm :=
  let past := y.past.map fun p => if p.inst = some i then { p with inst := none } else p
  if y.curInst = some i then { y with curInst := none, curEnd := some time, past := past } else { y with past := past }

/-- An instance ends at a time (R342): leftovers go, its signals are updated, a regeneration or an arm learns of it. -/
def State.instEnd (s : State) (i time : Nat) : State :=
  let x := s.inst i
  let status := s.lateStatus x time
  let s1 := s.discardNodes i
  let s2 := match x.signal with
    | some pa => s1.signalAt pa (-1) status
    | none => s1
  let s3 := match x.stepSig with
    | some pa => s2.signalAt pa (-1) status
    | none => s2
  let s4 := (s3.lossDrop i).regenEnd i status
  let s5 := match x.arm with
    | some a => s4.modArm a fun y => y.instOver i time
    | none => s4
  { s5 with cp := { s5.cp with insts := FMap.set {} s5.cp.insts i {} } }

/-- Whether an instance ends (R342). -/
def State.instOver (s : State) (i : Nat) : Bool :=
  let x := s.inst i
  (s.gangsOf i).isEmpty &&
    (x.endReleased || ((!x.hasEnd || x.discarded) && !((s.queue x.queue).ready.any (ReadyItem.ofInst i))))

/-- INSTANCE_END (R342, R400). -/
def execInstanceEnd (i : Nat) (s : State) : Host.Outcome State Fault Refusal :=
  if !(s.cp.insts.keys.contains i) || !s.instOver i || s.isHeld (.instEnd i) || s.holdFull then .next s
  else if s.holding then .next (s.holdEffect (.instEnd i))
  else .next (s.instEnd i s.ns)

/-! The wide variant (R224, R298). -/

/-- The context for a wide member: the one kept for it, else any of its narrow member's tile that can take it. -/
def State.wideCtx (s : State) (g : Gang) (k : Kernel) (m : Nat) : Option (Nat × Nat) :=
  let tids := k.tids.map Prod.fst
  match g.reserved.find? fun e => e.1 == m with
  | some (_, t, c) => if tids.any fun n => s.tidTaken t c n then none else some (t, c)
  | none =>
    let t := FMap.get 0 g.tiles m
    ((List.range 4).find? fun c => s.canTake g.queue t c (kWin k.hdr) (kFeat k.hdr) tids).map fun c => (t, c)

/-- Contexts for every wide member in turn. -/
def State.wideCtxs (s : State) (g : Gang) (k : Kernel) : List Nat → List (Nat × Option (Nat × Nat))
  | [] => []
  | m :: ms =>
    match s.wideCtx g k m with
    | some (t, c) => (m, some (t, c)) :: (s.markTaken t c (kWin k.hdr) (k.tids.map Prod.fst)).wideCtxs g k ms
    | none => (m, none) :: s.wideCtxs g k ms

/-- The argument templates of a wide variant pass (R321). -/
def State.wideKernel (s : State) (g : Gang) : Option Kernel :=
  let asid := g.terms.asid
  match s.kernel asid (nodeKobj g.node) (nodeKoff g.node) false with
  | none => none
  | some n =>
    match n.wide with
    | none => none
    | some off =>
      match s.kernel asid (nodeKobj g.node) off true with
      | none => none
      | some k => if (k.tensors g.args).isSome && s.saveFits (s.regionPart g.region) k then some k else none

/-- WIDE_VARIANT_LAUNCH (R224, R298): it runs as a new gang; it waits for contexts and islands and asks for them; a variant that fails its checks ends the
node with STATUS 2. -/
def execWideVariantLaunch (n : Nat) (s : State) : Host.Outcome State Fault Refusal :=
  let g := s.gang n
  if !(g.rplw && !g.wide && g.members.all fun m => m == .ended) then .next s
  else match s.wideKernel g with
    | none => .next (s.modGang n fun x => { x with wide := true, rplw := false, reserved := [], status := mergeStatus x.status 2 })
    | some k =>
      let cs := s.wideCtxs g k (List.range g.members.length)
      let short := cs.filter fun e => e.2.isNone && !(g.reserved.any fun r => r.1 == e.1)
      let got := cs.filterMap Prod.snd
      let x := s.inst g.inst
      if cs.all (fun e => e.2.isSome) && (tileIslands (got.map Prod.fst)).all fun i => (s.island i).state.up then
        let s1 := s.modGang n fun y =>
          { y with wide := true, rplw := false, reserved := [], barGens := [], members := got.map fun (t, c) => .on t c,
                   tiles := got.zipIdx.foldl (fun m (e, j) => FMap.set 0 m j e.1) [] }
        .next (s1.loadMembers k g.args (k.task g.queue g.inst (g.nodeIdx.getD 0) g.region g.terms n x.step x.arm x.regen.isSome s.now)
          g.placement got.length g.terms.asid 0 got)
      else
        let ts := cs.map fun e => match e.2 with
          | some (t, _) => t
          | none => FMap.get 0 g.tiles e.1
        .next ((short.foldl (fun a e => a.askTile g.terms.cls (FMap.get 0 g.tiles e.1)) s).askWakes x.step.isSome (tileIslands ts))

/-! Regenerations (R359). -/

/-- The request record (R359). DEDUCED: notes/assumptions/43.md. -/
def regenRecord (obj start size time : Nat) : List Byte :=
  leBytes 4 obj ++ leBytes 4 0 ++ leBytes 8 start ++ leBytes 8 size ++ leBytes 8 time

/-- A page's walk as the command processor makes it. -/
def State.cpPage (s : State) (asid obj off : Nat) : PageWalk :=
  match s.walkObj asid obj with
  | some e => if bitsOf e 83 82 = 1 then s.walkPage asid obj (bitsOf e 159 96) off else .invalid
  | none => .invalid

/-- A regeneration that cannot run is forgotten: its waiters run again and meet the page as it is now. -/
def State.dropRegen (s : State) (asid obj start : Nat) : State :=
  let s1 := { s with cp := { s.cp with regens := s.cp.regens.filter fun r =>
    !(r.asid == asid && r.obj == obj && r.start == start) } }
  (s.pageWaiters asid obj start).foldl State.pageOver s1

/-- A regeneration's request record, of which the page's walk gives size and entry, and its instance (R359). -/
def State.startRegen (s : State) (asid obj start size entry : Nat) (e : BitVec 256) : State :=
  let g : Ref := { asid := asid, obj := bitsOf e 159 140, off := bitsOf e 127 80 }
  let q := bitsOf e 76 64
  if s.graphLive g then s
  else
    let s1 := s.cpWrite asid (bitsOf e 227 208) [kGLOBAL] [rW] (bitsOf e 207 160) (regenRecord obj start size s.ns)
    match s1.createInst { queue := q, region := qRegion (s.queue q).entry, graph := g, regen := some (asid, obj, start) } false with
    | none =>
      let s2 := { s1 with cp := { s1.cp with regens := s1.cp.regens.filter fun r =>
        !(r.asid == asid && r.obj == obj && r.start == start) } }
      (s2.pageWaiters asid obj start).foldl (fun a w => a.failWaiter w obj start) s2
    | some (s2, i) =>
      { s2 with cp := { s2.cp with regens := s2.cp.regens.map fun r =>
        if r.asid == asid && r.obj == obj && r.start == start then { r with size := size, entry := entry, inst := some i }
        else r } }

/-- REGENERATION_START (R359): a regeneration that has been asked for starts, at most 256 at once; it waits while its
graph's instance is live. -/
def execRegenerationStart (asid obj page : Nat) (s : State) : Host.Outcome State Fault Refusal :=
  match s.cp.regens.find? fun r => r.asid == asid && r.obj == obj && r.start == page && r.inst.isNone with
  | none => .next s
  | some _ =>
    if 256 ≤ (s.cp.regens.filter fun r => r.inst.isSome).length then .next s
    else match s.cpPage asid obj page with
      | .absent start size entry regen =>
        (match s.regenEntry asid regen with
          | some e => .next (s.startRegen asid obj start size entry e)
          | none => .next (s.dropRegen asid obj page))
      | _ => .next (s.dropRegen asid obj page)

end Sys2Proof.Machine
end

