-- ==== Sys2Proof/Machine/Stream.lean ====
section
/-! DEFINITION. Time-stamped streams, timed arms and steps: spec/11_timed_streams.md R268 to R277. -/

namespace Sys2Proof.Machine

/-! Descriptors (R268). -/

def stOrigin (d : BitVec 512) : Nat := bitsOf d 511 448
def stRslots (d : BitVec 512) : Nat := bitsOf d 415 400
def stArm (d : BitVec 512) : Nat := bitsOf d 391 384
def stHoldlim (d : BitVec 512) : Nat := bitsOf d 383 352
def stWindow (d : BitVec 512) : Nat := bitsOf d 351 320
def stGuard (d : BitVec 512) : Nat := bitsOf d 319 288
def stPeriod (d : BitVec 512) : Nat := bitsOf d 287 256
def stSender (d : BitVec 512) : Nat := bitsOf d 255 240
def stTsize (d : BitVec 512) : Nat := bitsOf d 239 224
def stValid (d : BitVec 512) : Bool := d.getLsbD 3
def stBackfill (d : BitVec 512) : Bool := d.getLsbD 2
def stPolicy (d : BitVec 512) : Nat := bitsOf d 1 0

/-- A stream. -/
def State.stream (s : State) (k : Nat) : Stream := FMap.get {} s.eng.streams k
/-- A stream changed. -/
def State.modStream (s : State) (k : Nat) (f : Stream → Stream) : State :=
  { s with eng := { s.eng with streams := FMap.set {} s.eng.streams k (f (s.stream k)) } }

/-! Expected tokens and step ranges (R268, R271). -/

/-- n of a stamp (R268). -/
def stIndex (d : BitVec 512) (stamp : Nat) : Int :=
  ((stamp : Int) - stOrigin d + stPeriod d / 2) / stPeriod d

/-- The step whose own range holds index n (R271): the least k with En ≤ Ck. -/
def stepOf (d : BitVec 512) (a : Arm) (n : Int) : Int :=
  -((-((stOrigin d : Int) + n * stPeriod d + stGuard d - a.phase)) / a.period)

/-- The first index after a cut-off. -/
def afterCut (d : BitVec 512) (cut : Int) : Int := (cut - stOrigin d) / stPeriod d + 1

/-- The first index of step k's range, and the number of its indices (R271).
DEDUCED: notes/assumptions/45.md. DEDUCED: notes/assumptions/47.md. -/
def stepRange (d : BitVec 512) (a : Arm) (k : Nat) : Int × Nat :=
  let cut : Int := (a.tickTime k : Int) - stGuard d
  let lo := afterCut d (cut - a.period)
  (lo, (afterCut d cut - lo).toNat)

/-- Whether the range that holds n is closed (R271); no range of a disarmed arm is. -/
def State.rangeClosed (s : State) (x : Stream) (n : Int) : Bool :=
  let a := s.arm (stArm x.desc)
  a.armed && (let k := stepOf x.desc a n
    decide (k < a.firstStep) || x.closed.contains k.toNat)

/-! Arrival (R269). -/

/-- A token put into the ring in stamp order. -/
def insertToken (t : Token) : List Token → List Token
  | [] => [t]
  | u :: us => if t.stamp.toNat < u.stamp.toNat then t :: u :: us else u :: insertToken t us

/-- A token filed or dropped (R269), once its stream is known to accept tokens. DEDUCED: notes/assumptions/47.md. -/
def State.fileToken (s : State) (k : Nat) (msg : List Byte) : State :=
  let x := s.stream k
  let d := x.desc
  let count (f : StreamCounts → StreamCounts) := s.modStream k fun x => { x with counts := f x.counts }
  let stamp := leNat (msg.take 8)
  if leNat ((msg.drop 10).take 2) ≠ stSender d ∨ leNat ((msg.drop 12).take 4) ≠ 0 ∨ msg.length ≠ 16 + 64 * stTsize d then
    count fun c => { c with badHdr := satAdd c.badHdr 1 }
  else
    let n := stIndex d stamp
    if stamp + stWindow d < s.ns ∨ n < 0 then count fun c => { c with tooLate := satAdd c.tooLate 1 }
    else if x.ring.any fun t => t.n == n then count fun c => { c with dup := satAdd c.dup 1 }
    else
      let late := s.rangeClosed x n
      if late && !stBackfill d then count fun c => { c with lateDrop := satAdd c.lateDrop 1 }
      else if stRslots d ≤ x.ring.length then count fun c => { c with overflow := satAdd c.overflow 1 }
      else
        let t : Token := { n := n, stamp := BitVec.ofNat 64 stamp, bytes := msg.drop 16, backfill := late }
        s.modStream k fun x => { x with ring := insertToken t x.ring }

/-- STREAM_TOKEN_ARRIVAL (R269). -/
def execStreamTokenArrival (msg : List Byte) (s : State) : Host.Outcome State Fault Refusal :=
  let k := leNat ((msg.drop 8).take 2)
  if s.pow.down then .next s
  else if 1023 < k ∨ !stValid (s.stream k).desc then .next { s with eng := { s.eng with stray := satAdd s.eng.stray 1 } }
  else .next (s.fileToken k msg)

/-! Steps (R271, R272, R277). -/

/-- The numbers of the VALID streams of an arm. -/
def State.streamsOf (s : State) (a : Nat) : List Nat :=
  s.eng.streams.filterMap fun (k, x) => if stValid x.desc && stArm x.desc == a then some k else none

/-- Whether a token is an own token of step k. -/
def ownOf (d : BitVec 512) (a : Arm) (k : Nat) (t : Token) : Bool :=
  let (lo, n) := stepRange d a k
  !t.backfill && decide (lo ≤ t.n) && decide (t.n < lo + n)

/-- Whether every token of step k's range is in the ring. -/
def Stream.complete (x : Stream) (a : Arm) (k : Nat) : Bool :=
  let (lo, n) := stepRange x.desc a k
  (List.range n).all fun i => x.ring.any fun t => t.n == lo + i && !t.backfill

/-- Tokens that have become late: backfills, or dropped and counted (R269, R272). -/
def Stream.lateTokens (x : Stream) (late : Token → Bool) : Stream :=
  if stBackfill x.desc then
    { x with ring := x.ring.map fun t => if late t then { t with backfill := true } else t }
  else
    { x with ring := x.ring.filter fun t => !late t,
             counts := { x.counts with lateDrop := satAdd x.counts.lateDrop (x.ring.filter late).length } }

/-- A KVWIN with the current WIN posted on a sequence (R277). DEDUCED: notes/assumptions/45.md. -/
def State.trimSeq (s : State) (k off : Nat) : State :=
  let m : PumpCmd := { id := s.nextId, job := some 0, opc := 15, home := some (k, off), place := .resolving,
                       s0 := BitVec.ofNat 64 (kvWin (s.seq k off).desc) }
  ({ s with nextId := s.nextId + 1 }.addCmd m).modSeq k off fun q => { q with waiting := q.waiting ++ [m.id] }

/-- The sequences bound to a stream, by arena and descriptor offset (R244, R277). -/
def State.boundSeqs (s : State) (k : Nat) : List (Nat × Nat) :=
  s.eng.arenas.flatMap fun (a, x) => x.seqs.filterMap fun (off, q) =>
    if kvValid q.desc && kvStream q.desc == k then some (a, off) else none

/-- The windows of the sequences bound to an arm's streams trimmed (R277). -/
def State.trimArm (s : State) (a : Nat) : State :=
  (((s.streamsOf a).flatMap s.boundSeqs)).foldl (fun b e => b.trimSeq e.1 e.2) s

/-- A stream at the end of step k (R271): delivered tokens and own tokens that were never delivered go. -/
def Stream.endStep (x : Stream) (a : Arm) (k : Nat) : Stream :=
  { x with ring := x.ring.filter fun t => t.delivered != some k && !(ownOf x.desc a k t && t.delivered.isNone),
           closed := if x.closed.contains k then x.closed else k :: x.closed }

/-- A stream at the end of a step of an earlier arming (R271): its delivered tokens go. -/
def Stream.endPast (x : Stream) (k : Nat) : Stream :=
  { x with ring := x.ring.filter fun t => t.delivered != some k }

/-- A step of an earlier arming ends (R271, R277). DEDUCED: notes/assumptions/45.md. -/
def State.endPast (s : State) (a : Nat) (p : PastStep) : State :=
  let s1 := (s.streamsOf a).foldl (fun b i => b.modStream i fun x => x.endPast p.step) s
  (s1.trimArm a).modArm a fun y => { y with past := y.past.filter fun q => q != p }

/-- Whether a step of an earlier arming is over: under EACH once its graph has completed, under FIRST at its next tick. -/
def State.pastOver (s : State) (p : PastStep) : Bool :=
  if p.first then decide (p.phase + (p.step + 1) * p.period ≤ s.ns) else p.inst.isNone

/-- Step k of an arm ends (R271, R277). -/
def State.endStep (s : State) (a k : Nat) : State :=
  let y := s.arm a
  let s1 := (s.streamsOf a).foldl (fun b i => b.modStream i fun x => x.endStep y k) s
  (s1.trimArm a).modArm a fun y => { y with cur := none }

/-- Step k of an arm is skipped (R271 to R273): every stream counts it and closes its range; the step has ended.
DEDUCED: notes/assumptions/45.md. -/
def State.skipStep (s : State) (a k : Nat) : State :=
  let y := s.arm a
  let s1 := (s.streamsOf a).foldl (fun b i => b.modStream i fun x =>
    let z := x.lateTokens (ownOf x.desc y k)
    { z with closed := k :: z.closed, counts := { z.counts with missed := satAdd z.counts.missed 1 } }) s
  s1.trimArm a

/-- STEP_END (R271): under EACH once step k's graph has completed, under FIRST at Tk+1. -/
def execStepEnd (a : Nat) (s : State) : Host.Outcome State Fault Refusal :=
  let y := s.arm a
  match y.past.find? s.pastOver, y.cur with
  | some p, _ => .next (s.endPast a p)
  | none, none => .next s
  | none, some k =>
    if (if y.first then decide (y.tickTime (k + 1) ≤ s.ns) else y.curInst.isNone) then .next (s.endStep a k) else .next s

/-! Ticks (R270 to R273, R276). -/

/-- A task that waits in TICKWAIT since before tick k is released by it (R276, R373). -/
def Ctx.tickRelease (x : Ctx) (a k time : Nat) : Ctx :=
  match x.waitSince with
  | some w =>
    if (x.task.bind fun t => t.arm) = some a ∧ w < time * 65536 ∧ x.tickTarget = none then { x with tickTarget := some k } else x
  | none => x

/-- Every task of an arm that waits in TICKWAIT is released by tick k. -/
def State.releaseTicks (s : State) (a k : Nat) : State :=
  let time := (s.arm a).tickTime k
  let s1 := s.core.ctxs.keys.foldl (fun b j => b.modCtx (j / 4) (j % 4) fun x => x.tickRelease a k time) s
  { s1 with cp := { s1.cp with saves := FMap.mapValues {} (fun _ v => { v with ctx := v.ctx.tickRelease a k time }) s1.cp.saves } }

/-- Whether a SKIP stream of the arm lacks a token of step k (R272). -/
def State.skips (s : State) (a k : Nat) : Bool :=
  (s.streamsOf a).any fun i => stPolicy (s.stream i).desc == 2 && !(s.stream i).complete (s.arm a) k

/-- Tokens filed while the arm was disarmed are judged at its first tick (R271). -/
def State.judgeTokens (s : State) (a : Nat) : State :=
  let y := s.arm a
  (s.streamsOf a).foldl (fun b i => b.modStream i fun x =>
    x.lateTokens fun t => !t.backfill && t.delivered.isNone && decide (stepOf x.desc y t.n < y.firstStep)) s

/-- Step k's graph launched, ahead of every ready list, with the arm's step signal (R270, R346); none where its header
fails its checks. -/
def State.launchStep (s : State) (a k : Nat) : Option (State × Nat) :=
  let y := s.arm a
  s.createInst { queue := y.queue, region := y.region, graph := y.graph, step := some k, arm := some a,
                 stepSig := if y.stepEn then some y.stepSig else none } true

/-- Tick k that is not skipped: the step is current, its graph launches where the mode has it so, waiting tasks are
released. DEDUCED: notes/assumptions/45.md. -/
def State.tickGo (s : State) (a k : Nat) : State :=
  let y := s.arm a
  let go (s : State) (i : Option Nat) := (s.modArm a fun y =>
    { y with cur := some k, curInst := i, curEnd := none, launched := true, lastTick := BitVec.ofNat 64 (y.tickTime k) }).releaseTicks a k
  if y.first && y.launched then go s y.curInst
  else match s.launchStep a k with
    | some (s1, i) => go s1 (some i)
    | none => s.skipStep a k

/-- TICK (R270 to R273): the arm's next tick has come. Under FIRST the step before it ends with it; under EACH a step
whose graph had not completed by then makes this one count as skipped, as does a graph that is live. -/
def execTick (a : Nat) (s : State) : Host.Outcome State Fault Refusal :=
  let y := s.arm a
  let k := y.nextTick
  if !y.armed || decide (s.ns < y.tickTime k) then .next s
  else
    let s0 := if k = y.firstStep then s.judgeTokens a else s
    let s1 := match y.cur with
      | some j => if y.first || y.curInst.isNone then s0.endStep a j else s0
      | none => s0
    let lateEnd := match y.curEnd with
      | some t => decide (y.tickTime k ≤ t)
      | none => false
    let busy := !y.first && (y.curInst.isSome || lateEnd || s1.graphLive y.graph)
    let s2 := if busy || s1.skips a k || (y.first && !y.launched && s1.graphLive y.graph) then s1.skipStep a k else s1.tickGo a k
    .next (s2.modArm a fun y => { y with nextTick := k + 1 })

/-- The islands of the placements that a graph's nodes would take (R270, R345). -/
def State.graphIslands (s : State) (g : Ref) (region : Nat) : List Nat :=
  match s.graphHeader g with
  | none => []
  | some h =>
    match s.graphNodes g (hdrNnode h) with
    | none => []
    | some vs => (vs.flatMap fun v =>
        let r := if nodeRegion v = 0 then region else nodeRegion v
        match s.kernel (s.regionAsid r) (nodeKobj v) (nodeKoff v) false with
        | none => []
        | some k => match s.cheapest (s.regionPart r) (s.placements k v (s.regionPart r)) with
          | some p => tileIslands (s.placeTiles (s.regionPart r) p)
          | none => []).eraseDups

/-- TICK_WAKE_LEAD (R270): from 30 µs before a tick that launches, the islands of the graph's placement are woken ahead
of every other request. -/
def execTickWakeLead (a : Nat) (s : State) : Host.Outcome State Fault Refusal :=
  let y := s.arm a
  if !y.armed || (y.first && y.launched) || decide (s.ns + 30000 < y.tickTime y.nextTick) then .next s
  else .next (s.askWakes true (s.graphIslands y.graph y.region))

/-! STMGET and STMSTAT (R274, R275). -/

/-- The check of STMGET (R274). DEDUCED: notes/assumptions/45.md. -/
def checkStmget (b : PumpBody) (s : State) : Except Stop Unit := do
  s.needFeature 3 6
  s.scratchOperand b.areg0.toNat rPD
  require (s.me.task.bind fun k => k.step).isSome (limitTrap 6)
  s.heChecks b (some (s.ra b.areg0.toNat, 1))

/-- STMGET (R274): a scratchpad command. -/
def execStmget (g : Guard) (b : PumpBody) (s : State) : Host.Outcome State Fault Refusal :=
  atIssue (.stmget g b) g (checkStmget b) (fun s => s.post true (s.mkCmd (.stmget g b) b)) s

/-- The check of STMSTAT (R274). -/
def checkStmstat (b : PumpBody) (s : State) : Except Stop Unit := do
  s.needFeature 3 6
  s.scratchOperand b.areg0.toNat rPD

/-- STMSTAT (R274): a scratchpad command. -/
def execStmstat (g : Guard) (b : PumpBody) (s : State) : Host.Outcome State Fault Refusal :=
  atIssue (.stmstat g b) g (checkStmstat b) (fun s => s.post true (s.mkCmd (.stmstat g b) b)) s

/-- The 64-byte record of a stream (R275). -/
def State.streamRecord (s : State) (x : Stream) : BitVec 512 :=
  let c := x.counts
  0#96 ++ s.eng.stray ++ 0#31 ++ BitVec.ofBool s.net.servo.locked ++ BitVec.ofInt 32 s.net.servo.offset ++
    (s.arm (stArm x.desc)).lastTick ++ c.heldOut ++ c.backfilled ++ c.missed ++ c.overflow ++ c.badHdr ++ c.dup ++
    c.lateDrop ++ c.tooLate

/-- STMSTAT at the stream engine (R274, R275). -/
def State.stmstat (s : State) (m : PumpCmd) : Except Stop State :=
  let k := bitsOf m.s0 9 0
  let x := s.stream k
  if !stValid x.desc then s.failCmd true m (limitTrap 6)
  else match s.statWrite m (leBytes 64 (s.streamRecord x).toNat) with
    | .ok s1 => .ok (if m.body.aux.getLsbD 0 then s1.modStream k fun x => { x with counts := {} } else s1)
    | .error e => s.failCmd true m e

/-- The delivery set of step k fixed (R275): backfills beyond the window are dropped and counted, the others follow the
own slots in stamp order, at most 16,384 in all; the range closes. -/
def State.fixDelivery (s : State) (i k : Nat) (a : Arm) : State :=
  s.modStream i fun x0 =>
    let old := fun (t : Token) => t.backfill && t.delivered.isNone && decide (t.stamp.toNat + stWindow x0.desc < s.ns)
    let x := { x0 with ring := x0.ring.filter fun t => !old t,
                       counts := { x0.counts with tooLate := satAdd x0.counts.tooLate (x0.ring.filter old).length } }
    let (lo, n) := stepRange x.desc a k
    let own := (List.range n).map fun (j : Nat) => x.ring.find? fun t => t.n == lo + j && !t.backfill && t.delivered.isNone
    let back := (x.ring.filter fun t => t.backfill && t.delivered.isNone).take (16384 - n)
    let took := (own.filterMap id ++ back).map fun t => t.n
    { x with ring := x.ring.map fun t => if t.delivered.isNone && took.contains t.n then { t with delivered := some k } else t,
             deliveries := x.deliveries ++ [{ step := k, firstN := lo, nown := n, own := own, back := back }],
             closed := if x.closed.contains k || (a.past.any fun p => p.step == k) then x.closed else k :: x.closed }

/-- The slots of a delivery, own slots first (R275). -/
def Delivery.slots (v : Delivery) : List (Option Token) := v.own ++ v.back.map some

/-- Part q of a delivery as it is written, and its mask (R275). -/
def Delivery.part (v : Delivery) (d : BitVec 512) (tick q : Nat) : List Byte × Mask :=
  let here := (v.slots.drop (64 * q)).take 64
  let head := leBytes 8 tick ++ leBytes 8 (BitVec.ofInt 64 v.firstN).toNat ++ leBytes 2 v.nown ++ leBytes 2 v.back.length ++
    leBytes 44 q
  let stamps := (List.range 64).flatMap fun j => leBytes 8 (match here.getD j none with
    | some t => t.stamp.toNat
    | none => 0)
  let toks := here.flatMap fun t => match t with
    | some t => t.bytes
    | none => List.replicate (64 * stTsize d) 0
  (head ++ stamps ++ toks, BitVec.ofNat 64 ((here.zipIdx.map fun (t, j) => if t.isSome then 2 ^ j else 0).foldl (· + ·) 0))

/-- The backfills of part q counted when it is first delivered (R275). -/
def Stream.countBack (x : Stream) (k q : Nat) : Stream :=
  match x.deliveries.find? fun v => v.step == k with
  | none => x
  | some v =>
    if v.counted.contains q then x
    else
      let n := ((List.range 64).filter fun j => decide (v.nown ≤ 64 * q + j) && decide (64 * q + j < v.nown + v.back.length)).length
      { x with counts := { x.counts with backfilled := satAdd x.counts.backfilled n },
               deliveries := x.deliveries.map fun w => if w.step = k then { w with counted := q :: w.counted } else w }

/-- One part delivered to the scratchpad, and p[M] written (R275). -/
def State.deliverPart (s : State) (m : PumpCmd) (i k : Nat) : Except Stop State := do
  let x := s.stream i
  let q := bitsOf m.s1 7 0
  let v := (x.deliveries.find? fun v => v.step == k).getD {}
  let (bs, mask) := v.part x.desc ((s.armOf (stArm x.desc) k).tickTime k) q
  capCheck 6 m.cap0 [kSCRATCH] [rPD] [] m.cap0.offset bs.length
  let (s1, ps, ds) ← s.pumpPort m m.cap0 [rPD] [] m.cap0.offset bs.length
  let (s2, m2) := (s1.markDirty ds).deliverPieces m (pumpHe m.body) true ps bs
  let s3 := s2.modStream i fun x => x.countBack k q
  .ok ((s3.modCtx m.tile m.ctx fun c => { c with regs := c.regs.setP (bitsOf m.body.aux 7 4) mask }).setCmd
    { m2 with place := .stream, finished := true })

/-- A STMGET resolves (R272, R275); `expired`: the hold limit has been reached. -/
def State.stmResolve (s : State) (m : PumpCmd) (expired : Bool) : Except Stop State :=
  let i := bitsOf m.s0 9 0
  let x := s.stream i
  let k := m.step.getD 0
  let a := s.armOf (stArm x.desc) k
  if !stValid x.desc || m.arm != some (stArm x.desc) then s.failCmd true m (limitTrap 6)
  else if x.deliveries.any fun v => v.step == k then
    (match s.deliverPart m i k with
      | .ok s' => .ok s'
      | .error e => s.failCmd true m e)
  else
    let ready := stPolicy x.desc != 1 || x.complete a k
    if ready || expired then
      let s1 := s.fixDelivery i k a
      let s2 := if ready then s1 else s1.modStream i fun x =>
        { x with counts := { x.counts with heldOut := satAdd x.counts.heldOut 1 } }
      (match s2.deliverPart m i k with
        | .ok s' => .ok s'
        | .error e => s.failCmd true m e)
    else .ok (s.setCmd { m with place := .stream })

/-- Whether a command is a STMGET that may resolve now. -/
def State.stmWaiting (s : State) (m : PumpCmd) : Bool := m.opc == 22 && !m.finished && !s.notStarted m && !s.cmdBlocked m

/-- STMGET_RESOLVE (R275). -/
def execStmgetResolve (id : Nat) (s : State) : Host.Outcome State Fault Refusal :=
  match s.cmd id with
  | none => .next s
  | some m => if s.stmWaiting m then finish s (s.stmResolve m false) else .next s

/-- HOLD_LIMIT_EXPIRY (R272): at Tk + HOLDLIM a held STMGET resolves with absent slots. -/
def execHoldLimitExpiry (id : Nat) (s : State) : Host.Outcome State Fault Refusal :=
  match s.cmd id with
  | none => .next s
  | some m =>
    let x := s.stream (bitsOf m.s0 9 0)
    if s.stmWaiting m && decide ((s.armOf (stArm x.desc) (m.step.getD 0)).tickTime (m.step.getD 0) + stHoldlim x.desc ≤ s.ns) then
      finish s (s.stmResolve m true)
    else .next s

end Sys2Proof.Machine
end

