-- ==== Sys2Proof/Machine/PumpWork.lean ====
section
/-! DEFINITION. PUMP_DELIVERY: what the pump port, the island pump and the engines behind the port do next with a posted
command: spec/08_memory_sync_isa.md R204 to R209, spec/12_collectives.md R293, spec/20_normally_off.md R384. -/

namespace Sys2Proof.Machine

/-- The pump port reads a command's descriptor, if it has one, before it passes the command on (R206, R257, R292). -/
def State.readPort (s : State) (m : PumpCmd) : Except Stop (State × PumpCmd) :=
  if m.opc = 3 ∨ m.opc = 4 then s.readGath m
  else if m.opc = 11 then s.readCompact m
  else if 17 ≤ m.opc ∧ m.opc ≤ 20 then s.readCol m
  else .ok (s, m)

/-- The pump port passes a command on to the island pump, where it may (R19, R204, R206). -/
def State.pumpPass (s : State) (m : PumpCmd) : Except Stop State :=
  if !s.mayPass m then .ok s
  else match s.readPort m with
    | .error e => s.failCmd false m e
    | .ok (s1, m1) =>
      match s1.pumpAccept m1 with
      | .error e => s1.failCmd true m1 e
      | .ok (s2, m2) => .ok ((s2.dropCmd m.id).addCmd m2)

/-- A command moves on (R30, R204, R293, R384): the port passes it to the island pump; a copy delivers at most `bytes` bytes, or whole rows; a collective is
passed to its group; a status command is answered; a well-journal command runs at its controller. KV commands and
STMGET have steps of their own. -/
def State.deliver (s : State) (m : PumpCmd) (bytes : Nat) : Except Stop State :=
  if m.finished then .ok s
  else if m.place = .port then s.pumpPass m
  else if m.opc ≤ 6 then s.pumpDeliver m bytes
  else if m.place = .queued ∧ !s.mayStart m then .ok s
  else if m.isWj then s.wjDeliver m bytes
  else if s.cmdBlocked m then .ok s
  else if 17 ≤ m.opc ∧ m.opc ≤ 20 then .ok (if m.place = .queued then s.colPass m else s)
  else if m.opc = 21 then s.colstat m
  else if m.opc = 23 then s.stmstat m
  else .ok s

/-- PUMP_DELIVERY (R30, R426); a command that is not there changes nothing. -/
def execPumpDelivery (id bytes : Nat) (s : State) : Host.Outcome State Fault Refusal :=
  match s.cmd id with
  | none => .next s
  | some m => finish s (s.deliver m bytes)

end Sys2Proof.Machine
end

