-- ==== Sys2Proof/Machine/Packet.lean ====
section
/-! DEFINITION. Queues: the copy on notify, packets and their refusal, and the packets that the command processor serves
itself, with regions, timed arming, invalidation and teardown. Spec 18 R328 to R347, 19 R357. A packet's step acts only
while the queue is ACTIVE and its oldest copied packet is of that kind. -/

namespace Sys2Proof.Machine

/-! Fields of a packet (R332). -/

/-- `n` bytes of a packet from byte `lo`. -/
def pk (v : BitVec 1024) (lo n : Nat) : Nat := bitsOf v (8 * (lo + n) - 1) (8 * lo)
def pkKind (v : BitVec 1024) : Nat := bitsOf v 7 0
def pkSig (v : BitVec 1024) : Bool := v.getLsbD 8
/-- Version (1, 0), a KIND of R333, and no reserved header bit. DEDUCED: notes/assumptions/46.md. -/
def pkHeadOk (v : BitVec 1024) : Bool :=
  bitsOf v 55 40 == 1 && bitsOf v 39 9 == 0 && bitsOf v 62 56 == 0 && decide (1 ≤ pkKind v) && decide (pkKind v ≤ 12)
/-- Whether body bytes are 0, each given as first byte and number. -/
def pkZero (v : BitVec 1024) (rs : List (Nat × Nat)) : Bool := rs.all fun (lo, n) => pk v lo n == 0
/-- A reference at byte `lo`: object and offset; none where a reserved bit is set. -/
def pkRef (v : BitVec 1024) (lo : Nat) : Option (Nat × Nat) :=
  if pk v lo 8 < 2 ^ 48 ∧ pk v (lo + 8) 4 < 2 ^ 20 then some (pk v (lo + 8) 4, pk v lo 8) else none

/-- A queue's ASID. -/
def State.queueAsid (s : State) (q : Nat) : Nat := qAsid (s.queue q).entry
/-- A queue's region. -/
def State.queueRegion (s : State) (q : Nat) : Nat := qRegion (s.queue q).entry

/-- The packet's signal, SIGNAL with the right given (R332). -/
def State.pkSignal (s : State) (q : Nat) (v : BitVec 1024) (rs : List Nat) : Option (Nat × List Nat) :=
  match pkRef v 8 with
  | some (obj, off) => s.signalRef (s.queueAsid q) obj off rs
  | none => none

/-- The right that a packet's signal reference needs: R of a WAIT, which only reads it, else W (R332, R333).
DEDUCED: notes/assumptions/46.md. -/
def sigRight (v : BitVec 1024) : Nat := if pkKind v = 3 then rR else rW

/-- Whether the packet's signal reference, if there is one, passes. -/
def State.pkSignalOk (s : State) (q : Nat) (v : BitVec 1024) : Bool := !pkSig v || (s.pkSignal q v [rW]).isSome

/-! The copy (R330, R331). -/

/-- Copied packets of all queues that have not retired: the private buffer has 65,536 slots (R330). -/
def State.bufferUsed (s : State) : Nat := (s.cp.queues.map fun (_, x) => x.packets.length).foldl (· + ·) 0

/-- A queue's pending-kick bit set (R331). -/
def State.setPending (s : State) (q : Nat) : State :=
  if s.cp.pending.contains q then s else { s with cp := { s.cp with pending := s.cp.pending ++ [q] } }

/-- The copy loop of R330. With 64 packets not retired it waits for a retirement; with no slot free it exits with the
pending bit set. DEDUCED: notes/assumptions/46.md. -/
def State.copyLoop (s : State) (q tail : Nat) : Nat → State
  | 0 => s
  | fuel + 1 =>
    let x := s.queue q
    let head := qHead x.entry
    if head = tail then s
    else if 64 ≤ x.packets.length then s.modQueue q fun x => { x with copying := some tail }
    else if 65536 ≤ s.bufferUsed then s.setPending q
    else
      let pa := s.mailPa (128 * qRing x.entry + 128 * (head % 2 ^ qLog2n x.entry))
      let v := BitVec.ofNat 1024 (s.rdNat pa 128)
      if !v.getLsbD 63 then s
      else
        let s1 := s.wr8 (pa + 7) (s.rd8 (pa + 7) &&& 0x7F#8)
        let next := (head + 1) % 2 ^ 32
        let s2 := s1.modQueue q fun x => { x with packets := x.packets ++ [v], entry := setBits x.entry 96 32 next }
        (s2.wrNat (s.mailPa (qNotify x.entry + 8)) 8 next).copyLoop q tail fuel

/-- A copy that waits for a retirement goes on, while its queue is ACTIVE (R330). DEDUCED: notes/assumptions/46.md. -/
def State.resumeCopy (s : State) (q : Nat) : State :=
  let x := s.queue q
  match x.copying with
  | some tail =>
    if qState x.entry = 1 then
      (s.modQueue q fun y => { y with copying := none }).copyLoop q tail ((tail + 2 ^ 32 - qHead x.entry) % 2 ^ 32)
    else s
  | none => s

/-! Retirement and refusal (R330 to R332). -/

/-- The packet's signal receives VALUE − 1 with a status, if SIG = 1 and its reference passes. -/
def State.pkUpdate (s : State) (q : Nat) (v : BitVec 1024) (status : Nat) : State :=
  if pkSig v then
    match s.pkSignal q v [sigRight v] with
    | some (pa, ds) => (s.markDirty ds).cpSignal pa status
    | none => s
  else s

/-- The oldest packet leaves the buffer, whose slot frees (R330, R331). -/
def State.popPacket (s : State) (q : Nat) : State :=
  let s1 := s.modQueue q fun x => { x with packets := x.packets.drop 1, busy := false, copyCmd := none, awaits := [] }
  { s1 with cp := { s1.cp with slotFreed := true } }

/-- ERRCNT raised, saturating (R332). DEDUCED: notes/assumptions/46.md. -/
def State.countErr (s : State) (q : Nat) : State := s.modEntry q fun e => setBits e 128 16 (min 0xFFFF (qErrcnt e + 1))

/-- A refused packet retires at once (R332). -/
def State.refusePacket (s : State) (q : Nat) (v : BitVec 1024) : State := ((s.pkUpdate q v 2).countErr q).popPacket q

/-- A copy that waits goes on, and packets at the head whose header is refused go at once (R330, R332).
DEDUCED: notes/assumptions/46.md. -/
def State.purge (s : State) (q : Nat) : Nat → State
  | 0 => s
  | fuel + 1 =>
    let s1 := s.resumeCopy q
    match (s1.queue q).packets with
    | [] => s1
    | v :: _ => if pkHeadOk v then s1 else (s1.refusePacket q v).purge q fuel

/-- What follows a retirement: a waiting copy goes on, and the next packets with a bad header are refused; a ring holds
65,536 at most (R328). -/
def State.afterRetire (s : State) (q : Nat) : State := s.purge q ((s.queue q).packets.length + 65537)

/-- The packet is refused. -/
def State.refuseHead (s : State) (q : Nat) (v : BitVec 1024) : State := (s.refusePacket q v).afterRetire q
/-- The packet retires without a signal. -/
def State.retireQuiet (s : State) (q : Nat) : State := (s.popPacket q).afterRetire q
/-- The packet retires; its signal receives VALUE − 1 with a status (R333). -/
def State.retire (s : State) (q : Nat) (v : BitVec 1024) (status : Nat) : State := ((s.pkUpdate q v status).popPacket q).afterRetire q

/-- Whether a DRAINING queue still acts on the packet that it had begun (R347). -/
def Queue.finishes (x : Queue) : Bool := x.busy && qState x.entry == 3

/-- A packet's step: it acts on the oldest packet of an ACTIVE queue, or on the one that a DRAINING queue had begun, if that
is of its kind; while a takeover's hold buffer is full it waits (R400). -/
def State.onPacket (s : State) (q kind : Nat) (f : BitVec 1024 → State) : Host.Outcome State Fault Refusal :=
  match (s.queue q).packets with
  | [] => .next s
  | v :: _ =>
    if (qState (s.queue q).entry = 1 ∨ (s.queue q).finishes = true) ∧ pkKind v = kind ∧ pkHeadOk v ∧ !s.holdFull then .next (f v)
    else .next s

/-- Whether firmware serves packets: a complex is active (R390), and no live update waits for its boundary (R399). -/
def State.fwServes (s : State) : Bool :=
  (s.sec.complexes.any fun (_, x) => x.role == .active) && s.sec.fw.update.isNone

/-- A change of the state table, before it has an effect outside: one more mirror entry, which the standby acknowledges
(R398). DEDUCED: notes/assumptions/56.md. -/
def State.mirror (s : State) : State :=
  if s.sec.complexes.any fun (_, x) => x.role == .standby then
    { s with sec := { s.sec with fw := { s.sec.fw with mirrorDue := s.sec.fw.mirrorDue + 1 } } }
  else s

/-- Whether two states hold the same firmware state table (R397): what the command processor, the engines, the tables, power,
the network and the firmware keep, but for what has been sent. DEDUCED: notes/assumptions/56.md. -/
def State.tableSame (s t : State) : Bool :=
  s.cp == t.cp && s.tab == t.tab && s.eng == t.eng && s.pow == t.pow && s.sec.fw == t.sec.fw &&
    { s.net with outbox := [] } == { t.net with outbox := [] }

/-- A step of the active complex from `s` to `t` with its mirror entry, where it changes the table (R398).
DEDUCED: notes/assumptions/56.md. -/
def State.mirrored (s t : State) : State := if s.tableSame t then t else t.mirror

/-- The step of a packet that firmware serves (R390, R398); one that has begun goes on while a live update waits for its
boundary (R399). -/
def State.onFirmware (s : State) (q kind : Nat) (f : BitVec 1024 → State) : Host.Outcome State Fault Refusal :=
  if s.fwServes || (s.fwActive && (s.queue q).busy) then s.onPacket q kind fun v => s.mirrored (f v) else .next s

/-- A boundary at which no packet that firmware serves has begun and not retired (R399).
DEDUCED: notes/assumptions/56.md. -/
def State.quiescent (s : State) : Bool :=
  s.cp.queues.all fun (_, x) => !(x.busy && [6, 7, 8, 10, 11, 12].contains (pkKind (x.packets.headD 0)))

/-! Copy on notify (R329 to R331). -/

/-- A kick runs (R329, R330): a TAIL too far ahead puts the queue in ERROR. -/
def State.kick (s : State) (q : Nat) : State :=
  let e := (s.queue q).entry
  let tail := s.rdNat (s.mailPa (qNotify e)) 8 % 2 ^ 32
  let n := (tail + 2 ^ 32 - qHead e) % 2 ^ 32
  if 2 ^ qLog2n e < n then s.modEntry q fun e => setBits e 0 2 2
  else (s.copyLoop q tail n).afterRetire q

/-- NOTIFY_KICK (R330, R331): kicks merge into a pending bit that is set; one that comes while a copy of its queue is in
progress sets it. -/
def execNotifyKick (q : Nat) (s : State) : Host.Outcome State Fault Refusal :=
  if qState (s.queue q).entry ≠ 1 ∨ s.cp.pending.contains q then .next s
  else if (s.queue q).copying.isSome then .next (s.setPending q)
  else .next (s.kick q)

/-- The set pending bit that is served next: the first above the last served, wrapping (R331). -/
def nextPending (last : Nat) (ps : List Nat) : Option Nat :=
  match (ps.filter fun p => last < p).min? with
  | some p => some p
  | none => ps.min?

/-- PENDING_KICK_SERVICE (R331): once a slot has freed, the set bits are served in turn, each cleared first, until none is
left or the buffer is full again; a bit waits while a copy of its queue is in progress. -/
def execPendingKickService (s : State) : Host.Outcome State Fault Refusal :=
  match nextPending s.cp.lastServiced (s.cp.pending.filter fun p => (s.queue p).copying.isNone) with
  | none => .next s
  | some q =>
    if !s.cp.slotFreed then .next s
    else
      let s1 := { s with cp := { s.cp with pending := s.cp.pending.filter fun p => p != q, lastServiced := q } }
      let s2 := if qState (s1.queue q).entry = 1 then s1.kick q else s1
      .next { s2 with cp := { s2.cp with slotFreed := !s2.cp.pending.isEmpty && decide (s2.bufferUsed < 65536) } }

/-! Packets served by the command processor (R333). -/

/-- LAUNCH_GRAPH (R333, R338): it waits while its graph has a live instance. -/
def execLaunchGraph (q : Nat) (s : State) : Host.Outcome State Fault Refusal :=
  s.onPacket q 1 fun v =>
    match pkZero v [(36, 92)] && s.pkSignalOk q v, pkRef v 24 with
    | true, some (obj, off) =>
      let g : Ref := { asid := s.queueAsid q, obj := obj, off := off }
      if s.graphLive g then s
      else
        let sig := if pkSig v then s.pkSignal q v [rW] else none
        let s1 := match sig with
          | some (_, ds) => s.markDirty ds
          | none => s
        let sr := if pkSig v then (pkRef v 8).map fun r => ({ asid := s.queueAsid q, obj := r.1, off := r.2 } : Ref) else none
        (match s1.createInst { queue := q, region := s.queueRegion q, graph := g, signal := sig.map Prod.fst,
                               signalRef := sr.getD {} } false with
          | some (s2, _) => s2.retireQuiet q
          | none => s.refuseHead q v)
    | _, _ => s.refuseHead q v

/-- A SIGNAL packet of one OP (R333). -/
def State.signalPacket (s : State) (q : Nat) (v : BitVec 1024) (op : Nat) : State :=
  match s.pkSignal q v [rW] with
  | some (pa, ds) =>
    if pkSig v ∧ pkZero v [(33, 95)] then
      let x := BitVec.ofNat 64 (pk v 24 8)
      let s1 := s.markDirty ds
      (if op = 0 then s1.wrNat pa 8 x.toNat else s1.sigAddAt pa x).retireQuiet q
    else s.refuseHead q v
  | none => s.refuseHead q v

/-- SIGNAL_WRITE (R333); an OP beyond 1 is refused here. -/
def execSignalWrite (q : Nat) (s : State) : Host.Outcome State Fault Refusal :=
  s.onPacket q 2 fun v =>
    if pk v 32 1 = 1 then s else if pk v 32 1 = 0 then s.signalPacket q v 0 else s.refuseHead q v
/-- SIGNAL_ADD (R333). -/
def execSignalAdd (q : Nat) (s : State) : Host.Outcome State Fault Refusal :=
  s.onPacket q 2 fun v => if pk v 32 1 = 1 then s.signalPacket q v 1 else s

/-- WAIT (R333): it holds the queue until its condition; ERR without the condition puts the queue in ERROR. -/
def execWait (q : Nat) (s : State) : Host.Outcome State Fault Refusal :=
  s.onPacket q 3 fun v =>
    match s.pkSignal q v [rR] with
    | none => s.refuseHead q v
    | some (pa, _) =>
      if !pkSig v || decide (4 < pk v 32 1) || !pkZero v [(33, 95)] then s.refuseHead q v
      else
        let w := BitVec.ofNat 64 (s.rdNat pa 8)
        if sigTest (pk v 32 1) (pk v 24 8 % 2 ^ 56) w then s.retireQuiet q
        else if sigErr w then s.modEntry q fun e => setBits e 0 2 2
        else s

/-- The first of the copy kinds under which a reference passes (R205, R333). -/
def State.copyKind (s : State) (asid : Nat) (r : Nat × Nat) (right n : Nat) : Option Nat :=
  kindsCopy.find? fun k => (s.cpPort asid r.1 [k] [right] [] r.2 n).isSome

/-- A capability that names a reference, for a command of the command processor. -/
def refCap (kind right : Nat) (r : Nat × Nat) : Cap := mkCap (2 ^ right) kind r.1 r.2 48 0 (2 ^ 21 - 1) true

/-- COPY (R333): a pump of the region's partition runs it; its signal is updated as it completes. -/
def execCopy (q : Nat) (s : State) : Host.Outcome State Fault Refusal :=
  s.onPacket q 4 fun v =>
    match (s.queue q).copyCmd with
    | some id => if (s.cmd id).isSome then s else s.retireQuiet q
    | none =>
      let asid := s.queueAsid q
      let n := pk v 48 8
      match pkRef v 24, pkRef v 36 with
      | some dst, some src =>
        (match s.copyKind asid dst rPD n, s.copyKind asid src rPS n, s.islandsOf (s.regionPart (s.queueRegion q)) with
          | some kd, some ks, i :: _ =>
            if n < 2 ^ 32 ∧ pkZero v [(56, 72)] ∧ s.pkSignalOk q v then
              let m : PumpCmd := { id := s.nextId, tile := 8 * i, job := some 0, asid := asid, opc := 1, place := .port, cap0 := refCap kd rPD dst,
                                   cap1 := refCap ks rPS src, s0 := BitVec.ofNat 64 n,
                                   signal := if pkSig v then (pkRef v 8).map fun r => refCap kSIGNAL rW r else none }
              ({ s with nextId := s.nextId + 1 }.addCmd m).modQueue q fun x => { x with busy := true, copyCmd := some m.id }
            else s.refuseHead q v
          | _, _, _ => s.refuseHead q v)
      | _, _ => s.refuseHead q v

/-- BARRIER (R333): the instances that earlier packets of the queue created have ended. -/
def execBarrier (q : Nat) (s : State) : Host.Outcome State Fault Refusal :=
  s.onPacket q 5 fun v =>
    if !(pkZero v [(24, 104)] && s.pkSignalOk q v) then s.refuseHead q v
    else if s.cp.insts.any fun (_, x) => x.queue == q && x.arm.isNone && x.regen.isNone then s
    else s.retire q v 0

/-- FLUSH_EXPORT (R209, R333). -/
def execFlushExport (q : Nat) (s : State) : Host.Outcome State Fault Refusal :=
  s.onPacket q 9 fun v =>
    match pkRef v 24 with
    | none => s.refuseHead q v
    | some (obj, off) =>
      let n := pk v 36 8
      let go (s : State) := s.retire q v 0
      if !(pkZero v [(44, 84)] && s.pkSignalOk q v) then s.refuseHead q v
      else match s.cpPort (s.queueAsid q) obj [kGLOBAL] [] [rR, rW] off n, s.cpPort (s.queueAsid q) obj [kMAILBOX] [] [rR, rW] off n with
        | some (ps, _), _ => go (s.exportPieces ps)
        | none, some _ => go s
        | none, none => s.refuseHead q v

/-! Timed arms (R267, R346). -/

/-- The first tick after a time (R270, R346). -/
def firstTick (period phase ns : Nat) : Nat := if ns < phase then 0 else (ns - phase) / period + 1

/-- Whether a stream would let a step's own range pass 16,384 slots (R346). -/
def tooManySlots (period : Nat) (d : BitVec 512) : Bool := decide (16384 < (period + stPeriod d - 1) / stPeriod d)

/-- The step of the arm's last arming that still runs, as the next arming keeps it (R271). -/
def Arm.running (y : Arm) : List PastStep :=
  match y.cur with
  | some k => [{ step := k, first := y.first, inst := y.curInst, period := y.period, phase := y.phase }]
  | none => []

/-- Whether a delivery set is of a step that still runs (R275). -/
def State.keepsDelivery (s : State) (a : Nat) (v : Delivery) : Bool := (s.arm a).past.any fun p => p.step == v.step

/-- TIMED_ARM (R267, R346). A step of the arm's last arming that still runs goes on. DEDUCED: notes/assumptions/45.md. -/
def execTimedArm (q : Nat) (s : State) : Host.Outcome State Fault Refusal :=
  s.onFirmware q 7 fun v =>
    let a := pk v 24 1
    let stepen := pk v 26 1
    let period := pk v 28 8
    let phase := pk v 36 8
    let asid := s.queueAsid q
    let sig := if stepen = 1 then (pkRef v 56).bind fun r => s.signalRef asid r.1 r.2 [rW] else none
    match pkRef v 44 with
    | none => s.refuseHead q v
    | some (obj, off) =>
      if !(pkZero v [(27, 1), (68, 60)] && s.pkSignalOk q v) || decide (1 < pk v 25 1) || decide (1 < stepen) ||
          (stepen == 0 && pk v 56 12 != 0) || (stepen == 1 && sig.isNone) || !s.net.servo.ever || (s.arm a).armed ||
          period % 1000 != 0 || period == 0 || s.regionClass (s.queueRegion q) != 0 ||
          (s.cpPort asid obj [kGLOBAL] [rR] [] off 64).isNone ||
          (s.streamsOf a).any (fun k => tooManySlots period (s.stream k).desc) then s.refuseHead q v
      else
        let k := firstTick period phase s.ns
        let s1 := s.modArm a fun y =>
          { lastTick := y.lastTick, past := y.past ++ y.running, armed := true, first := pk v 25 1 == 1, stepEn := stepen == 1, period := period, phase := phase,
            graph := { asid := asid, obj := obj, off := off }, stepSig := (sig.map Prod.fst).getD 0, queue := q,
            region := s.queueRegion q, asid := asid, firstStep := k, nextTick := k }
        let s2 := (s.streamsOf a).foldl (fun b i => b.modStream i fun x => { x with closed := [], deliveries := x.deliveries.filter (s1.keepsDelivery a) }) s1
        (match sig with
          | some (_, ds) => s2.markDirty ds
          | none => s2).retire q v 0

/-- A task that waits in TICKWAIT of a disarmed arm ends as under teardown (R346). DEDUCED: notes/assumptions/46.md. -/
def State.releaseWaiter (s : State) (a t c : Nat) : State :=
  let x := s.ctx t c
  if (x.task.bind fun k => k.arm) = some a ∧ x.waitSince.isSome ∧ x.tickTarget.isNone then s.endNow t c 1 else s

/-- A saved task that waits so ends at once. -/
def State.releaseSaved (s : State) (a k : Nat) : State :=
  let x := (s.save k).ctx
  match x.task with
  | some y =>
    if y.arm = some a ∧ x.waitSince.isSome ∧ x.tickTarget.isNone then
      (s.dropSave k).modGang y.gang fun g => { g with members := g.members.set y.member .ended, status := mergeStatus g.status 1 }
    else s
  | none => s

/-- An arm disarmed (R346). DEDUCED: notes/assumptions/46.md. -/
def State.disarm (s : State) (a : Nat) : State :=
  let s1 := s.modArm a fun y => { y with armed := false }
  let s2 := s1.core.ctxs.keys.foldl (fun b j => b.releaseWaiter a (j / 4) (j % 4)) s1
  s2.cp.saves.keys.foldl (fun b k => b.releaseSaved a k) s2

/-- TIMED_DISARM (R346): it takes effect before the next tick; of an unarmed arm it completes with STATUS 0. -/
def execTimedDisarm (q : Nat) (s : State) : Host.Outcome State Fault Refusal :=
  s.onFirmware q 8 fun v =>
    if !(pkZero v [(25, 103)] && s.pkSignalOk q v) then s.refuseHead q v
    else
      let a := pk v 24 1
      (if (s.arm a).armed then s.disarm a else s).retire q v 0

/-! INVALIDATE (R356, R357). -/

/-- Whether a cached object translation is in an INVALIDATE's scope. -/
def invObj (v : BitVec 1024) (x : TlbObj) : Bool :=
  pk v 24 1 == 0 || (x.asid == pk v 26 2 && (pk v 24 1 == 1 || x.obj == pk v 28 4))
/-- Whether a cached page translation is. DEDUCED: notes/assumptions/42.md. -/
def invPage (v : BitVec 1024) (x : TlbPage) : Bool :=
  pk v 24 1 == 0 || (x.asid == pk v 26 2 && (pk v 24 1 == 1 || (x.obj == pk v 28 4 &&
    (pk v 24 1 == 2 || (decide (x.start < pk v 32 8 + pk v 40 8) && decide (pk v 32 8 < x.start + x.size))))))

/-- Every cached translation in scope dropped, package-wide (R357). -/
def State.invalidate (s : State) (v : BitVec 1024) : State :=
  { s with
    core := { s.core with tiles := FMap.mapValues {} (fun _ x =>
      { x with tlbObjs := x.tlbObjs.filter fun y => !invObj v y, tlbPages := x.tlbPages.filter fun y => !invPage v y }) s.core.tiles }
    pow := { s.pow with slices := FMap.mapValues {} (fun _ x =>
      { x with tlbObjs := x.tlbObjs.filter fun y => !invObj v y, tlbPages := x.tlbPages.filter fun y => !invPage v y }) s.pow.slices } }

/-- The accesses that have been translated and have not performed, by context, gang and latest bundle (R357).
DEDUCED: notes/assumptions/42.md. -/
def State.translated (s : State) : List (Nat × Nat × Nat) :=
  s.core.ctxs.filterMap fun (j, x) =>
    let ns := (x.commitQ.filter fun e => e.op.isTranslated).map (fun e => e.bundle) ++
      (s.core.homeQ.filter fun h => ctxKey h.tile h.ctx == j).map fun h => h.bundle
    ns.max?.map fun n => (j, (x.task.getD {}).gang, n)

/-- Whether an access that was translated up to a bundle of a context has yet to perform.
DEDUCED: notes/assumptions/42.md. -/
def State.stillOut (s : State) (w : Nat × Nat × Nat) : Bool :=
  s.translated.any fun u => u.1 == w.1 && u.2.1 == w.2.1 &&
    (((s.ctx (w.1 / 4) (w.1 % 4)).commitQ.any fun e => e.op.isTranslated && decide (e.bundle ≤ w.2.2)) ||
      s.core.homeQ.any fun h => ctxKey h.tile h.ctx == w.1 && decide (h.bundle ≤ w.2.2))

/-- INVALIDATE (R357): PRIV only. The packet retires once every access translated before has performed; loads, pump
transfers and walks perform in the step that translates them. DEDUCED: notes/assumptions/42.md. -/
def execInvalidate (q : Nat) (s : State) : Host.Outcome State Fault Refusal :=
  s.onFirmware q 10 fun v =>
    let scope := pk v 24 1
    if (s.queue q).busy then (if (s.queue q).awaits.any s.stillOut then s else s.retire q v 0)
    else if !(qPriv (s.queue q).entry && pkZero v [(25, 1), (48, 80)] && s.pkSignalOk q v) || decide (3 < scope) ||
        decide (4095 < pk v 26 2) || decide (2 ^ 20 ≤ pk v 28 4) || (scope == 3 && pk v 40 8 == 0) then s.refuseHead q v
    else if s.translated.isEmpty then (s.invalidate v).retire q v 0
    else (s.invalidate v).modQueue q fun x => { x with busy := true, awaits := s.translated }

/-! Regions (R335 to R337). -/

def rParent (b : BitVec 2048) : Nat := bitsOf b 15 0
def rPart (b : BitVec 2048) : Nat := bitsOf b 18 16
def rDepth (b : BitVec 2048) : Nat := bitsOf b 642 640
def rOvr (b : BitVec 2048) : Nat := bitsOf b 73 64
/-- PLRES as it counts: 0 with OVR bit 3 clear (R335). -/
def rPlres (b : BitVec 2048) : Nat := if b.getLsbD 67 then bitsOf b 175 160 else 0

/-- The fields that the driver writes of a control block; reserved bits read 0 (R335). -/
def regionFields : List (Nat × Nat) :=
  [(0, 19), (32, 12), (48, 4), (64, 10), (128, 48), (192, 64), (256, 56), (320, 16), (512, 64)]

/-- A control block as it is kept: its fields, and DEPTH and ENERGY of the hardware.
DEDUCED: notes/assumptions/46.md. -/
def keepBlock (b : BitVec 2048) (depth energy : Nat) : BitVec 2048 :=
  BitVec.ofNat 2048 ((regionFields.map fun (lo, n) => bitsOf b (lo + n - 1) lo * 2 ^ lo).foldl (· + ·) 0 +
    energy % 2 ^ 64 * 2 ^ 576 + depth * 2 ^ 640)

/-- Whether a region number is in use. -/
def State.regionUsed (s : State) (r : Nat) : Bool := s.regionBlock r != 0

/-- A region's control block replaced. -/
def State.setRegion (s : State) (r : Nat) (b : BitVec 2048) : State :=
  { s with cp := { s.cp with regions := FMap.set 0 s.cp.regions r b } }

/-- Whether a region has children, queues or live nodes (R337). -/
def State.regionBusy (s : State) (r : Nat) : Bool :=
  (s.cp.regions.any fun (_, b) => rParent b == r) ||
    (s.cp.queues.any fun (_, x) => x.entry != 0 && qRegion x.entry == r) ||
    (s.cp.insts.any fun (_, x) => x.region == r) || (s.cp.gangs.any fun (_, g) => g.region == r) ||
    s.cp.queues.any fun (q, x) => x.ready.any fun it => s.itemRegion q it == r

/-- What create and alter refuse, for a block and the region's number (R337). -/
def State.regionRefused (s : State) (r : Nat) (b : BitVec 2048) : Bool :=
  let p := s.regionBlock (rParent b)
  (rParent b != 0 && (p == 0 || rDepth p + 1 == 8 || rPart b != rPart p)) || (rParent b == 0 && rOvr b != 0x3FF) ||
    decide (4096 < ((s.cp.regions.map fun (k, x) => if k = r then 0 else rPlres x).foldl (· + ·) 0) + rPlres b)

/-- The block that a REGION packet names, GLOBAL with R, 256-byte aligned (R333). -/
def State.regionRead (s : State) (q : Nat) (v : BitVec 1024) : Option (BitVec 2048) :=
  match pkRef v 32 with
  | some (obj, off) =>
    if off % 256 = 0 then (s.cpNat (s.queueAsid q) obj [kGLOBAL] [rR] off 256).map fun x => BitVec.ofNat 2048 x else none
  | none => none

/-- Whether a REGION packet passes what its three operations share. -/
def State.regionOk (s : State) (q : Nat) (v : BitVec 1024) : Bool :=
  qPriv (s.queue q).entry && pk v 24 2 != 0 && pkZero v [(27, 5), (44, 84)] && s.pkSignalOk q v

/-- A region made or replaced with the block of a packet (R337). -/
def State.regionPut (s : State) (q : Nat) (v : BitVec 1024) (fresh : Bool) : State :=
  let r := pk v 24 2
  match s.regionOk q v && (s.regionUsed r != fresh), s.regionRead q v with
  | true, some b =>
    if s.regionRefused r b then s.refuseHead q v
    else
      let depth := if rParent b = 0 then 0 else rDepth (s.regionBlock (rParent b)) + 1
      let energy := if fresh then 0 else bitsOf (s.regionBlock r) 639 576
      (s.setRegion r (keepBlock b depth energy)).retire q v 0
  | _, _ => s.refuseHead q v

/-- REGION_CREATE (R337); an OP beyond 2 is refused here. -/
def execRegionCreate (q : Nat) (s : State) : Host.Outcome State Fault Refusal :=
  s.onFirmware q 11 fun v =>
    if pk v 26 1 = 0 then s.regionPut q v true else if 2 < pk v 26 1 then s.refuseHead q v else s
/-- REGION_ALTER (R337). -/
def execRegionAlter (q : Nat) (s : State) : Host.Outcome State Fault Refusal :=
  s.onFirmware q 11 fun v => if pk v 26 1 = 1 then s.regionPut q v false else s
/-- What is left of a region's energy below 1 µJ goes with it. -/
def State.dropEnergy (s : State) (r : Nat) : State := { s with cp := { s.cp with regionEnergy := FMap.set 0 s.cp.regionEnergy r 0 } }
/-- REGION_DESTROY (R337). -/
def execRegionDestroy (q : Nat) (s : State) : Host.Outcome State Fault Refusal :=
  s.onFirmware q 11 fun v =>
    if pk v 26 1 = 2 then
      (if s.regionOk q v && s.regionUsed (pk v 24 2) && !s.regionBusy (pk v 24 2) then ((s.setRegion (pk v 24 2) 0).dropEnergy (pk v 24 2)).retire q v 0
      else s.refuseHead q v)
    else s

/-! Teardown (R347). -/

/-- The parked tasks of a queue wake their islands (R373). -/
def State.wakeParked (s : State) (q : Nat) : State :=
  s.askWakes false (s.cp.saves.filterMap fun (_, v) =>
    if v.parked && (v.ctx.task.map fun k => k.queue) == some q then some (v.tile / 8) else none)

/-- QUEUE_TEARDOWN (R347): the driver writes STATE := DRAINING. -/
def execQueueTeardown (q : Nat) (s : State) : Host.Outcome State Fault Refusal :=
  let x := s.queue q
  if qState x.entry = 0 ∨ qState x.entry = 3 then .next s
  else
    let s1 := s.modEntry q fun e => setBits e 0 2 3
    let gone := if x.busy then x.packets.drop 1 else x.packets
    let s2 := gone.foldl (fun a v => if pkKind v = 3 then a else a.pkUpdate q v 1) s1
    let s3 := (s2.modQueue q fun x => { x with packets := if x.busy then x.packets.take 1 else [], copying := none }).wakeParked q
    let s4 := (s3.cp.insts.filterMap fun (i, y) => if y.queue = q then some i else none).foldl
      (fun a i => a.abortInst i none 1) s3
    .next ((s4.cp.arms.filterMap fun (k, y) => if y.armed ∧ y.queue = q then some k else none).foldl
      (fun a k => a.disarm k) { s4 with cp := { s4.cp with pending := s4.cp.pending.filter fun p => p != q } })

/-- QUEUE_DRAINED (R347): nothing of the queue runs; STATE becomes DISABLED, HEAD is kept. -/
def execQueueDrained (q : Nat) (s : State) : Host.Outcome State Fault Refusal :=
  let x := s.queue q
  if qState x.entry = 3 ∧ !(s.cp.insts.any fun (_, y) => y.queue == q) ∧ !x.busy then
    .next (s.modQueue q fun x => { x with entry := setBits x.entry 0 2 0, ready := [], held := none })
  else .next s

end Sys2Proof.Machine
end

