-- ==== Sys2Proof/Machine/Scalar.lean ====
section
/-! DEFINITION. The scalar slot: spec/04_scalar_control.md R96 to R125. Each operation executes at issue. -/

namespace Sys2Proof.Machine

/-! Shared forms. -/

/-- An operation whose result s[rd] is a function of s[rs1] and b (R99). -/
def scalarBin (i : Instr) (g : Guard) (b : ScalarBody) (f : Word → Word → Word) (s : State) :
    Host.Outcome State Fault Refusal :=
  atIssue i g noCheck (fun s => .ok (s.scalarS (sbRd b) (f (s.rs (sbRs1 b)) (s.opB b)))) s

/-- An operation whose result p[rd] is a function of p[rs1] and p[rs2] (R103). -/
def predBin (i : Instr) (g : Guard) (b : ScalarBody) (f : Mask → Mask → Mask) (s : State) :
    Host.Outcome State Fault Refusal :=
  atIssue i g noCheck (fun s => .ok (s.scalarP (sbRd b) (f (s.rp (sbRs1 b).toNat) (s.rp (sbRs2 b).toNat)))) s

def execNopScalar (g : Guard) (body : BitVec 47) (s : State) : Host.Outcome State Fault Refusal :=
  nopForm (.nopScalar g body) g s

/-! Integer operations (R99, R100). -/

/-- Bits [127:64] of the product; signed, or unsigned under U (R99). -/
def mulHigh (u : Bool) (a b : Word) : Word :=
  if u then BitVec.ofNat 64 (a.toNat * b.toNat / 2 ^ 64) else BitVec.ofInt 64 (a.toInt * b.toInt / 2 ^ 64)

/-- Quotient of R100. -/
def divQ (u : Bool) (a b : Word) : Word :=
  if b = 0 then BitVec.allOnes 64
  else if u then BitVec.ofNat 64 (a.toNat / b.toNat) else BitVec.ofInt 64 (a.toInt.tdiv b.toInt)

/-- Remainder of R100. -/
def divR (u : Bool) (a b : Word) : Word :=
  if b = 0 then a
  else if u then BitVec.ofNat 64 (a.toNat % b.toNat) else BitVec.ofInt 64 (a.toInt - b.toInt * a.toInt.tdiv b.toInt)

/-- The lesser of two words (R99). -/
def minW (u : Bool) (a b : Word) : Word := if (if u then b.ult a else b.slt a) then b else a
/-- The greater of two words (R99). -/
def maxW (u : Bool) (a b : Word) : Word := if (if u then a.ult b else a.slt b) then b else a

/-- The number of leading zero bits among the n low bits of a. -/
def leadingZeros (a : Word) : Nat → Nat
  | 0 => 0
  | n + 1 => if a.getLsbD n then 0 else 1 + leadingZeros a n

/-- The number of one bits among the n low bits of a. -/
def popCount (a : Word) : Nat → Nat
  | 0 => 0
  | n + 1 => (if a.getLsbD n then 1 else 0) + popCount a n

def execAdd (g : Guard) (b : ScalarBody) (s : State) : Host.Outcome State Fault Refusal :=
  scalarBin (.add g b) g b (fun x y => x + y) s
def execSub (g : Guard) (b : ScalarBody) (s : State) : Host.Outcome State Fault Refusal :=
  scalarBin (.sub g b) g b (fun x y => x - y) s
def execMul (g : Guard) (b : ScalarBody) (s : State) : Host.Outcome State Fault Refusal :=
  scalarBin (.mul g b) g b (fun x y => x * y) s
def execMulh (g : Guard) (b : ScalarBody) (s : State) : Host.Outcome State Fault Refusal :=
  scalarBin (.mulh g b) g b (mulHigh (sbU b)) s
def execDiv (g : Guard) (b : ScalarBody) (s : State) : Host.Outcome State Fault Refusal :=
  scalarBin (.div g b) g b (divQ (sbU b)) s
def execRem (g : Guard) (b : ScalarBody) (s : State) : Host.Outcome State Fault Refusal :=
  scalarBin (.rem g b) g b (divR (sbU b)) s
def execAnd (g : Guard) (b : ScalarBody) (s : State) : Host.Outcome State Fault Refusal :=
  scalarBin (.and g b) g b (fun x y => x &&& y) s
def execOr (g : Guard) (b : ScalarBody) (s : State) : Host.Outcome State Fault Refusal :=
  scalarBin (.or g b) g b (fun x y => x ||| y) s
def execXor (g : Guard) (b : ScalarBody) (s : State) : Host.Outcome State Fault Refusal :=
  scalarBin (.xor g b) g b (fun x y => x ^^^ y) s
def execAndn (g : Guard) (b : ScalarBody) (s : State) : Host.Outcome State Fault Refusal :=
  scalarBin (.andn g b) g b (fun x y => x &&& ~~~y) s
def execShl (g : Guard) (b : ScalarBody) (s : State) : Host.Outcome State Fault Refusal :=
  scalarBin (.shl g b) g b (fun x y => x <<< (y.toNat % 64)) s
def execShr (g : Guard) (b : ScalarBody) (s : State) : Host.Outcome State Fault Refusal :=
  scalarBin (.shr g b) g b (fun x y => x >>> (y.toNat % 64)) s
def execSra (g : Guard) (b : ScalarBody) (s : State) : Host.Outcome State Fault Refusal :=
  scalarBin (.sra g b) g b (fun x y => x.sshiftRight (y.toNat % 64)) s
def execMin (g : Guard) (b : ScalarBody) (s : State) : Host.Outcome State Fault Refusal :=
  scalarBin (.min g b) g b (minW (sbU b)) s
def execMax (g : Guard) (b : ScalarBody) (s : State) : Host.Outcome State Fault Refusal :=
  scalarBin (.max g b) g b (maxW (sbU b)) s
def execClz (g : Guard) (b : ScalarBody) (s : State) : Host.Outcome State Fault Refusal :=
  scalarBin (.clz g b) g b (fun x _ => BitVec.ofNat 64 (leadingZeros x 64)) s
def execPopc (g : Guard) (b : ScalarBody) (s : State) : Host.Outcome State Fault Refusal :=
  scalarBin (.popc g b) g b (fun x _ => BitVec.ofNat 64 (popCount x 64)) s

/-! Moves, select, compare (R101, R102). -/

def execLi (g : Guard) (b : ScalarBody) (s : State) : Host.Outcome State Fault Refusal :=
  atIssue (.li g b) g noCheck (fun s => .ok (s.scalarS (sbRd b) (widen (sbAux2 b) (sbImm b)))) s
def execLih (g : Guard) (b : ScalarBody) (s : State) : Host.Outcome State Fault Refusal :=
  atIssue (.lih g b) g noCheck (fun s => .ok (s.scalarS (sbRd b) (sbImm b ++ (s.rs (sbRd b)).extractLsb' 0 32))) s

/-- MOV by its MODE (R101). -/
def movEff (b : ScalarBody) (s : State) : State :=
  match bitsOf (sbAux b) 2 0 with
  | 0 => s.scalarS (sbRd b) (s.rs (sbRs1 b))
  | 1 => s.scalarP (sbRd b) (s.rs (sbRs1 b))
  | 2 => s.scalarS (sbRd b) (s.rp (sbRs1 b).toNat)
  | 3 => s.scalarP (sbRd b) (s.rp (sbRs1 b).toNat)
  | _ => s.scalarS (sbRd b) ((s.rb (sbRs1 b).toNat).zeroExtend 64)

def execMov (g : Guard) (b : ScalarBody) (s : State) : Host.Outcome State Fault Refusal :=
  atIssue (.mov g b) g noCheck (fun s => .ok (movEff b s)) s
def execSel (g : Guard) (b : ScalarBody) (s : State) : Host.Outcome State Fault Refusal :=
  atIssue (.sel g b) g noCheck (fun s => .ok (s.scalarS (sbRd b)
    (if (s.rp (bitsOf (sbAux b) 3 0)).getLsbD 0 then s.rs (sbRs1 b) else s.rs (sbRs2 b)))) s

/-- COND of CMP by form (R101). -/
def cmpCode : ScalarBody → Nat
  | .sr _ _ _ aux => bitsOf aux 3 0
  | .si _ _ _ imm => bitsOf imm 31 28
/-- b of CMP by form (R101, R102). -/
def State.cmpB (s : State) : ScalarBody → Word
  | .sr _ _ rs2 _ => s.rs rs2
  | .si _ _ _ imm => (imm.extractLsb' 0 28).signExtend 64

def execCmp (g : Guard) (b : ScalarBody) (s : State) : Host.Outcome State Fault Refusal :=
  atIssue (.cmp g b) g noCheck (fun s =>
    .ok (s.scalarP (sbRd b) (allBits (cmpCond (cmpCode b) (s.rs (sbRs1 b)) (s.cmpB b))))) s

/-! Predicates (R103). -/

/-- The mask whose lanes 0 to n − 1 are set; n ≤ 0 gives none, n ≥ 64 all (R103). -/
def tailMask (n : Int) : Mask := if n ≤ 0 then 0 else if 64 ≤ n then BitVec.allOnes 64 else BitVec.ofNat 64 (2 ^ n.toNat - 1)

/-- The value of PSET (R103). -/
def psetVal (b : ScalarBody) (s : State) : Mask :=
  match (sbAux2 b).toNat with
  | 0 => tailMask (sbImm b).toInt
  | 1 => sbImm b ++ sbImm b
  | _ => tailMask (s.rs (sbRs1 b)).toInt

/-- The index of the lowest set bit from bit k up; 64 if none. -/
def lowestSet (a : Mask) : Nat → Nat → Nat
  | 0, _ => 64
  | n + 1, k => if a.getLsbD k then k else lowestSet a n (k + 1)

def execPand (g : Guard) (b : ScalarBody) (s : State) : Host.Outcome State Fault Refusal :=
  predBin (.pand g b) g b (fun x y => x &&& y) s
def execPor (g : Guard) (b : ScalarBody) (s : State) : Host.Outcome State Fault Refusal :=
  predBin (.por g b) g b (fun x y => x ||| y) s
def execPxor (g : Guard) (b : ScalarBody) (s : State) : Host.Outcome State Fault Refusal :=
  predBin (.pxor g b) g b (fun x y => x ^^^ y) s
def execPandn (g : Guard) (b : ScalarBody) (s : State) : Host.Outcome State Fault Refusal :=
  predBin (.pandn g b) g b (fun x y => x &&& ~~~y) s
def execPset (g : Guard) (b : ScalarBody) (s : State) : Host.Outcome State Fault Refusal :=
  atIssue (.pset g b) g noCheck (fun s => .ok (s.scalarP (sbRd b) (psetVal b s))) s
def execPcnt (g : Guard) (b : ScalarBody) (s : State) : Host.Outcome State Fault Refusal :=
  atIssue (.pcnt g b) g noCheck (fun s =>
    let m := s.rp (sbRs1 b).toNat
    .ok (s.scalarS (sbRd b) (BitVec.ofNat 64 (if (sbAux b).getLsbD 0 then lowestSet m 64 0 else popCount m 64)))) s

/-! Capabilities (R104 to R106). -/

/-- The field AGET reads (R105), modulo 2^64 (notes/assumptions/9.md). -/
def agetField (c : Cap) (k : Nat) : Word :=
  BitVec.ofNat 64 (match k with
    | 0 => c.offset
    | 1 => c.ws
    | 2 => c.we
    | 3 => c.rights.toNat
    | 4 => c.kind
    | 5 => c.obj
    | _ => c.tag.toNat)

/-- Mantissas of the window [lo, hi) at exponent e2 (R106). -/
def narrowAt (lo hi e2 : Nat) : Nat × Nat := ((lo + 2 ^ e2 - 1) / 2 ^ e2, hi / 2 ^ e2)

/-- Whether the search of R106 stops at an exponent. -/
def narrowFits (lo hi e2 : Nat) : Bool :=
  let (bm, bh) := narrowAt lo hi e2
  decide (bm < 2 ^ 21) && (decide (bh < bm) || decide (bh - bm < 2 ^ 21))

/-- ANARROW (R106). -/
def anarrow (c : Cap) (n : Nat) : Cap :=
  if 48 < c.exp then mkCap c.rights.toNat c.kind c.obj c.offset c.exp c.baseM 0 c.tag
  else
    let lo := max c.offset c.ws
    let hi := min (c.offset + n) c.we
    let e2 := (((List.range 49).filter fun e => decide (c.exp ≤ e)).find? (narrowFits lo hi)).getD 48
    let (bm, bh) := narrowAt lo hi e2
    mkCap c.rights.toNat c.kind c.obj c.offset e2 bm (bh - bm) c.tag

/-- The rights with a mask dropped (R105). -/
def adrop (c : Cap) (mask : BitVec 8) : Cap :=
  mkCap (c.rights &&& ~~~mask).toNat c.kind c.obj c.offset c.exp c.baseM c.lenM c.tag

/-- ACHK (R105), on the window as R227 computes it, whatever its exponent. DEDUCED: notes/assumptions/60.md. -/
def achk (c : Cap) (len : Word) (mask : BitVec 8) : Bool :=
  c.tag && (c.rights &&& mask) == mask && decide (c.ws ≤ c.offset) && decide (c.offset + len.toNat ≤ c.we)

def execAadd (g : Guard) (b : ScalarBody) (s : State) : Host.Outcome State Fault Refusal :=
  atIssue (.aadd g b) g noCheck (fun s =>
    let c := s.ra (sbRs1 b).toNat
    .ok (s.scalarA (sbRd b) (c.withOffset ((c.offset + (s.opB b).toNat) % 2 ^ 48)))) s
def execAset (g : Guard) (b : ScalarBody) (s : State) : Host.Outcome State Fault Refusal :=
  atIssue (.aset g b) g noCheck (fun s =>
    .ok (s.scalarA (sbRd b) ((s.ra (sbRs1 b).toNat).withOffset ((s.opB b).toNat % 2 ^ 48)))) s
def execAget (g : Guard) (b : ScalarBody) (s : State) : Host.Outcome State Fault Refusal :=
  atIssue (.aget g b) g noCheck (fun s =>
    .ok (s.scalarS (sbRd b) (agetField (s.ra (sbRs1 b).toNat) (bitsOf (sbAux b) 2 0)))) s
def execAnarrow (g : Guard) (b : ScalarBody) (s : State) : Host.Outcome State Fault Refusal :=
  atIssue (.anarrow g b) g noCheck (fun s =>
    let n := if sbIsSi b then (sbImm b).toNat else (s.rs (sbRs2 b)).toNat
    .ok (s.scalarA (sbRd b) (anarrow (s.ra (sbRs1 b).toNat) n))) s
def execAdrop (g : Guard) (b : ScalarBody) (s : State) : Host.Outcome State Fault Refusal :=
  atIssue (.adrop g b) g noCheck (fun s =>
    let m := if sbIsSi b then (sbImm b).extractLsb' 0 8 else (s.rs (sbRs2 b)).extractLsb' 0 8
    .ok (s.scalarA (sbRd b) (adrop (s.ra (sbRs1 b).toNat) m))) s
def execAmov (g : Guard) (b : ScalarBody) (s : State) : Host.Outcome State Fault Refusal :=
  atIssue (.amov g b) g noCheck (fun s => .ok (s.scalarA (sbRd b) (s.ra (sbRs1 b).toNat))) s
def execAchk (g : Guard) (b : ScalarBody) (s : State) : Host.Outcome State Fault Refusal :=
  atIssue (.achk g b) g noCheck (fun s =>
    .ok (s.scalarP (sbRd b) (allBits (achk (s.ra (sbRs1 b).toNat) (s.rs (sbRs2 b)) ((sbAux b).extractLsb' 0 8))))) s

/-! Loops (R25, R107 to R109). -/

/-- Trip count of LOOP by form (R107). -/
def State.loopCount (s : State) : ScalarBody → Nat
  | .sr _ rs1 _ _ => (s.rs rs1).toNat
  | .si _ _ _ imm => bitsOf imm 31 16
/-- END of LOOP by form (R107). -/
def loopEnd : ScalarBody → Nat
  | .sr _ _ _ aux => bitsOf aux 15 0
  | .si _ _ _ imm => bitsOf imm 15 0

/-- The run-time checks of LOOP (R25, R107): six levels in use, a count above 32 bits, a LOOP in the end bundle of the
innermost level. DEDUCED: notes/assumptions/14.md. -/
def checkLoop (b : ScalarBody) (s : State) : Except Stop Unit := do
  let x := s.me
  require (decide (x.loops.length < 6)) (illegal 0 9 63)
  require (decide (s.loopCount b ≤ 0xFFFFFFFF)) (limitTrap 0)
  require (match x.loops.getLast? with | some l => l.stop != x.pc | none => true) (limitTrap 0)

/-- LOOP (R25, R107): a level is pushed; a count of zero sends fetch past the end bundle. -/
def loopEff (b : ScalarBody) (s : State) : State :=
  s.modMe fun x =>
    let stop := x.pc + BitVec.ofNat 48 (64 * loopEnd b)
    if s.loopCount b = 0 then { x with target := some (stop + 64) }
    else { x with loops := x.loops ++ [{ start := x.nextPc, stop := stop, count := BitVec.ofNat 32 (s.loopCount b) }] }

def execLoop (g : Guard) (b : ScalarBody) (s : State) : Host.Outcome State Fault Refusal :=
  atIssue (.loop g b) g (checkLoop b) (fun s => .ok (loopEff b s)) s
def execLdelta (g : Guard) (b : ScalarBody) (s : State) : Host.Outcome State Fault Refusal :=
  atIssue (.ldelta g b) g noCheck (fun s =>
    let d := if sbIsSi b then sbImm b else (s.rs (sbRs2 b)).extractLsb' 0 32
    .ok (s.modMe fun x => { x with delta := FMap.set 0 x.delta (16 * (sbRs1 b).toNat + (sbRd b).toNat) d })) s

/-- LBREAK (R109): the level's current iteration becomes its last. -/
def lbreak (ls : List Level) (l : Nat) : List Level :=
  ls.mapIdx fun i v => if i = l then { v with count := v.index + 1 } else v

def execLbreak (g : Guard) (b : ScalarBody) (s : State) : Host.Outcome State Fault Refusal :=
  atIssue (.lbreak g b) g noCheck (fun s =>
    .ok (s.modMe fun x => { x with loops := lbreak x.loops (bitsOf (sbAux b) 2 0) })) s
def execLidx (g : Guard) (b : ScalarBody) (s : State) : Host.Outcome State Fault Refusal :=
  atIssue (.lidx g b) g noCheck (fun s =>
    .ok (s.scalarS (sbRd b) (match s.me.loops[bitsOf (sbAux b) 2 0]? with
      | some l => (if (sbAux b).getLsbD 3 then l.count else l.index).zeroExtend 64
      | none => 0))) s

/-! Views (R110, R170). -/

/-- Base of VIEW by form. -/
def State.viewBase (s : State) : ScalarBody → Nat
  | .sr _ rs1 _ _ => (s.rs rs1).toNat
  | .si _ _ _ imm => bitsOf imm 19 0
/-- Capacity of VIEW.kr by form. -/
def State.viewCap (s : State) : ScalarBody → Nat
  | .sr _ _ rs2 _ => (s.rs rs2).toNat
  | .si _ _ _ imm => bitsOf imm 26 20

/-- The limits of VIEW (R110). -/
def checkView (b : ScalarBody) (s : State) : Except Stop Unit :=
  require (s.viewBase b % 256 == 0 && decide (s.viewBase b < 4096 * s.me.sys.winSize) &&
      ((sbRd b).toNat != 3 || (decide (1 ≤ s.viewCap b) && decide (s.viewCap b ≤ 64)))) (limitTrap 0)

/-- VIEW (R110); kind K sets the rank fields to 0 (R170). -/
def viewEff (b : ScalarBody) (s : State) : State :=
  let v := s.viewBase b
  let k := s.viewCap b
  s.modMe fun x => { x with views := match (sbRd b).toNat with
    | 0 => { x.views with v := v }
    | 1 => { x.views with t := v }
    | 2 => { x.views with c := v }
    | _ => { x.views with k := v, kCap := k, ranks := [] } }

def execView (g : Guard) (b : ScalarBody) (s : State) : Host.Outcome State Fault Refusal :=
  atIssue (.view g b) g (checkView b) (fun s => .ok (viewEff b s)) s

/-! System registers (R111 to R117). -/

/-- The value of a system register (R111 to R115, R13, R15, R50, R65, R66, R183, R184). -/
def State.sysReg (s : State) (n : Nat) : Word :=
  let y := s.me.sys
  match n with
  | 0 => (s.tile s.myTile).feat.zeroExtend 64
  | 1 => BitVec.ofNat 64 s.myTile
  | 2 => BitVec.ofNat 64 s.myCtx
  | 3 => BitVec.ofNat 64 (y.gang % 512 + y.gangM1 % 512 * 2 ^ 16)
  | 4 => BitVec.ofNat 64 (y.place % 4)
  | 5 => BitVec.ofNat 64 (y.asid % 4096)
  | 6 => (BitVec.ofBool y.sup).zeroExtend 64
  | 7 => BitVec.ofNat 64 (y.winErr.toNat * 2 ^ 16 + y.winSize % 256 * 2 ^ 8 + y.winBase % 128)
  | 8 => y.nflag.zeroExtend 64
  | 9 => y.qclamp.zeroExtend 64
  | 10 => y.ufmax ++ y.clampmax
  | 11 => y.tol.zeroExtend 64
  | 12 => (BitVec.ofBool y.tolAbs).zeroExtend 64
  | 13 => (y.utvec ++ 0#5 ++ BitVec.ofBool y.utvecEn).zeroExtend 64
  | 14 => (BitVec.ofBool y.inh ++ y.info ++ 0#5 ++ y.slot ++ y.cause).zeroExtend 64
  | 15 => (y.utepc ++ 0#6).zeroExtend 64
  | _ => (y.sepc ++ 0#6).zeroExtend 64

/-- Whether a read is granted (R111). -/
def srReadable (sup : Bool) (n : Nat) : Bool := n != 16 || sup
/-- Whether a write is granted (R111). -/
def srWritable (sup : Bool) (n : Nat) : Bool :=
  if 8 ≤ n ∧ n ≤ 15 then true else sup && (decide (5 ≤ n ∧ n ≤ 7) || n == 16)

/-- Whether two windows overlap. -/
def overlaps (a n b m : Nat) : Bool := decide (a < b + m) && decide (b < a + n)

/-- SR.WIN written (R15): a refused write sets ERR and nothing else. -/
def State.writeWin (s : State) (v : Word) : State :=
  let base := bitsOf v 6 0
  let size := bitsOf v 15 8
  let y := s.me.sys
  let clear := fun (e : Bool) => if v.getLsbD 16 then false else e
  if base = y.winBase ∧ size = y.winSize then s.modMe fun x => { x with sys := { x.sys with winErr := clear x.sys.winErr } }
  else if s.me.task.isSome || size == 0 || decide (128 < base + size) ||
      ((List.range 4).any fun c => c != s.myCtx &&
        overlaps base size (s.ctx s.myTile c).sys.winBase (s.ctx s.myTile c).sys.winSize) then
    s.modMe fun x => { x with sys := { x.sys with winErr := true } }
  else s.modMe fun x => { x with sys := { x.sys with winBase := base, winSize := size, winErr := clear x.sys.winErr } }

/-- SR.PRIV written (R112): a 0 clears SUP, a 1 leaves it. -/
def State.writePriv (s : State) (v : Word) : State :=
  s.modMe fun x => { x with sys := { x.sys with sup := x.sys.sup && v.getLsbD 0 } }

/-- A system register written; reserved bits are ignored (R116). -/
def State.setSysReg (s : State) (n : Nat) (v : Word) : State :=
  match n with
  | 6 => s.writePriv v
  | 7 => s.writeWin v
  | _ => s.modMe fun x => { x with sys := match n with
    | 5 => { x.sys with asid := bitsOf v 11 0 }
    | 8 => { x.sys with nflag := v.extractLsb' 0 6 }
    | 9 => { x.sys with qclamp := v.extractLsb' 0 32 }
    | 10 => { x.sys with ufmax := v.extractLsb' 32 32, clampmax := v.extractLsb' 0 32 }
    | 11 => { x.sys with tol := v.extractLsb' 0 32 }
    | 12 => { x.sys with tolAbs := v.getLsbD 0 }
    | 13 => { x.sys with utvecEn := v.getLsbD 0, utvec := v.extractLsb' 6 42 }
    | 14 => { x.sys with inh := v.getLsbD 32, info := v.extractLsb' 16 16, slot := v.extractLsb' 8 3,
                         cause := v.extractLsb' 0 8 }
    | 15 => { x.sys with utepc := v.extractLsb' 6 42 }
    | 16 => { x.sys with sepc := v.extractLsb' 6 42 }
    | _ => x.sys }

/-- The value an SRW writes, by form (R116). -/
def State.srwVal (s : State) : ScalarBody → Word
  | .sr _ rs1 _ _ => s.rs rs1
  | .si _ _ aux2 imm => widen aux2 imm

/-- The privilege check of SRR (R116). -/
def checkSrr (b : ScalarBody) (s : State) : Except Stop Unit :=
  require (srReadable s.me.sys.sup (sbRs1 b).toNat) (slotTrap trapCAP_RIGHTS 0 0 0)
/-- The privilege check of SRW (R116). -/
def checkSrw (b : ScalarBody) (s : State) : Except Stop Unit :=
  require (srWritable s.me.sys.sup (sbRd b).toNat) (slotTrap trapCAP_RIGHTS 0 0 0)

def execSrr (g : Guard) (b : ScalarBody) (s : State) : Host.Outcome State Fault Refusal :=
  atIssue (.srr g b) g (checkSrr b) (fun s => .ok (s.scalarS (sbRd b) (s.sysReg (sbRs1 b).toNat))) s
def execSrw (g : Guard) (b : ScalarBody) (s : State) : Host.Outcome State Fault Refusal :=
  atIssue (.srw g b) g (checkSrw b) (fun s => .ok (s.setSysReg (sbRd b).toNat (s.srwVal b))) s
def execSrWinWrite (g : Guard) (b : ScalarBody) (s : State) : Host.Outcome State Fault Refusal :=
  atIssue (.srWinWrite g b) g (checkSrw b) (fun s => .ok (s.setSysReg (sbRd b).toNat (s.srwVal b))) s
def execSrPrivWrite (g : Guard) (b : ScalarBody) (s : State) : Host.Outcome State Fault Refusal :=
  atIssue (.srPrivWrite g b) g (checkSrw b) (fun s => .ok (s.setSysReg (sbRd b).toNat (s.srwVal b))) s

/-- Cycles in which a context held the task, saved cycles included (R117). -/
def State.taskCycles (s : State) : Nat :=
  (s.me.cycAcc + (FMap.get ({} : Island) s.pow.islands (s.myTile / 8)).cycles - s.me.cycStart) / 65536000

/-- RDTIME by its mode (R117). -/
def State.readTime (s : State) (mode : Nat) : Word :=
  BitVec.ofNat 64 (match mode with
    | 0 => s.ns
    | 1 => s.now % 65536
    | _ => s.taskCycles)

def execRdtime (g : Guard) (b : ScalarBody) (s : State) : Host.Outcome State Fault Refusal :=
  atIssue (.rdtime g b) g noCheck (fun s => .ok (s.scalarS (sbRd b) (s.readTime (bitsOf (sbAux b) 1 0)))) s

/-! Branch preparation, traps, ends (R118 to R125). -/

/-- The target PBR writes, by form (R118). -/
def State.pbrTarget (s : State) : ScalarBody → Off
  | .sr _ rs1 _ _ => (s.rs rs1).extractLsb' 0 48
  | .si _ _ _ imm => s.me.pc + (imm.signExtend 48 <<< 6)

/-- A register target of PBR is a multiple of 64 (R118). -/
def checkPbr (b : ScalarBody) (s : State) : Except Stop Unit :=
  require (sbIsSi b || (s.pbrTarget b).toNat % 64 == 0) (limitTrap 0)

def execPbr (g : Guard) (b : ScalarBody) (s : State) : Host.Outcome State Fault Refusal :=
  atIssue (.pbr g b) g (checkPbr b) (fun s =>
    .ok (s.scalarB (sbRd b) (s.pbrTarget b))) s

/-- An unvectored TRAP is a system trap at issue (R119, R349). -/
def checkTrap (b : ScalarBody) (s : State) : Except Stop Unit :=
  require s.me.vectored (.trap { code := trapTRAP, sub := (sbImm b).extractLsb' 0 16 })

def execTrap (g : Guard) (b : ScalarBody) (s : State) : Host.Outcome State Fault Refusal :=
  atIssue (.trap g b) g (checkTrap b) (fun s =>
    .ok (s.modMe fun x => x.userTrap (0#1 ++ (sbImm b).extractLsb' 0 7) 0 0)) s

/-- UTRET needs INH (R121). -/
def checkUtret (s : State) : Except Stop Unit := require s.me.sys.inh (limitTrap 0)

def execUtret (g : Guard) (b : ScalarBody) (s : State) : Host.Outcome State Fault Refusal :=
  atIssue (.utret g b) g checkUtret (fun s =>
    .ok (s.modMe fun x => { x with target := some (x.sys.utepc ++ 0#6), sys := { x.sys with inh := false } })) s

/-- ERET needs SUP (R122). -/
def checkEret (s : State) : Except Stop Unit := require s.me.sys.sup (slotTrap trapCAP_RIGHTS 0 0 0)

def execEret (g : Guard) (b : ScalarBody) (s : State) : Host.Outcome State Fault Refusal :=
  atIssue (.eret g b) g checkEret (fun s =>
    .ok (s.modMe fun x =>
      let y := x.commitEarlier
      { y with target := some (y.sys.sepc ++ 0#6), sys := { y.sys with sup := false } })) s

/-- YIELD (R123): the open region commits (R35); Q = 1 asks for pre-emption, Q = 0 gives up the next cycle where no request
is pending. That it is a pre-emption point is the step's concern (R37). DEDUCED: notes/assumptions/32.md. -/
def yieldEff (b : ScalarBody) (s : State) : State :=
  let s1 := s.modMe Ctx.commitEarlier
  if (sbAux b).getLsbD 0 then s1.askPreempt s.myTile s.myCtx .yieldQ
  else if s.me.preempt.isNone then s1.modMe fun x => { x with yieldNext := true } else s1

def execYield (g : Guard) (b : ScalarBody) (s : State) : Host.Outcome State Fault Refusal :=
  atIssue (.yield g b) g noCheck (fun s => .ok (yieldEff b s)) s

/-- END (R124): the open region commits, fetch stops, the loop stack is discarded; the context waits for its
operations. -/
def endEff (s : State) : State :=
  s.modMe fun x => { x.commitRegion with phase := .ending, loops := [] }

def execEndTask (g : Guard) (b : ScalarBody) (s : State) : Host.Outcome State Fault Refusal :=
  atIssue (.endTask g b) g noCheck (fun s => .ok (endEff s)) s

def execFeat (g : Guard) (b : ScalarBody) (s : State) : Host.Outcome State Fault Refusal :=
  atIssue (.feat g b) g noCheck (fun s =>
    let want := (sbImm b).zeroExtend 64
    .ok (s.scalarP (sbRd b) (allBits (s.sysReg 0 &&& want == want)))) s

end Sys2Proof.Machine
end

