-- ==== Sys2Proof/Machine/Save.lean ====
section
/-! DEFINITION. Pre-emption: requests, landing, the save of a context, its resume, and migration. Spec
01_tile_execution.md R36 to R39, 19_faults_preemption.md R360 to R364, 21_programs_system.md R386,
14_programs_context.md R306. -/

namespace Sys2Proof.Machine

/-! Requests and landing (R37, R38, R347, R360). -/

/-- A member that is stopped while it waits in BAR has not arrived: its BAR issues again after the resume (R220). -/
def State.leaveBar (s : State) (t c : Nat) : State :=
  let x := s.ctx t c
  match x.task with
  | some k => if x.barWaiting then
      (s.modGang k.gang fun g => { g with barGens := FMap.set 0 g.barGens k.member x.barGen }).modCtx t c fun y =>
        { y with barWaiting := false }
    else s
  | none => s

/-- A request that has been delivered lands on a context at a bundle boundary with no region open (R37): a task told to
end ends with STATUS 1 (R347), any other stops issue and waits for its save (R39). -/
def State.land (s : State) (t c : Nat) : State :=
  match (s.ctx t c).preempt with
  | none => s
  | some r =>
    if r.delivered.isNone then s
    else if r.kind = .teardown then s.endNow t c 1
    else (s.leaveBar t c).modCtx t c fun x =>
      { x with phase := .landed, captured := none, checked := false, target := none, redirect := none, yieldNext := false }

/-- A delivered request lands on a sleeping context's waiting bundle where no region is open (R214). -/
def State.landAsleep (s : State) (t c : Nat) : State :=
  if (s.ctx t c).phase == .sleeping && (s.ctx t c).region.isNone then s.land t c else s

/-- PREEMPTION_REQUEST_DELIVERY (R360): a request is delivered once its partition has a free save slot. -/
def execPreemptionRequestDelivery (t c : Nat) (s : State) : Host.Outcome State Fault Refusal :=
  let x := s.ctx t c
  match x.preempt, x.task with
  | some r, some k =>
    if r.delivered.isNone && s.slotFree (s.regionPart k.region) then
      .next ((s.setCtx t c { x with preempt := some { r with delivered := some s.ns } }).landAsleep t c)
    else .next s
  | _, _ => .next s

/-- Whether a context stands where forced pre-emption finds it: at a bundle boundary of a task that has not ended. -/
def Phase.interruptible : Phase → Bool
  | .running => true
  | .sleeping => true
  | .page _ _ _ => true
  | _ => false

/-- FORCED_PREEMPTION (R38): 100 µs after its delivery the request lands; an open region aborts first. -/
def execForcedPreemption (t c : Nat) (s : State) : Host.Outcome State Fault Refusal :=
  let x := s.ctx t c
  match x.preempt.bind fun r => r.delivered with
  | some d =>
    if x.task.isSome && x.phase.interruptible && decide (d + 100000 ≤ s.ns) then .next ((s.abortRegion t c).land t c)
    else .next s
  | none => .next s

/-! What a save records (R361 to R363, R386). -/

/-- The scratchpad granules of 64 KiB that [lo, lo + n) touches, as a mask of 32. -/
def granuleMask (lo n : Nat) : Nat :=
  if n = 0 then 0
  else ((List.range 32).filter fun g => decide (65536 * g < lo + n) && decide (lo < 65536 * (g + 1))).foldl (fun m g => m + 2 ^ g) 0

/-- Whether a physical address names LOCAL scratchpad (R354). -/
def paLocal (pa : Nat) : Bool := paSpace pa == 4 && pa / 2 ^ 31 % 2 == 1

/-- The granule of the 64 KiB of a page-mapped object from `off` on, where that page is LOCAL scratchpad (R355, R363). -/
def State.pageGranule (s : State) (asid obj map off : Nat) : Nat :=
  match s.walkPage asid obj map off with
  | .page p => if paLocal p.pa then granuleMask (p.pa % 2 ^ 21 + (off - p.start)) 65536 else 0
  | _ => 0

/-- The granules of the window of a tagged SCRATCH capability whose object maps LOCAL scratchpad (R363). -/
def State.capGranules (s : State) (asid : Nat) (c : Cap) : Nat :=
  if !c.tag || c.kind != kSCRATCH then 0
  else match s.walkObj asid c.obj with
    | none => 0
    | some e =>
      let base := bitsOf e 159 96
      let stop := min c.we (bitsOf e 207 160)
      if bitsOf e 83 82 = 1 then
        ((List.range ((stop + 65535) / 65536 - c.ws / 65536)).map fun i =>
          s.pageGranule asid c.obj base (65536 * (c.ws / 65536 + i))).foldl (· ||| ·) 0
      else if bitsOf e 83 82 = 0 ∧ paLocal base = true then granuleMask (base % 2 ^ 21 + c.ws) (stop - c.ws)
      else 0

/-- The tensor entries of a tile that a context owns (R159). -/
def State.ownTids (s : State) (t c : Nat) : List (Nat × Tid) :=
  (s.tile t).tids.filter fun (_, d) => d.valid && d.owner == c

/-- The granules in use by a context (R363): capabilities, rings, tensor entries in scratchpad. -/
def State.granulesOf (s : State) (t c : Nat) : Nat :=
  let x := s.ctx t c
  let caps := ((List.range 16).map fun j => s.capGranules x.sys.asid (x.regs.getA j)).foldl (· ||| ·) 0
  let rings := ((List.range 16).map fun j =>
    let h := x.handle j
    if h.count = 0 then 0 else granuleMask h.base (h.count * h.ssize * 256)).foldl (· ||| ·) 0
  let tids := ((s.ownTids t c).map fun (_, d) => if d.loc then s.capGranules x.sys.asid d.cap else 0).foldl (· ||| ·) 0
  caps ||| rings ||| tids

/-- The granules in use on a tile: those of its contexts that hold a task, and those of tasks saved there that have not
been resumed (R363, R386). -/
def State.granulesInUse (s : State) (t : Nat) (except : Nat) : Nat :=
  let cs := ((List.range 4).map fun c => if (s.ctx t c).task.isSome then s.granulesOf t c else 0).foldl (· ||| ·) 0
  let vs := (s.cp.saves.map fun (k, v) => if v.tile = t ∧ k ≠ except then v.granules else 0).foldl (· ||| ·) 0
  cs ||| vs

/-- A command put among others, the oldest issued first. -/
def insertIssued (m : PumpCmd) : List PumpCmd → List PumpCmd
  | [] => [m]
  | x :: xs => if x.bundle ≤ m.bundle then x :: insertIssued m xs else m :: x :: xs

/-- The pump commands of a context that its save records, in the order in which they were issued: all but accepted
collectives (R296, R362, R386). -/
def State.recorded (s : State) (t c : Nat) : List PumpCmd :=
  (s.core.cmds.filter fun m => m.tile == t && m.ctx == c && m.owned && m.place != .accepted).foldl
    (fun a m => insertIssued m a) []

/-- Whether the save may be written (R39, R248, R362, R384): every queued operation beside pump commands is complete,
and no command remains that must complete first. DEDUCED: notes/assumptions/36.md. -/
def State.saveReady (s : State) (t c : Nat) : Bool :=
  let x := s.ctx t c
  x.task.isSome && x.commitQ.isEmpty && x.awaitCmds.isEmpty &&
    !((s.tile t).inflight.any fun o => o.ctx == c) && !((s.tile t).syncQ.any fun w => w.ctx == c) && !(s.core.homeQ.any fun h => h.tile == t && h.ctx == c) &&
    (s.recorded t c).all fun m => !m.finished && m.place != .resolved && m.place != .well

/-- A handle as saved (R362): what recorded commands had charged comes back. -/
def Handle.refund (h : Handle) (charged : FMap Nat) : Handle :=
  charged.foldl (fun a (k, b) =>
    let left := a.lf k + b
    { a with left := FMap.set 0 a.left k left,
             state := if a.st k = .filled ∧ left ≠ 0 then FMap.set .free a.state k .filling else a.state }) h

/-- The handles as saved (R362). -/
def Ctx.refund (x : Ctx) (ms : List PumpCmd) : Ctx :=
  ms.foldl (fun a m => if m.charged = [] then a
    else a.setHandle m.body.handle.toNat ((a.handle m.body.handle.toNat).refund m.charged)) x

/-- A recorded command as it is posted again: whole, nothing of it done (R362, R386). -/
def PumpCmd.image (m : PumpCmd) : PumpCmd :=
  { m with place := .port, desc := [], descTags := [], moved := 0, source := [], charged := [], status := 0, seq := 0 }

/-! The bytes of a save area (R361). -/

/-- `n` bytes: those given, then zeros. -/
def padTo (n : Nat) (bs : List Byte) : List Byte := (bs ++ List.replicate n 0).take n

/-- A capability's 16 bytes. -/
def capBytes (c : Cap) : List Byte := leBytes 16 c.bits.toNat

/-- Six levels of the loop stack, 16 bytes each. -/
def loopBytes (ls : List Level) : List Byte :=
  padTo 96 (ls.flatMap fun l => leBytes 4 (l.start.toNat / 64) ++ leBytes 4 (l.stop.toNat / 64) ++
    leBytes 4 l.count.toNat ++ leBytes 4 l.index.toNat)

/-- The code of a slot state. -/
def SlotState.code : SlotState → Nat
  | .free => 0
  | .filling => 1
  | .filled => 2

/-- A number put together from `n` fields of w bits. -/
def packBits (w n : Nat) (f : Nat → Nat) : Nat := ((List.range n).map fun k => f k % 2 ^ w * 2 ^ (w * k)).foldl (· + ·) 0

/-- A handle's 192 bytes; the fields of R28 lie in their order from bit 0 (notes/assumptions/37.md). -/
def Handle.bytes (h : Handle) : List Byte :=
  padTo 192 (leBytes 16 (h.base + h.ssize * 2 ^ 21 + h.count * 2 ^ 30 + h.fill * 2 ^ 37 + h.drain * 2 ^ 43 +
      h.expect * 2 ^ 49 + h.overrun.toNat * 2 ^ 66) ++
    leBytes 16 (packBits 2 64 fun k => (h.st k).code) ++ leBytes 136 (packBits 17 64 h.lf))

/-- A tensor record's 96 bytes. -/
def Tid.bytes (n : Nat) (d : Tid) : List Byte :=
  padTo 96 (leBytes 64 d.desc.toNat ++ capBytes d.cap ++ leBytes 1 n ++ leBytes 1 d.cap.tag.toNat ++ leBytes 2 0 ++
    leBytes 4 d.kb ++ leBytes 4 d.nb)

/-- A pump image's 64 bytes. -/
def PumpCmd.bytes (m : PumpCmd) : List Byte :=
  leBytes 8 m.slotWord.toNat ++ leBytes 8 m.s0.toNat ++ leBytes 8 m.s1.toNat ++
    leBytes 8 (m.cap0.tag.toNat + 2 * m.cap1.tag.toNat) ++ capBytes m.cap0 ++ capBytes m.cap1

/-- The state with another context as the one that issues. DESIGN CHOICE: notes/assumptions/3.md. -/
def State.at (s : State) (t c : Nat) : State := { s with core := { s.core with cur := (t, c) } }

/-- The least exponent under which a window of `n` bytes from 0 can be given, and its length mantissa (R227). -/
def coverWindow (n : Nat) : Nat × Nat :=
  let e := ((List.range 49).find? fun e => decide ((n + 2 ^ e - 1) / 2 ^ e < 2 ^ 21)).getD 48
  (e, (n + 2 ^ e - 1) / 2 ^ e)

/-- The CODE capability of a task: with X over the whole CODE object (R321). DEDUCED: notes/assumptions/37.md. -/
def State.codeCap (s : State) (asid : Nat) (k : Task) : Cap :=
  let w := coverWindow (((s.walkObj asid k.code).map fun e => bitsOf e 207 160).getD 0)
  mkCap (2 ^ rX) kCODE k.code 0 w.1 0 w.2 true

/-- The region state at 0x1280 (R361); the step of a task without one is a free value. -/
def State.regionBytes (s : State) (t c : Nat) (x : Ctx) (k : Task) (e granules : Nat) : List Byte :=
  let sr (n : Nat) := leBytes 8 ((s.at t c).sysReg n).toNat
  padTo 512 (leBytes 8 x.pc.toNat ++ capBytes (s.codeCap x.sys.asid k) ++ leBytes 8 1 ++
    leBytes 8 (x.region.isSome.toNat + 256 * k.feat.toNat) ++ leBytes 8 x.barGen ++
    leBytes 8 (match k.step with | some n => n | none => (Config.freeWord s.freeCtr).toNat) ++
    leBytes 8 e ++ leBytes 8 granules ++ leBytes 8 t ++
    leBytes 8 ((x.region.map fun r => r.pc.toNat).getD 0) ++ loopBytes ((x.region.map fun r => r.loops).getD []) ++
    ((List.range 16).flatMap fun j => leBytes 8 ((x.region.map fun r => (FMap.get 0 r.offs j).toNat).getD 0)) ++
    [3, 4, 5, 6, 8, 9, 10, 11, 12, 13, 14, 15, 16].flatMap sr ++
    leBytes 8 x.drops.toNat ++ leBytes 8 x.firstDrop.toNat)

/-- The save area of a context (R361). DESIGN CHOICE: notes/assumptions/37.md. -/
def State.saveBytes (s : State) (t c : Nat) (x : Ctx) (k : Task) (tids : List (Nat × Tid)) (ms : List PumpCmd)
    (granules : Nat) (window : List Byte) : List Byte :=
  (List.range 64).flatMap (fun j => leBytes 8 (x.regs.getS j).toNat) ++
  (List.range 16).flatMap (fun j => capBytes (x.regs.getA j)) ++
  padTo 64 (leBytes 2 (packBits 1 16 fun j => (x.regs.getA j).tag.toNat)) ++
  (List.range 16).flatMap (fun j => leBytes 8 (x.regs.getP j).toNat) ++
  (List.range 8).flatMap (fun j => leBytes 8 (x.regs.getB j).toNat) ++
  padTo 64 (leBytes 8 x.views.v ++ leBytes 8 x.views.t ++ leBytes 8 x.views.c ++ leBytes 8 x.views.k ++
    leBytes 8 x.views.kCap ++ (List.range 8).flatMap (fun j => leBytes 1 (FMap.get 0 x.views.ranks j)) ++
    leBytes 8 x.loops.length) ++
  padTo 192 (loopBytes x.loops) ++
  (List.range 96).flatMap (fun i => leBytes 4 (FMap.get (0 : BitVec 32) x.delta i).toNat) ++
  (List.range 16).flatMap (fun j => (x.handle j).bytes) ++
  s.regionBytes t c x k tids.length granules ++
  tids.flatMap (fun (n, d) => d.bytes n) ++
  padTo 2048 (ms.flatMap PumpCmd.bytes) ++
  window ++
  padTo 512 (x.events.flatMap fun r => leBytes 32 (eventBits r).toNat)

/-! The save itself. -/

/-- Commands that leave the package's queues: KV commands their sequences' waiting lists, collectives their groups'. -/
def State.forgetCmds (s : State) (ids : List Nat) : State :=
  let keep (xs : List Nat) := xs.filter fun i => !ids.contains i
  let seqs (m : FMap Seq) := FMap.mapValues {} (fun _ (q : Seq) => { q with waiting := keep q.waiting }) m
  let arenas := FMap.mapValues {} (fun _ (a : Arena) => { a with seqs := seqs a.seqs }) s.eng.arenas
  let groups := FMap.mapValues {} (fun _ (g : Group) => { g with waiting := keep g.waiting }) s.eng.groups
  { s with
    core := { s.core with cmds := s.core.cmds.filter fun m => !ids.contains m.id }
    eng := { s.eng with arenas := arenas, groups := groups } }

/-- The context as saved: no queued work, operand files and latches read zero after the resume (R14, R306), anchors stay
with the window (notes/assumptions/38.md). DEDUCED: notes/assumptions/36.md. -/
def Ctx.saved (x : Ctx) (ms : List PumpCmd) (cycles : Nat) : Ctx :=
  { x.refund ms with phase := .running, captured := none, target := none, redirect := none, ofA := [], ofB := [],
                     latches := {}, region := none, commitQ := [], launchStall := false, barWaiting := false, preempt := none,
                     rec0 := 0, rec1 := 0, cycAcc := x.cycAcc + cycles - x.cycStart, cycStart := 0, yieldNext := false,
                     awaitCmds := [], pageTrap := none }

/-- The address of a partition's save slot (R351, R360). -/
def State.slotAddr (s : State) (part slot : Nat) : Nat :=
  (bitsOf (s.service part) 255 192 + slot * (4096 * bitsOf (s.service part) 319 304)) % 2 ^ 64

/-- The task on a context saved into a free slot of its partition (R39, R361, R362); the result names the save. A parked
task does not join its queue's ready list (R373) and its tensor entries stay in the tile (R367); after YIELD.q it joins at the end (R360).
DEDUCED: notes/assumptions/36.md. DEDUCED: notes/assumptions/38.md. -/
def State.saveTask (s : State) (t c : Nat) (parked : Bool) : Option (State × Nat) :=
  let x := s.ctx t c
  match x.task with
  | none => none
  | some k =>
    let part := s.regionPart k.region
    match s.freeSlot part with
    | none => none
    | some slot =>
      let ms := (s.recorded t c).map fun m => (m, m.image)
      let tids := s.ownTids t c
      let gr := s.granulesOf t c
      let addr := s.slotAddr part slot
      let win := FMap.getRun 0 (s.tile t).space (x.winAt 0) (4096 * x.sys.winSize)
      let y := x.saved (ms.map Prod.fst) (FMap.get ({} : Island) s.pow.islands (t / 8)).cycles
      let id := s.nextId
      let carry := s.core.cmds.filterMap fun m => if m.tile == t && m.ctx == c && m.owned && m.place == .accepted then some m.id else none
      let v : Saved := { ctx := y, tile := t, ctxNo := c, tids := tids, window := FMap.setRun 0 [] 0 win,
                         cmds := ms.map Prod.snd, carry := carry, granules := gr, part := part, slot := slot, addr := addr,
                         feat := k.feat, parked := parked }
      let s1 := s.wrBytes addr (s.saveBytes t c y k tids (ms.map Prod.snd) gr win)
      let s2 := s1.forgetCmds (ms.map fun m => m.1.id)
      let left := s2.core.cmds.map fun m => if carry.contains m.id then { m with left := true } else m
      let saves := FMap.set {} s2.cp.saves id v
      let s3 : State := { s2 with
        freeCtr := s2.freeCtr + 1
        nextId := id + 1
        core := { s2.core with cmds := left }
        cp := { s2.cp with saves := saves, usedSlots := s2.cp.usedSlots ++ [(part, slot)] } }
      let s4 := (s3.settleEnergy t c k.region).modGang k.gang fun g => { g with members := g.members.set k.member (.saved id) }
      let s5 := s4.modCtx t c fun z =>
        { z with phase := .idle, task := none, loops := [], region := none, preempt := none, events := [], fences := [],
                 awaitCmds := [], barWaiting := false, waitSince := none, tickTarget := none, sys := { z.sys with sup := false } }
      let s6 := if parked then s5
        else if (x.preempt.map fun r => r.yielded) = some true then s5.readyBack k.queue [.saved id]
        else s5.readyFront k.queue [.saved id]
      some (s6, id)

/-- CONTEXT_SAVE (R39, R361). -/
def execContextSave (t c : Nat) (s : State) : Host.Outcome State Fault Refusal :=
  if (s.ctx t c).phase == .landed && s.saveReady t c then
    (match s.saveTask t c false with
      | some (s1, _) => .next s1
      | none => .next s)
  else .next s

/-! Reading a save area (R361, R363). -/

/-- `n` bytes of a save area as a number. -/
def State.area (s : State) (v : Saved) (off n : Nat) : Nat := s.rdNat (v.addr + off) n

/-- The registers of a save area. -/
def State.areaRegs (s : State) (v : Saved) : Regs :=
  let tags := s.area v 0x300 2
  let r1 := (List.range 64).foldl (fun r j => r.setS j (BitVec.ofNat 64 (s.area v (8 * j) 8))) ({} : Regs)
  let r2 := (List.range 16).foldl (fun r j =>
    r.setA j { bits := BitVec.ofNat 128 (s.area v (0x200 + 16 * j) 16), tag := tags.testBit j }) r1
  let r3 := (List.range 16).foldl (fun r j => r.setP j (BitVec.ofNat 64 (s.area v (0x340 + 8 * j) 8))) r2
  (List.range 8).foldl (fun r j => r.setB j (BitVec.ofNat 48 (s.area v (0x3C0 + 8 * j) 8))) r3

/-- The view registers, K capacity and ranks of a save area. -/
def State.areaViews (s : State) (v : Saved) : Views :=
  { v := s.area v 0x400 8, t := s.area v 0x408 8, c := s.area v 0x410 8, k := s.area v 0x418 8, kCap := s.area v 0x420 8,
    ranks := (List.range 8).foldl (fun m j => FMap.set 0 m j (s.area v (0x428 + j) 1)) [] }

/-- `n` levels of a loop stack in a save area. -/
def State.areaLoops (s : State) (v : Saved) (off n : Nat) : List Level :=
  (List.range (min n 6)).map fun i =>
    let at4 (k : Nat) := s.area v (off + 16 * i + 4 * k) 4
    { start := BitVec.ofNat 48 (64 * at4 0), stop := BitVec.ofNat 48 (64 * at4 1), count := BitVec.ofNat 32 (at4 2),
      index := BitVec.ofNat 32 (at4 3) }

/-- A slot state by its code. -/
def SlotState.ofCode (n : Nat) : SlotState := if n = 1 then .filling else if n = 2 then .filled else .free

/-- A handle of a save area. -/
def State.areaHandle (s : State) (v : Saved) (j : Nat) : Handle :=
  let b := 0x680 + 192 * j
  let x := s.area v b 16
  let st := s.area v (b + 16) 16
  let lf := s.area v (b + 32) 136
  { base := x % 2 ^ 21, ssize := x / 2 ^ 21 % 2 ^ 9, count := x / 2 ^ 30 % 2 ^ 7, fill := x / 2 ^ 37 % 2 ^ 6,
    drain := x / 2 ^ 43 % 2 ^ 6, expect := x / 2 ^ 49 % 2 ^ 17, overrun := x.testBit 66,
    state := (List.range 64).foldl (fun m k => FMap.set .free m k (SlotState.ofCode (st / 4 ^ k % 4))) [],
    left := (List.range 64).foldl (fun m k => FMap.set 0 m k (lf / 2 ^ (17 * k) % 2 ^ 17)) [] }

/-- The kept system registers of a save area (R111); `y` gives those that the area does not hold. -/
def State.areaSys (s : State) (v : Saved) (y : SysRegs) : SysRegs :=
  let sr (k : Nat) : Word := BitVec.ofNat 64 (s.area v (0x1280 + 312 + 8 * k) 8)
  { y with gang := bitsOf (sr 0) 8 0, gangM1 := bitsOf (sr 0) 24 16, place := bitsOf (sr 1) 1 0, asid := bitsOf (sr 2) 11 0,
           sup := (sr 3).getLsbD 0, nflag := (sr 4).extractLsb' 0 6, qclamp := (sr 5).extractLsb' 0 32,
           ufmax := (sr 6).extractLsb' 32 32, clampmax := (sr 6).extractLsb' 0 32, tol := (sr 7).extractLsb' 0 32,
           tolAbs := (sr 8).getLsbD 0, utvecEn := (sr 9).getLsbD 0, utvec := (sr 9).extractLsb' 6 42,
           inh := (sr 10).getLsbD 32, info := (sr 10).extractLsb' 16 16, slot := (sr 10).extractLsb' 8 3,
           cause := (sr 10).extractLsb' 0 8, utepc := (sr 11).extractLsb' 6 42, sepc := (sr 12).extractLsb' 6 42 }

/-- A tensor record of a save area, with its entry number. -/
def State.areaTid (s : State) (v : Saved) (i : Nat) : Nat × Tid :=
  let b := 0x1480 + 96 * i
  (s.area v (b + 80) 1 % 64,
    { valid := true, owner := v.ctxNo, desc := BitVec.ofNat 512 (s.area v b 64),
      cap := { bits := BitVec.ofNat 128 (s.area v (b + 64) 16), tag := (s.area v (b + 81) 1).testBit 0 },
      kb := s.area v (b + 84) 4, nb := s.area v (b + 88) 4 })

/-- A recorded command as its image gives it: slot word and captured registers; who posted it the launch unit keeps. -/
def State.areaCmd (s : State) (v : Saved) (b : Nat) (m : PumpCmd) : PumpCmd :=
  let w : SlotWord := BitVec.ofNat 60 (s.area v b 8)
  let tags := s.area v (b + 24) 8
  let m1 := { m with slotWord := w, s0 := BitVec.ofNat 64 (s.area v (b + 8) 8), s1 := BitVec.ofNat 64 (s.area v (b + 16) 8),
                     cap0 := { bits := BitVec.ofNat 128 (s.area v (b + 32) 16), tag := tags.testBit 0 },
                     cap1 := { bits := BitVec.ofNat 128 (s.area v (b + 48) 16), tag := tags.testBit 1 } }
  match decodeSlot 6 false w with
  | .ok i => { m1 with opc := opcOf i, body := pumpBody i }
  | .error _ => m1

/-- A saved task as its save area holds it now (R361, R363); what the area has no place for the launch unit keeps.
DEDUCED: notes/assumptions/37.md. DEDUCED: notes/assumptions/36.md. -/
def State.readSave (s : State) (v : Saved) : Saved :=
  let r := 0x1280
  let e := min 64 (s.area v (r + 56) 8)
  let x := 0x1480 + 96 * e
  let w := 4096 * v.ctx.sys.winSize
  let task := v.ctx.task.map fun k => { k with step := k.step.map fun _ => s.area v (r + 48) 8 }
  let ctx := { v.ctx with
    pc := BitVec.ofNat 48 (s.area v r 8), regs := s.areaRegs v, views := s.areaViews v,
    loops := s.areaLoops v 0x440 (s.area v 0x430 8),
    delta := (List.range 96).foldl (fun m i => FMap.set 0 m i (BitVec.ofNat 32 (s.area v (0x500 + 4 * i) 4))) [],
    h := (List.range 16).foldl (fun m j => FMap.set {} m j (s.areaHandle v j)) [],
    barGen := s.area v (r + 40) 8, sys := s.areaSys v v.ctx.sys, task := task,
    drops := BitVec.ofNat 32 (s.area v (r + 416) 8), firstDrop := BitVec.ofNat 64 (s.area v (r + 424) 8),
    events := (List.range 16).filterMap fun i =>
      let n := s.area v (x + 2048 + w + 32 * i) 32
      if n = 0 then none else some (eventOf n) }
  { v with ctx := ctx, feat := BitVec.ofNat 8 (s.area v (r + 33) 1), granules := s.area v (r + 64) 8,
           tids := (List.range e).map (s.areaTid v),
           cmds := v.cmds.zipIdx.map fun (m, i) => s.areaCmd v (x + 64 * i) m,
           window := FMap.setRun 0 [] 0 (s.rdBytes (v.addr + x + 2048) w) }

/-! The resume (R363). -/

/-- Whether a saved task may resume on a context: R363, and the tile of the save where it records a well-journal command
(R384). -/
def State.canResume (s : State) (v : Saved) (k : Nat) (q t c : Nat) : Bool :=
  let task := v.ctx.task.getD {}
  s.canTake q t c v.ctx.sys.winSize v.feat (v.tids.map Prod.fst) &&
    (s.regionTiles task.region).contains t && (s.island (t / 8)).state.up &&
    (t == v.tile || ((v.tids.all fun (_, d) => d.loc) && (v.cmds.all fun m => !m.isWj) &&
      v.granules &&& s.granulesInUse t k == 0))

/-- The bytes of the masked granules copied to another tile at the same offsets (R363, R386). -/
def State.copyGranules (s : State) (mask src dst : Nat) : State :=
  ((List.range 32).filter fun g => mask.testBit g).foldl (fun a g =>
    a.wrBytes (a.scratchPa dst (65536 * g)) (a.rdBytes (a.scratchPa src (65536 * g)) 65536)) s

/-- A saved task restored on a context: window, registers, tensor entries, then its commands posted again, its accepted
collectives taken back (R159, R296, R362, R363). DEDUCED: notes/assumptions/36.md. DEDUCED: notes/assumptions/38.md. -/
def State.restore (s : State) (id : Nat) (v : Saved) (t c : Nat) : State :=
  let x := s.ctx t c
  let k := v.ctx.task.getD {}
  let y := { v.ctx with sys := { v.ctx.sys with winErr := x.sys.winErr, winBase := x.sys.winBase },
                        preempt := x.preempt, rec0 := x.rec0, rec1 := x.rec1, cycStart := (s.island (t / 8)).cycles,
                        task := v.ctx.task.map fun z => { z with feat := v.feat } }
  let s1 := if t = v.tile then s else s.copyGranules v.granules v.tile t
  let s2 := s1.setCtx t c y
  let s3 := s2.modTile t fun z =>
    { z with space := FMap.setRun 0 z.space (y.winAt 0) (FMap.getRun 0 v.window 0 (4096 * y.sys.winSize)),
             tids := if v.parked then z.tids
               else v.tids.foldl (fun m (n, d) => FMap.set {} m n { d with owner := c, valid := true }) z.tids }
  let back := s3.core.cmds.map fun m => if v.carry.contains m.id then { m with left := false, tile := t, ctx := c } else m
  let again := v.cmds.map fun m => { m with tile := t, ctx := c }
  let s4 := { s3 with core := { s3.core with cmds := back ++ again } }
  let s5 := s4.modGang k.gang fun g => { g with members := g.members.set k.member (.on t c), tiles := FMap.set 0 g.tiles k.member t }
  { s5 with cp := { s5.cp with saves := FMap.set {} s5.cp.saves id {},
                               usedSlots := s5.cp.usedSlots.filter fun u => u != (v.part, v.slot) } }

/-- CONTEXT_RESUME (R360, R363): the saved task at the head of a queue that has been drawn resumes on a context. -/
def execContextResume (q t c : Nat) (s : State) : Host.Outcome State Fault Refusal :=
  match (s.queue q).ready, (s.queue q).held with
  | .saved id :: _, some _ =>
    let v := s.readSave (s.save id)
    if s.canResume v id q t c then
      .next ((s.modQueue q fun x => { x with ready := x.ready.drop 1, held := none }).restore id v t c)
    else .next s
  | _, _ => .next s

end Sys2Proof.Machine
end

