-- ==== Sys2Proof/Machine/Fetch.lean ====
section
/-! DEFINITION. Fetching a bundle and its byte of the duplicate map: spec/03_encoding.md R68 to R70,
spec/17_image_abi.md R318, spec/19_faults_preemption.md R349. -/

namespace Sys2Proof.Machine

/-- The trap of a bundle outside its CODE object (R349). -/
def fetchTrap (off : Nat) (obj : Nat) : Stop := .trap { code := trapFETCH_BOUNDS, obj := obj, off := off }

/-- A failed fetch: outside the object it is FETCH_BOUNDS, with subcode 0 (R349). DEDUCED: notes/assumptions/25.md. -/
def fetchStop (obj off : Nat) : Stop → Stop
  | .trap tr => if tr.code = trapCAP_BOUNDS then fetchTrap off obj else .trap tr
  | e => e

/-- The byte of the duplicate map for the bundle at `pc` (R318): 0 where the image has none, or the kernel's DUP is 0. -/
def State.dupByte (s : State) (asid : Nat) (k : Task) (pc : Off) : BitVec 8 :=
  match k.dup, k.dupObj with
  | true, some obj =>
    BitVec.ofNat 8 ((s.cpNat asid obj kindsAny [] ((64 * k.dupOff + pc.toNat - k.codeOff.toNat) / 64) 1).getD 0)
  | _, _ => 0

/-- The bundle at the program counter of a context, with its duplicate byte (R68, R318).
DEDUCED: notes/assumptions/25.md. -/
def State.fetch (s : State) (t c : Nat) : Except Stop (State × BitVec 512 × BitVec 8) :=
  let x := s.ctx t c
  let k := x.task.getD {}
  match s.translate t x.sys.asid 0 k.code kCODE [rX] [] x.pc.toNat 64 with
  | .error e => .error (fetchStop k.code x.pc.toNat e)
  | .ok (s1, ps, _) =>
    .ok (s1, bundleOfBytes (s1.rdPieces ps), s1.dupByte x.sys.asid k x.pc)

/-- The operation in the sync slot of the bundle at which a context stands. -/
def State.syncOp (s : State) (t c : Nat) : Option Instr :=
  match s.fetch t c with
  | .error _ => none
  | .ok (_, w, d) =>
    if occupied w 7 then
      (match decodeSlot 7 (d.getLsbD 7) (slotWord w 7) with
        | .ok i => some i
        | .error _ => none)
    else none

end Sys2Proof.Machine
end

