-- ==== Sys2Proof/Machine/Islands.lean ====
section
/-! DEFINITION. Islands, parking and waking, retention, cistern slices, timing storms: spec/20_normally_off.md R367 to
R375, spec/19_faults_preemption.md R365 and R366, spec/22_firmware.md R396. -/

namespace Sys2Proof.Machine

/-- The source number of the active complex; which of its cores reports is left open (R6). -/
def State.fwSource (s : State) : Nat :=
  let n := ((s.sec.complexes.find? fun (_, x) => x.role == .active).map Prod.fst).getD 0
  0x6000 + 4 * n + (Config.freeWord s.freeCtr).toNat % 4

/-- An event whose source rests on a free value. DESIGN CHOICE: notes/assumptions/53.md. -/
def State.eventFree (s : State) (src code : Nat) (payload : BitVec 160) : State :=
  { s with freeCtr := s.freeCtr + 1 }.event src code payload

/-- The source number of the wake controller (R6). -/
def wakeSource : Nat := 0x7000

/-- The tiles of an island. -/
def tilesOf (i : Nat) : List Nat := (List.range 8).map fun j => 8 * i + j
/-- The contexts of an island. -/
def ctxsOf (i : Nat) : List (Nat × Nat) := (tilesOf i).flatMap fun t => (List.range 4).map fun c => (t, c)

/-- The reset value of a partition's power entry: OFFDLY 10, PARKDLY 50 (R369). -/
def powerReset : BitVec 256 := BitVec.ofNat 256 (10 * 2 ^ 32 + 50 * 2 ^ 16)
/-- The power entry of a partition (R369). -/
def State.powerEntry (s : State) (p : Nat) : BitVec 256 := FMap.get powerReset s.tab.powers p
/-- Whether an island belongs to a timed partition (R278, R401). -/
def State.timedIsland (s : State) (i : Nat) : Bool := match s.partOf i with
  | some p => (s.partition p).getLsbD 1
  | none => false

/-! Clocks and time (R266, R278, R366, R396). -/

/-- The clock at which an island runs, in MHz: its class ceiling or its setting; during a storm one step lower, never
below 1.6 GHz (R366); in early service at most 1.6 GHz (R396). -/
def State.clockOf (s : State) (i : Nat) : Nat :=
  let x := s.island i
  let base := if s.timedIsland i then x.ceiling else x.clock
  let slow := if x.stormUntil.isSome && decide (1600 < base) then max 1600 (base - 200) else base
  if s.sec.trained then slow else min slow 1600

/-- Whether nothing of an island is busy: no context is ready, no engine works, no pump or well command runs, and no
journal is being applied. -/
def State.islandQuiet (s : State) (i : Nat) : Bool :=
  ((ctxsOf i).all fun (t, c) => (s.ctx t c).phase != .running && (s.ctx t c).commitQ.isEmpty) &&
    ((tilesOf i).all fun t => (s.tile t).inflight.isEmpty && (s.tile t).syncQ.isEmpty &&
      ((s.tile t).well.journal.state != .committed || (s.tile t).well.verifyFailed)) &&
    !(s.core.cmds.any fun m => m.island == i && !m.left && (m.place == .port || m.place == .queued || m.place == .started || m.place == .well))

/-- Device time passes, and with it the cycles of the islands that are ON (R117). -/
def State.elapse (s : State) (dt : Nat) : State :=
  if dt = 0 then s
  else
    let islands := FMap.mapValues {} (fun i (x : Island) =>
      if x.state = .on then
        let n := x.cycles + dt * s.clockOf i
        { x with cycles := n, busyAt := if s.islandQuiet i then x.busyAt else n }
      else x) s.pow.islands
    { s with now := s.now + dt, pow := { s.pow with islands := islands } }

/-! Replay (R365, R366). -/

/-- The replays in succession of what an error of a tile hits, with this one, and the state after: the bundle at issue of
context `c`, or, with an engine named, the operation it executes (R365, R366). None: there is no such work. -/
def State.replayAt (s : State) (t c : Nat) : Option Engine → Option (Nat × State)
  | none =>
    if (s.ctx t c).phase = .running then
      some ((s.ctx t c).replayRun + 1, s.modCtx t c fun x => { x with replayRun := x.replayRun + 1 })
    else none
  | some e =>
    ((s.tile t).inflight.find? fun o => o.eng == e).map fun o =>
      (o.replayRun + 1, s.modTile t fun x => { x with inflight := x.inflight.map fun p =>
        if p = o then { o with replayRun := o.replayRun + 1 } else p })

/-- TIMING_ERROR_REPLAY (R365, R366): a bundle or an operation of a tile replays; no result changes. Its eighth replay in
succession is a storm: the island runs one step lower for 1 ms. DEDUCED: notes/assumptions/51.md. -/
def execTimingErrorReplay (site : ReplaySite) (s : State) : Host.Outcome State Fault Refusal :=
  let t := site.tile
  if (s.island (t / 8)).state != .on then .next s
  else match s.replayAt t site.ctx site.engine with
    | none => .next s
    | some (n, s1) =>
      let s2 := s1.modTile t fun x => { x with replays := x.replays + 1 }
      if n = 8 then
        .next ((s2.event t 0x0120 0).modIsland (t / 8) fun x => { x with stormUntil := some (s.ns + 1000000) })
      else .next s2

/-- STORM_PERIOD_END (R366). -/
def execStormPeriodEnd (i : Nat) (s : State) : Host.Outcome State Fault Refusal :=
  match (s.island i).stormUntil with
  | some u => if u ≤ s.ns then .next (s.modIsland i fun x => { x with stormUntil := none }) else .next s
  | none => .next s

/-! ON and IDLE (R368). -/

/-- ISLAND_IDLE (R368): 256 cycles have passed in which nothing of the island was busy. -/
def execIslandIdle (i : Nat) (s : State) : Host.Outcome State Fault Refusal :=
  if (s.island i).state == .on && s.islandQuiet i && decide ((s.island i).busyAt + 256 * 65536000 ≤ (s.island i).cycles) then
    .next (s.modIsland i fun x => { x with state := .idle, idleSince := some s.ns })
  else .next s

/-- ISLAND_IDLE_EXIT (R368): a context is ready, a command has reached the pump, or what another unit delivers reaches a
scratchpad. DEDUCED: notes/assumptions/50.md. -/
def execIslandIdleExit (i : Nat) (s : State) : Host.Outcome State Fault Refusal :=
  if (s.island i).state == .idle && (!s.islandQuiet i || s.core.cmds.any fun m => m.island == i && !m.left && m.place == .accepted) then
    .next (s.modIsland i fun x => { x with state := .on, idleSince := none, busyAt := x.cycles })
  else .next s

/-! Parking (R370 to R372). -/

/-- WAKEAT and MONADDR of a context that sleeps in a wait under which it may be parked (R370, R372). -/
def State.parkTriggers (s : State) (t c : Nat) : Option (Nat × Nat) :=
  let x := s.ctx t c
  let word (b : SyncBody) (n k : Nat) : Option (Nat × Nat) :=
    match (s.at t c).syPort (syCap b (s.at t c)) [rR] n with
    | .ok (_, pa, _) => some (0, pa + k)
    | .error _ => none
  match s.syncOp t c with
  | some (.tickwait _ _) =>
    (match x.task.bind fun k => k.arm with
      | some a => some ((s.arm a).tickTime (x.tickTarget.getD (s.arm a).nextTick), 0)
      | none => none)
  | some (.evwait _ b) => some ((x.regs.getS (bitsOf b 42 37)).toNat, 0)
  | some (.sigwait _ b) => word b 8 0
  | some (.jobwait _ b) => word b 32 24
  | _ => none

/-- Whether a context is parkable (R370), a free save slot apart. -/
def State.parkable (s : State) (t c : Nat) : Bool :=
  let x := s.ctx t c
  x.phase == .sleeping && x.region.isNone && s.saveReady t c && (s.recorded t c).isEmpty &&
    s.granulesOf t c == 0 && (s.parkTriggers t c).isSome

/-- A resume record (R371). -/
def resumeRecord (addr wakeAt mon region queue member c : Nat) : BitVec 512 :=
  BitVec.ofNat 64 addr ++ BitVec.ofNat 64 wakeAt ++ BitVec.ofNat 64 mon ++ BitVec.ofNat 16 region ++ 0#3 ++
    BitVec.ofNat 13 queue ++ 0#23 ++ BitVec.ofNat 9 member ++ 0#253 ++ BitVec.ofNat 2 c ++ 1#1

/-- A context parked: saved, its resume record written twice (R371). -/
def State.parkTask (s : State) (t c : Nat) : State :=
  let k := (s.ctx t c).task.getD {}
  match s.parkTriggers t c, s.saveTask t c true with
  | some (at', mon), some (s1, id) =>
    let r := resumeRecord (s1.save id).addr at' mon k.region k.queue k.member c
    s1.modCtx t c fun x => { x with rec0 := r, rec1 := r }
  | _, _ => s

/-- Every volatile store of an island lost (R367): register space, scratchpads, operand files, contexts, caches. The
windows stay, as configuration (notes/assumptions/39.md). -/
def State.loseVolatile (s : State) (i : Nat) : State :=
  let mine (pa : Nat) : Bool := paSpace pa == 4 && paPkg pa == s.net.pkg && paAddr pa / 2 ^ 25 == i
  let s1 := (tilesOf i).foldl (fun a t => a.modTile t fun x =>
    { x with q := 0, space := [], inflight := [], syncQ := [], lateQ := [], tlbObjs := [], tlbPages := [] }) s
  let s2 := (ctxsOf i).foldl (fun a (t, c) => a.modCtx t c fun x =>
    { sys := { winErr := x.sys.winErr, winSize := x.sys.winSize, winBase := x.sys.winBase },
      preempt := x.preempt, rec0 := x.rec0, rec1 := x.rec1 }) s1
  let mem := s2.core.mem.filter fun (a, _) => !mine a
  let tags := s2.core.capTags.filter fun (a, _) => !mine (16 * a)
  { s2 with core := { s2.core with mem := mem, capTags := tags } }

/-- ISLAND_PARK (R368, R370, R371): PARKDLY has elapsed in IDLE, and every context is idle or parkable. -/
def execIslandPark (i : Nat) (s : State) : Host.Outcome State Fault Refusal :=
  let x := s.island i
  match x.idleSince, s.partOf i with
  | some d, some p =>
    let e := s.powerEntry p
    let dly := bitsOf e 31 16
    let tasks := (ctxsOf i).filter fun (t, c) => (s.ctx t c).task.isSome
    let slots := ((List.range (bitsOf (s.service p) 303 288)).filter fun k => !s.cp.usedSlots.contains (p, k)).length
    if x.state == .idle && !e.getLsbD 0 && dly != 0xFFFF && decide (d + 1000 * dly ≤ s.ns) &&
        (tasks.all fun (t, c) => s.parkable t c) && decide (s.savesDue p + tasks.length ≤ slots) &&
        (s.core.cmds.all fun m => m.island != i || m.left || m.place == .accepted) then
      let s1 := (tasks.foldl (fun a (t, c) => a.parkTask t c) s).loseVolatile i
      .next (s1.modIsland i fun x => { x with state := .retain, idleSince := some s.ns })
    else .next s
  | _, _ => .next s

/-- RESUME_TRIGGER (R372): WAKEAT − 10 µs has come, the home of MONADDR has performed a write, or an event record has been
addressed to the parked context. DEDUCED: notes/assumptions/50.md. -/
def execResumeTrigger (t c : Nat) (s : State) : Host.Outcome State Fault Refusal :=
  let x := s.ctx t c
  let events : Bool := s.cp.saves.any fun (_, v) => v.parked && v.tile == t && v.ctxNo == c && !v.ctx.events.isEmpty
  let hit := s.pow.monHits.contains (ctxKey t c)
  if !s.pow.down && x.parked && ((recWakeAt x.rec0 != 0 && decide (recWakeAt x.rec0 ≤ s.ns + 10000)) || hit || events) then
    let s1 := { s with pow := { s.pow with monHits := s.pow.monHits.filter fun k => k != ctxKey t c } }
    .next (s1.askWake false (t / 8))
  else .next s

/-! OFF (R367, R368). -/

/-- The relative number of an island in its partition (R401). -/
def State.relIsland (s : State) (p i : Nat) : Nat := (s.islandsOf p).findIdx fun j => j == i

/-- ISLAND_OFF (R368): OFFDLY has elapsed in RETAIN, no resume record is valid, and the island is not among MINON. -/
def execIslandOff (i : Nat) (s : State) : Host.Outcome State Fault Refusal :=
  let x := s.island i
  match x.idleSince, s.partOf i with
  | some d, some p =>
    let e := s.powerEntry p
    let dly := bitsOf e 47 32
    if x.state == .retain && dly != 0xFFFF && decide (d + 1000000 * dly ≤ s.ns) &&
        !((ctxsOf i).any fun (t, c) => (s.ctx t c).parked) && !e.getLsbD (64 + s.relIsland p i) then
      let s1 := (tilesOf i).foldl (fun a t => a.modTile t fun y => { y with tids := [] }) s
      .next (s1.modIsland i fun y => { y with state := .off, idleSince := none })
    else .next s
  | _, _ => .next s

/-! Waking (R368, R369, R373, R374). -/

/-- Whether a wake request waits to begin. -/
def State.wantsWake (s : State) (i : Nat) : Bool :=
  let x := s.island i
  x.wakeReq.isSome && (x.state == .retain || x.state == .off) && x.selfTest == .passed && (s.partOf i).isSome

/-- The request that goes first: tick schedules before the others, then by time, then by number (R368). -/
def State.nextWake (s : State) : Option Nat :=
  ((List.range 64).filter s.wantsWake).foldl (fun best i => match best with
    | none => some i
    | some b =>
      let x := s.island i
      let y := s.island b
      if (x.wakeTimed && !y.wakeTimed) || (x.wakeTimed == y.wakeTimed && decide (x.wakeReq.getD 0 < y.wakeReq.getD 0))
      then some i else some b) none

/-- ISLAND_WAKE (R368): the wake of the first request begins; at most 8 begin in any 1 µs. -/
def execIslandWake (i : Nat) (s : State) : Host.Outcome State Fault Refusal :=
  let recent := s.pow.wakesBegun.filter fun t => decide (s.now < t + 1000 * 65536)
  if s.nextWake = some i ∧ recent.length < 8 then
    let s1 := s.modIsland i fun x => { x with fromOff := x.state == .off, state := .waking }
    .next { s1 with pow := { s1.pow with wakesBegun := recent ++ [s.now] } }
  else .next s

/-- A RETAIN_PARITY event (R374). DEDUCED: notes/assumptions/50.md. -/
def State.parityEvent (s : State) (t kind n : Nat) : State :=
  s.event wakeSource 0x0130 (BitVec.ofNat 160 (t % 2 ^ 16 + kind * 2 ^ 16 + n * 2 ^ 32))

/-- What a parity failure does to an element of a tile (R374): kind 0 island configuration, 1 tensor entry, 2 resume
record, 3 wear counter. A resume record with one good copy serves. DEDUCED: notes/assumptions/50.md. -/
def State.parityFail (s : State) (t kind n : Nat) : State :=
  match kind with
  | 1 => (s.modTile t fun x =>
      let d : Tid := { FMap.get {} x.tids n with valid := false }
      { x with tids := FMap.set {} x.tids n d }).parityEvent t 1 n
  | 3 => (s.modWell t fun w => { w with wear := FMap.set 0 w.wear n (BitVec.allOnes 32) }).parityEvent t 3 n
  | k => s.parityEvent t k n

/-- A parked task comes back on its tile and context, or, with both record copies bad, ends with RETENTION_LOSS
(R349, R373, R374). -/
def State.unpark (s : State) (id : Nat) (lost : Bool) : State :=
  let v := s.readSave (s.save id)
  let s1 := (s.modCtx v.tile v.ctxNo fun x => { x with rec0 := 0, rec1 := 0 }).restore id v v.tile v.ctxNo
  if lost then
    s1.takeSystemTrap v.tile v.ctxNo { code := trapRETENTION_LOSS } v.ctx.pc v.ctx.bundleNo
  else s1

/-- Every parked task of an island resumes (R373). -/
def State.unparkAll (s : State) (i : Nat) (bad : List (Nat × Nat × Nat)) : State :=
  let mine := s.cp.saves.filterMap fun (id, v) => if v.parked && v.tile / 8 == i then some id else none
  let s1 := mine.foldl (fun a id =>
    let v := a.save id
    a.unpark id (decide (2 ≤ (bad.filter fun b => b == (v.tile, 2, v.ctxNo)).length))) s
  (ctxsOf i).foldl (fun a (t, c) => a.modCtx t c fun x => { x with rec0 := 0, rec1 := 0 }) s1

/-- ISLAND_WAKE_COMPLETE (R367, R373, R374): the island reaches ON. `badParity` lists what fails its parity, as tile,
kind, number; a resume record is listed once for one bad copy, twice for both. DEDUCED: notes/assumptions/50.md. -/
def execIslandWakeComplete (i : Nat) (badParity : List (Nat × Nat × Nat)) (s : State) : Host.Outcome State Fault Refusal :=
  let x := s.island i
  if x.state != .waking then .next s
  else
    let bad := badParity.filter fun b => b.1 / 8 == i
    let twice (b : Nat × Nat × Nat) : Bool := b.2.1 == 2 && decide (2 ≤ (bad.filter fun d => d == b).length)
    let s1 := s.modIsland i fun y =>
      { y with state := .on, wakeReq := none, wakeTimed := false, fromOff := false, idleSince := none,
               ceiling := 2200, windowAt := y.cycles, busyAt := y.cycles, shareBundles := 0 }
    let s2 := (bad.filter fun b => !twice b).foldl (fun a b => a.parityFail b.1 b.2.1 b.2.2) s1
    let s3 := if x.fromOff then (tilesOf i).foldl (fun a t => (a.modTile t fun y => { y with tids := [] }).journalRepair t) s2 else s2
    .next (s3.unparkAll i bad)

/-- DRIVER_WAKE_REQUEST (R369). -/
def execDriverWakeRequest (islands : BitVec 64) (s : State) : Host.Outcome State Fault Refusal :=
  if s.fwActive then .next (s.askWakes false ((List.range 64).filter fun i => islands.getLsbD i)) else .next s

/-- ISLAND_SELF_TEST_DONE (R396): the island joins service, or stays OFF and is reported. -/
def execIslandSelfTestDone (i : Nat) (pass : Bool) (s : State) : Host.Outcome State Fault Refusal :=
  if s.pow.down ∨ 64 ≤ i ∨ (s.island i).selfTest ≠ .pending then .next s
  else if pass then .next (s.modIsland i fun x => { x with selfTest := .passed })
  else .next ((s.modIsland i fun x => { x with selfTest := .failed }).eventFree s.openSource 0x0141 0)

/-! Events addressed to contexts (R6, R12, R222, R372). -/

/-- A record for a context; one for a parked task is kept with its save and wakes its island (R372). -/
def State.postTo (s : State) (t c : Nat) (r : EventRec) : State :=
  match s.cp.saves.find? fun (_, v) => v.parked && v.tile == t && v.ctxNo == c with
  | some (id, v) =>
    let saves := FMap.set {} s.cp.saves id { v with ctx := v.ctx.postEvent r }
    { s with cp := { s.cp with saves := saves } }.askWake false (t / 8)
  | none => s.modCtx t c fun x => x.postEvent r

/-- EVENT_RECORD_POST (R12): a record reaches a queue, at a time its source has not used (R7); one from no known source is
discarded (R6). -/
def execEventRecordPost (dest : EventDest) (r : EventRec) (s : State) : Host.Outcome State Fault Refusal :=
  if s.pow.down || !knownSource r.source.toNat then .next s
  else
    let (r, s) := s.stampRec r
    match dest with
    | .context t c => .next (s.postTo t c r)
    | d => .next (s.postEvent d r)

/-! Cistern slices (R375). -/

/-- CISTERN_RETAIN (R375): 50 µs have passed without access. -/
def execCisternRetain (n : Nat) (s : State) : Host.Outcome State Fault Refusal :=
  s.whenUp (if (s.slice n).state == .active && decide ((s.slice n).accessed + 50000 ≤ s.ns) then
    .next (s.modSlice n fun x => { x with state := .retain }) else .next s)

/-- CISTERN_WAKE (R375): a slice that an access waits for is active again. -/
def execCisternWake (n : Nat) (s : State) : Host.Outcome State Fault Refusal :=
  s.whenUp (if (s.slice n).waking then .next (s.modSlice n fun x => { x with state := .active, waking := false }) else .next s)

/-- The blocks of this package's arenas that a slice homes: arena, block, whether pinned. -/
def State.sliceBlocks (s : State) (n : Nat) : List (Nat × Nat × Bool) :=
  s.eng.arenas.flatMap fun (k, a) => a.blocks.filterMap fun (i, b) =>
    if b.die / 8 = s.net.pkg ∧ b.die % 8 * 64 + b.slice = n then some (k, i, a.pinned i) else none

/-- The objects of every address space: identifier and table entry. -/
def State.allObjects (s : State) : List (Nat × BitVec 256) :=
  s.tab.asids.flatMap fun (asid, a) => (List.range (bitsOf a 191 172)).filterMap fun o => (s.walkObj asid o).map fun e => (asid, e)

/-- Whether a slice homes a byte of [pa, pa + n) of LPDDR6 or pinned space (R231). -/
def homesRange (n pa len : Nat) : Bool :=
  decide (paSpace pa ≤ 1) && ((List.range (min 512 ((pa + len + 63) / 64 - pa / 64))).any fun i => homeSlice (pa + 64 * i) == n)

/-- Whether a slice homes what keeps it on (R375): a tail or pinned block, a sequence's table, descriptor or scores, a
signal, a collective control block, a cistern-pinned object. -/
def State.sliceNeeded (s : State) (n : Nat) : Bool :=
  ((s.sliceBlocks n).any fun (k, b, pin) => pin || !(s.block k b).sealed) ||
    (s.eng.arenas.any fun (k, a) => a.seqs.any fun (off, _) => Config.sliceHolds k off n) ||
    (s.allObjects.any fun (_, e) =>
      bitsOf e 83 82 == 0 && (bitsOf e 87 84 == kSIGNAL || paSpace (bitsOf e 159 96) == 1) &&
        homesRange n (bitsOf e 159 96) (bitsOf e 207 160)) ||
    s.eng.groups.any fun (_, g) => g.entry.getLsbD 0 && s.tab.asids.any fun (asid, _) =>
      match s.cpPort asid (bitsOf g.entry 127 108) [kGLOBAL] [] [] 0 (4096 * bitsOf g.entry 95 64) with
      | some (ps, _) => ps.any fun (pa, len) => homesRange n pa len
      | none => false

/-- The slice's unpinned sealed blocks moved to their spill extents; none where an extent has no room.
DEDUCED: notes/assumptions/50.md. -/
def State.spillSlice (s : State) (n : Nat) : Option State :=
  ((s.sliceBlocks n).filter fun (k, b, _) => !(s.block k b).spilled).foldl (fun o (k, b, _) => o.bind fun a =>
    let x := a.block k b
    if a.spillRoom k x.die x.size then some (a.spillBlock k b) else none) (some s)

/-- CISTERN_OFF_REQUEST (R375): refused, with nothing changed, while the slice is needed, and where its blocks find no
room in their spill extents. -/
def execCisternOffRequest (n : Nat) (s : State) : Host.Outcome State Fault Refusal :=
  if !s.fwActive || s.sliceNeeded n then .next s
  else match s.spillSlice n with
    | some s1 => .next (s1.modSlice n fun _ => { state := .off })
    | none => .next s

end Sys2Proof.Machine
end

