-- ==== Sys2Proof/Machine/Sha3.lean ====
section
/-! DEFINITION. SHA3-512 (spec/00_scope.md R1 names it for every digest; the spec does not restate the standard, so the function is
taken from FIPS 202, notes/assumptions/10.md). The 1600 bits are one number, lane `x + 5 * y` at bit `64 * (x + 5 * y)`. -/

namespace Sys2Proof.Machine

/-- A 64-bit lane rotated left. -/
def rotLane (v k : Nat) : Nat := (v <<< k ||| v >>> (64 - k)) % 2 ^ 64

/-- Lane `i`. -/
def lane (a i : Nat) : Nat := a >>> (64 * i) % 2 ^ 64

/-- Lanes side by side, the first lowest. -/
def joinLanes : List Nat → Nat
  | [] => 0
  | v :: vs => v ||| joinLanes vs <<< 64

/-- The lane after lane `p` on the walk that steps ρ and π take through the lanes. -/
def laneAfter (p : Nat) : Nat := p / 5 + 5 * ((2 * (p % 5) + 3 * (p / 5)) % 5)

/-- The rotation of lane `i`: the walk starts at lane 1, and its stops are turned by the triangular numbers; it never comes
to lane 0. -/
def laneTurn (i : Nat) : Nat → Nat → Nat → Nat
  | 0, _, _ => 0
  | f + 1, p, n => if p = i then n * (n + 1) / 2 % 64 else laneTurn i f (laneAfter p) (n + 1)

/-- The rotation of each lane. -/
def laneTurns : List Nat := (List.range 25).map fun i => laneTurn i 24 1 1

/-- The shift register that the round constants come from: x^8 + x^6 + x^5 + x^4 + 1. -/
def constStep (v : Nat) : Nat := if v < 128 then 2 * v else 2 * v ^^^ 0x171

/-- A round's constant, and the register after it: its next seven bits go to bits 0, 1, 3, 7, 15, 31 and 63. -/
def constOf (v : Nat) : Nat × Nat :=
  (List.range 7).foldl (fun (c, w) j => (c + w % 2 * 2 ^ (2 ^ j - 1), constStep w)) (0, v)

/-- The constants of `n` rounds from a register on. -/
def constsFrom : Nat → Nat → List Nat
  | 0, _ => []
  | n + 1, v => (constOf v).1 :: constsFrom n (constOf v).2

/-- The constants of the 24 rounds. -/
def roundConstants : List Nat := constsFrom 24 1

/-- Step θ: the parities of two neighbouring columns into every lane. -/
def keccakTheta (a : Nat) : Nat :=
  let c := (List.range 5).foldl (fun s y => s ^^^ a >>> (320 * y) % 2 ^ 320) 0
  let d := joinLanes ((List.range 5).map fun x => lane c ((x + 4) % 5) ^^^ rotLane (lane c ((x + 1) % 5)) 1)
  a ^^^ (d ||| d <<< 320 ||| d <<< 640 ||| d <<< 960 ||| d <<< 1280)

/-- Steps ρ and π: every lane rotated and moved. -/
def keccakRhoPi (a : Nat) : Nat :=
  joinLanes ((List.range 25).map fun k =>
    let j := (k % 5 + 3 * (k / 5)) % 5 + 5 * (k % 5)
    rotLane (lane a j) (laneTurns.getD j 0))

/-- Step χ: each lane of a row with the next two. -/
def keccakChi (b : Nat) : Nat :=
  joinLanes ((List.range 25).map fun k =>
    let y := 5 * (k / 5)
    lane b k ^^^ ((2 ^ 64 - 1 - lane b (y + (k + 1) % 5)) &&& lane b (y + (k + 2) % 5)))

/-- The 24 rounds. PRESUMED: notes/assumptions/10.md. -/
def keccak (a : Nat) : Nat := roundConstants.foldl (fun x rc => keccakChi (keccakRhoPi (keccakTheta x)) ^^^ rc) a

/-- Pieces of `n` bytes; the first argument is at least their number. -/
def piecesOf (n : Nat) : Nat → List Byte → List (List Byte)
  | 0, _ => []
  | f + 1, bs => if bs.isEmpty then [] else bs.take n :: piecesOf n f (bs.drop n)

/-- SHA3-512 of bytes; byte 0 of the digest is its lowest (R3). PRESUMED: notes/assumptions/10.md. -/
@[irreducible] def sha3 (m : List Byte) : BitVec 512 :=
  let room := 71 - m.length % 72
  let pad : List Byte := if room = 0 then [0x86] else 0x06 :: (List.replicate (room - 1) 0 ++ [0x80])
  BitVec.ofNat 512 ((piecesOf 72 (m.length / 72 + 1) (m ++ pad)).foldl (fun a p => keccak (a ^^^ leNat p)) 0)

end Sys2Proof.Machine
end

