-- ==== Sys2Proof/Machine/Power.lean ====
section
/-! DEFINITION. Clocks, leases, heat, metering, energy and its statements, brown-out: spec/23_power_energy.md R401 to
R411, spec/11_timed_streams.md R278, spec/20_normally_off.md R376. Energies are in pJ unless named otherwise. -/

namespace Sys2Proof.Machine

/-! Rails and clocks (R278, R402). -/

/-- A rail; partition p draws from rail p (R401). -/
def State.rail (s : State) (p : Nat) : Rail := FMap.get {} s.pow.rails p
/-- A rail changed. -/
def State.modRail (s : State) (p : Nat) (f : Rail → Rail) : State :=
  { s with pow := { s.pow with rails := FMap.set {} s.pow.rails p (f (s.rail p)) } }

/-- The highest clock of the ON islands of a rail: its voltage serves that one (R402). -/
def State.railTop (s : State) (p : Nat) : Nat :=
  (((s.islandsOf p).filter fun i => (s.island i).state.up).map fun i => (s.island i).clock).foldl max 0

/-- A clock set on an island that is not timed: at once, or, where the rail needs a higher voltage, once it has settled
(R402). DEDUCED: notes/assumptions/51.md. -/
def State.setClock (s : State) (i mhz : Nat) : State :=
  match s.partOf i with
  | none => s.modIsland i fun x => { x with clock := mhz, nextClock := none }
  | some p =>
    if (s.island i).state.up && decide (s.railTop p < mhz) then
      (s.modIsland i fun x => { x with nextClock := some mhz }).modRail p fun r => { r with settling := true }
    else s.modIsland i fun x => { x with clock := mhz, nextClock := none }

/-- RAIL_SETTLED (R402): the clocks that waited apply. -/
def execRailSettled (p : Nat) (s : State) : Host.Outcome State Fault Refusal :=
  if !(s.rail p).settling then .next s
  else
    .next (((s.islandsOf p).foldl (fun a i => a.modIsland i fun x =>
      match x.nextClock with
      | some c => { x with clock := c, nextClock := none }
      | none => x) s).modRail p fun r => { r with settling := false })

/-- The ceiling that a share selects (R278): bundles with a matrix operation among 65,536. -/
def nextCeiling (now bundles : Nat) : Nat :=
  if now = 2400 ∧ 65536 ≤ 2 * bundles then 2200
  else if now = 2200 ∧ 100 * bundles < 45 * 65536 then 2400
  else now

/-- CLOCK_SHARE_WINDOW (R278): 8,192 cycles of a timed island have passed. -/
def execClockShareWindow (i : Nat) (s : State) : Host.Outcome State Fault Refusal :=
  let x := s.island i
  let w := x.windowAt + 8192 * 65536000
  if s.timedIsland i && x.state.up && decide (w ≤ x.cycles) then
    .next (s.modIsland i fun y => { y with ceiling := nextCeiling y.ceiling y.shareBundles, windowAt := w, shareBundles := 0 })
  else .next s

/-! The throttle (R403). -/

/-- One step down, not below 1.2 GHz. -/
def State.stepDown (s : State) (i : Nat) : State := s.setClock i (max 1200 ((s.island i).clock - 200))
/-- The clock an island aims at: 2.0 GHz or its leased clock. -/
def Island.target (x : Island) : Nat := x.leased.getD 2000
/-- One step up towards the target, where the island is below it and no change waits for the rail. -/
def State.stepUp (s : State) (i : Nat) : State :=
  let x := s.island i
  if x.clock < x.target ∧ x.nextClock = none then s.setClock i (min x.target (x.clock + 200)) else s

/-- The islands that belong to a partition that is not timed. -/
def State.freeIslands (s : State) : List Nat := (List.range 64).filter fun i => (s.partOf i).isSome && !s.timedIsland i

/-- 1 W over 1 ms, in pJ. -/
def wattTick : Nat := 1000000000

/-- The valid partitions. -/
def State.validParts (s : State) : List Nat := (List.range 8).filter fun p => (s.partition p).getLsbD 0

/-- The power kept for timed partitions over this tick (R403). -/
def State.timedPower (s : State) : Nat :=
  ((s.validParts.filter fun p => (s.partition p).getLsbD 1).map fun p =>
    max (bitsOf (s.partition p) 127 112 * wattTick) (s.rail p).energy).foldl (· + ·) 0

/-- The clocks for the next tick (R403). DEDUCED: notes/assumptions/51.md. -/
def State.throttle (s : State) : State :=
  let timed : Int := s.timedPower
  let limit : Int := (if s.pow.leases.isEmpty then 2400 else 2800) * wattTick
  let budget := limit - 45 * wattTick - timed
  let all := budget + timed + 45 * wattTick
  let input : Int := s.pow.inputEnergy
  let s1 := if all < input then s.freeIslands.foldl State.stepDown s
    else if 100 * input < 95 * all then s.freeIslands.foldl State.stepUp s
    else s
  (s.validParts.filter fun p => !(s.partition p).getLsbD 1 && bitsOf (s.partition p) 143 128 != 0 &&
    decide (bitsOf (s.partition p) 143 128 * wattTick < (s.rail p).energy)).foldl
      (fun a p => (a.islandsOf p).foldl State.stepDown a) s1

/-! Boost leases (R404, R405). -/

/-- Whether an island holds a task of a region. -/
def State.holdsRegion (s : State) (i r : Nat) : Bool :=
  (ctxsOf i).any fun (t, c) => ((s.ctx t c).task.map fun k => k.region) == some r

/-- The islands of a lease's partition that hold a task of its region. -/
def State.leaseIslands (s : State) (l : Lease) : List Nat := (s.islandsOf l.part).filter fun i => s.holdsRegion i l.region

/-- The leased clock taken by the islands that hold a task of the region and have none yet (R404). -/
def State.applyLease (s : State) (l : Lease) : State :=
  (s.leaseIslands l).foldl (fun a i =>
    if (a.island i).leased.isSome then a
    else (a.modIsland i fun x => { x with leased := some (2000 + 200 * l.step) }).setClock i (2000 + 200 * l.step)) s

/-- A lease ends: its islands return to their throttle setting (R405). -/
def State.endLease (s : State) (l : Lease) : State :=
  let s1 := (s.islandsOf l.part).foldl (fun a i =>
    if (a.island i).leased.isSome then
      (a.modIsland i fun x => { x with leased := none }).setClock i (min 2000 (a.island i).clock)
    else a) s
  { s1 with pow := { s1.pow with leases := s1.pow.leases.filter fun m => m.part != l.part } }

/-- Whether the arbiter refuses (R404). `projected` is the projected input power in W.
DEDUCED: notes/assumptions/51.md. -/
def State.leaseRefused (s : State) (region step projected : Nat) : Bool :=
  let p := s.regionPart region
  s.regionBlock region == 0 || step == 0 || decide (3 < step) || s.regionClass region == 0 || (s.partition p).getLsbD 1 ||
    (s.pow.leases.any fun l => l.part == p) ||
    decide (2300 * 100 * wattTick < s.pow.inputHistory.foldl (· + ·) 0) || decide (2800 < projected)

/-- LEASE (R404): the packet retires with STATUS 0 on a grant, with STATUS 2 on a refusal. -/
def execLease (q projected : Nat) (s : State) : Host.Outcome State Fault Refusal :=
  s.onFirmware q 6 fun v =>
    let r := pk v 24 2
    let dur := pk v 28 4
    if !(pkZero v [(27, 1), (32, 96)] && s.pkSignalOk q v) || dur == 0 || decide (20000 < dur) then s.refuseHead q v
    else if s.leaseRefused r (pk v 26 1) projected then s.retire q v 2
    else
      let l : Lease := { part := s.regionPart r, region := r, step := pk v 26 1, granted := s.ns, ends := s.ns + 1000 * dur }
      ({ s with pow := { s.pow with leases := s.pow.leases ++ [l] } }.applyLease l).retire q v 0

/-- LEASE_EXPIRY (R404, R405): the lease's time is over, or that of its revocation has come. -/
def execLeaseExpiry (p : Nat) (s : State) : Host.Outcome State Fault Refusal :=
  match s.pow.leases.find? fun l => l.part == p with
  | none => .next s
  | some l =>
    let dropped := match l.dropAt with
      | some d => decide (d ≤ s.ns)
      | none => false
    .next (if decide (l.ends ≤ s.ns) || dropped then s.endLease l else s)

/-- Whether the arbiter may revoke a lease (R405). -/
def State.mayRevoke (s : State) (l : Lease) (projected : Nat) : Bool :=
  ((s.leaseIslands l).any fun i => decide (60 ≤ (FMap.get 0 s.pow.heat i).toNat)) || decide (2800 < projected) ||
    s.validParts.any fun p => (s.partition p).getLsbD 1 &&
      decide (bitsOf (s.partition p) 127 112 * wattTick < (s.rail p).last)

/-- LEASE_REVOKE (R405): every context that holds a task of the region gets the event; the clock drops at least 50 µs
after it. How much later is left open. DEDUCED: notes/assumptions/51.md. -/
def execLeaseRevoke (p projected : Nat) (s : State) : Host.Outcome State Fault Refusal :=
  match s.pow.leases.find? fun l => l.part == p with
  | none => .next s
  | some l =>
    if l.dropAt.isSome || !s.fwActive || !s.mayRevoke l projected then .next s
    else
      let cs := s.core.ctxs.filterMap fun (k, x) =>
        if (x.task.map fun y => y.region) == some l.region then some (k / 4, k % 4) else none
      let src := s.fwSource
      let first := max s.ns (FMap.get 0 s.sec.lastRecord src)
      let drop := first + cs.length + 50000 + (Config.freeWord (s.freeCtr + 1)).toNat % 2 ^ 32
      let s1 := cs.foldl (fun a (t, c) =>
        let (time, b) := a.stamp src
        b.postTo t c { time := BitVec.ofNat 64 time, source := BitVec.ofNat 16 src, code := 0x0150,
                       payload := BitVec.ofNat 160 (drop % 2 ^ 64 + l.step * 2 ^ 64) }) s
      let leases := s1.pow.leases.map fun m => if m.part = p then { m with dropAt := some drop } else m
      .next { s1 with freeCtr := s1.freeCtr + 2, pow := { s1.pow with leases := leases } }

/-! Metering and attribution (R407 to R409). -/

/-- DEGRADED set in the statements to come of every partition (R407, R409). DEDUCED: notes/assumptions/52.md. -/
def State.degrade (s : State) : State :=
  let chains := (List.range 8).foldl (fun (m : FMap Chain) p =>
    let d : Chain := { FMap.get {} m p with degraded := true }
    FMap.set {} m p d) s.pow.chains
  { s with pow := { s.pow with chains := chains } }

/-- METER_INTEGRATION (R407): what the rail meters and the input meter have integrated; `failed` lists the meters whose
self-check failed, 8 for the input meter. -/
def execMeterIntegration (rails : List Nat) (input : Nat) (failed : List Nat) (s : State) : Host.Outcome State Fault Refusal :=
  if s.pow.down then .next s
  else
    let s1 := (rails.take 8).zipIdx.foldl (fun a (e, p) => a.modRail p fun r => { r with energy := r.energy + e }) s
    let s2 := { s1 with pow := { s1.pow with inputEnergy := s1.pow.inputEnergy + input } }
    let s3 := failed.foldl (fun a m => if m < 8 then a.event (0xA000 + m) 0x0152 0 else a.eventFree a.openSource 0x0152 0) s2
    .next (if failed.isEmpty then s3 else s3.degrade)

/-- A total split by weights, each share rounded down, what is left over to the first with a weight (R409). -/
def splitPj (total : Nat) (ws : List Nat) : List Nat :=
  let sum := ws.foldl (· + ·) 0
  if sum = 0 then ws.map fun _ => 0
  else
    let sh := ws.map fun w => total * w / sum
    let left := total - sh.foldl (· + ·) 0
    let k := ws.findIdx fun w => w != 0
    sh.set k (sh.getD k 0 + left)

/-- Energy of a tick added to a partition's counter of a category: the residue is below 1 µJ, the counter saturates
(R408). -/
def State.addCounter (s : State) (p cat pj : Nat) : State :=
  let k := 6 * p + cat
  let tot := FMap.get 0 s.pow.residue k + pj
  { s with pow := { s.pow with
    energy := FMap.set 0 s.pow.energy k (min (2 ^ 64 - 1) (FMap.get 0 s.pow.energy k + tot / 1000000))
    residue := FMap.set 0 s.pow.residue k (tot % 1000000) } }

/-- The eight partitions' energies of a category added. -/
def State.addCategory (s : State) (cat : Nat) (pjs : List Nat) : State :=
  pjs.zipIdx.foldl (fun a (e, p) => a.addCounter p cat e) s

/-- Cistern bytes of a partition, 0 where it is not valid. -/
def State.cisternOf (s : State) (p : Nat) : Nat := if (s.partition p).getLsbD 0 then bitsOf (s.partition p) 191 144 else 0

/-- The IDLE shares of a tick (R409): IDLEMW over 1 ms by carve-out. -/
def idleShares (idlemw : Nat) (cs : List Nat) : List Nat :=
  let all := idlemw * 1000000
  let six := 6 * 2 ^ 30
  let sh := cs.map fun c => all * c / six
  let left := all * cs.foldl (· + ·) 0 / six - sh.foldl (· + ·) 0
  let k := cs.findIdx fun c => c != 0
  if cs.all fun c => c == 0 then sh else sh.set k (sh.getD k 0 + left)

/-- A free count of accesses or bytes for each valid partition in this tick: how many an instruction causes is not
stated. DESIGN CHOICE: notes/assumptions/24.md. -/
def State.freeCounts (s : State) (k : Nat) : List Nat :=
  (List.range 8).map fun p => if (s.partition p).getLsbD 0 then (Config.freeWord (s.freeCtr + 8 * k + p)).toNat else 0

/-- The energy of a tick attributed to the partitions (R409). DESIGN CHOICE: notes/assumptions/24.md. -/
def State.attribute (s : State) : State :=
  let rails := (List.range 8).map fun p => (s.rail p).energy
  let cis := (s.freeCounts 0).map (· * Config.cispj)
  let ddr := (s.freeCounts 1).map (· * Config.ddrpj)
  let lnk := (s.freeCounts 2).map (· * Config.lnkpj)
  let idle := idleShares Config.idlemw ((List.range 8).map s.cisternOf)
  let sum (xs : List Nat) := xs.foldl (· + ·) 0
  let used := sum rails + sum cis + sum ddr + sum lnk + sum idle
  let bad := decide (s.pow.inputEnergy < used) || sum rails == 0
  let s1 := { s with freeCtr := s.freeCtr + 24 }
  let s2 := ((((s1.addCategory 0 rails).addCategory 1 cis).addCategory 2 ddr).addCategory 3 lnk).addCategory 4 idle
  let s3 := s2.addCategory 5 (splitPj (s.pow.inputEnergy - used) rails)
  if bad then s3.degrade else s3

/-- The ISLAND energy of a partition split among its tasks by activity units, and those of tasks that have left to their
regions (R409). -/
def State.splitPart (s : State) (p : Nat) : State :=
  let live := s.core.ctxs.filterMap fun (k, x) =>
    match x.task with
    | some y => if s.partOf (k / 32) = some p then some (k, y.region, s.units (k / 4) (k % 4)) else none
    | none => none
  let gone := s.pow.doneUnits.filter fun (r, _) => s.regionPart r == p
  let all := (live.map fun x => x.2.2).foldl (· + ·) 0 + (gone.map Prod.snd).foldl (· + ·) 0
  let e := (s.rail p).energy
  let share (u : Nat) : Nat := if all = 0 then 0 else e * u / all
  let s1 := live.foldl (fun a (k, _, u) =>
    { a with pow := { a.pow with shares := FMap.set 0 a.pow.shares k (FMap.get 0 a.pow.shares k + share u) } }) s
  let s2 := gone.foldl (fun a (r, u) => a.addEnergy r (share u)) s1
  let tick := (live.map fun x => (x.2.1, share x.2.2)) ++ gone.map fun (r, u) => (r, share u)
  let sums := tick.foldl (fun m (r, pj) => FMap.set 0 m r (FMap.get 0 m r + pj)) s2.pow.regionTick
  { s2 with pow := { s2.pow with regionTick := sums } }

/-- The tasks' shares of a tick; the counts start again. -/
def State.splitTick (s : State) : State :=
  let s1 := (List.range 8).foldl State.splitPart { s with pow := { s.pow with regionTick := [] } }
  let micro := FMap.mapValues 0 (fun _ pj => pj / 1000000) s1.pow.regionTick
  let islands := FMap.mapValues {} (fun _ (x : Island) => { x with tickCycles := x.cycles }) s1.pow.islands
  { s1 with pow := { s1.pow with regionTick := micro, islands := islands, activity := [], doneUnits := [] } }

/-- ACCOUNTING_TICK (R403, R404, R409): a tick of 1 ms has ended. -/
def execAccountingTick (s : State) : Host.Outcome State Fault Refusal :=
  if s.pow.down || decide (s.ns < 1000000 * (s.pow.tick + 1)) then .next s
  else
    let s1 := s.throttle.attribute.splitTick
    let s2 := s1.pow.leases.foldl State.applyLease s1
    let rails := FMap.mapValues {} (fun _ (r : Rail) => { r with energy := 0, last := r.energy }) s2.pow.rails
    let past := s2.pow.inputHistory ++ [s2.pow.inputEnergy]
    .next { s2 with pow := { s2.pow with
      rails := rails
      tick := s2.pow.tick + 1
      inputEnergy := 0
      inputHistory := past.drop (past.length - 100) } }

/-! Statements (R410, R411). -/

/-- A partition's counter of a category, in µJ. -/
def State.counterOf (s : State) (p cat : Nat) : Nat := FMap.get 0 s.pow.energy (6 * p + cat)

/-- The chain state of a partition. -/
def State.chain (s : State) (p : Nat) : Chain := FMap.get {} s.pow.chains p

/-- TEND: the end of the last completed tick (R411). -/
def State.tend (s : State) : Nat := 1000000 * s.pow.tick

/-- The body of a statement (R410); `cls` is CLASS. -/
def State.statementBody (s : State) (p cls : Nat) : BitVec 2048 :=
  let x := s.chain p
  let delta (cat : Nat) : BitVec 64 := BitVec.ofNat 64 (s.counterOf p cat - FMap.get 0 x.counters cat)
  x.digest ++ (0 : BitVec 704) ++ BitVec.ofNat 32 Config.idlemw ++ BitVec.ofNat 32 Config.lnkpj ++
    BitVec.ofNat 32 Config.ddrpj ++ BitVec.ofNat 32 Config.cispj ++ (0 : BitVec 62) ++ BitVec.ofBool x.degraded ++
    BitVec.ofBool x.powerLoss ++ delta 5 ++ delta 4 ++ delta 3 ++ delta 2 ++ delta 1 ++ delta 0 ++
    BitVec.ofNat 64 s.tend ++ BitVec.ofNat 64 x.tend ++ BitVec.ofNat 64 x.seq ++ BitVec.ofNat 8 cls ++ (0 : BitVec 5) ++
    BitVec.ofNat 3 p ++ (0 : BitVec 8) ++ (1 : BitVec 8) ++ (0x54534E45 : BitVec 32)

/-- The context string "energy" (R410). DEDUCED: notes/assumptions/52.md. -/
def energyContext : List Byte := [0x65, 0x6E, 0x65, 0x72, 0x67, 0x79]

/-- A whole statement: body and signature slot. DEDUCED: notes/assumptions/52.md. -/
def State.statement (s : State) (p cls : Nat) : List Byte :=
  let body := leBytes 256 (s.statementBody p cls).toNat
  body ++ padTo 4672 (Config.mlDsaSign energyContext body)

/-- The chain of a partition advances past a statement (R411). -/
def State.advanceChain (s : State) (p : Nat) (bytes : List Byte) : State :=
  let x : Chain := { seq := (s.chain p).seq + 1, tend := s.tend, digest := sha3 bytes,
                     counters := (List.range 6).foldl (fun m c => FMap.set 0 m c (s.counterOf p c)) [] }
  { s with pow := { s.pow with chains := FMap.set {} s.pow.chains p x } }

/-- STATEMENT (R411): it is written and the chain advances with the retirement; before the first servo lock it completes
with STATUS 2. CLASS rests on the rails' average current, which is left open. -/
def execStatement (q : Nat) (s : State) : Host.Outcome State Fault Refusal :=
  s.onFirmware q 12 fun v =>
    let p := pk v 24 1
    match pkRef v 28 with
    | none => s.refuseHead q v
    | some (obj, off) =>
      match s.cpPort (s.queueAsid q) obj [kGLOBAL, kMAILBOX] [rW] [] off 4928 with
      | none => s.refuseHead q v
      | some (ps, ds) =>
        if !(qPriv (s.queue q).entry && pkZero v [(25, 3), (40, 88)] && s.pkSignalOk q v) || decide (7 < p) then s.refuseHead q v
        else if !s.net.servo.ever then s.retire q v 2
        else
          let bytes := s.statement p (1 + (Config.freeWord s.freeCtr).toNat % 2)
          (({ s with freeCtr := s.freeCtr + 1 }.performStore ds (cellsOf ps bytes)).advanceChain p bytes).retire q v 0

/-! Brown-out (R376). -/

/-- What the non-volatile elements of a tile keep (R376). -/
def Tile.kept (x : Tile) : Tile := { feat := x.feat, tids := x.tids, well := x.well }

/-- What power loss leaves of a context: its window, as configuration, and its resume records.
DEDUCED: notes/assumptions/39.md. -/
def Ctx.kept (x : Ctx) : Ctx :=
  { sys := { winErr := x.sys.winErr, winSize := x.sys.winSize, winBase := x.sys.winBase }, rec0 := x.rec0, rec1 := x.rec1 }

/-- Whether a byte survives power loss: in a well, or in another package. -/
def State.survives (s : State) (pa : Nat) : Bool := paSpace pa == 3 || paPkg pa != s.net.pkg

/-- Power is lost (R376): the wells, the non-volatile elements, the loss list and NOR flash stay. The package is down
until a power-on reset. -/
def State.powerLoss (s : State) : State :=
  let tiles := FMap.mapValues {} (fun _ (x : Tile) => x.kept) s.core.tiles
  let chains := FMap.mapValues {} (fun _ (x : Chain) => { x with powerLoss := true })
    ((List.range 8).foldl (fun (m : FMap Chain) p => FMap.set {} m p { FMap.get {} m p with powerLoss := true }) s.pow.chains)
  let core : Core := { tiles := tiles, mem := s.core.mem.filter fun (a, _) => s.survives a,
                       capTags := s.core.capTags.filter fun (a, _) => s.survives (16 * a) }
  let s1 : State := { now := s.now, freeCtr := s.freeCtr, nextId := s.nextId, agenda := s.agenda, core := core,
                      cp := { loss := s.cp.loss }, net := { pkg := s.net.pkg },
                      pow := { tick := s.pow.tick, energy := s.pow.energy, residue := s.pow.residue, chains := chains,
                               down := true },
                      sec := { nor := s.sec.nor, fw := { svnMin := s.sec.fw.svnMin }, lastRecord := s.sec.lastRecord } }
  s.core.ctxs.foldl (fun a (k, x) => a.setCtx (k / 4) (k % 4) x.kept) s1

/-- BROWN_OUT (R376): power is lost in the middle of a well write, if there was one. While it is down, more bits may flip
(R374). -/
def execBrownOut (loss : SupplyLoss) (s : State) : Host.Outcome State Fault Refusal :=
  let s1 := if s.pow.down then s else (s.tornUnit loss.torn).powerLoss
  .next { s1 with pow := { s1.pow with flips := s1.pow.flips ++ loss.flips } }

/-! Heat (R406). -/

/-- A sensor difference as a byte of the heat map. -/
def heatByte (d : Int) : Byte := BitVec.ofNat 8 (min 255 (max 0 d)).toNat

/-- The heat of an island that is not timed steps it down from 70 on until it is below 65. -/
def State.heatStep (s : State) (i : Nat) : State :=
  let b := (FMap.get 0 s.pow.heat i).toNat
  let hot := decide (70 ≤ b) || ((s.island i).hot && decide (65 ≤ b))
  let s1 := s.modIsland i fun x => { x with hot := hot }
  if hot then s1.stepDown i else s1

/-- HEAT_REFRESH (R406): the hottest sensor of each island above the inlet. At 100 the package powers down. -/
def execHeatRefresh (sensors : List Int) (s : State) : Host.Outcome State Fault Refusal :=
  if s.pow.down then .next s
  else
    let heat := (sensors.take 64).zipIdx.foldl (fun m (d, i) => FMap.set 0 m i (heatByte d)) s.pow.heat
    let s1 := { s with pow := { s.pow with heat := heat } }
    let s2 := s1.freeIslands.foldl State.heatStep s1
    let s3 := ((List.range 64).filter fun i => s2.timedIsland i && decide (85 ≤ (FMap.get 0 heat i).toNat)).foldl
      (fun a _ => a.eventFree a.openSource 0x0151 0) s2
    .next (if heat.any fun (_, b) => decide (100 ≤ b.toNat) then s3.powerLoss else s3)

end Sys2Proof.Machine
end

