-- ==== Sys2Proof/Machine/Firmware.lean ====
section
/-! DEFINITION. Firmware complexes, boot, attestation, live update, takeover, the image loader and the management tables:
spec/22_firmware.md R390 to R400, spec/17_image_abi.md R314 to R317 and R322, and the tables' own rules in 11, 12, 18, 19,
20 and 23. -/

namespace Sys2Proof.Machine

/-- A management request: served while the package is up and a complex is active (R391), its change mirrored (R398). -/
def State.onRequest (s : State) (f : Unit → State) : Host.Outcome State Fault Refusal :=
  if s.pow.down || !s.fwActive then .next s else .next (s.mirrored (f ()))

/-- A response that leaves on the management VLAN. -/
def State.send (s : State) (o : Output) : State := { s with net := { s.net with outbox := s.net.outbox ++ [o] } }

/-- The changes that wait are sent, each as one flit on every UP strait but the one it came from (R421), by the active
complex (R390). DEDUCED: notes/assumptions/57.md. -/
def State.floodDue (s : State) : State :=
  if s.fwActive then
    let s1 := s.net.unsent.foldl (fun a (c, but) =>
      ((List.range 12).filter fun p => p != but && (FMap.get ({} : Strait) s.net.straits p).state == 2).foldl
        (fun b p => b.send (.flit p c)) a) s
    { s1 with net := { s1.net with unsent := [] } }
  else s

/-- The firmware's changing fields replaced. -/
def State.modFw (s : State) (f : Firmware → Firmware) : State := { s with sec := { s.sec with fw := f s.sec.fw } }

/-- M := SHA3-512(M ‖ x) (R394). -/
def extend (m : BitVec 512) (x : List Byte) : BitVec 512 := sha3 (leBytes 64 m.toNat ++ x)

/-- CFGM extended with the digest of a request (R394). -/
def State.extendCfg (s : State) (request : BitVec 512) : State :=
  s.modFw fun f => { f with cfgm := extend f.cfgm (leBytes 64 request.toNat) }

/-! Boot (R392, R393). -/

def fiMagic (h : BitVec 512) : Nat := bitsOf h 31 0
def fiVmaj (h : BitVec 512) : Nat := bitsOf h 39 32
def fiSvn (h : BitVec 512) : Nat := bitsOf h 79 64
/-- BODYLEN (R392). -/
def fiBodyLen (h : BitVec 512) : Nat := bitsOf h 127 96

/-- The image digest (R392). -/
def Flash.digest (f : Flash) : BitVec 512 := sha3 (leBytes 64 f.header.toNat ++ f.pubkey ++ f.body)

/-- SVNMIN as it stands: the fused floor, or what CONFIRM raised it to (R393). DEDUCED: notes/assumptions/54.md. -/
def State.svnFloor (s : State) : Nat := max Config.svnMinFused s.sec.fw.svnMin

/-- Bytes of NOR flash. -/
def State.norBytes (s : State) (off n : Nat) : List Byte := FMap.getRun 0 s.sec.nor off n

/-- The image that NOR flash holds in slot A, at offset 0, or B, at 32 MiB (R392): header, public key of 2,592 bytes, a
signature of 4,627 bytes in its slot of 4,672, and BODYLEN bytes of body. -/
def State.flash (s : State) (k : Nat) : Flash :=
  let base := 2 ^ 25 * k
  let h := BitVec.ofNat 512 (leNat (s.norBytes base 64))
  { header := h, pubkey := s.norBytes (base + 64) 2592, signature := s.norBytes (base + 2656) 4627,
    body := s.norBytes (base + 7328) (fiBodyLen h) }

/-- Whether a slot is a candidate (R393); an image of another major version (R422) or with a BODYLEN that R392 does not
admit is refused too.
DEDUCED: notes/assumptions/54.md. -/
def State.candidate (s : State) (k : Nat) : Bool :=
  let f := s.flash k
  let h := f.header
  fiMagic h == 0x4D495746 && fiVmaj h == 1 && bitsOf h 511 128 == 0 && bitsOf h 95 80 == 0 && bitsOf h 63 48 == 0 &&
    decide (1 ≤ fiBodyLen h) && decide (fiBodyLen h ≤ 2 ^ 24) &&
    sha3 f.pubkey == Config.rootDigest &&
    Config.mlDsaVerify f.pubkey (leBytes 64 f.digest.toNat) f.signature && decide (s.svnFloor ≤ fiSvn h)

/-- The slot that the ROM picks: the higher SVN, slot A on a tie (R393). -/
def State.romPick (s : State) : Option Nat :=
  match s.candidate 0, s.candidate 1 with
  | true, true => some (if fiSvn (s.flash 0).header < fiSvn (s.flash 1).header then 1 else 0)
  | true, false => some 0
  | false, true => some 1
  | false, false => none

/-- A firmware complex. -/
def State.complex (s : State) (n : Nat) : Complex := FMap.get {} s.sec.complexes n
/-- A firmware complex replaced. -/
def State.setComplex (s : State) (n : Nat) (x : Complex) : State :=
  { s with sec := { s.sec with complexes := FMap.set {} s.sec.complexes n x } }

/-- FWM of an image (R393). DEDUCED: notes/assumptions/54.md. -/
def Flash.fwm (f : Flash) : BitVec 512 := extend 0 (leBytes 64 f.digest.toNat)

/-- A complex after its ROM (R393): the body in its SRAM of 2 MiB, measured, and started on all four cores; or halted for
want of a candidate. DEDUCED: notes/assumptions/54.md. -/
def State.bootComplex (s : State) (n : Nat) (slot : Option Nat) (role : Role) : State :=
  s.setComplex n (match slot with
    | some k =>
      let f := s.flash k
      { role := role, slot := k, svn := fiSvn f.header, fwm := f.fwm, sram := f.body.take (2 * 2 ^ 20), cores := 4 }
    | none => { role := .halted })

/-- The active complex, whose attestation record the package shows (R390, R394). -/
def State.activeComplex (s : State) : Complex :=
  ((s.sec.complexes.find? fun (_, x) => x.role == .active).map Prod.snd).getD {}

/-- The event FW_SINGLE where only one complex holds a role (R393). DEDUCED: notes/assumptions/54.md. -/
def State.checkSingle (s : State) : State :=
  let n := (s.sec.complexes.filter fun (_, x) => x.role == .active || x.role == .standby).length
  if n = 1 then s.eventFree s.fwSource 0x0140 0 else s

/-- The payload of POWER_LOSS: STATUS 3 in byte 0, then the entry's queue, graph object, ASID and signal reference (R377);
unused bytes read 0 (R11). How many bytes each field takes is left open. DESIGN CHOICE: notes/assumptions/53.md. -/
def Loss.payload (l : Loss) : BitVec 160 :=
  0#8 ++ BitVec.ofNat 48 l.signal.off ++ BitVec.ofNat 32 l.signal.obj ++ BitVec.ofNat 16 l.graph.asid ++
    BitVec.ofNat 32 l.graph.obj ++ BitVec.ofNat 16 l.queue ++ 3#8

/-- One POWER_LOSS event (R377). DESIGN CHOICE: notes/assumptions/53.md. -/
def State.lossEvent (s : State) (l : Loss) : State := s.eventFree s.fwSource 0x0132 l.payload

/-- Boot of the package (R374, R377, R388, R393): parity, roles, the loss list's events, journal repair. `bad` lists the
elements of tiles that fail their parity. DESIGN CHOICE: notes/assumptions/6.md. -/
def State.boot (s : State) (bad : List (Nat × Nat × Nat)) : State :=
  let pick := s.romPick
  let s1 := (s.bootComplex 0 pick .active).bootComplex 1 pick .standby
  let s2 := s1.modFw fun f => { svnMin := f.svnMin }
  let s3 := { s2 with pow := { s2.pow with down := false } }
  let s4 := bad.foldl (fun a b => a.parityFail b.1 b.2.1 b.2.2) s3
  let s5 := s4.core.tiles.keys.foldl (fun a t => a.journalRepair t) s4
  let s6 := s5.core.ctxs.keys.foldl (fun a k => a.modCtx (k / 4) (k % 4) fun x => { x with rec0 := 0, rec1 := 0 }) s5
  match pick with
  | none => s6
  | some _ =>
    let s7 := s6.cp.loss.foldl (fun a l => a.lossEvent l) s6
    ({ s7 with cp := { s7.cp with loss := [] } }.checkSingle).floodDue

/-- POWER_ON_RESET (R393): after a loss of power, or the first start. What fails its parity (R374)
is what BROWN_OUT brought. -/
def execPowerOnReset (s : State) : Host.Outcome State Fault Refusal :=
  if s.pow.down || s.sec.complexes.isEmpty then
    .next ({ s with pow := { s.pow with flips := [] } }.boot (s.pow.flips.filter fun b => decide (b.1 < 512)))
  else .next s

/-- LPDDR6_TRAINING_DONE (R396). -/
def execLpddr6TrainingDone (s : State) : Host.Outcome State Fault Refusal :=
  if s.pow.down then .next s else .next { s with sec := { s.sec with trained := true } }

/-! Takeover (R400). -/

/-- The complex of a role. -/
def State.roleOf (s : State) (r : Role) : Option Nat := (s.sec.complexes.find? fun (_, x) => x.role == r).map Prod.fst

/-- A held entry released: a node's completion may end its instance, which counts at the stamped time (R273, R400).
DEDUCED: notes/assumptions/56.md. -/
def State.release (s : State) (e : Nat × Nat × HeldEffect) : State :=
  let ns := e.1 / 65536
  match e.2.2 with
  | .gangDone g =>
    let i := (s.gang g).inst
    let s1 := s.nodeEnd g
    if s1.instOver i then s1.instEnd i ns else s1
  | .instEnd i => if s.cp.insts.keys.contains i then s.instEnd i ns else s
  | .signal pa status => s.signalAt pa (-1) status

/-- The held entries released in order; then the frozen complex reboots through its ROM and becomes standby.
DEDUCED: notes/assumptions/56.md. -/
def State.takeoverEnd (s : State) (held : List (Nat × Nat × HeldEffect)) : State :=
  let s1 := held.foldl State.release (s.modFw fun f => { f with hold := none })
  match (s1.sec.complexes.find? fun (_, x) => x.frozen).map Prod.fst with
  | some n => (s1.bootComplex n s1.romPick .standby).checkSingle
  | none => s1

/-- A package reset (R400): the state as after a loss of power, but no statement interval saw one.
DEDUCED: notes/assumptions/52.md. -/
def State.packageReset (s : State) : State :=
  let s1 := s.powerLoss
  { s1 with pow := { s1.pow with chains := s.pow.chains } }.boot []

/-- A packet that firmware serves, begun and not retired, is acted on again from its start (R400).
DEDUCED: notes/assumptions/56.md. -/
def State.reAct (s : State) : State :=
  { s with cp := { s.cp with queues := FMap.mapValues {} (fun _ (x : Queue) =>
      if pkKind (x.packets.headD 0) = 10 then { x with busy := false, awaits := [] } else x) s.cp.queues } }

/-- FIRMWARE_TAKEOVER (R400): the first such step is the trigger; while completions are held, the next is the release.
DEDUCED: notes/assumptions/56.md. -/
def execFirmwareTakeover (s : State) : Host.Outcome State Fault Refusal :=
  if s.pow.down then .next s
  else match s.sec.fw.hold, s.roleOf .active, s.roleOf .standby with
    | some held, _, _ => .next (s.takeoverEnd held)
    | none, some a, some b =>
      let s1 := (s.setComplex a { s.complex a with role := .none, frozen := true }).setComplex b
        { s.complex b with role := .active }
      .next ((s1.reAct.modFw fun f =>
        { f with hold := some [], update := none, mirrorSeq := (f.mirrorSeq + f.mirrorDue) % 2 ^ 64, mirrorDue := 0 }).eventFree
          s.openSource 0x0143 0)
    | none, some _, none => .next s.packageReset
    | none, none, _ => .next s

/-- MIRROR_ENTRY (R397, R398): the standby applies the next entry. -/
def execMirrorEntry (s : State) : Host.Outcome State Fault Refusal :=
  .next (if (s.roleOf .standby).isSome && s.sec.fw.mirrorDue != 0 then
    s.modFw fun f => { f with mirrorSeq := (f.mirrorSeq + 1) % 2 ^ 64, mirrorDue := f.mirrorDue - 1 } else s)

/-- The header of the firmware state table (R397); the table's length is left open. -/
def State.tableHeader (s : State) (len : Nat) : BitVec 512 :=
  (0 : BitVec 384) ++ BitVec.ofNat 64 s.sec.fw.mirrorSeq ++ (9 : BitVec 16) ++ (0 : BitVec 8) ++ (1 : BitVec 8) ++ BitVec.ofNat 32 len

/-! Live update (R399). -/

/-- UPDATE (R399): the standby reboots with the slot named; where the slot is no candidate, or the new image does not
accept the table, the update is abandoned. DEDUCED: notes/assumptions/56.md. -/
def execUpdate (slot : Nat) (s : State) : Host.Outcome State Fault Refusal :=
  s.onRequest fun _ =>
    let accepts := (Config.freeWord s.freeCtr).getLsbD 0
    let s1 := { s with freeCtr := s.freeCtr + 1 }
    match s.roleOf .standby with
    | some n =>
      if slot < 2 && s.candidate slot && accepts && s.sec.fw.update.isNone && s.sec.fw.hold.isNone then
        (s1.bootComplex n (some slot) .standby).modFw fun f => { f with update := some { slot := slot, since := s.ns } }
      else s1
    | none => s1

/-- ROLE_SWAP (R399): at a packet boundary, within 10 ms. DEDUCED: notes/assumptions/56.md. -/
def execRoleSwap (s : State) : Host.Outcome State Fault Refusal :=
  match s.sec.fw.update, s.roleOf .active, s.roleOf .standby with
  | some u, some a, some b =>
    if s.pow.down || !s.quiescent || decide (u.since + 10000000 ≤ s.ns) then .next s
    else
      let s1 := (s.bootComplex a (some u.slot) .standby).setComplex b { s.complex b with role := .active }
      .next (s1.modFw fun f => { f with update := none, liveUpd := (f.liveUpd + 1) % 2 ^ 16 })
  | _, _, _ => .next s

/-- FW_UPDATE_FAIL (R399): no boundary within 10 ms; the standby reboots with the running image. -/
def execFwUpdateFail (s : State) : Host.Outcome State Fault Refusal :=
  match s.sec.fw.update, s.roleOf .active, s.roleOf .standby with
  | some u, some a, some b =>
    if s.ns < u.since + 10000000 then .next s
    else
      let s1 := s.bootComplex b (some (s.complex a).slot) .standby
      .next ((s1.modFw fun f => { f with update := none }).eventFree s.openSource 0x0142 0)
  | _, _, _ => .next s

/-! Attestation and the small requests (R393, R394, R406, R422, R423). -/

/-- The attestation record (R394). -/
def State.attestRecord (s : State) : BitVec 2560 :=
  let f := s.sec.fw
  let x := s.activeComplex
  sha3 Config.identityKey ++ x.fwm ++ f.cfgm ++ f.imgm ++ (0 : BitVec 416) ++ BitVec.ofNat 32 f.imgCount ++ BitVec.ofNat 16 x.svn ++
    (0 : BitVec 8) ++ (1 : BitVec 8) ++ BitVec.ofNat 16 f.liveUpd ++ (0 : BitVec 16)

/-- ATTEST (R395): record, nonce, certificate chain, signature. -/
def execAttest (nonce : BitVec 512) (s : State) : Host.Outcome State Fault Refusal :=
  s.onRequest fun _ =>
    let rec0 := leBytes 320 s.attestRecord.toNat
    let n := leBytes 64 nonce.toNat
    let sig := Config.mlDsaSign [] (leBytes 64 (sha3 (rec0 ++ n)).toNat)
    s.send (.response "ATTEST" (rec0 ++ n ++ Config.certChain ++ sig))

/-- CONFIRM (R393, R394): SVNMIN rises to the running SVN. DEDUCED: notes/assumptions/54.md. -/
def execConfirm (request : BitVec 512) (s : State) : Host.Outcome State Fault Refusal :=
  s.onRequest fun _ => (s.modFw fun f => { f with svnMin := max f.svnMin s.activeComplex.svn }).extendCfg request

/-- HEAT (R406). -/
def execHeat (s : State) : Host.Outcome State Fault Refusal :=
  s.onRequest fun _ => s.send (.response "HEAT" (FMap.getRun 0 s.pow.heat 0 64))

/-- Datagrams of at most 32 records each, in order (R423). -/
def State.datagrams (s : State) : Nat → State
  | 0 => s
  | fuel + 1 =>
    if s.sec.telemetry.isEmpty then s
    else
      let n := s.sec.telemetrySeq
      let s1 := s.send (.datagram n s.sec.telemetryDrops (s.sec.telemetry.take 32))
      { s1 with sec := { s1.sec with telemetry := s.sec.telemetry.drop 32, telemetrySeq := n + 1 } }.datagrams fuel

/-- A reading put into the buffer, of a source, an index and a value; the spec gives readings no CODE, which is a free value.
DESIGN CHOICE: notes/assumptions/53.md. -/
def State.reading (s : State) (src idx v : Nat) : State :=
  { s with freeCtr := s.freeCtr + 1 }.event src ((Config.freeWord s.freeCtr).toNat % 2 ^ 16)
    (BitVec.ofNat 160 (idx % 2 ^ 32 + v * 2 ^ 32))

/-- The replay counts of the tiles, the heat map and the meters, as telemetry records (R365, R423).
DESIGN CHOICE: notes/assumptions/53.md. -/
def State.readings (s : State) : State :=
  let s1 := s.core.tiles.foldl (fun a (t, x) => if x.replays = 0 then a else a.reading t t x.replays) s
  let s2 := s.pow.heat.foldl (fun a (i, b) => a.reading a.openSource i b.toNat) s1
  s.pow.rails.foldl (fun a (p, r) => if r.last = 0 then a else a.reading (0xA000 + p) p r.last) s2

/-- TELEMETRY (R365, R423): the readings as they are now, and what the buffer holds, are streamed.
DESIGN CHOICE: notes/assumptions/53.md. -/
def execTelemetry (s : State) : Host.Outcome State Fault Refusal := s.onRequest fun _ => s.readings.datagrams 128

/-- VERSIONS (R422): the table's rows as (major, minor), minor 0xFF where any is supported.
DESIGN CHOICE: notes/assumptions/53.md. -/
def execVersions (s : State) : Host.Outcome State Fault Refusal :=
  s.onRequest fun _ => s.send (.response "VERSIONS" [1, 0, 1, 0, 1, 0, 1, 0, 1, 0, 1, 0, 1, 0xFF])

/-! The image loader (R314 to R317, R322, R395). -/

/-- An entry of the segment table (R315). -/
abbrev SegEntry := BitVec 1024

def sgType (e : SegEntry) : Nat := bitsOf e 7 0
def sgOff (e : SegEntry) : Nat := bitsOf e 127 64
def sgLen (e : SegEntry) : Nat := bitsOf e 191 128
def sgMem (e : SegEntry) : Nat := bitsOf e 255 192
def sgSig (e : SegEntry) : Nat := bitsOf e 511 480
def sgDigest (e : SegEntry) : Nat := bitsOf e 1023 512

/-- Header checks (R314, R322): NSEG and IMGLEN where they pass. -/
def imgHeader (h : BitVec 512) : Option (Nat × Nat) :=
  let n := bitsOf h 63 48
  if bitsOf h 31 0 = 0x4C45504F ∧ bitsOf h 39 32 = 1 ∧ bitsOf h 47 40 = 0 ∧ bitsOf h 511 128 = 0 ∧ 3 ≤ n ∧ n ≤ 16 then
    some (n, bitsOf h 127 64)
  else none

/-- An entry's own checks (R315, R316). -/
def sgOk (imglen : Nat) (e : SegEntry) : Bool :=
  decide (1 ≤ sgType e) && decide (sgType e ≤ 6) && bitsOf e 63 8 == 0 && bitsOf e 479 256 == 0 && sgOff e % 64 == 0 &&
    decide (sgOff e + sgLen e ≤ imglen) && (sgType e != 3 || sgLen e == 0) && decide (sgLen e ≤ sgMem e) &&
    (sgType e != 6 || sgSig e == 0xFFFFFFFF)

/-- Whether two segments' ranges overlap. -/
def sgOverlap (a b : SegEntry) : Bool :=
  decide (sgOff a < sgOff b + sgLen b) && decide (sgOff b < sgOff a + sgLen a) && sgLen a != 0 && sgLen b != 0

/-- The counts of R316, and no two ranges that overlap. -/
def sgTableOk (es : List SegEntry) : Bool :=
  let n (t : Nat) := (es.filter fun e => sgType e == t).length
  n 1 == 1 && decide (n 2 ≤ 1) && decide (n 3 ≤ 1) && n 4 == 1 && decide (n 5 ≤ 1) && n 6 == 1 &&
    (List.range es.length).all fun i => (List.range i).all fun j => !sgOverlap (es.getD i 0) (es.getD j 0)

/-- Bytes of the image, read by the loader engine. -/
def State.imgBytes (s : State) (asid obj base off n : Nat) : Option (List Byte) := s.cpRead asid obj kindsAny [rR] (base + off) n

/-- The owner-key slot under which a segment's signature verifies: the first of the eight that are enabled (R395). -/
def State.signedBy (s : State) (msg sig : List Byte) : Option Nat :=
  (List.range 8).find? fun k => (FMap.keys s.sec.fw.keys).contains k && Config.mlDsaVerify (FMap.get [] s.sec.fw.keys k) msg sig

/-- A segment's digest and signature checked (R317): the key slot. -/
def State.checkSegment (s : State) (asid obj base : Nat) (sig e : SegEntry) : Option Nat := do
  let bytes ← s.imgBytes asid obj base (sgOff e) (sgLen e)
  let sigBytes ← s.imgBytes asid obj base (sgOff sig + 4672 * sgSig e) 4627
  if sha3 bytes = BitVec.ofNat 512 (sgDigest e) ∧ 4672 * sgSig e + 4672 ≤ sgLen sig then
    s.signedBy (leBytes 128 e.toNat) sigBytes
  else none

/-- Kind and rights of a loaded segment's object (R316): CODE holds X once all is verified; what only the launch unit or
fetch reads has no rights. -/
def sgAccess (t : Nat) : Nat × BitVec 8 :=
  match t with
  | 1 => (kCODE, 0x05)
  | 2 => (kGLOBAL, 0x11)
  | 3 => (kGLOBAL, 0x33)
  | _ => (kGLOBAL, 0)

/-- The object-table entry of a segment's object after loading: length, kind and rights written (R316).
DESIGN CHOICE: notes/assumptions/55.md. -/
def loadedEntry (e : BitVec 256) (seg : SegEntry) : BitVec 256 :=
  let (k, r) := sgAccess (sgType seg)
  setBits (setBits (setBits e 160 48 (sgMem seg)) 84 4 k) 88 8 r.toNat

/-- Where a segment is loaded: pieces of its object, which must be valid and long enough.
DESIGN CHOICE: notes/assumptions/55.md. -/
def State.segRoom (s : State) (asid obj : Nat) (e : SegEntry) : Option (List Piece × List Nat) := s.cpPort asid obj kindsAny [] [] 0 (sgMem e)

/-- One segment loaded into its object: bytes, zeros up to MEMLEN, and the object's entry.
DESIGN CHOICE: notes/assumptions/55.md. -/
def State.loadSegment (s : State) (asid obj base dst : Nat) (e : SegEntry) : State :=
  match s.segRoom asid dst e, s.imgBytes asid obj base (sgOff e) (sgLen e), s.walkObj asid dst with
  | some (ps, ds), some bytes, some entry =>
    let s1 := s.performStore ds (cellsOf ps (padTo (sgMem e) bytes))
    s1.wrNat (bitsOf (s.asidEntry asid) 255 192 + 32 * dst) 32 (loadedEntry entry e).toNat
  | _, _, _ => s

/-- The table of an image that passes every check, with the key slot and the final measurement (R317, R395).
DESIGN CHOICE: notes/assumptions/55.md. -/
def State.verifyImage (s : State) (asid obj base : Nat) : Option (List SegEntry × Nat × BitVec 512) := do
  let h ← s.imgBytes asid obj base 0 64
  let (n, imglen) ← imgHeader (BitVec.ofNat 512 (leNat h))
  let es ← (List.range n).mapM fun k => (s.imgBytes asid obj base (64 + 128 * k) 128).map fun b => BitVec.ofNat 1024 (leNat b)
  let sig ← es.find? fun e => sgType e == 6
  let segs := es.filter fun e => sgType e != 6
  if es.all (sgOk imglen) && sgTableOk es then
    let slots ← segs.mapM fun e => s.checkSegment asid obj base sig e
    let k ← slots.head?
    if slots.all fun j => j == k then
      some (es, k, segs.foldl (fun m (e : SegEntry) => extend m (leBytes 128 e.toNat)) 0)
    else none
  else none

/-- LOAD (R314 to R317, R395): a refused image changes nothing. Segment k is loaded into object obj + 1 + k.
DESIGN CHOICE: notes/assumptions/55.md. -/
def execLoad (asid obj offset : Nat) (s : State) : Host.Outcome State Fault Refusal :=
  s.onRequest fun _ =>
    match s.verifyImage asid obj offset with
    | none => s
    | some (es, slot, m) =>
      let placed := es.zipIdx.filter fun (e, _) => sgType e != 6
      let find (t : Nat) : Option Nat := (placed.find? fun (e, _) => sgType e == t).map fun (_, k) => obj + 1 + k
      if !(placed.all fun (e, k) => (s.segRoom asid (obj + 1 + k) e).isSome) then s
      else
        let s1 := placed.foldl (fun a (e, k) => a.loadSegment asid obj offset (obj + 1 + k) e) s
        let img : Image := { asid := asid, code := (find 1).getD 0, const := find 2, data := find 3,
                             kdesc := (find 4).getD 0, dupmap := find 5, owner := slot }
        let s2 := s1.modFw fun f =>
          { f with imgm := extend f.imgm (leBytes 8 asid ++ leBytes 8 slot ++ leBytes 64 m.toNat), imgCount := f.imgCount + 1 }
        let images := (s2.cp.images.filter fun x => !(x.asid == asid && x.kdesc == img.kdesc)) ++ [img]
        { s2 with cp := { s2.cp with images := images } }

/-! Management tables. -/

/-- Only the bits of the given fields, each as lowest bit and width. -/
def keepFields {w : Nat} (x : BitVec w) (fs : List (Nat × Nat)) : BitVec w :=
  BitVec.ofNat w ((fs.map fun (lo, n) => bitsOf x (lo + n - 1) lo * 2 ^ lo).foldl (· + ·) 0)

/-- Whether a partition holds a task, on a context or saved. -/
def State.partHasTask (s : State) (p : Nat) : Bool :=
  (s.core.ctxs.any fun (_, x) => match x.task with
    | some k => s.regionPart k.region == p
    | none => false) || s.cp.saves.any fun (_, v) => v.part == p

/-- The fields of a queue table entry (R328). -/
def queueFields : List (Nat × Nat) := [(0, 2), (2, 22), (64, 5), (72, 24), (96, 32), (128, 16), (144, 1), (148, 12), (164, 16)]

/-- QUEUE_TABLE_WRITE (R328): only while the entry is DISABLED; STATE only to DISABLED or ACTIVE; ring and notify pair in
the mailbox window. -/
def execQueueTableWrite (q : Nat) (entry : BitVec 512) (s : State) : Host.Outcome State Fault Refusal :=
  s.onRequest fun _ =>
    let e := keepFields entry queueFields
    if 8192 ≤ q ∨ qState (s.queue q).entry ≠ 0 ∨ 1 < qState e ∨ 16 < qLog2n e ∨ qNotify e % 16 ≠ 0 ∨
        2 ^ 24 < 128 * qRing e + 128 * 2 ^ qLog2n e ∨ 2 ^ 24 < qNotify e + 16 then s
    else s.modQueue q fun x => { x with entry := e }

/-- ASID_TABLE_WRITE (R352). -/
def execAsidTableWrite (asid : Nat) (entry : BitVec 256) (s : State) : Host.Outcome State Fault Refusal :=
  s.onRequest fun _ =>
    if 4096 ≤ asid then s
    else { s with tab := { s.tab with asids := FMap.set 0 s.tab.asids asid (keepFields entry [(0, 1), (96, 160)]) } }

/-- SERVICE_ENTRY_WRITE (R351): while the partition holds no task. -/
def execServiceEntryWrite (part : Nat) (entry : BitVec 512) (s : State) : Host.Outcome State Fault Refusal :=
  s.onRequest fun _ =>
    if 8 ≤ part ∨ s.partHasTask part = true then s
    else s.setService part (keepFields entry [(0, 69), (128, 128), (288, 32)])

/-- POWER_ENTRY_WRITE (R369): while the partition holds no task. -/
def execPowerEntryWrite (part : Nat) (entry : BitVec 256) (s : State) : Host.Outcome State Fault Refusal :=
  s.onRequest fun _ =>
    if 8 ≤ part ∨ s.partHasTask part = true then s
    else { s with tab := { s.tab with
      powers := FMap.set powerReset s.tab.powers part (keepFields entry [(0, 1), (16, 32), (64, 64)]) } }

/-- GROUP_ENTRY_WRITE (R280, R295): not while a collective of the group is accepted; with WAITLIM 0 it ends that one's
wait with TIMEOUT. DEDUCED: notes/assumptions/49.md. -/
def execGroupEntryWrite (g : Nat) (entry : BitVec 256) (s : State) : Host.Outcome State Fault Refusal :=
  s.onRequest fun _ =>
    let put (a : State) : State := a.modGroup g fun x => { x with entry := keepFields entry [(0, 1), (64, 32), (108, 148)] }
    if 256 ≤ g then s
    else match (s.group g).live with
      | none => put s
      | some x => if x.state = 1 ∧ bitsOf (s.group g).entry 255 224 = 0 ∧ (s.allAccepted g x).isNone then put (s.endColl g x colTIMEOUT) else s

/-- Whether a VALID stream descriptor keeps to its field ranges (R268). DEDUCED: notes/assumptions/47.md. -/
def streamOk (d : BitVec 512) : Bool :=
  decide (1 ≤ stRslots d) && decide (1000 ≤ stPeriod d) && decide (1 ≤ stTsize d) && decide (stTsize d ≤ 1024) && stPolicy d != 3

/-- STREAM_DESCRIPTOR_WRITE (R268): only while the arm is disarmed. -/
def execStreamDescriptorWrite (k : Nat) (entry : BitVec 512) (s : State) : Host.Outcome State Fault Refusal :=
  s.onRequest fun _ =>
    let d := keepFields entry [(0, 4), (224, 168), (400, 16), (428, 84)]
    if 1024 ≤ k ∨ (s.arm (stArm d)).armed = true ∨ (s.arm (stArm (s.stream k).desc)).armed = true ∨
        (stValid d = true ∧ streamOk d = false) then s
    else s.modStream k fun x => { x with desc := d }

/-- OWNER_KEY_WRITE (R394, R395): a key, or the slot disabled. -/
def execOwnerKeyWrite (slot : Nat) (key : Option (List Byte)) (request : BitVec 512) (s : State) : Host.Outcome State Fault Refusal :=
  s.onRequest fun _ =>
    if 8 ≤ slot then s
    else (s.modFw fun f => { f with keys := match key with
      | some k => FMap.set [] f.keys slot k
      | none => f.keys.filter fun x => x.1 != slot }).extendCfg request

/-- A sum over the partition entries with entry p replaced by `e`. -/
def State.partSum (s : State) (p : Nat) (e : BitVec 256) (hi lo : Nat) : Nat :=
  ((List.range 8).map fun q => bitsOf (if q = p then e else s.partition q) hi lo).foldl (· + ·) 0

/-- What a partition write refuses (R401). -/
def State.partitionRefused (s : State) (p : Nat) (e : BitVec 256) : Bool :=
  let isl (x : BitVec 256) : BitVec 64 := x.extractLsb' 192 64
  bitsOf e 63 2 != 0 ||
    ((List.range 8).any fun q => q != p && isl (s.partition q) &&& isl e != 0) ||
    ((List.range 64).any fun i => (isl e).getLsbD i && (s.island i).selfTest == .failed) ||
    ((List.range 64).any fun i => (isl e ^^^ isl (s.partition p)).getLsbD i && (s.island i).state != .off) ||
    decide (6 * 2 ^ 30 < s.partSum p e 191 144) || decide (2000 < s.partSum p e 127 112) ||
    (bitsOf e 127 112 != 0 && !e.getLsbD 1) ||
    ((s.partition p).getLsbD 0 && !e.getLsbD 0 && s.cp.regions.any fun (_, b) => rPart b == p)

/-- PARTITION_ENTRY_WRITE (R401). -/
def execPartitionEntryWrite (p : Nat) (entry : BitVec 256) (request : BitVec 512) (s : State) : Host.Outcome State Fault Refusal :=
  s.onRequest fun _ =>
    if 8 ≤ p ∨ s.partitionRefused p entry = true then s
    else { s with tab := { s.tab with partitions := FMap.set 0 s.tab.partitions p entry } }.extendCfg request

/-- LOTTERY_SEED_WRITE (R344): a seed of 0 is stored as 1. -/
def execLotterySeedWrite (seed : Word) (s : State) : Host.Outcome State Fault Refusal :=
  s.onRequest fun _ => { s with cp := { s.cp with lottery := if seed = 0 then 1 else seed } }

end Sys2Proof.Machine
end

