-- ==== Sys2Proof/Machine/Net.lean ====
section
/-! DEFINITION. Straits and the flooding of their changes, PTP, Ethernet ports, queue pairs and RDMA:
spec/24_fleet_interfaces.md R412 to R423, spec/09_memory_model.md R238, spec/11_timed_streams.md R266 and R267,
spec/12_collectives.md R282. Peers, hosts and wires come in as the arguments of the steps. -/

namespace Sys2Proof.Machine

/-- A step that the package takes only while it has power. -/
def State.powered (s : State) (f : Unit → State) : Host.Outcome State Fault Refusal :=
  if s.pow.down then .next s else .next (f ())

/-! The domain link sets (R282, R421). -/

/-- A change at its place in ascending (version, package) order. DEDUCED: notes/assumptions/57.md. -/
def insertChange (c : LinkChange) : List LinkChange → List LinkChange
  | [] => [c]
  | d :: ds =>
    if c.version < d.version ∨ (c.version = d.version ∧ c.pkg < d.pkg) then c :: d :: ds else d :: insertChange c ds

/-- A strait between two packages: lower package, higher package, port on the lower, port on the higher. -/
abbrev Cable := Nat × Nat × Nat × Nat

/-- The strait that a change reports, named from its lower package. DEDUCED: notes/assumptions/57.md. -/
def changeCable (c : LinkChange) : Cable :=
  if c.pkg ≤ c.peerPkg then (c.pkg, c.peerPkg, c.port, c.peerPort) else (c.peerPkg, c.pkg, c.peerPort, c.port)

/-- Whether a package's port is an end of a strait. -/
def hasEnd (e : Cable) (pkg port : Nat) : Bool :=
  (e.1 == pkg && e.2.2.1 == port) || (e.2.1 == pkg && e.2.2.2 == port)

/-- The straits that are UP after a change: the latest change at either end decides (R421). -/
def applyChange (es : List Cable) (c : LinkChange) : List Cable :=
  let rest := es.filter fun e => !hasEnd e c.pkg c.port && !(c.state == 2 && hasEnd e c.peerPkg c.peerPort)
  if c.state = 2 then changeCable c :: rest else rest

/-- Whether an edge comes before another: ordered by its three numbers (R283). -/
def edgeBefore (a b : Nat × Nat × Nat) : Bool :=
  decide (a.1 < b.1) || (a.1 == b.1 && (decide (a.2.1 < b.2.1) || (a.2.1 == b.2.1 && decide (a.2.2 < b.2.2))))

/-- An edge at its place. -/
def insertEdge (e : Nat × Nat × Nat) : List (Nat × Nat × Nat) → List (Nat × Nat × Nat)
  | [] => [e]
  | f :: fs => if edgeBefore e f then e :: f :: fs else f :: insertEdge e fs

/-- The link set at a version: every change up to it, in order (R421). -/
def linkSetAt (cs : List LinkChange) (v : Nat) : LinkSet :=
  let es := (cs.filter fun c => decide (c.version ≤ v)).foldl applyChange []
  { version := v, edges := es.foldr (fun e m => insertEdge (e.1, e.2.1, e.2.2.1) m) [] }

/-- The 16 latest versions applied, ascending: version 0 and those of the changes (R282).
DEDUCED: notes/assumptions/57.md. -/
def latestVersions (cs : List LinkChange) : List Nat :=
  let vs := (0 :: cs.map fun c => c.version).eraseDups
  vs.drop (vs.length - 16)

/-- A collective that runs on trees with a strait that a change takes away: recovery is to come (R290). -/
def Coll.lose (c : LinkChange) (x : Coll) : Coll :=
  let e := changeCable c
  let edge := (e.1, e.2.1, e.2.2.1)
  if x.state = 2 ∧ c.state ≠ 2 ∧ x.edges.any (fun t => t.contains edge) = true then { x with broken := x.broken ++ [edge] } else x

/-- A change applied: the retained sets are computed again (R421), and collectives meet the failure of a strait (R290). -/
def State.applyLink (s : State) (c : LinkChange) : State :=
  let cs := insertChange c s.net.changes
  let sets := ((latestVersions cs).filter fun v => decide (s.net.floor ≤ v)).map (linkSetAt cs)
  let groups := FMap.mapValues {} (fun _ (g : Group) => { g with colls := g.colls.map (Coll.lose c) }) s.eng.groups
  { s with net := { s.net with changes := cs, sets := sets, applied := max s.net.applied c.version }
           eng := { s.eng with groups := groups } }

/-- A strait port. -/
def State.strait (s : State) (p : Nat) : Strait := FMap.get {} s.net.straits p
/-- A strait port changed. -/
def State.modStrait (s : State) (p : Nat) (f : Strait → Strait) : State :=
  { s with net := { s.net with straits := FMap.set {} s.net.straits p (f (s.strait p)) } }

/-- A change flooded on every UP strait but one: at once, or as soon as a complex is active (R282, R390, R421). -/
def State.flood (s : State) (c : LinkChange) (but : Nat) : State :=
  { s with net := { s.net with unsent := s.net.unsent ++ [(c, but)] } }.floodDue

/-- A strait changes its state: the change is stamped with version V + 1, applied and flooded (R282, R420, R421). -/
def State.straitTo (s : State) (p st : Nat) (f : Strait → Strait) : State :=
  let v := s.net.applied + 1
  let s1 := s.modStrait p fun x => { f x with state := st, version := v }
  let x := s1.strait p
  let c : LinkChange := { version := v, pkg := s.net.pkg, port := p, peerPkg := x.peerPkg, peerPort := x.peerPort, state := st }
  (s1.applyLink c).flood c 12

/-! Straits (R417 to R419). -/

/-- A strait starts training: the identity flit is sent (R418). DEDUCED: notes/assumptions/57.md. -/
def State.trainStrait (s : State) (p : Nat) : State :=
  if p < 12 ∧ (s.strait p).state = 0 then
    (s.straitTo p 1 fun x => { x with identity := none, agreed := false, crcRun := 0, stopped := [] }).send (.identity p)
  else s

/-- A strait goes DOWN (R418). DEDUCED: notes/assumptions/57.md. -/
def State.downStrait (s : State) (p : Nat) : State :=
  if p < 12 ∧ (s.strait p).state ≠ 0 then
    s.straitTo p 0 fun x => { x with identity := none, agreed := false, crcRun := 0, stopped := [] }
  else s

/-- STRAIT_PEER_DETECT (R418). -/
def execStraitPeerDetect (p : Nat) (s : State) : Host.Outcome State Fault Refusal := s.powered fun _ => s.trainStrait p
/-- A physical address with two package numbers exchanged. -/
def swapPkg (a b pa : Nat) : Nat :=
  if paPkg pa = a then pa - a * 2 ^ 58 + b * 2 ^ 58 else if paPkg pa = b then pa - b * 2 ^ 58 + a * 2 ^ 58 else pa

/-- The driver fixes the package's number as the domain is formed (R279): while no strait has left DOWN. The package's memory
goes by the new number. DESIGN CHOICE: notes/assumptions/2.md. -/
def State.joinDomain (s : State) (n : Nat) : State :=
  if n < 64 ∧ n ≠ s.net.pkg ∧ s.net.straits.all (fun (_, x) => x.state == 0) = true then
    let old := s.net.pkg
    let tags := s.core.capTags.foldl (fun m (a, v) => FMap.set false m (swapPkg old n (16 * a) / 16) v) []
    let s1 := ({ s with core := { s.core with mem := [] }, net := { s.net with pkg := n } } : State).wrCells
      (s.core.mem.map fun (a, v) => (swapPkg old n a, v))
    { s1 with core := { s1.core with capTags := tags } }
  else s

/-- STRAIT_TRAIN_REQUEST (R279, R418); the driver may also fix the package's number. -/
def execStraitTrainRequest (train : TrainRequest) (s : State) : Host.Outcome State Fault Refusal :=
  s.onRequest fun _ => (match train.pkg with
    | some n => s.joinDomain n
    | none => s).trainStrait train.port
/-- STRAIT_DOWN (R417, R418). -/
def execStraitDown (p : Nat) (s : State) : Host.Outcome State Fault Refusal := s.powered fun _ => s.downStrait p
/-- STRAIT_DOWN_REQUEST (R418). -/
def execStraitDownRequest (p : Nat) (s : State) : Host.Outcome State Fault Refusal := s.onRequest fun _ => s.downStrait p

/-- The version two partners take (R422): the highest common major version, the lower of their two highest minor
versions within it. DEDUCED: notes/assumptions/57.md. -/
def negotiate (ours theirs : List (Nat × Nat)) : Option (Nat × Nat) :=
  let majors := (ours.map Prod.fst).filter fun m => (theirs.map Prod.fst).contains m
  let top (vs : List (Nat × Nat)) (m : Nat) : Nat := ((vs.filter fun v => v.1 == m).map Prod.snd).foldl max 0
  majors.max?.map fun m => (m, min (top ours m) (top theirs m))

/-- IDENTITY_FLIT (R418, R422): the peer's identity is taken; another identity than at the last UP takes the strait
DOWN; without a common major version it stays TRAINING, not agreed. -/
def execIdentityFlit (p pkg port : Nat) (versions : List (Nat × Nat)) (s : State) : Host.Outcome State Fault Refusal :=
  s.powered fun _ =>
    if p < 12 ∧ (s.strait p).state = 1 then
      let known := (s.strait p).lastUp
      let s1 := s.modStrait p fun x =>
        { x with peerPkg := pkg % 64, peerPort := port % 16, identity := some (pkg, port), agreed := (negotiate [(1, 0)] versions).isSome }
      if known.isSome && known != some (pkg, port) then s1.downStrait p else s1
    else s

/-- STRAIT_UP (R418): after 4,096 consecutive flits without error, a version being agreed. -/
def execStraitUp (p : Nat) (s : State) : Host.Outcome State Fault Refusal :=
  s.powered fun _ =>
    let x := s.strait p
    if p < 12 ∧ x.state = 1 ∧ x.agreed = true ∧ x.identity.isSome then
      s.straitTo p 2 fun y => { y with lastUp := y.identity, crcRun := 0 }
    else s

/-- FLIT_CRC_RETRY (R417): a flit fails its CRC and is sent again; `again`: the same flit as at the last failure. The
sixteenth failure in succession takes the strait DOWN. -/
def execFlitCrcRetry (p : Nat) (again : Bool) (s : State) : Host.Outcome State Fault Refusal :=
  s.powered fun _ =>
    if p < 12 ∧ (s.strait p).state ≠ 0 then
      let n := if again then (s.strait p).crcRun + 1 else 1
      if 16 ≤ n then s.downStrait p else s.modStrait p fun x => { x with crcRun := n }
    else s

/-- VIRTUAL_LANE_STOP_GO (R419): the free space of a lane's receive buffer has come to `free` KiB. -/
def execVirtualLaneStopGo (p lane free : Nat) (s : State) : Host.Outcome State Fault Refusal :=
  s.powered fun _ =>
    let x := s.strait p
    if 12 ≤ p ∨ 8 ≤ lane ∨ x.state ≠ 2 then s
    else if free < 64 ∧ !x.stopped.contains lane then
      (s.modStrait p fun y => { y with stopped := y.stopped ++ [lane] }).send (.stop p lane)
    else if 96 < free ∧ x.stopped.contains lane then
      (s.modStrait p fun y => { y with stopped := y.stopped.filter fun k => k != lane }).send (.go p lane)
    else s

/-- Whether a change has been seen (R421): the same reporter, port and version. -/
def State.seen (s : State) (c : LinkChange) : Bool :=
  s.net.changes.any fun d => d.version == c.version && d.pkg == c.pkg && d.port == c.port

/-- A change from a neighbour (R421): one not yet seen is forwarded once and applied; one older than the 16 retained
versions makes the package ask the neighbour for its full table. -/
def State.takeChange (s : State) (p : Nat) (c : LinkChange) : State :=
  if s.seen c then s
  else
    let vs := latestVersions s.net.changes
    if vs.length = 16 ∧ c.version < vs.headD 0 then (s.flood c p).send (.tableRequest p)
    else (s.flood c p).applyLink c

/-- A neighbour's full table (R421): what it holds is applied, and nothing below its oldest version is used.
DEDUCED: notes/assumptions/57.md. -/
def State.takeTable (s : State) (oldest : Nat) (cs : List LinkChange) : State :=
  (cs.filter fun c => !s.seen c).foldl (fun a c => a.applyLink c)
    { s with net := { s.net with floor := max s.net.floor oldest, sets := s.net.sets.filter fun x => decide (oldest ≤ x.version) } }

/-- LINK_CHANGE_FLOOD (R282, R421): a flit of virtual lane 7 comes in on an UP strait. -/
def execLinkChangeFlood (p : Nat) (news : LinkNews) (s : State) : Host.Outcome State Fault Refusal :=
  s.powered fun _ =>
    if 12 ≤ p ∨ (s.strait p).state ≠ 2 then s
    else match news with
      | .change c => s.takeChange p c
      | .table oldest cs => s.takeTable oldest cs

/-! PTP (R266, R267, R415). -/

/-- The servo changed. DEDUCED: notes/assumptions/58.md. -/
def State.modServo (s : State) (f : Servo → Servo) : State := { s with net := { s.net with servo := f s.net.servo } }

/-- The servo leaves lock when its grandmaster is lost; the part's own time then runs free (R266, R415). -/
def Servo.lost (x : Servo) : Servo := { x with locked := false, inRun := 0, outRun := 0, master := true }

/-- PTP_SYNC (R266, R267, R415): one sync interval with its measured offset in ns, device time less the grandmaster's;
`grandmaster`: another clock serves as grandmaster. At the first lock the counter may be stepped, forward only. -/
def execPtpSync (offset : Int) (grandmaster : Bool) (source : Nat) (s : State) : Host.Outcome State Fault Refusal :=
  s.powered fun _ =>
    if !grandmaster then s.modServo Servo.lost
    else
      let x := s.net.servo
      let near := decide (-40 ≤ offset) && decide (offset ≤ 40)
      let inRun := if near then x.inRun + 1 else 0
      let outRun := if near then 0 else x.outRun + 1
      let locked := if x.locked then decide (outRun < 4) else decide (16 ≤ inRun)
      let s1 := s.modServo fun x =>
        { x with locked := locked, ever := x.ever || locked, inRun := inRun, outRun := outRun, offset := offset,
                 grandmaster := source, master := false }
      if locked && !x.ever then { s1 with now := max s.now ((s.now : Int) - offset * 65536).toNat } else s1

/-- ANNOUNCE_TIMEOUT (R415): the other port takes over; the servo keeps lock if the new grandmaster is the same clock. -/
def execAnnounceTimeout (grandmaster : Nat) (s : State) : Host.Outcome State Fault Refusal :=
  s.powered fun _ => s.modServo fun x =>
    let y := if grandmaster = x.grandmaster then x else { x with locked := false, inRun := 0, outRun := 0, grandmaster := grandmaster }
    { y with active := 1 - x.active }

/-- PTP_CONFIG (R415). -/
def execPtpConfig (domain delay transport : Nat) (s : State) : Host.Outcome State Fault Refusal :=
  s.onRequest fun _ =>
    if domain ≤ 127 ∧ delay ≤ 1 ∧ transport ≤ 2 then
      s.modServo fun x => { x with domain := domain, delay := delay, transport := transport }
    else s

/-! Ethernet (R412, R413). -/

/-- An Ethernet port changed; there are two. -/
def State.modPort (s : State) (p : Nat) (f : EthPort → EthPort) : State :=
  if p < 2 then { s with net := { s.net with ports := FMap.set {} s.net.ports p (f (FMap.get {} s.net.ports p)) } } else s

/-- Whether a port takes a frame (R412): tagged with one of its VLAN IDs, or, for management, with the management VLAN
ID alone. DEDUCED: notes/assumptions/58.md. -/
def EthPort.accepts (x : EthPort) (vlan : Option Nat) (kind : FrameKind) : Bool :=
  match vlan with
  | none => false
  | some v => if kind = .management then v == Config.managementVlan else x.vlans.contains v

/-- ETHERNET_FRAME_RECEIVE (R412, R413): with the frame the receive buffer holds `bytes`; ECN is marked while it is more
than half full. -/
def execEthernetFrameReceive (p : Nat) (vlan : Option Nat) (kind : FrameKind) (_priority bytes : Nat) (s : State) :
    Host.Outcome State Fault Refusal :=
  s.powered fun _ =>
    let x := FMap.get ({} : EthPort) s.net.ports p
    if p < 2 ∧ x.accepts vlan kind = true then
      let mark := decide (Config.rxBuffer < 2 * bytes)
      let s1 := s.modPort p fun y => { y with ecn := mark }
      if mark then s1.send (.marked p) else s1
    else s

/-- A rate that 802.3 has here (R412). -/
def rateOk (gbit : Nat) : Bool := gbit == 200 || gbit == 400 || gbit == 800

/-- AUTO_NEGOTIATION (R412). -/
def execAutoNegotiation (p gbit : Nat) (s : State) : Host.Outcome State Fault Refusal :=
  s.powered fun _ => if rateOk gbit then s.modPort p fun x => { x with rate := gbit } else s
/-- PORT_RATE_SET (R412). -/
def execPortRateSet (p gbit : Nat) (s : State) : Host.Outcome State Fault Refusal :=
  s.onRequest fun _ => if rateOk gbit then s.modPort p fun x => { x with rate := gbit } else s
/-- VLAN_CONFIG (R412): at most 64 VLAN IDs of 12 bits. -/
def execVlanConfig (p : Nat) (ids : List Nat) (s : State) : Host.Outcome State Fault Refusal :=
  s.onRequest fun _ =>
    if ids.length ≤ 64 ∧ ids.all (fun v => decide (v < 4096)) = true then s.modPort p fun x => { x with vlans := ids } else s

/-! Queue pairs (R413, R414). -/

/-- A queue pair. -/
def State.qp (s : State) (q : Nat) : QueuePair := FMap.get {} s.net.qps q
/-- A queue pair changed; there are 4,096. -/
def State.modQp (s : State) (q : Nat) (f : QueuePair → QueuePair) : State :=
  if q < 4096 then { s with net := { s.net with qps := FMap.set {} s.net.qps q (f (s.qp q)) } } else s

/-- QUEUE_PAIR_BINDING (R414): to one ASID and one role. -/
def execQueuePairBinding (q asid role : Nat) (s : State) : Host.Outcome State Fault Refusal :=
  s.onRequest fun _ =>
    if asid < 4096 ∧ 1 ≤ role ∧ role ≤ 3 then
      s.modQp q fun x => { x with asid := asid, role := role, quietSince := s.ns }
    else s

/-- CONGESTION_NOTIFICATION (R413): the sending rate halves, at most once per 50 µs. -/
def execCongestionNotification (q : Nat) (s : State) : Host.Outcome State Fault Refusal :=
  s.powered fun _ => s.modQp q fun x =>
    let cut := match x.lastCut with
      | some t => decide (t + 50000 ≤ s.ns)
      | none => true
    if cut then { x with rate := x.rate / 2, lastCut := some s.ns, quietSince := s.ns } else { x with quietSince := s.ns }

/-- RATE_RECOVERY (R413): 50 µs without a notification raise the rate by 5% of line rate. -/
def execRateRecovery (q : Nat) (s : State) : Host.Outcome State Fault Refusal :=
  s.powered fun _ =>
    let x := s.qp q
    if x.quietSince + 50000 ≤ s.ns then
      s.modQp q fun x => { x with rate := min 100000 (x.rate + 5000), quietSince := x.quietSince + 50000 }
    else s

/-! RDMA (R209, R238, R414). -/

/-- An RDMA WRITE on a MEMORY queue pair: its bytes are written at their homes; none where it is answered with a NAK.
DEDUCED: notes/assumptions/58.md. -/
def State.rdmaStore (s : State) (q obj off : Nat) (data : List Byte) : Option State :=
  let x := s.qp q
  if 4096 ≤ q ∨ x.role ≠ 1 then none
  else (s.cpPort x.asid obj [kGLOBAL, kMAILBOX] [rW] [] off data.length).map fun (ps, ds) => s.performStore ds (cellsOf ps data)

/-- RDMA_WRITE (R238, R414). DEDUCED: notes/assumptions/58.md. -/
def execRdmaWrite (q obj off : Nat) (data : List Byte) (s : State) : Host.Outcome State Fault Refusal :=
  s.powered fun _ =>
    match s.rdmaStore q obj off data with
    | some s1 => s1.send (.ack q)
    | none => s.send (.nak q)

/-- RDMA_WRITE_WITH_IMMEDIATE (R414): then the immediate is written to the queue pair's immediate word in the mailbox
window. -/
def execRdmaWriteWithImmediate (q obj off : Nat) (data : List Byte) (imm : BitVec 32) (s : State) : Host.Outcome State Fault Refusal :=
  s.powered fun _ =>
    match s.rdmaStore q obj off data with
    | some s1 =>
      let pa := s1.mailPa (Config.immOffset q % (2 ^ 24 - 3))
      (s1.performStore [] (((List.range 4).map fun i => pa + i).zip (leBytes 4 imm.toNat))).send (.ack q)
    | none => s.send (.nak q)

/-- What an RDMA READ returns of a byte of memory that goes through the export point: as last flushed, or, at a free
choice for its 64-byte unit, as it is now (R238). -/
def State.exportByte (s : State) (pa : Nat) (v : Byte) : Byte :=
  if Config.exportsNow s.freeCtr (pa / 64) then v else FMap.get 0 s.core.exported pa

/-- The bytes an RDMA READ returns of pieces; none where a page cannot be read (R378).
DEDUCED: notes/assumptions/58.md. -/
def State.rdExport (s : State) (ps : List Piece) : Option (List Byte) :=
  match s.rdPump ps with
  | .error _ => none
  | .ok bs => some (((cellsOf ps bs).map fun (pa, v) => if paSpace pa = 2 then v else s.exportByte pa v))

/-- RDMA_READ (R238, R334, R414): of an object whose EXPORT is 1. DEDUCED: notes/assumptions/58.md. -/
def execRdmaRead (q obj off len : Nat) (s : State) : Host.Outcome State Fault Refusal :=
  s.powered fun _ =>
    let x := s.qp q
    let out := match s.walkObj x.asid obj with
      | some e => e.getLsbD 80
      | none => false
    if 4096 ≤ q ∨ x.role ≠ 1 ∨ out = false then s.send (.nak q)
    else match s.cpPort x.asid obj [kGLOBAL, kMAILBOX, kSIGNAL] [rR] [] off len with
      | none => s.send (.nak q)
      | some (ps, _) =>
        (match s.rdExport ps with
          | some bs => { s with freeCtr := s.freeCtr + 1 }.send (.readData q bs)
          | none => s.send (.nak q))

end Sys2Proof.Machine
end

