-- ==== Sys2Proof/Machine/TileEvents.lean ====
section
/-! DEFINITION. The steps inside a tile that follow an issue: departures from the commit stage, completions of engine
operations, the release of waits, traps raised after issue, atomics at their homes, walks; and the header bits of a
bundle: spec/01_tile_execution.md R19, R32 to R37, spec/08_memory_sync_isa.md R203, R214, R221,
spec/19_faults_preemption.md R348, R356. -/

namespace Sys2Proof.Machine

/-! Waits (R214). -/

/-- The condition of a wait; true of every other operation. Its checks have passed by now (R424). -/
def waitReady (i : Instr) (s : State) : Except Stop Bool :=
  match i with
  | .cbwait _ b => .ok (readyCbwait b s)
  | .cbspace _ b => .ok (readyCbspace b s)
  | .sigwait _ b => readySigwait b s
  | .jobwait _ b => readyJobwait b s
  | .bar _ _ => .ok (readyBar s)
  | .evwait _ b => .ok (readyEvwait b s)
  | .tickwait _ _ => .ok (readyTickwait s)
  | _ => .ok true

/-- What a context does that goes to sleep on its wait (R35, R214, R220, R276). -/
def waitSleep (i : Instr) (s : State) : State :=
  match i with
  | .bar _ _ => barSleep s
  | .tickwait _ _ => tickSleep s
  | _ => s.sleepMe

/-- Whether the waiting bundle of a context may go on to issue: its condition holds, or its check fails. -/
def State.waitOver (s : State) (t c : Nat) : Bool :=
  match s.syncOp t c with
  | none => true
  | some i =>
    match waitReady i (s.at t c) with
    | .ok b => b
    | .error _ => true

/-- A member that sleeps in BAR arrives once its earlier stores have performed (R220). -/
def State.arriveAsleep (s : State) (t c : Nat) : State :=
  match s.syncOp t c with
  | some (.bar _ _) => (s.at t c).barArrive
  | _ => s

/-- WAIT_RELEASE (R214): a delivered request lands on the waiting bundle; else the bundle, whose condition has come to
hold, may issue. -/
def execWaitRelease (t c : Nat) (s : State) : Host.Outcome State Fault Refusal :=
  let x := s.ctx t c
  if x.phase != .sleeping then .next s
  else if (match x.preempt with | some r => r.delivered.isSome | none => false) && x.region.isNone then .next (s.landAsleep t c)
  else if s.waitOver t c then .next (s.modCtx t c fun y => { y with phase := .running, captured := none })
  else .next (s.arriveAsleep t c)

/-! The commit stage (R34, R221). -/

/-- Whether an entry still stands behind one that waits in the sync queue (R19). -/
def State.behindSync (s : State) (t : Nat) (e : CommitEntry) : Bool :=
  match e.behind with
  | some i => (s.tile t).syncQ.any fun w => w.id == i
  | none => false

/-- The entry of a context that leaves next (R34): the first in program order, unless a region holds it or an earlier
operation of the sync queue has not executed; none while an atomic of the context has not performed.
DEDUCED: notes/assumptions/59.md. -/
def State.departing (s : State) (t c : Nat) : Option CommitEntry :=
  match (s.ctx t c).commitQ with
  | [] => none
  | e :: _ =>
    if e.held || s.behindSync t e || s.core.homeQ.any (fun h => h.tile == t && h.ctx == c) then none else some e

/-- The entry taken out of the commit stage. -/
def State.dropEntry (s : State) (t c : Nat) (e : CommitEntry) : State :=
  s.modCtx t c fun x => { x with commitQ := x.commitQ.erase e, launchStall := false }

/-- The trap of JOB_ORDER, subcode 0 (R219, R349). DEDUCED: notes/assumptions/59.md. -/
def jobOrder : Stop := .trap { code := trapJOB_ORDER, slot := 7 }

/-- An update of the 32 bytes of a job control block at its home (R218, R219). -/
def State.jobAt (s : State) (pa : Nat) (dirty : List Nat) (f : BitVec 256 → Option (BitVec 256)) : Except Stop State :=
  match f (BitVec.ofNat 256 (s.rdNat pa 32)) with
  | some v => .ok (s.performStore dirty (cellsOf [(pa, 32)] (leBytes 32 v.toNat)))
  | none => .error jobOrder

/-- A launch leaves the commit stage (R221): the node is read, and is a ready node of the task's instance; an instance
that has been given up takes none. DEDUCED: notes/assumptions/59.md. -/
def State.launchAt (s : State) (t c : Nat) (r : Ref) (entry : Nat) : Except Stop State := do
  let (s1, ps, _) ← s.translate t r.asid 7 r.obj kGLOBAL [rR] [] r.off 128
  let w := BitVec.ofNat 1024 (leNat (s1.rdPieces ps))
  match (s1.ctx t c).task with
  | none => .ok (s1.returnEntry entry)
  | some k =>
    if (s1.inst k.inst).discarded || !s1.cp.insts.keys.contains k.inst then .ok (s1.returnEntry entry)
    else
      let s2 := s1.readyBack k.queue [.launched k.inst w (some entry)]
      .ok (s2.wakeForNode (s2.inst k.inst) w)

/-- An atomic put among those that have arrived at their homes: in the order of arrival, and at one time that of the
sources (R7, R203). -/
def insertAtomic (a : HomeAtomic) : List HomeAtomic → List HomeAtomic
  | [] => [a]
  | h :: hs => if h.time = a.time ∧ a.tile < h.tile then a :: h :: hs else h :: insertAtomic a hs

/-- What an operation does as it leaves (R33, R34). DESIGN CHOICE: notes/assumptions/4.md.
DEDUCED: notes/assumptions/59.md. -/
def State.depart (s : State) (t c : Nat) (e : CommitEntry) : Except Stop State :=
  match e.op with
  | .store bs ds => .ok (s.performStore ds bs)
  | .capStore pa cap ds => .ok ((s.performStore ds (cellsOf [(pa, 16)] (leBytes 16 cap.bits.toNat))).wrTag pa cap.tag)
  | .atomic pa op size v cmp rd ds =>
    let s1 := s.markDirty ds
    let a : HomeAtomic := { time := s.ns, slice := homeSlice pa, tile := t, ctx := c, pa := pa, op := op, size := size,
                            v := v, cmp := cmp, rd := rd, bundle := e.bundle, scope := e.scope }
    .ok { s1 with core := { s1.core with homeQ := insertAtomic a s1.core.homeQ } }
  | .sigAdd pa v ds => .ok ((s.markDirty ds).sigAddAt pa v)
  | .jobRaise pa p n ds => s.jobAt pa ds fun v => jobRaise v p n
  | .jobPost pa p n ds => s.jobAt pa ds fun v => jobPost v p n
  | .launch r _ entry => s.launchAt t c r entry
  | .launchWait r region =>
    (match s.takeEntry region with
      | some (entry, s1) => s1.launchAt t c r entry
      | none => .ok s)
  | .pump m => .ok (s.addCmd m)
  | .cbadv produce h n => ((s.at t c).enterSync e.bundle e.pc (.cbadv produce h n)).map fun u => u.at s.core.cur.1 s.core.cur.2

/-- A blocking LAUNCH stalls the stage until an entry of its region's reservation is free (R34, R221). -/
def State.stalls (s : State) (e : CommitEntry) : Bool :=
  match e.op with
  | .launchWait _ region => !s.plOwnFree region
  | _ => false

/-- A trap raised after issue by an operation of bundle `n` at `pc` (R348); a context that has stopped takes none. -/
def State.lateTrap (s : State) (t c n : Nat) (pc : Off) : Stop → Host.Outcome State Fault Refusal
  | .fault f => .fault f
  | .trap tr => if (s.ctx t c).live then .next (s.takeSystemTrap t c tr pc n) else .next s

/-- The pending-launch entry that a launch which traps gives back (R221). -/
def State.giveBack (s : State) (e : CommitEntry) : State :=
  match e.op with
  | .launch _ _ entry => s.returnEntry entry
  | _ => s

/-- COMMIT_STAGE_DEPARTURE (R34). -/
def execCommitStageDeparture (t c : Nat) (s : State) : Host.Outcome State Fault Refusal :=
  match s.departing t c with
  | none => .next s
  | some e =>
    if s.stalls e then .next (s.modCtx t c fun x => { x with launchStall := true })
    else
      let s1 := s.dropEntry t c e
      match s1.depart t c e with
      | .ok s2 => .next (s2.settle t c)
      | .error st => (s1.giveBack e).lateTrap t c e.bundle e.pc st

/-! Engines, atomics, walks (R19, R203, R356). -/

/-- Whether an operation in flight is the handle operation `w` of the sync queue. -/
def SyncWait.isOf (w : SyncWait) (o : InFlight) : Bool := o.eng == .sync && o.ctx == w.ctx && o.bundle == w.bundle

/-- The head of the sync queue executes, if it may (R19, R215, R216); a trap of it is taken on its context.
DEDUCED: notes/assumptions/28.md. -/
def State.executeSync (s : State) (t : Nat) (w : SyncWait) : Host.Outcome State Fault Refusal :=
  if !(s.at t w.ctx).syncFree w.op then .next s
  else
    let s1 := s.modTile t fun x => { x with syncQ := x.syncQ.erase w, inflight := x.inflight.filter fun o => !w.isOf o }
    match (s1.ctx t w.ctx).syncOp w.op with
    | .ok x => .next ((s1.setCtx t w.ctx x).settle t w.ctx)
    | .error st => s1.lateTrap t w.ctx w.bundle w.pc st

/-- Whether an operation in flight is the matrix operation `w`. -/
def LateOp.isOf (w : LateOp) (o : InFlight) : Bool := o.eng == .matrix && o.ctx == w.ctx && o.bundle == w.bundle

/-- Whether an incomplete WJOPEN of a tile names entry `n` (R383). -/
def State.openNames (s : State) (t n : Nat) : Bool :=
  let names (m : PumpCmd) : Bool := m.opc == 24 && m.tile == t && bitsOf m.body.aux 13 8 == n
  (s.core.cmds.any fun m => names m && !m.finished) ||
    (List.range 4).any fun c => (s.ctx t c).commitQ.any fun e => match e.op with
      | .pump m => names m
      | _ => false

/-- Whether the operation `o` of the matrix queue waits at its head: a TIDSET, for everything issued earlier that names its
entry (R154). -/
def State.lateWaits (s : State) (t : Nat) (o : InFlight) (w : LateOp) : Bool :=
  match w.eff with
  | .entry n _ _ => s.openNames t n || ((s.tile t).inflight.takeWhile fun p => p != o).any fun p => p.tids.contains n
  | .test _ _ _ => false

/-- The test of MSTAT.cal written to p[p] and, where no later operation of the queue latches, to lm (R166, R425). -/
def State.putTest (s : State) (t c p : Nat) (v : Mask) : State :=
  let later := ((s.tile t).inflight.any fun o => o.ctx == c && o.eng == .matrix && o.writes.any fun r => r.space == 3 && r.lo == 3)
  s.modCtx t c fun x =>
    let y := { x with regs := x.regs.setP p v }
    if later then y else { y with latches := { y.latches with lm := leBytes 8 v.toNat } }

/-- What a matrix operation does where it executes (R154, R166). -/
def State.lateEffect (s : State) (t : Nat) (w : LateOp) : State :=
  match w.eff with
  | .entry n d c => s.modTile t fun x => { x with tids := FMap.set {} x.tids n (tidEntry d c w.ctx (FMap.get {} x.tids n)) }
  | .test p ovf ufc => s.putTest t w.ctx p (allBits ((s.ctx t w.ctx).sys.calFails ovf ufc))

/-- ENGINE_OPERATION_COMPLETE (R19): the oldest operation of an engine is complete. One that stands in the sync queue
behind a handle operation which may not execute yet stays, as does a TIDSET that waits (R154).
DEDUCED: notes/assumptions/7.md. DEDUCED: notes/assumptions/17.md. -/
def execEngineOperationComplete (t : Nat) (e : Engine) (s : State) : Host.Outcome State Fault Refusal :=
  let x := s.tile t
  let head := x.inflight.find? fun o => o.eng == e
  let waits : Option SyncWait := if e = .sync ∧ ∀ o ∈ head, x.syncQ.any (fun w => w.isOf o) = true then x.syncQ.head? else none
  match waits, head with
  | some w, _ => s.executeSync t w
  | none, some o =>
    let done := s.modTile t fun x => { x with inflight := x.inflight.erase o }
    match x.lateQ.find? fun w => w.isOf o with
    | none => .next (done.settle t o.ctx)
    | some w =>
      if s.lateWaits t o w then .next s
      else .next (((done.lateEffect t w).modTile t fun x => { x with lateQ := x.lateQ.erase w }).settle t o.ctx)
  | none, none => .next s

/-- ATOMIC_HOME_PERFORM (R203): the oldest arrival of a slice performs; the old value goes to its register.
DESIGN CHOICE: notes/assumptions/4.md. -/
def execAtomicHomePerform (slice : Nat) (s : State) : Host.Outcome State Fault Refusal :=
  match s.core.homeQ.find? fun h => h.slice == slice with
  | none => .next s
  | some h =>
    let n := 2 ^ h.size
    let m := s.rdNat h.pa n
    let s1 := { s with core := { s.core with homeQ := s.core.homeQ.erase h } }
    let s2 := (s1.performStore [] (cellsOf [(h.pa, n)] (leBytes n (atomicNew h.op (8 * n) m h.v.toNat h.cmp.toNat)))).acquireAt
      h.scope h.pa
    .next ((s2.modCtx h.tile h.ctx fun x => { x with regs := x.regs.setS h.rd (BitVec.ofNat 64 m) }).settle h.tile h.ctx)

/-- The codes of the traps that are raised after issue (R349). DEDUCED: notes/assumptions/59.md. -/
def lateCodes : List (BitVec 16) :=
  [trapILLEGAL_OP, trapCAP_BOUNDS, trapCAP_RIGHTS, trapCAP_TAG, trapPAGE_ABSENT, trapPAGE_REGEN, trapWELL_ECC,
   trapTID_INVALID, trapJOB_ORDER, trapCB_CONFIG, trapLRANK, trapDUPMISMATCH]

/-- Whether a report's SUBCODE is one that hardware reports: that of ILLEGAL_OP has a REASON of 1 to 11 (R85, R86). -/
def reported (r : TrapReport) : Bool :=
  r.code != trapILLEGAL_OP || (decide (1 ≤ r.subcode.toNat / 512) && decide (r.subcode.toNat / 512 ≤ 11))

/-- SYSTEM_TRAP (R348): an engine raises a trap after issue. DESIGN CHOICE: notes/assumptions/11.md. -/
def execSystemTrap (t c : Nat) (r : TrapReport) (s : State) : Host.Outcome State Fault Refusal :=
  if (s.ctx t c).live && (s.ctx t c).task.isSome && lateCodes.contains r.code && reported r then
    .next (s.takeSystemTrap t c { code := r.code, sub := r.subcode, slot := r.slot.toNat, obj := r.obj.toNat, off := r.offset.toNat }
      r.pc r.bundle)
  else .next s

/-- A walk for a cistern slice, which caches 64 object and 64 page translations (R356). -/
def State.fillSlice (s : State) (n asid obj : Nat) (e : BitVec 256) (p : Option TlbPage) : State :=
  let objs (x : Slice) : List TlbObj :=
    if x.tlbObjs.any fun y => y.asid == asid && y.obj == obj then x.tlbObjs
    else evictTo 64 (fun _ => false) (x.tlbObjs ++ [{ asid := asid, obj := obj, entry := e }])
  let pages (x : Slice) : List TlbPage := match p with
    | none => x.tlbPages
    | some q =>
      if x.tlbPages.any fun y => y.asid == q.asid && y.obj == q.obj && y.start == q.start then x.tlbPages
      else evictTo 64 (fun y => y.pinned) (x.tlbPages ++ [q])
  s.modSlice n fun x => { x with tlbObjs := objs x, tlbPages := pages x }

/-- TRANSLATION_WALK (R356): a miss of a tile's port (numbers below 512) or of a cistern slice (512 and above) walks the
tables; only a valid entry and a present page are kept. -/
def execTranslationWalk (tile asid obj off : Nat) (s : State) : Host.Outcome State Fault Refusal :=
  match s.walkObj asid obj with
  | none => .next s
  | some e =>
    let page : Option TlbPage :=
      if bitsOf e 83 82 = 1 then
        (match s.walkPage asid obj (bitsOf e 159 96) off with
          | .page p => some p
          | _ => none)
      else none
    if tile < 512 then
      let s1 := s.fillObj tile asid obj e
      .next (match page with
        | some p => s1.fillPage tile p
        | none => s1)
    else if tile < 1024 then .next (s.fillSlice (tile - 512) asid obj e page)
    else .next s

/-! Migration (R364). -/

/-- The bit of SR.FEAT of an operation's group (R113). -/
def featBit : Instr → Nat
  | .mmaw .. => 7
  | .chk .. => 6
  | .wjopen .. | .wjwrite .. | .wjcommit .. | .wjabort .. | .wjstat .. => 5
  | .colar .. | .colrs .. | .colag .. | .colbc .. | .colstat .. => 4
  | .stmget .. | .stmstat .. | .tickwait .. => 3
  | .kvappend .. | .kvattn .. | .kvscore .. | .kvseal .. | .kvcompact .. | .kvfork .. | .kvforkNew .. | .kvfree .. | .kvpin .. |
    .kvwin .. | .kvstat .. => 2
  | .lrzero .. | .lrset .. | .lradd .. | .lrscale .. | .lrmul .. | .lrmuld .. | .lrtrunc .. | .lrcomp .. | .lrapply .. |
    .lrdense .. | .lrrank .. | .lrlds .. | .lrsts .. => 1
  | _ => 0

/-- Whether an operation is of a group that the tile of `s` lacks, and is not discarded (R72, R113). -/
def State.lacks (s : State) (bit : Nat) (i : Instr) : Bool :=
  featBit i == bit && match slotFields i with
    | some f => s.cond f.g
    | none => false

/-- The slot of the bundle at which a context stands that holds an operation of a group, the lowest (R84, R364). -/
def State.featSlot (s : State) (t c bit : Nat) : Option Nat :=
  match s.fetch t c with
  | .error _ => none
  | .ok (_, w, d) => (List.range 8).find? fun n => occupied w n && match decodeSlot n (d.getLsbD n) (slotWord w n) with
      | .ok i => (s.at t c).lacks bit i
      | .error _ => false

/-- FEATURE_MIGRATION (R364): the bundle that a context is to issue holds an operation of a group that its tile does not
execute: FEATURE, with the bit as its subcode. -/
def execFeatureMigration (t c bit : Nat) (s : State) : Host.Outcome State Fault Refusal :=
  let x := s.ctx t c
  if x.phase == .running && x.task.isSome && decide (bit < 8) && !(s.tile t).feat.getLsbD bit then
    (match s.featSlot t c bit with
      | some n => .next (s.takeSystemTrap t c { code := trapFEATURE, sub := BitVec.ofNat 16 bit, slot := n } x.pc x.bundleNo)
      | none => .next s)
  else .next s

/-! Header bits (R32, R37). -/

/-- Region begin (R32): an open region commits, and one opens at the context's bundle. -/
def execRegionBegin (s : State) : Host.Outcome State Fault Refusal := .next (s.modMe fun x => x.commitRegion.openRegion)

/-- Region commit (R32). -/
def execRegionCommit (s : State) : Host.Outcome State Fault Refusal := .next (s.modMe Ctx.commitRegion)

/-- Pre-emption point (R37): a delivered request lands where no region is open. -/
def execPreemptionPoint (s : State) : Host.Outcome State Fault Refusal :=
  if s.me.region.isNone then .next (s.land s.myTile s.myCtx) else .next s

end Sys2Proof.Machine
end

