-- ==== Sys2Proof/Machine/Dispatch.lean ====
section
/-! DEFINITION. The dispatch: one arm per row of spec/opcode_table.json. -/

namespace Sys2Proof.Machine

/-- The meaning of one step of the part. -/
def exec (i : Instr) (s : State) : Host.Outcome State Fault Refusal :=
  match i with
  | .nopScalar g body => Sys2Proof.Machine.execNopScalar g body s
  | .add g b => Sys2Proof.Machine.execAdd g b s
  | .sub g b => Sys2Proof.Machine.execSub g b s
  | .mul g b => Sys2Proof.Machine.execMul g b s
  | .mulh g b => Sys2Proof.Machine.execMulh g b s
  | .div g b => Sys2Proof.Machine.execDiv g b s
  | .rem g b => Sys2Proof.Machine.execRem g b s
  | .and g b => Sys2Proof.Machine.execAnd g b s
  | .or g b => Sys2Proof.Machine.execOr g b s
  | .xor g b => Sys2Proof.Machine.execXor g b s
  | .andn g b => Sys2Proof.Machine.execAndn g b s
  | .shl g b => Sys2Proof.Machine.execShl g b s
  | .shr g b => Sys2Proof.Machine.execShr g b s
  | .sra g b => Sys2Proof.Machine.execSra g b s
  | .min g b => Sys2Proof.Machine.execMin g b s
  | .max g b => Sys2Proof.Machine.execMax g b s
  | .clz g b => Sys2Proof.Machine.execClz g b s
  | .popc g b => Sys2Proof.Machine.execPopc g b s
  | .li g b => Sys2Proof.Machine.execLi g b s
  | .lih g b => Sys2Proof.Machine.execLih g b s
  | .mov g b => Sys2Proof.Machine.execMov g b s
  | .sel g b => Sys2Proof.Machine.execSel g b s
  | .cmp g b => Sys2Proof.Machine.execCmp g b s
  | .pand g b => Sys2Proof.Machine.execPand g b s
  | .por g b => Sys2Proof.Machine.execPor g b s
  | .pxor g b => Sys2Proof.Machine.execPxor g b s
  | .pandn g b => Sys2Proof.Machine.execPandn g b s
  | .pset g b => Sys2Proof.Machine.execPset g b s
  | .pcnt g b => Sys2Proof.Machine.execPcnt g b s
  | .aadd g b => Sys2Proof.Machine.execAadd g b s
  | .aset g b => Sys2Proof.Machine.execAset g b s
  | .aget g b => Sys2Proof.Machine.execAget g b s
  | .anarrow g b => Sys2Proof.Machine.execAnarrow g b s
  | .adrop g b => Sys2Proof.Machine.execAdrop g b s
  | .amov g b => Sys2Proof.Machine.execAmov g b s
  | .achk g b => Sys2Proof.Machine.execAchk g b s
  | .loop g b => Sys2Proof.Machine.execLoop g b s
  | .ldelta g b => Sys2Proof.Machine.execLdelta g b s
  | .lbreak g b => Sys2Proof.Machine.execLbreak g b s
  | .lidx g b => Sys2Proof.Machine.execLidx g b s
  | .view g b => Sys2Proof.Machine.execView g b s
  | .srr g b => Sys2Proof.Machine.execSrr g b s
  | .srw g b => Sys2Proof.Machine.execSrw g b s
  | .srWinWrite g b => Sys2Proof.Machine.execSrWinWrite g b s
  | .srPrivWrite g b => Sys2Proof.Machine.execSrPrivWrite g b s
  | .rdtime g b => Sys2Proof.Machine.execRdtime g b s
  | .pbr g b => Sys2Proof.Machine.execPbr g b s
  | .trap g b => Sys2Proof.Machine.execTrap g b s
  | .utret g b => Sys2Proof.Machine.execUtret g b s
  | .eret g b => Sys2Proof.Machine.execEret g b s
  | .yield g b => Sys2Proof.Machine.execYield g b s
  | .endTask g b => Sys2Proof.Machine.execEndTask g b s
  | .feat g b => Sys2Proof.Machine.execFeat g b s
  | .nopVector g body => Sys2Proof.Machine.execNopVector g body s
  | .vadd g b => Sys2Proof.Machine.execVadd g b s
  | .vsub g b => Sys2Proof.Machine.execVsub g b s
  | .vmul g b => Sys2Proof.Machine.execVmul g b s
  | .vfma g b => Sys2Proof.Machine.execVfma g b s
  | .vmin g b => Sys2Proof.Machine.execVmin g b s
  | .vmax g b => Sys2Proof.Machine.execVmax g b s
  | .vabs g b => Sys2Proof.Machine.execVabs g b s
  | .vneg g b => Sys2Proof.Machine.execVneg g b s
  | .vand g b => Sys2Proof.Machine.execVand g b s
  | .vor g b => Sys2Proof.Machine.execVor g b s
  | .vxor g b => Sys2Proof.Machine.execVxor g b s
  | .vshl g b => Sys2Proof.Machine.execVshl g b s
  | .vshr g b => Sys2Proof.Machine.execVshr g b s
  | .vcmp g b => Sys2Proof.Machine.execVcmp g b s
  | .vsel g b => Sys2Proof.Machine.execVsel g b s
  | .vcvt g b => Sys2Proof.Machine.execVcvt g b s
  | .vquant g b => Sys2Proof.Machine.execVquant g b s
  | .vdeq g b => Sys2Proof.Machine.execVdeq g b s
  | .vexp2 g b => Sys2Proof.Machine.execVexp2 g b s
  | .vlog2 g b => Sys2Proof.Machine.execVlog2 g b s
  | .vrcp g b => Sys2Proof.Machine.execVrcp g b s
  | .vrsq g b => Sys2Proof.Machine.execVrsq g b s
  | .vsumr g b => Sys2Proof.Machine.execVsumr g b s
  | .vmaxr g b => Sys2Proof.Machine.execVmaxr g b s
  | .vdot g b => Sys2Proof.Machine.execVdot g b s
  | .vshuf g b => Sys2Proof.Machine.execVshuf g b s
  | .vbcast g b => Sys2Proof.Machine.execVbcast g b s
  | .vslide g b => Sys2Proof.Machine.execVslide g b s
  | .viota g b => Sys2Proof.Machine.execViota g b s
  | .vcompr g b => Sys2Proof.Machine.execVcompr g b s
  | .vpart g b => Sys2Proof.Machine.execVpart g b s
  | .vtopk g b => Sys2Proof.Machine.execVtopk g b s
  | .vmovs g b => Sys2Proof.Machine.execVmovs g b s
  | .vins g b => Sys2Proof.Machine.execVins g b s
  | .nopMatrix g body => Sys2Proof.Machine.execNopMatrix g body s
  | .mzero g b => Sys2Proof.Machine.execMzero g b s
  | .manchor g b => Sys2Proof.Machine.execManchor g b s
  | .mma g b => Sys2Proof.Machine.execMma g b s
  | .mmat g b => Sys2Proof.Machine.execMmat g b s
  | .mmaw g b => Sys2Proof.Machine.execMmaw g b s
  | .mread g b => Sys2Proof.Machine.execMread g b s
  | .mstat g b => Sys2Proof.Machine.execMstat g b s
  | .mclr g b => Sys2Proof.Machine.execMclr g b s
  | .tidset g b => Sys2Proof.Machine.execTidset g b s
  | .tidstep g b => Sys2Proof.Machine.execTidstep g b s
  | .tidstepSet g b => Sys2Proof.Machine.execTidstepSet g b s
  | .lrzero g b => Sys2Proof.Machine.execLrzero g b s
  | .lrset g b => Sys2Proof.Machine.execLrset g b s
  | .lradd g b => Sys2Proof.Machine.execLradd g b s
  | .lrscale g b => Sys2Proof.Machine.execLrscale g b s
  | .lrmul g b => Sys2Proof.Machine.execLrmul g b s
  | .lrmuld g b => Sys2Proof.Machine.execLrmuld g b s
  | .lrtrunc g b => Sys2Proof.Machine.execLrtrunc g b s
  | .lrdense g b => Sys2Proof.Machine.execLrdense g b s
  | .lrcomp g b => Sys2Proof.Machine.execLrcomp g b s
  | .lrapply g b => Sys2Proof.Machine.execLrapply g b s
  | .lrrank g b => Sys2Proof.Machine.execLrrank g b s
  | .nopLoad g body => Sys2Proof.Machine.execNopLoad g body s
  | .ld g b => Sys2Proof.Machine.execLd g b s
  | .lda g b => Sys2Proof.Machine.execLda g b s
  | .lds g b => Sys2Proof.Machine.execLds g b s
  | .vld g b => Sys2Proof.Machine.execVld g b s
  | .vlds g b => Sys2Proof.Machine.execVlds g b s
  | .tlds g b => Sys2Proof.Machine.execTlds g b s
  | .vgath g b => Sys2Proof.Machine.execVgath g b s
  | .capld g b => Sys2Proof.Machine.execCapld g b s
  | .lrlds g b => Sys2Proof.Machine.execLrlds g b s
  | .nopStore g body => Sys2Proof.Machine.execNopStore g body s
  | .st g b => Sys2Proof.Machine.execSt g b s
  | .stl g b => Sys2Proof.Machine.execStl g b s
  | .sts g b => Sys2Proof.Machine.execSts g b s
  | .vst g b => Sys2Proof.Machine.execVst g b s
  | .vsts g b => Sys2Proof.Machine.execVsts g b s
  | .tsts g b => Sys2Proof.Machine.execTsts g b s
  | .vscat g b => Sys2Proof.Machine.execVscat g b s
  | .capst g b => Sys2Proof.Machine.execCapst g b s
  | .atom g b => Sys2Proof.Machine.execAtom g b s
  | .atoms g b => Sys2Proof.Machine.execAtoms g b s
  | .lrsts g b => Sys2Proof.Machine.execLrsts g b s
  | .nopPump g body => Sys2Proof.Machine.execNopPump g body s
  | .pcopy g b => Sys2Proof.Machine.execPcopy g b s
  | .pfill g b => Sys2Proof.Machine.execPfill g b s
  | .pgath g b => Sys2Proof.Machine.execPgath g b s
  | .pscat g b => Sys2Proof.Machine.execPscat g b s
  | .pdecl g b => Sys2Proof.Machine.execPdecl g b s
  | .pflushx g b => Sys2Proof.Machine.execPflushx g b s
  | .kvappend g b => Sys2Proof.Machine.execKvappend g b s
  | .kvattn g b => Sys2Proof.Machine.execKvattn g b s
  | .kvscore g b => Sys2Proof.Machine.execKvscore g b s
  | .kvseal g b => Sys2Proof.Machine.execKvseal g b s
  | .kvcompact g b => Sys2Proof.Machine.execKvcompact g b s
  | .kvfork g b => Sys2Proof.Machine.execKvfork g b s
  | .kvforkNew g b => Sys2Proof.Machine.execKvforkNew g b s
  | .kvfree g b => Sys2Proof.Machine.execKvfree g b s
  | .kvpin g b => Sys2Proof.Machine.execKvpin g b s
  | .kvwin g b => Sys2Proof.Machine.execKvwin g b s
  | .kvstat g b => Sys2Proof.Machine.execKvstat g b s
  | .colar g b => Sys2Proof.Machine.execColar g b s
  | .colrs g b => Sys2Proof.Machine.execColrs g b s
  | .colag g b => Sys2Proof.Machine.execColag g b s
  | .colbc g b => Sys2Proof.Machine.execColbc g b s
  | .colstat g b => Sys2Proof.Machine.execColstat g b s
  | .stmget g b => Sys2Proof.Machine.execStmget g b s
  | .stmstat g b => Sys2Proof.Machine.execStmstat g b s
  | .wjopen g b => Sys2Proof.Machine.execWjopen g b s
  | .wjwrite g b => Sys2Proof.Machine.execWjwrite g b s
  | .wjcommit g b => Sys2Proof.Machine.execWjcommit g b s
  | .wjabort g b => Sys2Proof.Machine.execWjabort g b s
  | .wjstat g b => Sys2Proof.Machine.execWjstat g b s
  | .nopSync g body => Sys2Proof.Machine.execNopSync g body s
  | .br g b => Sys2Proof.Machine.execBr g b s
  | .brl g b => Sys2Proof.Machine.execBrl g b s
  | .fence g b => Sys2Proof.Machine.execFence g b s
  | .cbset g b => Sys2Proof.Machine.execCbset g b s
  | .cbwait g b => Sys2Proof.Machine.execCbwait g b s
  | .cbspace g b => Sys2Proof.Machine.execCbspace g b s
  | .cbadvProduce g b => Sys2Proof.Machine.execCbadvProduce g b s
  | .cbadvConsume g b => Sys2Proof.Machine.execCbadvConsume g b s
  | .sigwait g b => Sys2Proof.Machine.execSigwait g b s
  | .sigadd g b => Sys2Proof.Machine.execSigadd g b s
  | .jobraise g b => Sys2Proof.Machine.execJobraise g b s
  | .jobpost g b => Sys2Proof.Machine.execJobpost g b s
  | .jobwait g b => Sys2Proof.Machine.execJobwait g b s
  | .bar g b => Sys2Proof.Machine.execBar g b s
  | .launch g b => Sys2Proof.Machine.execLaunch g b s
  | .launchNb g b => Sys2Proof.Machine.execLaunchNb g b s
  | .evread g b => Sys2Proof.Machine.execEvread g b s
  | .evwait g b => Sys2Proof.Machine.execEvwait g b s
  | .chk g b => Sys2Proof.Machine.execChk g b s
  | .rplw g b => Sys2Proof.Machine.execRplw g b s
  | .tickwait g b => Sys2Proof.Machine.execTickwait g b s
  | .regionBegin => Sys2Proof.Machine.execRegionBegin s
  | .regionCommit => Sys2Proof.Machine.execRegionCommit s
  | .preemptionPoint => Sys2Proof.Machine.execPreemptionPoint s
  | .commitStageDeparture tile ctx => Sys2Proof.Machine.execCommitStageDeparture tile ctx s
  | .engineOperationComplete tile e => Sys2Proof.Machine.execEngineOperationComplete tile e s
  | .waitRelease tile ctx => Sys2Proof.Machine.execWaitRelease tile ctx s
  | .systemTrap tile ctx r => Sys2Proof.Machine.execSystemTrap tile ctx r s
  | .eventRecordPost dest r => Sys2Proof.Machine.execEventRecordPost dest r s
  | .timingErrorReplay site => Sys2Proof.Machine.execTimingErrorReplay site s
  | .stormPeriodEnd island => Sys2Proof.Machine.execStormPeriodEnd island s
  | .preemptionRequestDelivery tile ctx => Sys2Proof.Machine.execPreemptionRequestDelivery tile ctx s
  | .forcedPreemption tile ctx => Sys2Proof.Machine.execForcedPreemption tile ctx s
  | .contextSave tile ctx => Sys2Proof.Machine.execContextSave tile ctx s
  | .contextResume queue tile ctx => Sys2Proof.Machine.execContextResume queue tile ctx s
  | .featureMigration tile ctx bit => Sys2Proof.Machine.execFeatureMigration tile ctx bit s
  | .pumpDelivery cmd bytes => Sys2Proof.Machine.execPumpDelivery cmd bytes s
  | .pumpCommandComplete cmd => Sys2Proof.Machine.execPumpCommandComplete cmd s
  | .atomicHomePerform slice => Sys2Proof.Machine.execAtomicHomePerform slice s
  | .wideVariantLaunch gang => Sys2Proof.Machine.execWideVariantLaunch gang s
  | .kvCommandResolve cmd => Sys2Proof.Machine.execKvCommandResolve cmd s
  | .compactionJob die => Sys2Proof.Machine.execCompactionJob die s
  | .compactionInstall die => Sys2Proof.Machine.execCompactionInstall die s
  | .spillReadback asid obj block => Sys2Proof.Machine.execSpillReadback asid obj block s
  | .streamTokenArrival message => Sys2Proof.Machine.execStreamTokenArrival message s
  | .tick arm => Sys2Proof.Machine.execTick arm s
  | .tickWakeLead arm => Sys2Proof.Machine.execTickWakeLead arm s
  | .holdLimitExpiry cmd => Sys2Proof.Machine.execHoldLimitExpiry cmd s
  | .stmgetResolve cmd => Sys2Proof.Machine.execStmgetResolve cmd s
  | .stepEnd arm => Sys2Proof.Machine.execStepEnd arm s
  | .clockShareWindow island => Sys2Proof.Machine.execClockShareWindow island s
  | .collectiveAccept news => Sys2Proof.Machine.execCollectiveAccept news s
  | .versionAgreement group held same => Sys2Proof.Machine.execVersionAgreement group held same s
  | .chunkReduced group chunk contributions => Sys2Proof.Machine.execChunkReduced group chunk contributions s
  | .chunkBroadcastComplete group chunk => Sys2Proof.Machine.execChunkBroadcastComplete group chunk s
  | .collectiveRecovery group version held unfinished => Sys2Proof.Machine.execCollectiveRecovery group version held unfinished s
  | .collectiveTimeout news => Sys2Proof.Machine.execCollectiveTimeout news s
  | .straitPeerDetect port => Sys2Proof.Machine.execStraitPeerDetect port s
  | .identityFlit port pkg peerPort versions => Sys2Proof.Machine.execIdentityFlit port pkg peerPort versions s
  | .straitUp port => Sys2Proof.Machine.execStraitUp port s
  | .straitDown port => Sys2Proof.Machine.execStraitDown port s
  | .flitCrcRetry port again => Sys2Proof.Machine.execFlitCrcRetry port again s
  | .virtualLaneStopGo port lane free => Sys2Proof.Machine.execVirtualLaneStopGo port lane free s
  | .linkChangeFlood port news => Sys2Proof.Machine.execLinkChangeFlood port news s
  | .ptpSync offset grandmaster source => Sys2Proof.Machine.execPtpSync offset grandmaster source s
  | .announceTimeout grandmaster => Sys2Proof.Machine.execAnnounceTimeout grandmaster s
  | .ethernetFrameReceive port vlan kind priority bytes => Sys2Proof.Machine.execEthernetFrameReceive port vlan kind priority bytes s
  | .congestionNotification qp => Sys2Proof.Machine.execCongestionNotification qp s
  | .rateRecovery qp => Sys2Proof.Machine.execRateRecovery qp s
  | .rdmaWrite qp obj offset data => Sys2Proof.Machine.execRdmaWrite qp obj offset data s
  | .rdmaWriteWithImmediate qp obj offset data imm => Sys2Proof.Machine.execRdmaWriteWithImmediate qp obj offset data imm s
  | .rdmaRead qp obj offset length => Sys2Proof.Machine.execRdmaRead qp obj offset length s
  | .notifyKick queue => Sys2Proof.Machine.execNotifyKick queue s
  | .pendingKickService => Sys2Proof.Machine.execPendingKickService s
  | .launchGraph queue => Sys2Proof.Machine.execLaunchGraph queue s
  | .signalWrite queue => Sys2Proof.Machine.execSignalWrite queue s
  | .signalAdd queue => Sys2Proof.Machine.execSignalAdd queue s
  | .wait queue => Sys2Proof.Machine.execWait queue s
  | .copy queue => Sys2Proof.Machine.execCopy queue s
  | .barrier queue => Sys2Proof.Machine.execBarrier queue s
  | .lease queue projected => Sys2Proof.Machine.execLease queue projected s
  | .timedArm queue => Sys2Proof.Machine.execTimedArm queue s
  | .timedDisarm queue => Sys2Proof.Machine.execTimedDisarm queue s
  | .flushExport queue => Sys2Proof.Machine.execFlushExport queue s
  | .invalidate queue => Sys2Proof.Machine.execInvalidate queue s
  | .regionCreate queue => Sys2Proof.Machine.execRegionCreate queue s
  | .regionAlter queue => Sys2Proof.Machine.execRegionAlter queue s
  | .regionDestroy queue => Sys2Proof.Machine.execRegionDestroy queue s
  | .statement queue => Sys2Proof.Machine.execStatement queue s
  | .nodeDispatch => Sys2Proof.Machine.execNodeDispatch s
  | .nodeComplete gang => Sys2Proof.Machine.execNodeComplete gang s
  | .instanceEnd inst => Sys2Proof.Machine.execInstanceEnd inst s
  | .queueTeardown queue => Sys2Proof.Machine.execQueueTeardown queue s
  | .queueDrained queue => Sys2Proof.Machine.execQueueDrained queue s
  | .regenerationStart asid obj page => Sys2Proof.Machine.execRegenerationStart asid obj page s
  | .translationWalk tile asid obj offset => Sys2Proof.Machine.execTranslationWalk tile asid obj offset s
  | .islandIdle island => Sys2Proof.Machine.execIslandIdle island s
  | .islandIdleExit island => Sys2Proof.Machine.execIslandIdleExit island s
  | .islandPark island => Sys2Proof.Machine.execIslandPark island s
  | .islandOff island => Sys2Proof.Machine.execIslandOff island s
  | .islandWake island => Sys2Proof.Machine.execIslandWake island s
  | .islandWakeComplete island badParity => Sys2Proof.Machine.execIslandWakeComplete island badParity s
  | .resumeTrigger tile ctx => Sys2Proof.Machine.execResumeTrigger tile ctx s
  | .driverWakeRequest islands => Sys2Proof.Machine.execDriverWakeRequest islands s
  | .cisternRetain slice => Sys2Proof.Machine.execCisternRetain slice s
  | .cisternWake slice => Sys2Proof.Machine.execCisternWake slice s
  | .cisternOffRequest slice => Sys2Proof.Machine.execCisternOffRequest slice s
  | .railSettled rail => Sys2Proof.Machine.execRailSettled rail s
  | .brownOut loss => Sys2Proof.Machine.execBrownOut loss s
  | .powerOnReset => Sys2Proof.Machine.execPowerOnReset s
  | .islandSelfTestDone island pass => Sys2Proof.Machine.execIslandSelfTestDone island pass s
  | .lpddr6TrainingDone => Sys2Proof.Machine.execLpddr6TrainingDone s
  | .wellScrub tile scrub => Sys2Proof.Machine.execWellScrub tile scrub s
  | .journalApply tile => Sys2Proof.Machine.execJournalApply tile s
  | .accountingTick => Sys2Proof.Machine.execAccountingTick s
  | .meterIntegration rails input failed => Sys2Proof.Machine.execMeterIntegration rails input failed s
  | .leaseExpiry part => Sys2Proof.Machine.execLeaseExpiry part s
  | .leaseRevoke part projected => Sys2Proof.Machine.execLeaseRevoke part projected s
  | .heatRefresh sensors => Sys2Proof.Machine.execHeatRefresh sensors s
  | .firmwareTakeover => Sys2Proof.Machine.execFirmwareTakeover s
  | .mirrorEntry => Sys2Proof.Machine.execMirrorEntry s
  | .update slot => Sys2Proof.Machine.execUpdate slot s
  | .roleSwap => Sys2Proof.Machine.execRoleSwap s
  | .fwUpdateFail => Sys2Proof.Machine.execFwUpdateFail s
  | .load asid obj offset => Sys2Proof.Machine.execLoad asid obj offset s
  | .attest nonce => Sys2Proof.Machine.execAttest nonce s
  | .confirm request => Sys2Proof.Machine.execConfirm request s
  | .heat => Sys2Proof.Machine.execHeat s
  | .telemetry => Sys2Proof.Machine.execTelemetry s
  | .versions => Sys2Proof.Machine.execVersions s
  | .queueTableWrite queue entry => Sys2Proof.Machine.execQueueTableWrite queue entry s
  | .asidTableWrite asid entry => Sys2Proof.Machine.execAsidTableWrite asid entry s
  | .serviceEntryWrite part entry => Sys2Proof.Machine.execServiceEntryWrite part entry s
  | .powerEntryWrite part entry => Sys2Proof.Machine.execPowerEntryWrite part entry s
  | .groupEntryWrite group entry => Sys2Proof.Machine.execGroupEntryWrite group entry s
  | .streamDescriptorWrite stream entry => Sys2Proof.Machine.execStreamDescriptorWrite stream entry s
  | .ownerKeyWrite slot key request => Sys2Proof.Machine.execOwnerKeyWrite slot key request s
  | .partitionEntryWrite part entry request => Sys2Proof.Machine.execPartitionEntryWrite part entry request s
  | .lotterySeedWrite seed => Sys2Proof.Machine.execLotterySeedWrite seed s
  | .vlanConfig port ids => Sys2Proof.Machine.execVlanConfig port ids s
  | .portRateSet port gbit => Sys2Proof.Machine.execPortRateSet port gbit s
  | .ptpConfig domain delay transport => Sys2Proof.Machine.execPtpConfig domain delay transport s
  | .straitTrainRequest train => Sys2Proof.Machine.execStraitTrainRequest train s
  | .straitDownRequest port => Sys2Proof.Machine.execStraitDownRequest port s
  | .autoNegotiation port gbit => Sys2Proof.Machine.execAutoNegotiation port gbit s
  | .queuePairBinding qp asid role => Sys2Proof.Machine.execQueuePairBinding qp asid role s

end Sys2Proof.Machine
end

