-- ==== Sys2Proof/Machine/Footprint.lean ====
section
/-! DEFINITION. What an operation reads and writes, as the interlocks of the issue stage see it:
spec/01_tile_execution.md R19 to R24, spec/03_encoding.md R72 to R81, spec/04_scalar_control.md R97 and R120,
spec/05_vector.md R129, spec/06_matrix.md R155, R160 and R425, spec/07_low_rank.md R170. -/

namespace Sys2Proof.Machine

/-- A register by class (0 s, 1 p, 2 a, 3 b, 4 h) and number. -/
abbrev Reg := Nat × Nat

/-- What an operation touches. -/
structure Foot where
  /-- the engine whose queue it enters; none: it is complete when its bundle issues -/
  eng : Option Engine := none
  reads : List Range := []
  writes : List Range := []
  /-- registers it captures at issue -/
  inp : List Reg := []
  /-- registers it writes -/
  out : List Reg := []
  tids : List Nat := []
  tidset : Bool := false
  trapper : Bool := false
  namesK : Bool := false
  flags : Bool := false
  /-- the class of its access to memory (R213); none: it makes none -/
  cls : Option Nat := none
  isLoad : Bool := false
  /-- a scratchpad store or atomic, which performs where it executes (R193) -/
  atOnce : Bool := false
  /-- a release that performs where it executes: an ATOMS with SCOPE 1 (R203, R234) -/
  release : Bool := false
deriving DecidableEq, Repr

def sR (n : Nat) : Reg := (0, n)
def pR (n : Nat) : Reg := (1, n)
def aR (n : Nat) : Reg := (2, n)
def bR (n : Nat) : Reg := (3, n)
def hR (n : Nat) : Reg := (4, n)

/-- The latches as bytes of their own (R22): their order is that of R74. -/
def latchRange (k : Nat) : Range := { space := 3, lo := k, len := 1 }
/-- Window bytes. -/
def winRange (lo len : Nat) : Range := { lo := lo, len := len }
/-- The rank field of a K register (R170). -/
def rankRange (k : Nat) : Range := { space := 4, lo := k, len := 1 }

/-! Scalar slot. -/

/-- s[rs2] of the SR form. -/
def inRs2 : ScalarBody → List Reg
  | .sr _ _ rs2 _ => [sR rs2.toNat]
  | .si _ _ _ _ => []

/-- An operation of the scalar slot: captured registers and the one it writes; a result is latched in ls (R24). -/
def scalarFoot (inp out : List Reg) : Foot :=
  { inp := inp, out := out, writes := if out.isEmpty then [] else [latchRange 0] }

/-- The integer operations. -/
def intFoot (b : ScalarBody) : Foot := scalarFoot (sR (sbRs1 b).toNat :: inRs2 b) [sR (sbRd b).toNat]
/-- The operations on an a-register and a second operand. -/
def addrFoot (b : ScalarBody) : Foot := scalarFoot (aR (sbRs1 b).toNat :: inRs2 b) [aR (sbRd b).toNat]
/-- The operations on predicates. -/
def predFoot (b : ScalarBody) : Foot := scalarFoot [pR (sbRs1 b).toNat, pR (sbRs2 b).toNat] [pR (sbRd b).toNat]
/-- The registers of MOV by its MODE. -/
def movFoot (b : ScalarBody) : Foot :=
  let d := (sbRd b).toNat
  let r := (sbRs1 b).toNat
  match bitsOf (sbAux b) 2 0 with
  | 0 => scalarFoot [sR r] [sR d]
  | 1 => scalarFoot [sR r] [pR d]
  | 2 => scalarFoot [pR r] [sR d]
  | 3 => scalarFoot [pR r] [pR d]
  | _ => scalarFoot [bR r] [sR d]

/-! Vector slots. -/

/-- The operand file of the executing unit. -/
def fileSpace (g : Guard) : Nat := if unitB g then 2 else 1

/-- The bytes of a vector source. -/
def vsrcRange (e : ViewEnv) (g : Guard) (r : BitVec 8) : List Range :=
  match ropLevel r with
  | 0 => [winRange (e.start .v (ropIndex r)) 256]
  | 1 => [{ space := fileSpace g, lo := 256 * ropIndex r, len := 256 }]
  | 2 => [latchRange (ropIndex r)]
  | _ => []

/-- The bytes of `n` successive vector destinations. -/
def vdstRange (e : ViewEnv) (g : Guard) (r : BitVec 8) (n : Nat) : List Range :=
  match ropLevel r with
  | 0 => [winRange (e.start .v (ropIndex r)) (256 * n)]
  | _ => [{ space := fileSpace g, lo := 256 * ropIndex r, len := 256 * n }]

/-- The engine of a vector slot. -/
def vecEngine (g : Guard) : Engine := if unitB g then .vectorB else .vectorA

/-- The latch that a vector operation writes; none in a marked slot (R128, R310). -/
def vecLatch (g : Guard) : List Range := if g.dup then [] else [latchRange (if unitB g then 2 else 1)]

/-- A vector operation with `nsrc` sources and `ndst` destinations. -/
def vecFoot (x : Ctx) (g : Guard) (b : VectorBody) (nsrc ndst : Nat) : Foot :=
  { eng := some (vecEngine g),
    reads := (([b.va, b.vb, b.vc].take nsrc).flatMap (vsrcRange x.viewEnv g)),
    writes := vdstRange (x.dstEnv g) g b.vd ndst ++ vecLatch g, flags := true }

/-! Matrix slot. -/

/-- A range of a view. -/
def viewRange (e : ViewEnv) (vk : ViewKind) (r : BitVec 8) (n : Nat) : Range := winRange (e.start vk (ropIndex r)) n
/-- The accumulator records that `n` bytes of C views from operand r carry (R160). -/
def accRange (e : ViewEnv) (r : BitVec 8) (n : Nat) : Range :=
  { space := 5, lo := e.start .c (ropIndex r) / 4096, len := n / 4096 }
/-- A C operand with its record. -/
def cRanges (e : ViewEnv) (r : BitVec 8) (n : Nat) : List Range := [viewRange e .c r n, accRange e r n]
/-- A K operand with its rank field. -/
def kRanges (e : ViewEnv) (r : BitVec 8) : List Range := [viewRange e .k r (e.unit .k), rankRange (ropIndex r)]
/-- The latch of the matrix engine; none in a marked slot. -/
def matLatch (g : Guard) : List Range := if g.dup then [] else [latchRange 3]

/-- An operation of the matrix engine. -/
def matFoot (reads writes : List Range) : Foot := { eng := some .matrix, reads := reads, writes := writes }

/-- MMA, MMAT and MMAW: `more` the weights from registers, `n` the bytes of the accumulator. -/
def mmaFoot (x : Ctx) (g : Guard) (b : MatrixBody) (more : List Range) (n : Nat) (tids : List Nat) : Foot :=
  let d := cRanges (x.dstEnv g) b.dst n
  { matFoot (viewRange x.viewEnv .t b.srcA 1024 :: more ++ d) (d ++ matLatch g) with
    tids := tids ++ if b.aux.getLsbD 15 then [bitsOf b.aux 5 0] else [] }

/-- A low-rank operation with K destination: `src` what it reads. -/
def lrFoot (x : Ctx) (g : Guard) (b : MatrixBody) (src : List Range) (trapper : Bool) : Foot :=
  { matFoot src (kRanges x.viewEnv b.dst ++ matLatch g) with trapper := trapper, namesK := true }

/-! Memory slots. -/

/-- A load: `dst` the bytes it writes, `out` the registers. -/
def loadFoot (b : MemBody) (reads dst : List Range) (out : List Reg) : Foot :=
  { eng := some .load, reads := reads, writes := dst ++ [latchRange 4], inp := [aR b.areg.toNat], out := out,
    cls := some b.cls.toNat, isLoad := true }

/-- A store: `src` the bytes it reads, `inp` the registers beside the capability. -/
def storeFoot (b : MemBody) (src : List Range) (inp out : List Reg) : Foot :=
  { eng := some .store, reads := src, inp := aR b.areg.toNat :: inp, out := out, cls := some b.cls.toNat }

/-- A scratchpad store. -/
def scratchFoot (b : MemBody) (src : List Range) (inp out : List Reg) : Foot :=
  { storeFoot b src inp out with atOnce := true }

/-- The index view of VGATH and VSCAT. -/
def idxRange (e : ViewEnv) (b : MemBody) : Range := winRange (e.start .v (bitsOf b.off24 21 16)) 256

/-- The operands of ATOM and ATOMS. -/
def atomIn (b : MemBody) : List Reg :=
  sR (bitsOf b.data 5 0) :: if atomOp b = 9 then [sR (bitsOf b.data 5 0 + 1)] else []

/-- A handle that may be named. -/
def heIn : Option Nat → List Reg
  | none => []
  | some h => [hR h]

/-! Pump slot. -/

/-- Which of AREG0 and AREG1 a pump operation uses (R204, R249, R291, R384). -/
def pumpCaps (i : Instr) (b : PumpBody) : List Reg :=
  let a0 := aR b.areg0.toNat
  let a1 := aR b.areg1.toNat
  let sg := if pumpSg b then [a1] else []
  match i with
  | .pcopy .. | .kvappend .. | .kvattn .. | .kvscore .. | .kvfork .. | .kvforkNew .. | .kvstat .. => [a0, a1]
  | .pdecl .. | .kvcompact .. | .colstat .. | .stmget .. | .stmstat .. | .wjstat .. => [a0]
  | .wjopen .. | .wjcommit .. | .wjabort .. => sg
  | _ => a0 :: sg

/-- A pump command. -/
def pumpFoot (i : Instr) (b : PumpBody) : Foot :=
  { eng := some .pumpPort,
    inp := pumpCaps i b ++ [sR b.s0.toNat, sR b.s1.toNat] ++
      (match i with
        | .kvattn .. => [hR b.handle.toNat]
        | _ => if pumpHe b then [hR b.handle.toNat] else []),
    out := match i with
      | .stmget .. => [pR (bitsOf b.aux 7 4)]
      | _ => [],
    tids := match i with
      | .wjopen .. => [bitsOf b.aux 13 8]
      | _ => [],
    cls := some b.cls.toNat }

/-! Sync slot. -/

/-- A capability and s[A], s[B] of a sync operation (R211). -/
def syCapIn (b : SyncBody) : Reg := aR (bitsOf b 46 43)
def syA (b : SyncBody) : Reg := sR (bitsOf b 42 37)
def syB (b : SyncBody) : Reg := sR (bitsOf b 36 31)

/-- An operation of the sync slot, which enters the sync queue (R19). -/
def syncFoot (inp out : List Reg) : Foot := { eng := some .sync, inp := inp, out := out }

/-! The footprint of every operation. -/

/-- What an operation touches, its predicate register apart. -/
def bodyFoot (x : Ctx) : Instr → Foot
  | .add _ b | .sub _ b | .mul _ b | .mulh _ b | .div _ b | .rem _ b | .and _ b | .or _ b | .xor _ b | .andn _ b
  | .shl _ b | .shr _ b | .sra _ b | .min _ b | .max _ b | .clz _ b | .popc _ b => intFoot b
  | .li _ b => scalarFoot [] [sR (sbRd b).toNat]
  | .lih _ b => scalarFoot [sR (sbRd b).toNat] [sR (sbRd b).toNat]
  | .mov _ b => movFoot b
  | .sel _ b => scalarFoot [sR (sbRs1 b).toNat, sR (sbRs2 b).toNat, pR (bitsOf (sbAux b) 3 0)] [sR (sbRd b).toNat]
  | .cmp _ b => scalarFoot (sR (sbRs1 b).toNat :: inRs2 b) [pR (sbRd b).toNat]
  | .pand _ b | .por _ b | .pxor _ b | .pandn _ b => predFoot b
  | .pset _ b => scalarFoot [sR (sbRs1 b).toNat] [pR (sbRd b).toNat]
  | .pcnt _ b => scalarFoot [pR (sbRs1 b).toNat] [sR (sbRd b).toNat]
  | .aadd _ b | .aset _ b | .anarrow _ b | .adrop _ b => addrFoot b
  | .amov _ b => scalarFoot [aR (sbRs1 b).toNat] [aR (sbRd b).toNat]
  | .aget _ b => scalarFoot [aR (sbRs1 b).toNat] [sR (sbRd b).toNat]
  | .achk _ b => scalarFoot [aR (sbRs1 b).toNat, sR (sbRs2 b).toNat] [pR (sbRd b).toNat]
  | .loop _ b => scalarFoot [sR (sbRs1 b).toNat] []
  | .ldelta _ b => scalarFoot (inRs2 b) []
  | .lidx _ b | .srr _ b | .rdtime _ b => scalarFoot [] [sR (sbRd b).toNat]
  | .view _ b => scalarFoot (sR (sbRs1 b).toNat :: inRs2 b) []
  | .srw _ b | .srWinWrite _ b | .srPrivWrite _ b => scalarFoot [sR (sbRs1 b).toNat] []
  | .pbr _ b => scalarFoot [sR (sbRs1 b).toNat] [bR (sbRd b).toNat]
  | .feat _ b => scalarFoot [] [pR (sbRd b).toNat]
  | .vadd g b | .vsub g b | .vmul g b | .vmin g b | .vmax g b | .vand g b | .vor g b | .vxor g b | .vshl g b
  | .vshr g b | .vslide g b | .vsumr g b => vecFoot x g b 2 1
  | .vfma g b | .vdot g b | .vshuf g b => vecFoot x g b 3 1
  | .vabs g b | .vneg g b | .vexp2 g b | .vlog2 g b | .vrcp g b | .vrsq g b | .vmaxr g b | .vbcast g b | .viota g b =>
    vecFoot x g b 1 1
  | .vcmp g b => { vecFoot x g b 2 0 with writes := vecLatch g, out := [pR (bitsOf b.vd 3 0)] }
  | .vsel g b => { vecFoot x g b 2 1 with inp := [pR (bitsOf b.vc 3 0)] }
  | .vcvt g b => { vecFoot x g b 1 1 with
      tids := if b.type.toNat = 9 ∨ bitsOf b.vb 3 0 = 9 then [bitsOf b.aux 5 0] else [] }
  | .vquant g b | .vdeq g b => { vecFoot x g b 2 1 with tids := [bitsOf b.aux 5 0] }
  | .vcompr g b => { vecFoot x g b 1 1 with out := [sR (bitsOf b.vc 5 0)] }
  | .vpart g b => { vecFoot x g b 1 2 with out := [sR (bitsOf b.vc 5 0)] }
  | .vtopk g b =>
    let f := vecFoot x g b 2 2
    { f with reads := f.reads ++ if vopt b then vsrcRange x.viewEnv g b.vc ++ vsrcRange x.viewEnv g (b.vc + 1) else [] }
  | .vmovs g b => { vecFoot x g b 1 0 with writes := vecLatch g, out := [sR (bitsOf b.vd 5 0)],
                                           inp := if b.aux.getLsbD 10 then [sR (bitsOf b.vb 5 0)] else [] }
  | .vins g b => { vecFoot x g b 0 1 with
      inp := sR (bitsOf b.va 5 0) :: if b.aux.getLsbD 10 then [sR (bitsOf b.vb 5 0)] else [] }
  | .mzero g b => matFoot [] (cRanges (x.dstEnv g) b.dst (if b.aux.getLsbD 16 then 8192 else 4096) ++ matLatch g)
  | .manchor g b =>
    let d := cRanges (x.dstEnv g) b.dst (if b.aux.getLsbD 0 then 8192 else 4096)
    { matFoot d (d ++ matLatch g) with inp := [sR (bitsOf b.srcA 5 0)] }
  | .mma g b => mmaFoot x g b [] 4096 [b.tid.toNat]
  | .mmaw g b => mmaFoot x g b [] 8192 [b.tid.toNat]
  | .mmat g b => mmaFoot x g b [viewRange x.viewEnv .t b.srcB 2048] 4096 []
  | .mread g b =>
    let fp32 := decide (bitsOf b.aux 2 0 = 2)
    { matFoot (cRanges x.viewEnv b.srcA (if b.aux.getLsbD 7 then 8192 else 4096) ++
        if ropLevel b.srcB = 0 then [viewRange x.viewEnv .v b.srcB 256] else [])
        (viewRange (x.dstEnv g) (if fp32 then .v else .t) b.dst (if fp32 then 2048 else 1024) :: matLatch g) with
      tids := if bitsOf b.aux 2 0 = 3 then [b.tid.toNat] else [], flags := true }
  | .mstat g b => { matFoot [accRange x.viewEnv b.srcA 4096] (matLatch g) with
      out := [if bitsOf b.aux 1 0 = 0 then pR (bitsOf b.dst 3 0) else sR (bitsOf b.dst 5 0)] }
  | .mclr _ b => matFoot [] [accRange x.viewEnv b.dst 4096]
  | .tidset _ b => { matFoot [viewRange x.viewEnv .v b.srcA 64] [] with
      inp := (List.range 16).map aR, tids := [b.tid.toNat], tidset := true }
  | .tidstep _ b => { tids := [b.tid.toNat] }
  | .tidstepSet _ b => { tids := [b.tid.toNat], inp := [sR (bitsOf b.srcA 5 0), sR (bitsOf b.srcB 5 0)] }
  | .lrzero _ b => { matFoot [] [rankRange (ropIndex b.dst)] with namesK := true }
  | .lrset g b =>
    let r := bitsOf b.aux 6 0
    let src (s : BitVec 8) := if b.aux.getLsbD 15 then viewRange x.viewEnv .t s (256 * r) else viewRange x.viewEnv .v s (512 * r)
    lrFoot x g b [src b.srcA, src b.srcB] true
  | .lradd g b => lrFoot x g b (kRanges x.viewEnv b.srcA ++ kRanges x.viewEnv b.srcB) true
  | .lrscale g b => { lrFoot x g b (kRanges x.viewEnv b.srcA) false with inp := [sR (bitsOf b.srcB 5 0)] }
  | .lrmul g b => lrFoot x g b (kRanges x.viewEnv b.srcA ++ kRanges x.viewEnv b.srcB) false
  | .lrmuld g b => lrFoot x g b (viewRange x.viewEnv .t b.srcB 32768 :: kRanges x.viewEnv b.srcA) false
  | .lrtrunc g b => lrFoot x g b (kRanges x.viewEnv b.srcA) true
  | .lrdense g b => lrFoot x g b (kRanges x.viewEnv b.srcA) false
  | .lrcomp g b =>
    lrFoot x g b (if b.aux.getLsbD 0 then [viewRange x.viewEnv .t b.srcA 32768] else kRanges x.viewEnv b.srcA) true
  | .lrapply g b =>
    let d := cRanges x.viewEnv b.dst 16384
    { matFoot (viewRange x.viewEnv .t b.srcA 4096 :: kRanges x.viewEnv b.srcB ++ d) (d ++ matLatch g) with namesK := true }
  | .lrrank g b => { matFoot [rankRange (ropIndex b.srcA)] (matLatch g) with out := [sR (bitsOf b.dst 5 0)], namesK := true }
  | .ld _ b | .lda _ b | .lds _ b => loadFoot b [] [] [sR (bitsOf b.data 5 0)]
  | .vld _ b | .vlds _ b => loadFoot b [] [viewRange x.viewEnv .v b.data (memLen b)] []
  | .tlds _ b => loadFoot b [] [viewRange x.viewEnv .t b.data 1024] []
  | .vgath _ b => loadFoot b [idxRange x.viewEnv b] [viewRange x.viewEnv .v b.data (64 * memLen b)] []
  | .capld _ b => loadFoot b [] [] [aR (bitsOf b.data 3 0)]
  | .lrlds _ b => { loadFoot b [] (kRanges x.viewEnv b.data) [] with namesK := true }
  | .st _ b | .stl _ b => storeFoot b [] [sR (bitsOf b.data 5 0)] []
  | .sts _ b => scratchFoot b [] (sR (bitsOf b.data 5 0) :: heIn (stsHe b)) []
  | .vst _ b => storeFoot b [viewRange x.viewEnv .v b.data (memLen b)] [] []
  | .vsts _ b => scratchFoot b [viewRange x.viewEnv .v b.data (memLen b)] (heIn (stsHe b)) []
  | .tsts _ b => scratchFoot b [viewRange x.viewEnv .t b.data 1024] [] []
  | .vscat _ b =>
    { storeFoot b [idxRange x.viewEnv b, viewRange x.viewEnv .v b.data (64 * memLen b)] [] [] with
      atOnce := (x.src.getA b.areg.toNat).kind == kSCRATCH }
  | .capst _ b => storeFoot b [] [aR (bitsOf b.data 3 0)] []
  | .atom _ b => storeFoot b [] (atomIn b) [sR (bitsOf b.data 5 0)]
  | .atoms _ b =>
    { scratchFoot b [] (atomIn b ++ heIn (atomsHe b)) [sR (bitsOf b.data 5 0)] with release := decide (1 ≤ b.scope.toNat) }
  | .lrsts _ b => { scratchFoot b (kRanges x.viewEnv b.data) [] [] with namesK := true }
  | .br _ b => syncFoot [bR (bitsOf b 2 0)] []
  | .brl _ b => syncFoot [bR (bitsOf b 2 0)] [bR 7]
  | .fence .. | .bar .. | .rplw .. | .tickwait .. => syncFoot [] []
  | .cbset _ b => syncFoot [syA b, syB b] [hR (cbN b)]
  | .cbwait _ b | .cbspace _ b => syncFoot [hR (cbN b)] []
  | .cbadvProduce _ b | .cbadvConsume _ b => syncFoot [hR (cbN b)] [hR (cbN b)]
  | .sigwait _ b => syncFoot [syCapIn b, syB b] [syA b]
  | .sigadd _ b => syncFoot [syCapIn b, syB b] []
  | .jobraise _ b | .jobpost _ b => syncFoot [syCapIn b, syA b, syB b] []
  | .jobwait _ b | .launch _ b => syncFoot [syCapIn b] []
  | .launchNb _ b => syncFoot [syCapIn b] [pR (bitsOf b 3 0)]
  | .evread _ b =>
    { syncFoot [] [pR (bitsOf b 3 0)] with writes := [viewRange x.viewEnv .v (b.extractLsb' 7 8) 32] }
  | .evwait _ b => syncFoot [syA b] [pR (bitsOf b 3 0)]
  | .chk _ b =>
    let n := (match chkKindOf b with | .t => 1024 | .c => 4096 | _ => 256) * (bitsOf b 28 23 + 1)
    { syncFoot [] [] with
      reads := [viewRange x.viewEnv (chkKindOf b) (b.extractLsb' 39 8) n,
                viewRange x.viewEnv (chkKindOf b) (b.extractLsb' 31 8) n], trapper := true }
  | .pcopy g b => pumpFoot (.pcopy g b) b
  | .pfill g b => pumpFoot (.pfill g b) b
  | .pgath g b => pumpFoot (.pgath g b) b
  | .pscat g b => pumpFoot (.pscat g b) b
  | .pdecl g b => pumpFoot (.pdecl g b) b
  | .pflushx g b => pumpFoot (.pflushx g b) b
  | .kvappend g b => pumpFoot (.kvappend g b) b
  | .kvattn g b => pumpFoot (.kvattn g b) b
  | .kvscore g b => pumpFoot (.kvscore g b) b
  | .kvseal g b => pumpFoot (.kvseal g b) b
  | .kvcompact g b => pumpFoot (.kvcompact g b) b
  | .kvfork g b => pumpFoot (.kvfork g b) b
  | .kvforkNew g b => pumpFoot (.kvforkNew g b) b
  | .kvfree g b => pumpFoot (.kvfree g b) b
  | .kvpin g b => pumpFoot (.kvpin g b) b
  | .kvwin g b => pumpFoot (.kvwin g b) b
  | .kvstat g b => pumpFoot (.kvstat g b) b
  | .colar g b => pumpFoot (.colar g b) b
  | .colrs g b => pumpFoot (.colrs g b) b
  | .colag g b => pumpFoot (.colag g b) b
  | .colbc g b => pumpFoot (.colbc g b) b
  | .colstat g b => pumpFoot (.colstat g b) b
  | .stmget g b => pumpFoot (.stmget g b) b
  | .stmstat g b => pumpFoot (.stmstat g b) b
  | .wjopen g b => pumpFoot (.wjopen g b) b
  | .wjwrite g b => pumpFoot (.wjwrite g b) b
  | .wjcommit g b => pumpFoot (.wjcommit g b) b
  | .wjabort g b => pumpFoot (.wjabort g b) b
  | .wjstat g b => pumpFoot (.wjstat g b) b
  | _ => {}

/-- Whether an operation uses its predicate lane by lane (R72). -/
def laneWise : Instr → Bool
  | .vmovs .. => false
  | .vld .. | .vlds .. | .vgath .. | .vst .. | .vsts .. | .vscat .. => true
  | i => match slotFields i with
    | some f => f.cls == .vector
    | none => false

/-- Whether an operation is discarded (R72): its condition is bit 0 of its predicate, and is 0.
DEDUCED: notes/assumptions/16.md. -/
def State.discarded (s : State) (i : Instr) : Bool :=
  match slotFields i with
  | some f => !laneWise i && !s.cond f.g
  | none => false

/-- The footprint of an operation in a state whose registers are those it captures: a discarded one only reads its
predicate (R72). DEDUCED: notes/assumptions/17.md. -/
def State.foot (s : State) (i : Instr) : Foot :=
  match slotFields i with
  | none => {}
  | some f =>
    let p := pR f.g.pred.toNat
    if s.discarded i then { inp := [p] }
    else
      let r := bodyFoot s.me i
      { r with inp := p :: r.inp }

end Sys2Proof.Machine
end

