-- ==== Sys2Proof/Machine/Issue.lean ====
section
/-! DEFINITION. The issue of bundles: what holds a bundle back, the checks at issue, the choice among a tile's contexts,
the effect of a bundle as a whole, loops: spec/01_tile_execution.md R17 to R27, R32 to R37 and R424,
spec/03_encoding.md R70 and R84, spec/04_scalar_control.md R97, R108, R118 to R123, spec/08_memory_sync_isa.md R204,
R213 and R214. -/

namespace Sys2Proof.Machine

/-! The run-time checks at issue (R84, R194, R424). -/

/-- The checks that an operation makes at issue beside those of its encoding. -/
def runCheck (i : Instr) (s : State) : Except Stop Unit :=
  match i with
  | .loop _ b => checkLoop b s
  | .view _ b => checkView b s
  | .srr _ b => checkSrr b s
  | .srw _ b | .srWinWrite _ b | .srPrivWrite _ b => checkSrw b s
  | .pbr _ b => checkPbr b s
  | .trap _ b => checkTrap b s
  | .utret _ _ => checkUtret s
  | .eret _ _ => checkEret s
  | .mmaw _ _ => checkMmaw s
  | .tidstep _ b => checkTidstep b s
  | .tidstepSet _ b => checkTidstepSet b s
  | .lrzero _ _ | .lrset _ _ | .lradd _ _ | .lrscale _ _ | .lrmul _ _ | .lrmuld _ _ | .lrtrunc _ _ |
  .lrcomp _ _ | .lrapply _ _ | .lrrank _ _ => checkLr s
  | .lrdense _ _ => checkLrdense s
  | .ld g b | .lda g b | .vld g b => checkMemOp kindsGM [rR] g b s
  | .lds g b | .vlds g b => checkMemOp kindsS [rR] g b s
  | .tlds g b => checkTileRows [rR] g b s
  | .vgath .. | .vscat .. => .ok ()
  | .capld g b => checkMemOp kindsC [rR, rC] g b s
  | .lrlds g b => checkLrMem [rR] g b s
  | .st g b | .stl g b | .vst g b => checkMemOp kindsGM [rW] g b s
  | .sts g b | .vsts g b => checkSts g b s
  | .tsts g b => checkTileRows [rW] g b s
  | .capst g b => checkMemOp kindsC [rW, rC] g b s
  | .atom g b => checkAtom g b s
  | .atoms g b => checkAtoms g b s
  | .lrsts g b => checkLrMem [rW] g b s
  | .pcopy _ b => checkPcopy b s
  | .pfill _ b => checkPfill b s
  | .pgath _ b | .pscat _ b => checkProws b s
  | .pdecl _ b => checkPdecl b s
  | .pflushx _ b => checkPflushx b s
  | .kvappend _ b | .kvscore _ b => checkKvSource b s
  | .kvattn _ b => checkKvattn b s
  | .kvseal _ b | .kvfree _ b | .kvpin _ b | .kvwin _ b => checkKvSg b s
  | .kvcompact _ b => checkKvcompact b s
  | .kvfork _ b => checkKvfork b s
  | .kvforkNew _ b => checkKvforkNew b s
  | .kvstat _ b => checkKvstat b s
  | .colar _ b | .colrs _ b | .colag _ b | .colbc _ b => checkCol b s
  | .colstat _ b => checkColstat b s
  | .stmget _ b => checkStmget b s
  | .stmstat _ b => checkStmstat b s
  | .wjopen _ b | .wjcommit _ b | .wjabort _ b => checkWj b s
  | .wjwrite _ b => checkWjwrite b s
  | .wjstat _ b => checkWjstat b s
  | .cbwait _ b => checkCbwait b s
  | .cbspace _ b => checkCbspace b s
  | .cbadvProduce _ b | .cbadvConsume _ b => checkCbadv b s
  | .sigwait _ b => checkSy [rR] 8 b s
  | .sigadd _ b => checkSy [rW] 8 b s
  | .jobraise _ b | .jobpost _ b => checkJob b s
  | .jobwait _ b => checkSy [rR] 32 b s
  | .launch _ b => checkLaunch b s
  | .launchNb _ b => checkLaunchNb b s
  | .chk _ _ => checkChk s
  | .rplw _ _ => checkRplw s
  | .tickwait _ _ => checkTickwait s
  | _ => .ok ()

/-- The run-time checks of an operation; a discarded one makes none (R72). DEDUCED: notes/assumptions/16.md. -/
def State.runStop (s : State) (i : Instr) : Except Stop Unit :=
  if s.discarded i then .ok () else runCheck i s

/-! What holds a bundle back (R17 to R23, R97, R120, R129, R155, R170, R204, R213). -/

/-- Depth of an engine's queue (R19). -/
def queueDepth : Engine → Nat
  | .matrix => 8
  | .load => 16
  | .store => 16
  | _ => 4

/-- The pump commands of a context on their way from the commit stage (R34). -/
def Ctx.pumpEntries (x : Ctx) : List CommitEntry := x.commitQ.filter fun e => match e.op with
  | .pump _ => true
  | _ => false

/-- The commands in a tile's pump port: those that it has not passed on, and those that are to reach it from a commit
stage and no region holds (R19, R34). DEDUCED: notes/assumptions/29.md. -/
def State.portCount (s : State) (t : Nat) : Nat :=
  (s.core.cmds.filter fun m => m.tile == t && m.place == .port).length +
    ((List.range 4).flatMap fun c => (s.ctx t c).pumpEntries.filter fun e => !e.held).length

/-- The incomplete pump commands of a context (R204). -/
def State.cmdCount (s : State) (t c : Nat) : Nat :=
  (s.core.cmds.filter fun m => m.tile == t && m.ctx == c && m.owned).length + (s.ctx t c).pumpEntries.length

/-- Whether the queue of an operation's engine has room (R17, R19). DEDUCED: notes/assumptions/29.md. -/
def State.hasRoom (s : State) (t : Nat) (f : Foot) : Bool :=
  match f.eng with
  | none => true
  | some .pumpPort => decide (s.portCount t < 8)
  | some e => decide (((s.tile t).inflight.filter fun o => o.eng == e).length < queueDepth e)

/-- Whether two ranges share a byte. -/
def Range.meets (x y : Range) : Bool := x.space == y.space && decide (x.lo < y.lo + y.len) && decide (y.lo < x.lo + x.len)
/-- Whether a range of one list shares a byte with a range of another. -/
def anyMeet (xs ys : List Range) : Bool := xs.any fun x => ys.any fun y => x.meets y

/-- The three conflicts of R22 between an operation and an incomplete earlier one. DEDUCED: notes/assumptions/17.md. -/
def Foot.conflicts (f : Foot) (o : InFlight) : Bool :=
  anyMeet f.reads o.writes || anyMeet f.writes o.reads || anyMeet f.writes o.writes

/-- The registers that incomplete earlier operations of a context will write (R23, R97). -/
def State.pendingRegs (s : State) (t c : Nat) : List Reg :=
  ((s.tile t).inflight.filter fun o => o.ctx == c).flatMap InFlight.regs ++
    ((s.ctx t c).commitQ.filterMap fun e => match e.op with
      | .atomic _ _ _ _ _ rd _ => some (sR rd)
      | .cbadv _ h _ => some (hR h)
      | _ => none) ++
    (((s.tile t).syncQ.filter fun w => w.ctx == c).map fun w => match w.op with
      | .cbset h _ _ => hR h
      | .cbadv _ h _ => hR h) ++
    ((s.core.homeQ.filter fun h => h.tile == t && h.ctx == c).map fun h => sR h.rd) ++
    ((s.core.cmds.filter fun m => m.tile == t && m.ctx == c && m.owned && m.opc == 22 && !m.finished).map fun m =>
      pR (bitsOf m.body.aux 7 4))

/-- The slip limit (R20): a load slot, 16 or more bundles after the oldest bundle whose matrix operation has not started.
The operation at the head of the matrix queue has started. -/
def State.slips (s : State) (t c : Nat) (loads : Bool) : Bool :=
  loads && match ((s.tile t).inflight.filter fun o => o.eng == .matrix).tail.find? fun o => o.ctx == c with
    | some o => decide (o.bundle + 16 ≤ (s.ctx t c).bundleNo)
    | none => false

/-- Whether accesses of the classes of a FENCE that come before its bundle's end have not performed; with P, whether
such pump commands are incomplete (R213). What an open region holds is ordered by its commit.
DEDUCED: notes/assumptions/26.md. -/
def State.fenceOpen (s : State) (t c : Nat) (m : BitVec 16) (p : Bool) (n : Nat) : Bool :=
  let inMask (k : Nat) : Bool := decide (k < 16) && m.getLsbD k
  ((s.ctx t c).commitQ.any fun e => !e.held && decide (e.bundle ≤ n) && inMask e.cls) ||
    (s.core.homeQ.any fun h => h.tile == t && h.ctx == c && decide (h.bundle ≤ n)) ||
    ((s.tile t).inflight.any fun o => o.ctx == c && decide (o.bundle ≤ n) && (o.eng == .load || o.eng == .store) && inMask o.cls) ||
    (p && s.core.cmds.any fun k => k.tile == t && k.ctx == c && k.owned && decide (k.bundle ≤ n) && inMask k.body.cls.toNat)

/-- The FENCEs of a context that still hold later bundles. -/
def State.liveFences (s : State) (t c : Nat) : List (BitVec 16 × Bool × Nat) :=
  (s.ctx t c).fences.filter fun (m, p, n) => s.fenceOpen t c m p n

/-- Whether an access that performs where it executes must wait for what its context has in the commit stage or at a home:
stores of its class (R234 axiom 2), and every atomic, signal and job operation, whose result its own later accesses see
(axiom 1) and which may be an acquire (axiom 5). What a region holds it does not wait for (R33).
DEDUCED: notes/assumptions/26.md. -/
def State.loadWaits (s : State) (t c k : Nat) : Bool :=
  ((s.ctx t c).commitQ.any fun e => !e.held && (e.op.touches.isSome || e.cls == k)) ||
    s.core.homeQ.any fun h => h.tile == t && h.ctx == c

/-- Whether anything of the context that no region holds is on its way from the commit stage or at a home: what a release
waits for (R234 axiom 4). -/
def State.anyWaits (s : State) (t c : Nat) : Bool :=
  ((s.ctx t c).commitQ.any fun e => !e.held) || s.core.homeQ.any fun h => h.tile == t && h.ctx == c

/-- Whether an operation with footprint `f` is held back against what is incomplete (R22, R23, R97, R155, R170, R213,
R234). `slot0`: it is the scalar operation.
DEDUCED: notes/assumptions/15.md. DEDUCED: notes/assumptions/17.md. DEDUCED: notes/assumptions/26.md. -/
def State.opHeld (s : State) (t c : Nat) (slot0 : Bool) (f : Foot) : Bool :=
  let mine := (s.tile t).inflight.filter fun o => o.ctx == c
  let regs := s.pendingRegs t c
  !s.hasRoom t f || mine.any f.conflicts || f.inp.any regs.contains || (slot0 && f.out.any regs.contains) ||
    ((s.tile t).inflight.any fun o => o.tidset && o.tids.any f.tids.contains) ||
    (match f.cls with
      | none => false
      | some k => (s.liveFences t c).any fun (m, _, _) => m.getLsbD k) ||
    ((f.isLoad || f.atOnce) && (match f.cls with
      | none => false
      | some k => s.loadWaits t c k)) ||
    (f.release && s.anyWaits t c)

/-- Operations that name a thing which a queued operation may still change: SRR or SRW of SR.NFLAG or SR.QCLAMP (R129),
and VIEW of kind K (R170). -/
def State.scalarHeld (s : State) (t c : Nat) (i : Instr) : Bool :=
  let mine := (s.tile t).inflight.filter fun o => o.ctx == c
  let flagReg (n : Nat) : Bool := n == 8 || n == 9
  match i with
  | .srr _ b => flagReg (sbRs1 b).toNat && mine.any InFlight.flags
  | .srw _ b => flagReg (sbRd b).toNat && mine.any InFlight.flags
  | .view _ b => (sbRd b).toNat == 3 && mine.any InFlight.namesK
  | _ => false

/-- Whether a context's next bundle is held back: `fs` the footprints of its operations with their slots.
DEDUCED: notes/assumptions/7.md. -/
def State.bundleHeld (s : State) (t c : Nat) (scalar : Option Instr) (fs : List (Nat × Foot)) (w : BitVec 512) : Bool :=
  s.slips t c (occupied w 4) ||
    (s.tile t).inflight.any (fun o => o.ctx == c && o.trapper) ||
    (occupied w 6 && decide (32 ≤ s.cmdCount t c)) ||
    (match scalar with
      | some i => s.scalarHeld t c i
      | none => false) ||
    fs.any fun (n, f) => s.opHeld t c (n == 0) f

/-! A bundle reaches issue (R424). -/

/-- The operation that slot `n` of a bundle holds. -/
def opAt (ops : List (Nat × Except DecodeError Instr)) (n : Nat) : Option (Except DecodeError Instr) :=
  (ops.find? fun o => o.1 == n).map Prod.snd

/-- The slots of a bundle whose opcode is assigned. -/
def decodedOps (ops : List (Nat × Except DecodeError Instr)) : List (Nat × Instr) :=
  ops.filterMap fun (n, r) => match r with
    | .ok i => some (n, i)
    | .error _ => none

/-- The encoding checks of one slot; an unassigned opcode comes first (R83, R84). -/
def State.slotStop (s : State) : Nat × Except DecodeError Instr → Except Stop Unit
  | (n, .error _) => .error (illegal n 1 52)
  | (_, .ok i) => s.encStop i

/-- A list of checks in order; the first that fails decides. -/
def firstStop {α : Type} (f : α → Except Stop Unit) : List α → Except Stop Unit
  | [] => .ok ()
  | x :: xs => do
    f x
    firstStop f xs

/-- BAR, TICKWAIT, YIELD and ERET commit an open region before their bundle (R35, R122). DEDUCED: notes/assumptions/13.md. -/
def commitsFirst : Instr → Bool
  | .bar .. => true
  | .tickwait .. => true
  | .yield .. => true
  | .eret .. => true
  | _ => false

/-- Slot 0 of a bundle: its checks and its effect, in the registers as they stand (R21). -/
def State.runScalar (s : State) : Option (Except DecodeError Instr) → Except Stop State
  | none => .ok s
  | some (.error _) => .error (illegal 0 1 52)
  | some (.ok i) => do
    s.encStop i
    s.runStop i
    match exec i s with
    | .next s' => .ok s'
    | .fault f => .error (.fault f)
    | .refused _ => .ok s

/-- The registers as slots 1 to 7 capture them: those after slot 0 (R21). -/
def State.capture (s : State) : State := s.modMe fun x => { x with captured := some x.regs }

/-- The checks that one slot's operation makes at issue: those of its encoding, then the run-time ones (R84, R424).
DEDUCED: notes/assumptions/13.md. -/
def State.slotChecks (s : State) (o : Nat × Except DecodeError Instr) : Except Stop Unit := do
  s.slotStop o
  match o.2 with
  | .ok i => s.runStop i
  | .error _ => .ok ()

/-- The checks of slots 1 to 7, in slot order (R84, R424). -/
def State.queueStops (s : State) (ops : List (Nat × Except DecodeError Instr)) : Except Stop Unit :=
  firstStop s.slotChecks (ops.filter fun o => o.1 != 0)

/-- What the issue stage finds for a context. -/
inductive Look where
  /-- nothing to issue, or held back -/
  | waits
  /-- a check has failed: the state in which the trap is taken -/
  | traps (s : State) (st : Stop)
  /-- the condition of its wait does not hold -/
  | sleeps (s : State)
  /-- it may issue: the state after slot 0, the bundle, its slots, and whether it issues in an open region -/
  | ready (s : State) (w : BitVec 512) (ops : List (Nat × Instr)) (inRegion : Bool)

/-- The state in which a bundle runs: an open region commits before BAR, TICKWAIT, YIELD, ERET and a region begin, which opens
the next (R32, R35). DEDUCED: notes/assumptions/13.md. DEDUCED: notes/assumptions/61.md. -/
def State.enter (s : State) (w : BitVec 512) (commits : Bool) : State :=
  let s1 := if commits then s.modMe Ctx.commitRegion else s
  if (decodeHeader w).rb then s1.modMe fun x => x.commitRegion.openRegion else s1

/-- Whether a bundle commits the open region first: an operation of R35 that is not discarded.
DEDUCED: notes/assumptions/61.md. -/
def State.precommits (s : State) (ops : List (Nat × Instr)) : Bool :=
  ops.any fun (_, i) => commitsFirst i && !s.discarded i

/-- The checks of slots 1 to 7 in the first cycle in which nothing holds the bundle back; once they have passed, no later
cycle makes them again (R424). -/
def State.firstChecks (s : State) (ops : List (Nat × Except DecodeError Instr)) : Except Stop Unit :=
  if s.me.checked then .ok () else s.queueStops ops

/-- The checks and the wait of a bundle that nothing holds back: `pre` before slot 0, `trapAt` where a trap is taken.
DEDUCED: notes/assumptions/13.md. -/
def State.lookChecked (trapAt pre : State) (w : BitVec 512) (ops : List (Nat × Except DecodeError Instr)) (home : State) : Look :=
  match pre.runScalar (opAt ops 0) with
  | .error st => .traps trapAt st
  | .ok s1 =>
    let s2 := s1.capture
    let go : Look := .ready s2 w (decodedOps ops) pre.me.region.isSome
    match s2.firstChecks ops with
    | .error st => .traps trapAt st
    | .ok _ =>
      match opAt ops 7 with
      | some (.ok i) =>
        if s2.discarded i then go
        else match waitReady i s2 with
          | .error st => .traps trapAt st
          | .ok true => go
          | .ok false => .sleeps ((waitSleep i home).modMe fun x => { x with captured := s2.me.captured, checked := true })
      | _ => go

/-- The state in which the operands of slots 1 to 7 are looked at before any check: slot 0 done where it passes. -/
def State.preview (s : State) (ops : List (Nat × Except DecodeError Instr)) : State :=
  match s.runScalar (opAt ops 0) with
  | .ok s1 => s1.capture
  | .error _ => s.capture

/-- The footprints of a bundle: slot 0 in the state `s` before it, the others in the state `s1` after it. -/
def footsOf (s s1 : State) (ops : List (Nat × Instr)) : List (Nat × Foot) :=
  ops.map fun (n, i) => (n, if n = 0 then s.foot i else s1.foot i)

/-- Whether the issue stage looks at a context in this cycle (R17, R34, R36, R123). -/
def Ctx.issues (x : Ctx) : Bool :=
  x.phase == .running && x.task.isSome && !x.launchStall && x.awaitCmds.isEmpty && !x.yieldNext

/-- Whether the bundle at which a context stands lies in LPDDR6 that is not trained yet: its fetch waits (R396). -/
def State.codeWaits (s : State) (t c : Nat) : Bool :=
  !s.sec.trained &&
    (let x := s.ctx t c
     match s.translate t x.sys.asid 0 (x.task.getD {}).code kCODE [rX] [] x.pc.toNat 64 with
     | .ok (_, ps, _) => !piecesEarly ps
     | .error _ => false)

/-- What the issue stage finds for context `c` of tile `t` in this cycle (R17, R424).
DEDUCED: notes/assumptions/13.md. -/
def State.look (s : State) (t c : Nat) : Look :=
  if !(s.ctx t c).issues || s.codeWaits t c then .waits
  else match s.fetch t c with
    | .error st => .traps (s.at t c) st
    | .ok (s0, w, dups) =>
      let s1 := (s0.at t c).modMe fun x => { x with captured := none }
      let ops := decodeBundle w dups
      let p := s1.preview ops
      let pre := s1.enter w (p.precommits (decodedOps ops))
      let scalar : Option Instr := match opAt ops 0 with
        | some (.ok i) => if s1.discarded i then none else some i
        | _ => none
      if s1.bundleHeld t c scalar (footsOf s1 p (decodedOps ops)) w then .waits
      else if illegalBundle w then .traps s1 (.trap { code := trapILLEGAL_BUNDLE })
      else State.lookChecked (s1.enter w false) pre w ops s1

/-! The effect of a bundle. -/

/-- The entry that a queued operation leaves in its engine's queue until it completes (R19). -/
def Foot.inFlight (f : Foot) (c bundle slot : Nat) : Option InFlight :=
  match f.eng with
  | none => none
  | some .pumpPort => none
  | some e => some { ctx := c, bundle := bundle, slot := slot, eng := e, reads := f.reads, writes := f.writes, regs := f.out,
                     tids := f.tids, tidset := f.tidset, trapper := f.trapper, namesK := f.namesK, flags := f.flags,
                     cls := f.cls.getD 0, isLoad := f.isLoad }

/-- Whether a context still runs its bundle: no trap and no end has stopped it. -/
def Ctx.going (x : Ctx) : Bool := x.phase == .running || x.phase == .ending

/-- The waits that do nothing but wait: they are over when their bundle issues (R214).
DEDUCED: notes/assumptions/27.md. -/
def onlyWaits : Instr → Bool
  | .cbwait .. => true
  | .cbspace .. => true
  | _ => false

/-- A queued operation of the issuing bundle runs, and enters its engine's queue (R17, R19).
DEDUCED: notes/assumptions/17.md. -/
def State.runSlot (s : State) (n : Nat) (i : Instr) : Host.Outcome State Fault Refusal :=
  let f := s.foot i
  match (if onlyWaits i then .next s else exec i s) with
  | .next s1 =>
    if s1.me.going then
      .next (match f.inFlight s1.myCtx s1.me.bundleNo n with
        | some o => s1.modTile s1.myTile fun x => { x with inflight := x.inflight ++ [o] }
        | none => s1)
    else .next s1
  | r => r

/-- The queued operations of the issuing bundle in slot order; a trap ends them (R21, R348). -/
def State.runSlots (s : State) : List (Nat × Instr) → Host.Outcome State Fault Refusal
  | [] => .next s
  | (n, i) :: rest =>
    if !s.me.going then .next s
    else if n = 0 then s.runSlots rest
    else match s.runSlot n i with
      | .next s1 => s1.runSlots rest
      | r => r

/-- The end of loops at the bundle at `pc`, innermost level first: the levels left, and where a loop-back goes with its
level number (R25, R108). -/
def endLoops (pc : Off) : List Level → List Level × Option (Off × Nat)
  | [] => ([], none)
  | l :: ls =>
    if l.stop ≠ pc then (l :: ls, none)
    else if l.index.toNat + 1 < l.count.toNat then ({ l with index := l.index + 1 } :: ls, some (l.start, ls.length))
    else endLoops pc ls

/-- The deltas of level `l` added to the a-register offsets (R27). Where a load of the register is still in flight the delta
meets the loaded value. DESIGN CHOICE: notes/assumptions/62.md. -/
def Ctx.addDeltas (x : Ctx) (l : Nat) : Ctx :=
  { x with regs := (List.range 16).foldl (fun r j =>
      let d := FMap.get 0 x.delta (16 * l + j)
      if d = 0 then r
      else r.setA j ((r.getA j).withOffset (((((r.getA j).offset : Int) + d.toInt) % 2 ^ 48).toNat))) x.regs }

/-- The cursors of the entries that context `c` owns moved at a loop-back of level `l` (R157). -/
def Tile.loopCursors (x : Tile) (c l : Nat) : Tile :=
  { x with tids := FMap.mapValues {} (fun _ (d : Tid) =>
      if d.valid && d.owner == c then
        d.move (d.desc.extractLsb' (320 + 32 * l) 16).toInt (d.desc.extractLsb' (336 + 32 * l) 16).toInt
      else d) x.tids }

/-- The loop end of the issuing bundle (R25, R27, R157): the state, the next bundle address, whether it looped back. -/
def State.loopEnd (s : State) : State × Off × Bool :=
  let x := s.me
  match endLoops x.pc x.loops.reverse with
  | (ls, none) => (s.modMe fun y => { y with loops := ls.reverse }, x.nextPc, false)
  | (ls, some (start, l)) =>
    ((s.modMe fun y => Ctx.addDeltas { y with loops := ls.reverse } l).modTile s.myTile fun y => y.loopCursors s.myCtx l, start, true)

/-- The address of the next fetch, `next` where no branch was taken; a user trap of the bundle puts it into UTEPC and
fetches its handler (R118, R119, R212). -/
def Ctx.nextFetch (x : Ctx) (next : Off) : Ctx :=
  let a := x.target.getD next
  match x.redirect with
  | some h => { x with pc := h, sys := { x.sys with utepc := a.extractLsb' 6 42 } }
  | none => { x with pc := a }

/-- Activity units of a slot (R409). -/
def slotUnits (n : Nat) : Nat :=
  match n with
  | 1 => 2
  | 2 => 2
  | 3 => 8
  | 4 => 1
  | 5 => 1
  | _ => 0

/-- Whether a slot holds a matrix operation that is no NOP (R278). -/
def isMatrixWork : Nat × Instr → Bool
  | (n, i) => n == 3 && (match i with
    | .nopMatrix .. => false
    | _ => true)

/-- What issue counts: activity units (R409), the cycle in which the island was busy (R368), and matrix bundles of a timed partition's island (R278). -/
def State.countIssue (s : State) (ops : List (Nat × Instr)) : State :=
  let k := ctxKey s.myTile s.myCtx
  let u := (ops.map fun o => slotUnits o.1).foldl (· + ·) 0
  let isl := s.myTile / 8
  let s1 := { s with pow := { s.pow with activity := FMap.set 0 s.pow.activity k (FMap.get 0 s.pow.activity k + u) } }.modIsland isl
    fun x => { x with busyAt := x.cycles }
  if ops.any isMatrixWork && s.timedIsland isl then s1.modIsland isl fun x => { x with shareBundles := x.shareBundles + 1 } else s1

/-- Whether a bundle holds a YIELD that is not discarded. -/
def State.yields (s : State) (ops : List (Nat × Instr)) : Bool :=
  ops.any fun (_, i) => match i with
    | .yield .. => !s.discarded i
    | _ => false

/-- A bundle ends: a region commit, the loop end, the next fetch, and the points at which a request lands, if no region
was open while the bundle issued (R32, R37, R108, R118, R123). A context whose task ended in the bundle only waits for its
operations. -/
def State.finishBundle (s : State) (w : BitVec 512) (yields inRegion : Bool) : State :=
  let t := s.myTile
  let c := s.myCtx
  let h := decodeHeader w
  let s1 := if h.rc then s.modMe Ctx.commitRegion else s
  let clear (x : Ctx) : Ctx :=
    { x with target := none, redirect := none, captured := none, checked := false, replayRun := 0,
             bundleNo := x.bundleNo + 1 }
  if s1.me.phase != .running then (s1.modMe clear).settle t c
  else
    let (s2, next, back) := s1.loopEnd
    let s3 := s2.modMe fun x => { clear (x.nextFetch next) with fences := s.liveFences t c }
    if (back || h.pp || yields) && !inRegion then s3.land t c else s3

/-- A bundle issues from the context at which `s` stands, slot 0 already run (R17, R21). -/
def State.issueBundle (s : State) (w : BitVec 512) (ops : List (Nat × Instr)) (inRegion : Bool) :
    Host.Outcome State Fault Refusal :=
  let y := s.yields ops
  match (s.countIssue ops).runSlots ops with
  | .next s1 => .next (if s1.me.going then s1.finishBundle w y inRegion else s1)
  | r => r

/-! The choice among the contexts of a tile (R18, R424). -/

/-- The checks and waits of one context in a cycle (R424): a failed check traps, a false condition puts it to sleep; what has
passed is not checked again. -/
def State.check (s : State) (t c : Nat) : Host.Outcome State Fault Refusal :=
  match s.look t c with
  | .traps s1 (.trap tr) => .next (s1.takeTrap tr)
  | .traps _ (.fault f) => .fault f
  | .sleeps s1 => .next s1
  | .ready .. => .next (s.modCtx t c fun x => { x with checked := true })
  | .waits => .next s

/-- The checks of contexts in order. -/
def State.checks (s : State) (t : Nat) : List Nat → Host.Outcome State Fault Refusal
  | [] => .next s
  | c :: cs =>
    match s.check t c with
    | .next s1 => s1.checks t cs
    | r => r

/-- Whether a context is ready (R17). -/
def State.isReady (s : State) (t c : Nat) : Bool :=
  match s.look t c with
  | .ready .. => true
  | _ => false

/-- The class of the task on a context: the one it started with (R13, R337). -/
def State.taskClass (s : State) (t c : Nat) : Nat :=
  match (s.ctx t c).task with
  | some k => k.terms.cls
  | none => 4

/-- The context that issues (R18): of the ready ones of the highest class, the first from the round-robin pointer. -/
def State.chosen (s : State) (t : Nat) : Option Nat :=
  let rs := ((List.range 4).map fun k => ((s.tile t).q + k) % 4).filter fun c => s.isReady t c
  let best := ((rs.map fun c => s.taskClass t c).min?).getD 4
  rs.find? fun c => s.taskClass t c == best

/-- The end of an issue cycle: the bundle of context `c` has issued, or waits for memory that is not ready, and the next
context has its turn (R18, R375, R396). DEDUCED: notes/assumptions/50.md. -/
def State.issued (s : State) (t c : Nat) : Host.Outcome State Fault Refusal → Host.Outcome State Fault Refusal
  | .next u => .next (if u.pow.blocked then (s.waitFor u).modTile t fun x => { x with q := (c + 1) % 4 } else u)
  | r => r

/-- One issue cycle of a tile (R18): the checks, then one bundle; a context that has yielded this cycle may issue again
from the next (R123). DEDUCED: notes/assumptions/13.md. -/
def State.issueCycle (s : State) (t : Nat) : Host.Outcome State Fault Refusal :=
  if s.pow.down || (s.island (t / 8)).state != .on then .next s
  else
    let ys := (List.range 4).filter fun c => (s.ctx t c).yieldNext
    match s.checks t (List.range 4) with
    | .next s1 =>
      let s2 := ys.foldl (fun a c => a.modCtx t c fun x => { x with yieldNext := false }) s1
      (match s1.chosen t with
        | none => .next s2
        | some c =>
          match s1.look t c with
          | .ready r w ops inRegion =>
            let r1 := ys.foldl (fun a c => a.modCtx t c fun x => { x with yieldNext := false }) r
            s2.issued t c ((r1.modTile t fun x => { x with q := (c + 1) % 4 }).issueBundle w ops inRegion)
          | _ => .next s2)
    | r => r

end Sys2Proof.Machine
end

