-- ==== Sys2Proof/Machine/Agents.lean ====
section
/-! DEFINITION. Which agent moves next: the moves of the part's own agents in a state, one of which a free value picks,
and the moves of the agenda, by which everything outside the part acts (notes/assumptions/3.md). Spec 00 R1 and R6,
and the rules of each agent. -/

namespace Sys2Proof.Machine

/-- Whether an operation happens only inside the issue of a bundle: a slot operation or a header bit (R32, R37, R69).
DEDUCED: notes/assumptions/60.md. -/
def inBundle (i : Instr) : Bool :=
  (slotFields i).isSome || (match i with
    | .regionBegin => true
    | .regionCommit => true
    | .preemptionPoint => true
    | _ => false)

/-- A move happens: the time before it passes; a tile issues, or another agent acts, unless its access must wait (R375,
R396): it may be asked for again.
DESIGN CHOICE: notes/assumptions/3.md. DEDUCED: notes/assumptions/60.md. -/
def State.perform (s : State) : Move → Host.Outcome State Fault Refusal
  | .issue dt t => (s.elapse dt).issueCycle t
  | .happen dt i => if inBundle i then .next (s.elapse dt) else (s.elapse dt).orWait (exec i (s.elapse dt))

/-- A move of an agent. -/
abbrev Act := State → Host.Outcome State Fault Refusal

/-- The moves of contexts: departures, waits, requests, saves (R34, R38, R39, R214, R360, R373). -/
def State.ctxMoves (s : State) : List Act :=
  s.core.ctxs.flatMap fun (k, x) =>
    let t := k / 4
    let c := k % 4
    (if x.commitQ.isEmpty then [] else [execCommitStageDeparture t c]) ++
      (if x.phase == .sleeping then [execWaitRelease t c] else []) ++
      (if x.parked then [execResumeTrigger t c] else []) ++
      (if x.preempt.isSome then [execPreemptionRequestDelivery t c, execForcedPreemption t c] else []) ++
      (if x.phase == .landed then [execContextSave t c] else [])

/-- The moves of a tile's engines and well controller (R19, R365, R382). -/
def State.tileMoves (s : State) : List Act :=
  s.core.tiles.flatMap fun (t, x) =>
    (if x.inflight.isEmpty && x.syncQ.isEmpty then []
      else [Engine.vectorA, .vectorB, .matrix, .load, .store, .sync].map fun e => execEngineOperationComplete t e) ++
      (if x.well.journal.state == .committed || x.well.applyStep != 0 then [execJournalApply t] else [])

/-- The moves of pump, key-value, stream and compaction engines and of atomics at their homes (R203, R204, R246, R255,
R274, R275); `n` the bytes a pump moves. -/
def State.engineMoves (s : State) (n : Nat) : List Act :=
  (s.core.homeQ.map fun h => execAtomicHomePerform h.slice) ++
    (s.core.cmds.flatMap fun m => [execPumpDelivery m.id n, execPumpCommandComplete m.id, execKvCommandResolve m.id,
      execStmgetResolve m.id, execHoldLimitExpiry m.id]) ++
    (s.eng.jobs.flatMap fun (d, _) => [execCompactionJob d, execCompactionInstall d]) ++
    (s.cp.arms.flatMap fun (a, _) => [execTick a, execTickWakeLead a, execStepEnd a]) ++
    (s.eng.groups.flatMap fun (g, _) => [execCollectiveAccept { group := g }, execCollectiveTimeout { group := g }]) ++
    (s.net.qps.map fun (q, _) => execRateRecovery q)

/-- The kinds of packet that a queue's head may be (R332); one that it is not changes nothing. -/
def packetMoves (q projected : Nat) : List Act :=
  [execLaunchGraph q, execSignalWrite q, execSignalAdd q, execWait q, execCopy q, execBarrier q, execLease q projected,
    execTimedArm q, execTimedDisarm q, execFlushExport q, execInvalidate q, execRegionCreate q, execRegionAlter q,
    execRegionDestroy q, execStatement q, execQueueDrained q]

/-- The moves of the command processor and the launch unit (R328 to R347, R359, R360); `n` the tile and context on which
a saved task may resume. -/
def State.commandMoves (s : State) (n : Nat) : List Act :=
  [execPendingKickService, execNodeDispatch] ++
    (s.cp.queues.flatMap fun (q, x) =>
      (if x.packets.isEmpty && !x.busy then [] else packetMoves q n) ++
        (if x.ready.isEmpty then [] else [execContextResume q (n % 512) (n / 512 % 4)])) ++
    (s.cp.gangs.flatMap fun (g, _) => [execNodeComplete g, execWideVariantLaunch g]) ++
    (s.cp.insts.map fun (i, _) => execInstanceEnd i) ++
    (s.cp.regens.map fun r => execRegenerationStart r.asid r.obj r.start)

/-- The moves of the wake controller, the rails, the meters and the firmware (R366 to R375, R402, R403, R404, R399, R400);
`n` a slice. -/
def State.powerMoves (s : State) (n : Nat) : List Act :=
  (s.pow.islands.flatMap fun (i, _) => [execStormPeriodEnd i, execClockShareWindow i, execIslandIdle i, execIslandIdleExit i,
    execIslandPark i, execIslandOff i, execIslandWake i, execIslandWakeComplete i []]) ++
    [execCisternRetain (n % 512), execCisternWake (n % 512), execAccountingTick, execMirrorEntry, execRoleSwap] ++
    (s.pow.rails.map fun (r, _) => execRailSettled r) ++
    (s.pow.leases.map fun l => execLeaseExpiry l.part)

/-- The tiles on which some context holds a task. -/
def State.busyTiles (s : State) : List Nat :=
  (s.core.ctxs.filterMap fun (k, x) => if x.task.isSome then some (k / 4) else none).eraseDups

/-- The moves that the part's own agents may make. DESIGN CHOICE: notes/assumptions/3.md. -/
def State.moves (s : State) (n : Nat) : List Act :=
  (s.busyTiles.map fun t s => s.issueCycle t) ++
    s.ctxMoves ++ s.tileMoves ++ s.engineMoves n ++ s.commandMoves n ++ s.powerMoves n

/-- The move that comes next where the agenda names none: some time passes, then one of those that the part's agents
may make. DESIGN CHOICE: notes/assumptions/3.md. DEDUCED: notes/assumptions/60.md. -/
def State.ownMove (s : State) : Host.Outcome State Fault Refusal :=
  let k := s.freeCtr
  let s1 := ({ s with freeCtr := k + 2 } : State).elapse (Config.elapsed k)
  let ms := s1.moves (Config.freeWord (k + 1)).toNat
  match ms[(Config.freeWord k).toNat % ms.length]? with
  | some m => s1.orWait (m s1)
  | none => .next s1

/-! Placing a bundle (notes/assumptions/8.md). -/

/-- The object-table entry of a CODE object that may be executed, at byte 0 of the package's LPDDR6 (R353, R354). -/
def State.codeEntry (s : State) : BitVec 256 :=
  BitVec.ofNat 256 (1 + kCODE * 2 ^ 84 + 2 ^ rX * 2 ^ 88 + s.net.pkg * 2 ^ 58 * 2 ^ 96 + 65536 * 2 ^ 160)

/-- A bundle at the first address of CODE object 0, a task of that object about to issue it on context 0 of tile 0,
whose island is ON, and that tile's issue as the next move. The object's translation stands in the tile's cache.
DESIGN CHOICE: notes/assumptions/8.md. -/
def State.placeBundle (s : State) (w : BitVec 512) : State :=
  let s1 := s.wrBytes (s.net.pkg * 2 ^ 58) (bytesOfBundle w)
  let x := s1.ctx 0 0
  let s2 := s1.setCtx 0 0 { x with phase := .running, pc := 0, captured := none, checked := false, launchStall := false, awaitCmds := [],
                                   yieldNext := false, task := some {} }
  let s3 := s2.modTile 0 fun y =>
    { y with tlbObjs := [{ asid := x.sys.asid, obj := 0, entry := s.codeEntry }], inflight := [], syncQ := [], lateQ := [] }
  { s3.modIsland 0 fun y => { y with state := .on } with agenda := [.issue 0 0] }

end Sys2Proof.Machine
end

