-- ==== Sys2Proof/Machine/Step.lean ====
section
/-! DEFINITION. One step of the part, and the placing of a bundle where the next step fetches. -/

namespace Sys2Proof.Machine

/-- One step: the move that the agenda names, else a move of the part's own agents (notes/assumptions/3.md). -/
def step (s : State) : Host.Outcome State Fault Refusal :=
  match s.agenda with
  | m :: ms => ({ s with agenda := ms } : State).perform m
  | [] => s.ownMove

/-- `s` with the bundle of bits `w` placed where context 0 of tile 0 fetches next, and the next step that tile's issue
(notes/assumptions/8.md). -/
def State.withFetchWord (s : State) (_nbits w : Nat) : State :=
  s.placeBundle (BitVec.ofNat 512 w)

end Sys2Proof.Machine
end

