-- ==== Sys2Proof/Laws/PerInstr.lean ====
section
/-! SUPPORT. The family `Encoding`, one lemma per constructor: the opcode map of R83, applied to the fields that the
encoder writes, gives the instruction back. Before it, the packing and unpacking of each body (R76 to R80). -/

namespace Sys2Proof.Machine

theorem extract_lo {w v k n : Nat} (x : BitVec w) (y : BitVec v) (h : k + n ≤ v) :
    (x ++ y).extractLsb' k n = y.extractLsb' k n := by
  ext i hi
  have : k + i < v := by omega
  simp [BitVec.getLsbD_append, this]
theorem extract_hi' {w v k n : Nat} (x : BitVec w) (y : BitVec v) (h : v ≤ k) :
    (x ++ y).extractLsb' k n = x.extractLsb' (k - v) n := by
  ext i hi
  have h2 : ¬ (k + i < v) := by omega
  have h3 : k + i - v = k - v + i := by omega
  simp [BitVec.getLsbD_append, h2, h3]
theorem extract_all {w : Nat} (x : BitVec w) : x.extractLsb' 0 w = x := by
  ext i h; simp

theorem unpackVector_packVector (b : VectorBody) : unpackVector (packVector b) = b := by
  cases b
  simp only [unpackVector, packVector, VectorBody.mk.injEq]
  refine ⟨?_,?_,?_,?_,?_,?_⟩ <;> simp (disch := omega) only [extract_hi', extract_lo, Nat.sub_self, extract_all, Nat.reduceSub]
theorem unpackScalar_packScalar (b : ScalarBody) : unpackScalar (packScalar b) = b := by
  cases b with
  | sr rd rs1 rs2 aux =>
    have h : (packScalar (.sr rd rs1 rs2 aux)).getLsbD 46 = false := by
      simp only [packScalar, BitVec.getLsbD_append]; rfl
    rw [unpackScalar, h]
    simp (disch := omega) only [packScalar, extract_hi', extract_lo, Nat.sub_self, extract_all, Nat.reduceSub,
      Bool.false_eq_true, if_false]
  | si rd rs1 aux2 imm =>
    have h : (packScalar (.si rd rs1 aux2 imm)).getLsbD 46 = true := by
      simp only [packScalar, BitVec.getLsbD_append]; rfl
    rw [unpackScalar, h]
    simp (disch := omega) only [packScalar, extract_hi', extract_lo, Nat.sub_self, extract_all, Nat.reduceSub,
      if_true]
theorem unpackMatrix_packMatrix (b : MatrixBody) : unpackMatrix (packMatrix b) = b := by
  cases b
  simp only [unpackMatrix, packMatrix, MatrixBody.mk.injEq]
  refine ⟨?_,?_,?_,?_,?_⟩ <;> simp (disch := omega) only [extract_hi', extract_lo, Nat.sub_self, extract_all, Nat.reduceSub]
theorem unpackMem_packMem (b : MemBody) : unpackMem (packMem b) = b := by
  cases b
  simp only [unpackMem, packMem, MemBody.mk.injEq]
  refine ⟨?_,?_,?_,?_,?_,?_⟩ <;> simp (disch := omega) only [extract_hi', extract_lo, Nat.sub_self, extract_all, Nat.reduceSub]
theorem unpackPump_packPump (b : PumpBody) : unpackPump (packPump b) = b := by
  cases b
  simp only [unpackPump, packPump, PumpBody.mk.injEq]
  refine ⟨?_,?_,?_,?_,?_,?_,?_⟩ <;> simp (disch := omega) only [extract_hi', extract_lo, Nat.sub_self, extract_all, Nat.reduceSub]
theorem bitOf_packMatrix (b : MatrixBody) : bitOf (packMatrix b) 16 = b.aux.getLsbD 16 := by
  simp only [bitOf, packMatrix, BitVec.getLsbD_append]; rfl
theorem bitOf_packPump (b : PumpBody) : bitOf (packPump b) 0 = b.aux.getLsbD 0 := by
  simp only [bitOf, packPump, BitVec.getLsbD_append]; rfl
theorem bitsOf_eq {w : Nat} (x : BitVec w) (hi lo : Nat) : bitsOf x hi lo = (x.extractLsb' lo (hi + 1 - lo)).toNat := by
  simp [bitsOf, Nat.shiftRight_eq_div_pow]
theorem bitsOf_packScalar (b : ScalarBody) : bitsOf (packScalar b) 45 40 = scalarRd b := by
  rw [bitsOf_eq]
  show ((packScalar b).extractLsb' 40 6).toNat = _
  cases b <;>
    simp (disch := omega) only [packScalar, extract_hi', extract_lo, Nat.sub_self, extract_all, Nat.reduceSub, scalarRd]

/-- The opcode map of the class, applied to the fields of a slot word. -/
def SlotFields.readBack (f : SlotFields) : Option Instr :=
  match f.cls with
  | .scalar => decodeScalar f.g f.body f.opc.toNat
  | .vector => decodeVector f.g f.body f.opc.toNat
  | .matrix => decodeMatrix f.g f.body f.opc.toNat
  | .load => decodeLoad f.g f.body f.opc.toNat
  | .store => decodeStore f.g f.body f.opc.toNat
  | .pump => decodePump f.g f.body f.opc.toNat
  | .sync => decodeSync f.g f.body f.opc.toNat

end Sys2Proof.Machine

namespace Sys2Proof.Laws.Encoding
open Sys2Proof Sys2Proof.Machine

/-- The fields of the instruction's slot word decode to the instruction, where its fields are those of its row. -/
def Statement (i : Instr) : Prop := ∀ f, slotFields i = some f → rowMatches i = true → f.readBack = some i

theorem of_fields {i : Instr} {f : SlotFields} (hf : slotFields i = some f) (h : rowMatches i = true → f.readBack = some i) :
    Statement i := fun f' hf' hr => by
  obtain rfl : f = f' := Option.some.inj (hf.symm.trans hf')
  exact h hr

theorem of_none {i : Instr} (hf : slotFields i = none) : Statement i := fun f h => by rw [hf] at h; cases h

theorem nopScalar : ∀ g body, Statement (.nopScalar g body) := by intros; exact of_fields rfl fun _ => rfl
theorem add : ∀ g b, Statement (.add g b) := fun g b =>
  of_fields rfl fun _ => congrArg (fun x => some (Instr.add g x)) (unpackScalar_packScalar b)
theorem sub : ∀ g b, Statement (.sub g b) := fun g b =>
  of_fields rfl fun _ => congrArg (fun x => some (Instr.sub g x)) (unpackScalar_packScalar b)
theorem mul : ∀ g b, Statement (.mul g b) := fun g b =>
  of_fields rfl fun _ => congrArg (fun x => some (Instr.mul g x)) (unpackScalar_packScalar b)
theorem mulh : ∀ g b, Statement (.mulh g b) := fun g b =>
  of_fields rfl fun _ => congrArg (fun x => some (Instr.mulh g x)) (unpackScalar_packScalar b)
theorem div : ∀ g b, Statement (.div g b) := fun g b =>
  of_fields rfl fun _ => congrArg (fun x => some (Instr.div g x)) (unpackScalar_packScalar b)
theorem rem : ∀ g b, Statement (.rem g b) := fun g b =>
  of_fields rfl fun _ => congrArg (fun x => some (Instr.rem g x)) (unpackScalar_packScalar b)
theorem and : ∀ g b, Statement (.and g b) := fun g b =>
  of_fields rfl fun _ => congrArg (fun x => some (Instr.and g x)) (unpackScalar_packScalar b)
theorem or : ∀ g b, Statement (.or g b) := fun g b =>
  of_fields rfl fun _ => congrArg (fun x => some (Instr.or g x)) (unpackScalar_packScalar b)
theorem xor : ∀ g b, Statement (.xor g b) := fun g b =>
  of_fields rfl fun _ => congrArg (fun x => some (Instr.xor g x)) (unpackScalar_packScalar b)
theorem andn : ∀ g b, Statement (.andn g b) := fun g b =>
  of_fields rfl fun _ => congrArg (fun x => some (Instr.andn g x)) (unpackScalar_packScalar b)
theorem shl : ∀ g b, Statement (.shl g b) := fun g b =>
  of_fields rfl fun _ => congrArg (fun x => some (Instr.shl g x)) (unpackScalar_packScalar b)
theorem shr : ∀ g b, Statement (.shr g b) := fun g b =>
  of_fields rfl fun _ => congrArg (fun x => some (Instr.shr g x)) (unpackScalar_packScalar b)
theorem sra : ∀ g b, Statement (.sra g b) := fun g b =>
  of_fields rfl fun _ => congrArg (fun x => some (Instr.sra g x)) (unpackScalar_packScalar b)
theorem min : ∀ g b, Statement (.min g b) := fun g b =>
  of_fields rfl fun _ => congrArg (fun x => some (Instr.min g x)) (unpackScalar_packScalar b)
theorem max : ∀ g b, Statement (.max g b) := fun g b =>
  of_fields rfl fun _ => congrArg (fun x => some (Instr.max g x)) (unpackScalar_packScalar b)
theorem clz : ∀ g b, Statement (.clz g b) := fun g b =>
  of_fields rfl fun _ => congrArg (fun x => some (Instr.clz g x)) (unpackScalar_packScalar b)
theorem popc : ∀ g b, Statement (.popc g b) := fun g b =>
  of_fields rfl fun _ => congrArg (fun x => some (Instr.popc g x)) (unpackScalar_packScalar b)
theorem li : ∀ g b, Statement (.li g b) := fun g b =>
  of_fields rfl fun _ => congrArg (fun x => some (Instr.li g x)) (unpackScalar_packScalar b)
theorem lih : ∀ g b, Statement (.lih g b) := fun g b =>
  of_fields rfl fun _ => congrArg (fun x => some (Instr.lih g x)) (unpackScalar_packScalar b)
theorem mov : ∀ g b, Statement (.mov g b) := fun g b =>
  of_fields rfl fun _ => congrArg (fun x => some (Instr.mov g x)) (unpackScalar_packScalar b)
theorem sel : ∀ g b, Statement (.sel g b) := fun g b =>
  of_fields rfl fun _ => congrArg (fun x => some (Instr.sel g x)) (unpackScalar_packScalar b)
theorem cmp : ∀ g b, Statement (.cmp g b) := fun g b =>
  of_fields rfl fun _ => congrArg (fun x => some (Instr.cmp g x)) (unpackScalar_packScalar b)
theorem pand : ∀ g b, Statement (.pand g b) := fun g b =>
  of_fields rfl fun _ => congrArg (fun x => some (Instr.pand g x)) (unpackScalar_packScalar b)
theorem por : ∀ g b, Statement (.por g b) := fun g b =>
  of_fields rfl fun _ => congrArg (fun x => some (Instr.por g x)) (unpackScalar_packScalar b)
theorem pxor : ∀ g b, Statement (.pxor g b) := fun g b =>
  of_fields rfl fun _ => congrArg (fun x => some (Instr.pxor g x)) (unpackScalar_packScalar b)
theorem pandn : ∀ g b, Statement (.pandn g b) := fun g b =>
  of_fields rfl fun _ => congrArg (fun x => some (Instr.pandn g x)) (unpackScalar_packScalar b)
theorem pset : ∀ g b, Statement (.pset g b) := fun g b =>
  of_fields rfl fun _ => congrArg (fun x => some (Instr.pset g x)) (unpackScalar_packScalar b)
theorem pcnt : ∀ g b, Statement (.pcnt g b) := fun g b =>
  of_fields rfl fun _ => congrArg (fun x => some (Instr.pcnt g x)) (unpackScalar_packScalar b)
theorem aadd : ∀ g b, Statement (.aadd g b) := fun g b =>
  of_fields rfl fun _ => congrArg (fun x => some (Instr.aadd g x)) (unpackScalar_packScalar b)
theorem aset : ∀ g b, Statement (.aset g b) := fun g b =>
  of_fields rfl fun _ => congrArg (fun x => some (Instr.aset g x)) (unpackScalar_packScalar b)
theorem aget : ∀ g b, Statement (.aget g b) := fun g b =>
  of_fields rfl fun _ => congrArg (fun x => some (Instr.aget g x)) (unpackScalar_packScalar b)
theorem anarrow : ∀ g b, Statement (.anarrow g b) := fun g b =>
  of_fields rfl fun _ => congrArg (fun x => some (Instr.anarrow g x)) (unpackScalar_packScalar b)
theorem adrop : ∀ g b, Statement (.adrop g b) := fun g b =>
  of_fields rfl fun _ => congrArg (fun x => some (Instr.adrop g x)) (unpackScalar_packScalar b)
theorem amov : ∀ g b, Statement (.amov g b) := fun g b =>
  of_fields rfl fun _ => congrArg (fun x => some (Instr.amov g x)) (unpackScalar_packScalar b)
theorem achk : ∀ g b, Statement (.achk g b) := fun g b =>
  of_fields rfl fun _ => congrArg (fun x => some (Instr.achk g x)) (unpackScalar_packScalar b)
theorem loop : ∀ g b, Statement (.loop g b) := fun g b =>
  of_fields rfl fun _ => congrArg (fun x => some (Instr.loop g x)) (unpackScalar_packScalar b)
theorem ldelta : ∀ g b, Statement (.ldelta g b) := fun g b =>
  of_fields rfl fun _ => congrArg (fun x => some (Instr.ldelta g x)) (unpackScalar_packScalar b)
theorem lbreak : ∀ g b, Statement (.lbreak g b) := fun g b =>
  of_fields rfl fun _ => congrArg (fun x => some (Instr.lbreak g x)) (unpackScalar_packScalar b)
theorem lidx : ∀ g b, Statement (.lidx g b) := fun g b =>
  of_fields rfl fun _ => congrArg (fun x => some (Instr.lidx g x)) (unpackScalar_packScalar b)
theorem view : ∀ g b, Statement (.view g b) := fun g b =>
  of_fields rfl fun _ => congrArg (fun x => some (Instr.view g x)) (unpackScalar_packScalar b)
theorem srr : ∀ g b, Statement (.srr g b) := fun g b =>
  of_fields rfl fun _ => congrArg (fun x => some (Instr.srr g x)) (unpackScalar_packScalar b)
theorem srw : ∀ g b, Statement (.srw g b) := by
  intro g b
  refine of_fields rfl fun h => ?_
  simp only [rowMatches, Bool.and_eq_true, bne_iff_ne, ne_eq] at h
  show (if bitsOf (packScalar b) 45 40 = 7 then _ else if bitsOf (packScalar b) 45 40 = 6 then _ else _) = _
  rw [bitsOf_packScalar, if_neg h.1, if_neg h.2, unpackScalar_packScalar]
theorem srWinWrite : ∀ g b, Statement (.srWinWrite g b) := by
  intro g b
  refine of_fields rfl fun h => ?_
  simp only [rowMatches, beq_iff_eq] at h
  show (if bitsOf (packScalar b) 45 40 = 7 then _ else _) = _
  rw [bitsOf_packScalar, if_pos h, unpackScalar_packScalar]
theorem srPrivWrite : ∀ g b, Statement (.srPrivWrite g b) := by
  intro g b
  refine of_fields rfl fun h => ?_
  simp only [rowMatches, beq_iff_eq] at h
  show (if bitsOf (packScalar b) 45 40 = 7 then _ else if bitsOf (packScalar b) 45 40 = 6 then _ else _) = _
  rw [bitsOf_packScalar, h, if_neg (by decide), if_pos rfl, unpackScalar_packScalar]
theorem rdtime : ∀ g b, Statement (.rdtime g b) := fun g b =>
  of_fields rfl fun _ => congrArg (fun x => some (Instr.rdtime g x)) (unpackScalar_packScalar b)
theorem pbr : ∀ g b, Statement (.pbr g b) := fun g b =>
  of_fields rfl fun _ => congrArg (fun x => some (Instr.pbr g x)) (unpackScalar_packScalar b)
theorem trap : ∀ g b, Statement (.trap g b) := fun g b =>
  of_fields rfl fun _ => congrArg (fun x => some (Instr.trap g x)) (unpackScalar_packScalar b)
theorem utret : ∀ g b, Statement (.utret g b) := fun g b =>
  of_fields rfl fun _ => congrArg (fun x => some (Instr.utret g x)) (unpackScalar_packScalar b)
theorem eret : ∀ g b, Statement (.eret g b) := fun g b =>
  of_fields rfl fun _ => congrArg (fun x => some (Instr.eret g x)) (unpackScalar_packScalar b)
theorem yield : ∀ g b, Statement (.yield g b) := fun g b =>
  of_fields rfl fun _ => congrArg (fun x => some (Instr.yield g x)) (unpackScalar_packScalar b)
theorem endTask : ∀ g b, Statement (.endTask g b) := fun g b =>
  of_fields rfl fun _ => congrArg (fun x => some (Instr.endTask g x)) (unpackScalar_packScalar b)
theorem feat : ∀ g b, Statement (.feat g b) := fun g b =>
  of_fields rfl fun _ => congrArg (fun x => some (Instr.feat g x)) (unpackScalar_packScalar b)
theorem nopVector : ∀ g body, Statement (.nopVector g body) := by intros; exact of_fields rfl fun _ => rfl
theorem vadd : ∀ g b, Statement (.vadd g b) := fun g b =>
  of_fields rfl fun _ => congrArg (fun x => some (Instr.vadd g x)) (unpackVector_packVector b)
theorem vsub : ∀ g b, Statement (.vsub g b) := fun g b =>
  of_fields rfl fun _ => congrArg (fun x => some (Instr.vsub g x)) (unpackVector_packVector b)
theorem vmul : ∀ g b, Statement (.vmul g b) := fun g b =>
  of_fields rfl fun _ => congrArg (fun x => some (Instr.vmul g x)) (unpackVector_packVector b)
theorem vfma : ∀ g b, Statement (.vfma g b) := fun g b =>
  of_fields rfl fun _ => congrArg (fun x => some (Instr.vfma g x)) (unpackVector_packVector b)
theorem vmin : ∀ g b, Statement (.vmin g b) := fun g b =>
  of_fields rfl fun _ => congrArg (fun x => some (Instr.vmin g x)) (unpackVector_packVector b)
theorem vmax : ∀ g b, Statement (.vmax g b) := fun g b =>
  of_fields rfl fun _ => congrArg (fun x => some (Instr.vmax g x)) (unpackVector_packVector b)
theorem vabs : ∀ g b, Statement (.vabs g b) := fun g b =>
  of_fields rfl fun _ => congrArg (fun x => some (Instr.vabs g x)) (unpackVector_packVector b)
theorem vneg : ∀ g b, Statement (.vneg g b) := fun g b =>
  of_fields rfl fun _ => congrArg (fun x => some (Instr.vneg g x)) (unpackVector_packVector b)
theorem vand : ∀ g b, Statement (.vand g b) := fun g b =>
  of_fields rfl fun _ => congrArg (fun x => some (Instr.vand g x)) (unpackVector_packVector b)
theorem vor : ∀ g b, Statement (.vor g b) := fun g b =>
  of_fields rfl fun _ => congrArg (fun x => some (Instr.vor g x)) (unpackVector_packVector b)
theorem vxor : ∀ g b, Statement (.vxor g b) := fun g b =>
  of_fields rfl fun _ => congrArg (fun x => some (Instr.vxor g x)) (unpackVector_packVector b)
theorem vshl : ∀ g b, Statement (.vshl g b) := fun g b =>
  of_fields rfl fun _ => congrArg (fun x => some (Instr.vshl g x)) (unpackVector_packVector b)
theorem vshr : ∀ g b, Statement (.vshr g b) := fun g b =>
  of_fields rfl fun _ => congrArg (fun x => some (Instr.vshr g x)) (unpackVector_packVector b)
theorem vcmp : ∀ g b, Statement (.vcmp g b) := fun g b =>
  of_fields rfl fun _ => congrArg (fun x => some (Instr.vcmp g x)) (unpackVector_packVector b)
theorem vsel : ∀ g b, Statement (.vsel g b) := fun g b =>
  of_fields rfl fun _ => congrArg (fun x => some (Instr.vsel g x)) (unpackVector_packVector b)
theorem vcvt : ∀ g b, Statement (.vcvt g b) := fun g b =>
  of_fields rfl fun _ => congrArg (fun x => some (Instr.vcvt g x)) (unpackVector_packVector b)
theorem vquant : ∀ g b, Statement (.vquant g b) := fun g b =>
  of_fields rfl fun _ => congrArg (fun x => some (Instr.vquant g x)) (unpackVector_packVector b)
theorem vdeq : ∀ g b, Statement (.vdeq g b) := fun g b =>
  of_fields rfl fun _ => congrArg (fun x => some (Instr.vdeq g x)) (unpackVector_packVector b)
theorem vexp2 : ∀ g b, Statement (.vexp2 g b) := fun g b =>
  of_fields rfl fun _ => congrArg (fun x => some (Instr.vexp2 g x)) (unpackVector_packVector b)
theorem vlog2 : ∀ g b, Statement (.vlog2 g b) := fun g b =>
  of_fields rfl fun _ => congrArg (fun x => some (Instr.vlog2 g x)) (unpackVector_packVector b)
theorem vrcp : ∀ g b, Statement (.vrcp g b) := fun g b =>
  of_fields rfl fun _ => congrArg (fun x => some (Instr.vrcp g x)) (unpackVector_packVector b)
theorem vrsq : ∀ g b, Statement (.vrsq g b) := fun g b =>
  of_fields rfl fun _ => congrArg (fun x => some (Instr.vrsq g x)) (unpackVector_packVector b)
theorem vsumr : ∀ g b, Statement (.vsumr g b) := fun g b =>
  of_fields rfl fun _ => congrArg (fun x => some (Instr.vsumr g x)) (unpackVector_packVector b)
theorem vmaxr : ∀ g b, Statement (.vmaxr g b) := fun g b =>
  of_fields rfl fun _ => congrArg (fun x => some (Instr.vmaxr g x)) (unpackVector_packVector b)
theorem vdot : ∀ g b, Statement (.vdot g b) := fun g b =>
  of_fields rfl fun _ => congrArg (fun x => some (Instr.vdot g x)) (unpackVector_packVector b)
theorem vshuf : ∀ g b, Statement (.vshuf g b) := fun g b =>
  of_fields rfl fun _ => congrArg (fun x => some (Instr.vshuf g x)) (unpackVector_packVector b)
theorem vbcast : ∀ g b, Statement (.vbcast g b) := fun g b =>
  of_fields rfl fun _ => congrArg (fun x => some (Instr.vbcast g x)) (unpackVector_packVector b)
theorem vslide : ∀ g b, Statement (.vslide g b) := fun g b =>
  of_fields rfl fun _ => congrArg (fun x => some (Instr.vslide g x)) (unpackVector_packVector b)
theorem viota : ∀ g b, Statement (.viota g b) := fun g b =>
  of_fields rfl fun _ => congrArg (fun x => some (Instr.viota g x)) (unpackVector_packVector b)
theorem vcompr : ∀ g b, Statement (.vcompr g b) := fun g b =>
  of_fields rfl fun _ => congrArg (fun x => some (Instr.vcompr g x)) (unpackVector_packVector b)
theorem vpart : ∀ g b, Statement (.vpart g b) := fun g b =>
  of_fields rfl fun _ => congrArg (fun x => some (Instr.vpart g x)) (unpackVector_packVector b)
theorem vtopk : ∀ g b, Statement (.vtopk g b) := fun g b =>
  of_fields rfl fun _ => congrArg (fun x => some (Instr.vtopk g x)) (unpackVector_packVector b)
theorem vmovs : ∀ g b, Statement (.vmovs g b) := fun g b =>
  of_fields rfl fun _ => congrArg (fun x => some (Instr.vmovs g x)) (unpackVector_packVector b)
theorem vins : ∀ g b, Statement (.vins g b) := fun g b =>
  of_fields rfl fun _ => congrArg (fun x => some (Instr.vins g x)) (unpackVector_packVector b)
theorem nopMatrix : ∀ g body, Statement (.nopMatrix g body) := by intros; exact of_fields rfl fun _ => rfl
theorem mzero : ∀ g b, Statement (.mzero g b) := fun g b =>
  of_fields rfl fun _ => congrArg (fun x => some (Instr.mzero g x)) (unpackMatrix_packMatrix b)
theorem manchor : ∀ g b, Statement (.manchor g b) := fun g b =>
  of_fields rfl fun _ => congrArg (fun x => some (Instr.manchor g x)) (unpackMatrix_packMatrix b)
theorem mma : ∀ g b, Statement (.mma g b) := fun g b =>
  of_fields rfl fun _ => congrArg (fun x => some (Instr.mma g x)) (unpackMatrix_packMatrix b)
theorem mmat : ∀ g b, Statement (.mmat g b) := fun g b =>
  of_fields rfl fun _ => congrArg (fun x => some (Instr.mmat g x)) (unpackMatrix_packMatrix b)
theorem mmaw : ∀ g b, Statement (.mmaw g b) := fun g b =>
  of_fields rfl fun _ => congrArg (fun x => some (Instr.mmaw g x)) (unpackMatrix_packMatrix b)
theorem mread : ∀ g b, Statement (.mread g b) := fun g b =>
  of_fields rfl fun _ => congrArg (fun x => some (Instr.mread g x)) (unpackMatrix_packMatrix b)
theorem mstat : ∀ g b, Statement (.mstat g b) := fun g b =>
  of_fields rfl fun _ => congrArg (fun x => some (Instr.mstat g x)) (unpackMatrix_packMatrix b)
theorem mclr : ∀ g b, Statement (.mclr g b) := fun g b =>
  of_fields rfl fun _ => congrArg (fun x => some (Instr.mclr g x)) (unpackMatrix_packMatrix b)
theorem tidset : ∀ g b, Statement (.tidset g b) := fun g b =>
  of_fields rfl fun _ => congrArg (fun x => some (Instr.tidset g x)) (unpackMatrix_packMatrix b)
theorem tidstep : ∀ g b, Statement (.tidstep g b) := by
  intro g b
  refine of_fields rfl fun h => ?_
  simp only [rowMatches, Bool.not_eq_true'] at h
  show (if bitOf (packMatrix b) 16 = true then _ else _) = _
  rw [if_neg (ne_true_of_eq_false (by rw [bitOf_packMatrix]; exact h)), unpackMatrix_packMatrix]
theorem tidstepSet : ∀ g b, Statement (.tidstepSet g b) := by
  intro g b
  refine of_fields rfl fun h => ?_
  simp only [rowMatches] at h
  show (if bitOf (packMatrix b) 16 = true then _ else _) = _
  rw [if_pos (by rw [bitOf_packMatrix]; exact h), unpackMatrix_packMatrix]
theorem lrzero : ∀ g b, Statement (.lrzero g b) := fun g b =>
  of_fields rfl fun _ => congrArg (fun x => some (Instr.lrzero g x)) (unpackMatrix_packMatrix b)
theorem lrset : ∀ g b, Statement (.lrset g b) := fun g b =>
  of_fields rfl fun _ => congrArg (fun x => some (Instr.lrset g x)) (unpackMatrix_packMatrix b)
theorem lradd : ∀ g b, Statement (.lradd g b) := fun g b =>
  of_fields rfl fun _ => congrArg (fun x => some (Instr.lradd g x)) (unpackMatrix_packMatrix b)
theorem lrscale : ∀ g b, Statement (.lrscale g b) := fun g b =>
  of_fields rfl fun _ => congrArg (fun x => some (Instr.lrscale g x)) (unpackMatrix_packMatrix b)
theorem lrmul : ∀ g b, Statement (.lrmul g b) := fun g b =>
  of_fields rfl fun _ => congrArg (fun x => some (Instr.lrmul g x)) (unpackMatrix_packMatrix b)
theorem lrmuld : ∀ g b, Statement (.lrmuld g b) := fun g b =>
  of_fields rfl fun _ => congrArg (fun x => some (Instr.lrmuld g x)) (unpackMatrix_packMatrix b)
theorem lrtrunc : ∀ g b, Statement (.lrtrunc g b) := fun g b =>
  of_fields rfl fun _ => congrArg (fun x => some (Instr.lrtrunc g x)) (unpackMatrix_packMatrix b)
theorem lrdense : ∀ g b, Statement (.lrdense g b) := fun g b =>
  of_fields rfl fun _ => congrArg (fun x => some (Instr.lrdense g x)) (unpackMatrix_packMatrix b)
theorem lrcomp : ∀ g b, Statement (.lrcomp g b) := fun g b =>
  of_fields rfl fun _ => congrArg (fun x => some (Instr.lrcomp g x)) (unpackMatrix_packMatrix b)
theorem lrapply : ∀ g b, Statement (.lrapply g b) := fun g b =>
  of_fields rfl fun _ => congrArg (fun x => some (Instr.lrapply g x)) (unpackMatrix_packMatrix b)
theorem lrrank : ∀ g b, Statement (.lrrank g b) := fun g b =>
  of_fields rfl fun _ => congrArg (fun x => some (Instr.lrrank g x)) (unpackMatrix_packMatrix b)
theorem nopLoad : ∀ g body, Statement (.nopLoad g body) := by intros; exact of_fields rfl fun _ => rfl
theorem ld : ∀ g b, Statement (.ld g b) := fun g b =>
  of_fields rfl fun _ => congrArg (fun x => some (Instr.ld g x)) (unpackMem_packMem b)
theorem lda : ∀ g b, Statement (.lda g b) := fun g b =>
  of_fields rfl fun _ => congrArg (fun x => some (Instr.lda g x)) (unpackMem_packMem b)
theorem lds : ∀ g b, Statement (.lds g b) := fun g b =>
  of_fields rfl fun _ => congrArg (fun x => some (Instr.lds g x)) (unpackMem_packMem b)
theorem vld : ∀ g b, Statement (.vld g b) := fun g b =>
  of_fields rfl fun _ => congrArg (fun x => some (Instr.vld g x)) (unpackMem_packMem b)
theorem vlds : ∀ g b, Statement (.vlds g b) := fun g b =>
  of_fields rfl fun _ => congrArg (fun x => some (Instr.vlds g x)) (unpackMem_packMem b)
theorem tlds : ∀ g b, Statement (.tlds g b) := fun g b =>
  of_fields rfl fun _ => congrArg (fun x => some (Instr.tlds g x)) (unpackMem_packMem b)
theorem vgath : ∀ g b, Statement (.vgath g b) := fun g b =>
  of_fields rfl fun _ => congrArg (fun x => some (Instr.vgath g x)) (unpackMem_packMem b)
theorem capld : ∀ g b, Statement (.capld g b) := fun g b =>
  of_fields rfl fun _ => congrArg (fun x => some (Instr.capld g x)) (unpackMem_packMem b)
theorem lrlds : ∀ g b, Statement (.lrlds g b) := fun g b =>
  of_fields rfl fun _ => congrArg (fun x => some (Instr.lrlds g x)) (unpackMem_packMem b)
theorem nopStore : ∀ g body, Statement (.nopStore g body) := by intros; exact of_fields rfl fun _ => rfl
theorem st : ∀ g b, Statement (.st g b) := fun g b =>
  of_fields rfl fun _ => congrArg (fun x => some (Instr.st g x)) (unpackMem_packMem b)
theorem stl : ∀ g b, Statement (.stl g b) := fun g b =>
  of_fields rfl fun _ => congrArg (fun x => some (Instr.stl g x)) (unpackMem_packMem b)
theorem sts : ∀ g b, Statement (.sts g b) := fun g b =>
  of_fields rfl fun _ => congrArg (fun x => some (Instr.sts g x)) (unpackMem_packMem b)
theorem vst : ∀ g b, Statement (.vst g b) := fun g b =>
  of_fields rfl fun _ => congrArg (fun x => some (Instr.vst g x)) (unpackMem_packMem b)
theorem vsts : ∀ g b, Statement (.vsts g b) := fun g b =>
  of_fields rfl fun _ => congrArg (fun x => some (Instr.vsts g x)) (unpackMem_packMem b)
theorem tsts : ∀ g b, Statement (.tsts g b) := fun g b =>
  of_fields rfl fun _ => congrArg (fun x => some (Instr.tsts g x)) (unpackMem_packMem b)
theorem vscat : ∀ g b, Statement (.vscat g b) := fun g b =>
  of_fields rfl fun _ => congrArg (fun x => some (Instr.vscat g x)) (unpackMem_packMem b)
theorem capst : ∀ g b, Statement (.capst g b) := fun g b =>
  of_fields rfl fun _ => congrArg (fun x => some (Instr.capst g x)) (unpackMem_packMem b)
theorem atom : ∀ g b, Statement (.atom g b) := fun g b =>
  of_fields rfl fun _ => congrArg (fun x => some (Instr.atom g x)) (unpackMem_packMem b)
theorem atoms : ∀ g b, Statement (.atoms g b) := fun g b =>
  of_fields rfl fun _ => congrArg (fun x => some (Instr.atoms g x)) (unpackMem_packMem b)
theorem lrsts : ∀ g b, Statement (.lrsts g b) := fun g b =>
  of_fields rfl fun _ => congrArg (fun x => some (Instr.lrsts g x)) (unpackMem_packMem b)
theorem nopPump : ∀ g body, Statement (.nopPump g body) := by intros; exact of_fields rfl fun _ => rfl
theorem pcopy : ∀ g b, Statement (.pcopy g b) := fun g b =>
  of_fields rfl fun _ => congrArg (fun x => some (Instr.pcopy g x)) (unpackPump_packPump b)
theorem pfill : ∀ g b, Statement (.pfill g b) := fun g b =>
  of_fields rfl fun _ => congrArg (fun x => some (Instr.pfill g x)) (unpackPump_packPump b)
theorem pgath : ∀ g b, Statement (.pgath g b) := fun g b =>
  of_fields rfl fun _ => congrArg (fun x => some (Instr.pgath g x)) (unpackPump_packPump b)
theorem pscat : ∀ g b, Statement (.pscat g b) := fun g b =>
  of_fields rfl fun _ => congrArg (fun x => some (Instr.pscat g x)) (unpackPump_packPump b)
theorem pdecl : ∀ g b, Statement (.pdecl g b) := fun g b =>
  of_fields rfl fun _ => congrArg (fun x => some (Instr.pdecl g x)) (unpackPump_packPump b)
theorem pflushx : ∀ g b, Statement (.pflushx g b) := fun g b =>
  of_fields rfl fun _ => congrArg (fun x => some (Instr.pflushx g x)) (unpackPump_packPump b)
theorem kvappend : ∀ g b, Statement (.kvappend g b) := fun g b =>
  of_fields rfl fun _ => congrArg (fun x => some (Instr.kvappend g x)) (unpackPump_packPump b)
theorem kvattn : ∀ g b, Statement (.kvattn g b) := fun g b =>
  of_fields rfl fun _ => congrArg (fun x => some (Instr.kvattn g x)) (unpackPump_packPump b)
theorem kvscore : ∀ g b, Statement (.kvscore g b) := fun g b =>
  of_fields rfl fun _ => congrArg (fun x => some (Instr.kvscore g x)) (unpackPump_packPump b)
theorem kvseal : ∀ g b, Statement (.kvseal g b) := fun g b =>
  of_fields rfl fun _ => congrArg (fun x => some (Instr.kvseal g x)) (unpackPump_packPump b)
theorem kvcompact : ∀ g b, Statement (.kvcompact g b) := fun g b =>
  of_fields rfl fun _ => congrArg (fun x => some (Instr.kvcompact g x)) (unpackPump_packPump b)
theorem kvfork : ∀ g b, Statement (.kvfork g b) := by
  intro g b
  refine of_fields rfl fun h => ?_
  simp only [rowMatches, Bool.not_eq_true'] at h
  show (if bitOf (packPump b) 0 = true then _ else _) = _
  rw [if_neg (ne_true_of_eq_false (by rw [bitOf_packPump]; exact h)), unpackPump_packPump]
theorem kvforkNew : ∀ g b, Statement (.kvforkNew g b) := by
  intro g b
  refine of_fields rfl fun h => ?_
  simp only [rowMatches] at h
  show (if bitOf (packPump b) 0 = true then _ else _) = _
  rw [if_pos (by rw [bitOf_packPump]; exact h), unpackPump_packPump]
theorem kvfree : ∀ g b, Statement (.kvfree g b) := fun g b =>
  of_fields rfl fun _ => congrArg (fun x => some (Instr.kvfree g x)) (unpackPump_packPump b)
theorem kvpin : ∀ g b, Statement (.kvpin g b) := fun g b =>
  of_fields rfl fun _ => congrArg (fun x => some (Instr.kvpin g x)) (unpackPump_packPump b)
theorem kvwin : ∀ g b, Statement (.kvwin g b) := fun g b =>
  of_fields rfl fun _ => congrArg (fun x => some (Instr.kvwin g x)) (unpackPump_packPump b)
theorem kvstat : ∀ g b, Statement (.kvstat g b) := fun g b =>
  of_fields rfl fun _ => congrArg (fun x => some (Instr.kvstat g x)) (unpackPump_packPump b)
theorem colar : ∀ g b, Statement (.colar g b) := fun g b =>
  of_fields rfl fun _ => congrArg (fun x => some (Instr.colar g x)) (unpackPump_packPump b)
theorem colrs : ∀ g b, Statement (.colrs g b) := fun g b =>
  of_fields rfl fun _ => congrArg (fun x => some (Instr.colrs g x)) (unpackPump_packPump b)
theorem colag : ∀ g b, Statement (.colag g b) := fun g b =>
  of_fields rfl fun _ => congrArg (fun x => some (Instr.colag g x)) (unpackPump_packPump b)
theorem colbc : ∀ g b, Statement (.colbc g b) := fun g b =>
  of_fields rfl fun _ => congrArg (fun x => some (Instr.colbc g x)) (unpackPump_packPump b)
theorem colstat : ∀ g b, Statement (.colstat g b) := fun g b =>
  of_fields rfl fun _ => congrArg (fun x => some (Instr.colstat g x)) (unpackPump_packPump b)
theorem stmget : ∀ g b, Statement (.stmget g b) := fun g b =>
  of_fields rfl fun _ => congrArg (fun x => some (Instr.stmget g x)) (unpackPump_packPump b)
theorem stmstat : ∀ g b, Statement (.stmstat g b) := fun g b =>
  of_fields rfl fun _ => congrArg (fun x => some (Instr.stmstat g x)) (unpackPump_packPump b)
theorem wjopen : ∀ g b, Statement (.wjopen g b) := fun g b =>
  of_fields rfl fun _ => congrArg (fun x => some (Instr.wjopen g x)) (unpackPump_packPump b)
theorem wjwrite : ∀ g b, Statement (.wjwrite g b) := fun g b =>
  of_fields rfl fun _ => congrArg (fun x => some (Instr.wjwrite g x)) (unpackPump_packPump b)
theorem wjcommit : ∀ g b, Statement (.wjcommit g b) := fun g b =>
  of_fields rfl fun _ => congrArg (fun x => some (Instr.wjcommit g x)) (unpackPump_packPump b)
theorem wjabort : ∀ g b, Statement (.wjabort g b) := fun g b =>
  of_fields rfl fun _ => congrArg (fun x => some (Instr.wjabort g x)) (unpackPump_packPump b)
theorem wjstat : ∀ g b, Statement (.wjstat g b) := fun g b =>
  of_fields rfl fun _ => congrArg (fun x => some (Instr.wjstat g x)) (unpackPump_packPump b)
theorem nopSync : ∀ g body, Statement (.nopSync g body) := by intros; exact of_fields rfl fun _ => rfl
theorem br : ∀ g b, Statement (.br g b) := by intros; exact of_fields rfl fun _ => rfl
theorem brl : ∀ g b, Statement (.brl g b) := by intros; exact of_fields rfl fun _ => rfl
theorem fence : ∀ g b, Statement (.fence g b) := by intros; exact of_fields rfl fun _ => rfl
theorem cbset : ∀ g b, Statement (.cbset g b) := by intros; exact of_fields rfl fun _ => rfl
theorem cbwait : ∀ g b, Statement (.cbwait g b) := by intros; exact of_fields rfl fun _ => rfl
theorem cbspace : ∀ g b, Statement (.cbspace g b) := by intros; exact of_fields rfl fun _ => rfl
theorem cbadvProduce : ∀ g b, Statement (.cbadvProduce g b) := by
  intro g b
  refine of_fields rfl fun h => ?_
  simp only [rowMatches, Bool.not_eq_true'] at h
  show (if bitOf b 7 = true then _ else _) = _
  rw [if_neg (ne_true_of_eq_false (by exact h))]
theorem cbadvConsume : ∀ g b, Statement (.cbadvConsume g b) := by
  intro g b
  refine of_fields rfl fun h => ?_
  simp only [rowMatches] at h
  show (if bitOf b 7 = true then _ else _) = _
  rw [if_pos (by exact h)]
theorem sigwait : ∀ g b, Statement (.sigwait g b) := by intros; exact of_fields rfl fun _ => rfl
theorem sigadd : ∀ g b, Statement (.sigadd g b) := by intros; exact of_fields rfl fun _ => rfl
theorem jobraise : ∀ g b, Statement (.jobraise g b) := by intros; exact of_fields rfl fun _ => rfl
theorem jobpost : ∀ g b, Statement (.jobpost g b) := by intros; exact of_fields rfl fun _ => rfl
theorem jobwait : ∀ g b, Statement (.jobwait g b) := by intros; exact of_fields rfl fun _ => rfl
theorem bar : ∀ g b, Statement (.bar g b) := by intros; exact of_fields rfl fun _ => rfl
theorem launch : ∀ g b, Statement (.launch g b) := by
  intro g b
  refine of_fields rfl fun h => ?_
  simp only [rowMatches, Bool.not_eq_true'] at h
  show (if bitOf b 4 = true then _ else _) = _
  rw [if_neg (ne_true_of_eq_false (by exact h))]
theorem launchNb : ∀ g b, Statement (.launchNb g b) := by
  intro g b
  refine of_fields rfl fun h => ?_
  simp only [rowMatches] at h
  show (if bitOf b 4 = true then _ else _) = _
  rw [if_pos (by exact h)]
theorem evread : ∀ g b, Statement (.evread g b) := by intros; exact of_fields rfl fun _ => rfl
theorem evwait : ∀ g b, Statement (.evwait g b) := by intros; exact of_fields rfl fun _ => rfl
theorem chk : ∀ g b, Statement (.chk g b) := by intros; exact of_fields rfl fun _ => rfl
theorem rplw : ∀ g b, Statement (.rplw g b) := by intros; exact of_fields rfl fun _ => rfl
theorem tickwait : ∀ g b, Statement (.tickwait g b) := by intros; exact of_fields rfl fun _ => rfl
theorem regionBegin : Statement .regionBegin := by intros; exact of_none rfl
theorem regionCommit : Statement .regionCommit := by intros; exact of_none rfl
theorem preemptionPoint : Statement .preemptionPoint := by intros; exact of_none rfl
theorem commitStageDeparture : ∀ tile ctx, Statement (.commitStageDeparture tile ctx) := by intros; exact of_none rfl
theorem engineOperationComplete : ∀ tile e, Statement (.engineOperationComplete tile e) := by intros; exact of_none rfl
theorem waitRelease : ∀ tile ctx, Statement (.waitRelease tile ctx) := by intros; exact of_none rfl
theorem systemTrap : ∀ tile ctx r, Statement (.systemTrap tile ctx r) := by intros; exact of_none rfl
theorem eventRecordPost : ∀ dest r, Statement (.eventRecordPost dest r) := by intros; exact of_none rfl
theorem timingErrorReplay : ∀ site, Statement (.timingErrorReplay site) := by intros; exact of_none rfl
theorem stormPeriodEnd : ∀ island, Statement (.stormPeriodEnd island) := by intros; exact of_none rfl
theorem preemptionRequestDelivery : ∀ tile ctx, Statement (.preemptionRequestDelivery tile ctx) := by intros; exact of_none rfl
theorem forcedPreemption : ∀ tile ctx, Statement (.forcedPreemption tile ctx) := by intros; exact of_none rfl
theorem contextSave : ∀ tile ctx, Statement (.contextSave tile ctx) := by intros; exact of_none rfl
theorem contextResume : ∀ queue tile ctx, Statement (.contextResume queue tile ctx) := by intros; exact of_none rfl
theorem featureMigration : ∀ tile ctx bit, Statement (.featureMigration tile ctx bit) := by intros; exact of_none rfl
theorem pumpDelivery : ∀ cmd bytes, Statement (.pumpDelivery cmd bytes) := by intros; exact of_none rfl
theorem pumpCommandComplete : ∀ cmd, Statement (.pumpCommandComplete cmd) := by intros; exact of_none rfl
theorem atomicHomePerform : ∀ slice, Statement (.atomicHomePerform slice) := by intros; exact of_none rfl
theorem wideVariantLaunch : ∀ gang, Statement (.wideVariantLaunch gang) := by intros; exact of_none rfl
theorem kvCommandResolve : ∀ cmd, Statement (.kvCommandResolve cmd) := by intros; exact of_none rfl
theorem compactionJob : ∀ die, Statement (.compactionJob die) := by intros; exact of_none rfl
theorem compactionInstall : ∀ die, Statement (.compactionInstall die) := by intros; exact of_none rfl
theorem spillReadback : ∀ asid obj block, Statement (.spillReadback asid obj block) := by intros; exact of_none rfl
theorem streamTokenArrival : ∀ message, Statement (.streamTokenArrival message) := by intros; exact of_none rfl
theorem tick : ∀ arm, Statement (.tick arm) := by intros; exact of_none rfl
theorem tickWakeLead : ∀ arm, Statement (.tickWakeLead arm) := by intros; exact of_none rfl
theorem holdLimitExpiry : ∀ cmd, Statement (.holdLimitExpiry cmd) := by intros; exact of_none rfl
theorem stmgetResolve : ∀ cmd, Statement (.stmgetResolve cmd) := by intros; exact of_none rfl
theorem stepEnd : ∀ arm, Statement (.stepEnd arm) := by intros; exact of_none rfl
theorem clockShareWindow : ∀ island, Statement (.clockShareWindow island) := by intros; exact of_none rfl
theorem collectiveAccept : ∀ news, Statement (.collectiveAccept news) := by intros; exact of_none rfl
theorem versionAgreement : ∀ group held same, Statement (.versionAgreement group held same) := by intros; exact of_none rfl
theorem chunkReduced : ∀ group chunk contributions, Statement (.chunkReduced group chunk contributions) := by intros; exact of_none rfl
theorem chunkBroadcastComplete : ∀ group chunk, Statement (.chunkBroadcastComplete group chunk) := by intros; exact of_none rfl
theorem collectiveRecovery : ∀ group version held unfinished, Statement (.collectiveRecovery group version held unfinished) := by intros; exact of_none rfl
theorem collectiveTimeout : ∀ news, Statement (.collectiveTimeout news) := by intros; exact of_none rfl
theorem straitPeerDetect : ∀ port, Statement (.straitPeerDetect port) := by intros; exact of_none rfl
theorem identityFlit : ∀ port pkg peerPort versions, Statement (.identityFlit port pkg peerPort versions) := by intros; exact of_none rfl
theorem straitUp : ∀ port, Statement (.straitUp port) := by intros; exact of_none rfl
theorem straitDown : ∀ port, Statement (.straitDown port) := by intros; exact of_none rfl
theorem flitCrcRetry : ∀ port again, Statement (.flitCrcRetry port again) := by intros; exact of_none rfl
theorem virtualLaneStopGo : ∀ port lane free, Statement (.virtualLaneStopGo port lane free) := by intros; exact of_none rfl
theorem linkChangeFlood : ∀ port news, Statement (.linkChangeFlood port news) := by intros; exact of_none rfl
theorem ptpSync : ∀ offset grandmaster source, Statement (.ptpSync offset grandmaster source) := by intros; exact of_none rfl
theorem announceTimeout : ∀ grandmaster, Statement (.announceTimeout grandmaster) := by intros; exact of_none rfl
theorem ethernetFrameReceive : ∀ port vlan kind priority bytes, Statement (.ethernetFrameReceive port vlan kind priority bytes) := by intros; exact of_none rfl
theorem congestionNotification : ∀ qp, Statement (.congestionNotification qp) := by intros; exact of_none rfl
theorem rateRecovery : ∀ qp, Statement (.rateRecovery qp) := by intros; exact of_none rfl
theorem rdmaWrite : ∀ qp obj offset data, Statement (.rdmaWrite qp obj offset data) := by intros; exact of_none rfl
theorem rdmaWriteWithImmediate : ∀ qp obj offset data imm, Statement (.rdmaWriteWithImmediate qp obj offset data imm) := by intros; exact of_none rfl
theorem rdmaRead : ∀ qp obj offset length, Statement (.rdmaRead qp obj offset length) := by intros; exact of_none rfl
theorem notifyKick : ∀ queue, Statement (.notifyKick queue) := by intros; exact of_none rfl
theorem pendingKickService : Statement .pendingKickService := by intros; exact of_none rfl
theorem launchGraph : ∀ queue, Statement (.launchGraph queue) := by intros; exact of_none rfl
theorem signalWrite : ∀ queue, Statement (.signalWrite queue) := by intros; exact of_none rfl
theorem signalAdd : ∀ queue, Statement (.signalAdd queue) := by intros; exact of_none rfl
theorem wait : ∀ queue, Statement (.wait queue) := by intros; exact of_none rfl
theorem copy : ∀ queue, Statement (.copy queue) := by intros; exact of_none rfl
theorem barrier : ∀ queue, Statement (.barrier queue) := by intros; exact of_none rfl
theorem lease : ∀ queue projected, Statement (.lease queue projected) := by intros; exact of_none rfl
theorem timedArm : ∀ queue, Statement (.timedArm queue) := by intros; exact of_none rfl
theorem timedDisarm : ∀ queue, Statement (.timedDisarm queue) := by intros; exact of_none rfl
theorem flushExport : ∀ queue, Statement (.flushExport queue) := by intros; exact of_none rfl
theorem invalidate : ∀ queue, Statement (.invalidate queue) := by intros; exact of_none rfl
theorem regionCreate : ∀ queue, Statement (.regionCreate queue) := by intros; exact of_none rfl
theorem regionAlter : ∀ queue, Statement (.regionAlter queue) := by intros; exact of_none rfl
theorem regionDestroy : ∀ queue, Statement (.regionDestroy queue) := by intros; exact of_none rfl
theorem statement : ∀ queue, Statement (.statement queue) := by intros; exact of_none rfl
theorem nodeDispatch : Statement .nodeDispatch := by intros; exact of_none rfl
theorem nodeComplete : ∀ gang, Statement (.nodeComplete gang) := by intros; exact of_none rfl
theorem instanceEnd : ∀ inst, Statement (.instanceEnd inst) := by intros; exact of_none rfl
theorem queueTeardown : ∀ queue, Statement (.queueTeardown queue) := by intros; exact of_none rfl
theorem queueDrained : ∀ queue, Statement (.queueDrained queue) := by intros; exact of_none rfl
theorem regenerationStart : ∀ asid obj page, Statement (.regenerationStart asid obj page) := by intros; exact of_none rfl
theorem translationWalk : ∀ tile asid obj offset, Statement (.translationWalk tile asid obj offset) := by intros; exact of_none rfl
theorem islandIdle : ∀ island, Statement (.islandIdle island) := by intros; exact of_none rfl
theorem islandIdleExit : ∀ island, Statement (.islandIdleExit island) := by intros; exact of_none rfl
theorem islandPark : ∀ island, Statement (.islandPark island) := by intros; exact of_none rfl
theorem islandOff : ∀ island, Statement (.islandOff island) := by intros; exact of_none rfl
theorem islandWake : ∀ island, Statement (.islandWake island) := by intros; exact of_none rfl
theorem islandWakeComplete : ∀ island badParity, Statement (.islandWakeComplete island badParity) := by intros; exact of_none rfl
theorem resumeTrigger : ∀ tile ctx, Statement (.resumeTrigger tile ctx) := by intros; exact of_none rfl
theorem driverWakeRequest : ∀ islands, Statement (.driverWakeRequest islands) := by intros; exact of_none rfl
theorem cisternRetain : ∀ slice, Statement (.cisternRetain slice) := by intros; exact of_none rfl
theorem cisternWake : ∀ slice, Statement (.cisternWake slice) := by intros; exact of_none rfl
theorem cisternOffRequest : ∀ slice, Statement (.cisternOffRequest slice) := by intros; exact of_none rfl
theorem railSettled : ∀ rail, Statement (.railSettled rail) := by intros; exact of_none rfl
theorem brownOut : ∀ loss, Statement (.brownOut loss) := by intros; exact of_none rfl
theorem powerOnReset : Statement .powerOnReset := by intros; exact of_none rfl
theorem islandSelfTestDone : ∀ island pass, Statement (.islandSelfTestDone island pass) := by intros; exact of_none rfl
theorem lpddr6TrainingDone : Statement .lpddr6TrainingDone := by intros; exact of_none rfl
theorem wellScrub : ∀ tile scrub, Statement (.wellScrub tile scrub) := by intros; exact of_none rfl
theorem journalApply : ∀ tile, Statement (.journalApply tile) := by intros; exact of_none rfl
theorem accountingTick : Statement .accountingTick := by intros; exact of_none rfl
theorem meterIntegration : ∀ rails input failed, Statement (.meterIntegration rails input failed) := by intros; exact of_none rfl
theorem leaseExpiry : ∀ part, Statement (.leaseExpiry part) := by intros; exact of_none rfl
theorem leaseRevoke : ∀ part projected, Statement (.leaseRevoke part projected) := by intros; exact of_none rfl
theorem heatRefresh : ∀ sensors, Statement (.heatRefresh sensors) := by intros; exact of_none rfl
theorem firmwareTakeover : Statement .firmwareTakeover := by intros; exact of_none rfl
theorem mirrorEntry : Statement .mirrorEntry := by intros; exact of_none rfl
theorem update : ∀ slot, Statement (.update slot) := by intros; exact of_none rfl
theorem roleSwap : Statement .roleSwap := by intros; exact of_none rfl
theorem fwUpdateFail : Statement .fwUpdateFail := by intros; exact of_none rfl
theorem load : ∀ asid obj offset, Statement (.load asid obj offset) := by intros; exact of_none rfl
theorem attest : ∀ nonce, Statement (.attest nonce) := by intros; exact of_none rfl
theorem confirm : ∀ request, Statement (.confirm request) := by intros; exact of_none rfl
theorem heat : Statement .heat := by intros; exact of_none rfl
theorem telemetry : Statement .telemetry := by intros; exact of_none rfl
theorem versions : Statement .versions := by intros; exact of_none rfl
theorem queueTableWrite : ∀ queue entry, Statement (.queueTableWrite queue entry) := by intros; exact of_none rfl
theorem asidTableWrite : ∀ asid entry, Statement (.asidTableWrite asid entry) := by intros; exact of_none rfl
theorem serviceEntryWrite : ∀ part entry, Statement (.serviceEntryWrite part entry) := by intros; exact of_none rfl
theorem powerEntryWrite : ∀ part entry, Statement (.powerEntryWrite part entry) := by intros; exact of_none rfl
theorem groupEntryWrite : ∀ group entry, Statement (.groupEntryWrite group entry) := by intros; exact of_none rfl
theorem streamDescriptorWrite : ∀ stream entry, Statement (.streamDescriptorWrite stream entry) := by intros; exact of_none rfl
theorem ownerKeyWrite : ∀ slot key request, Statement (.ownerKeyWrite slot key request) := by intros; exact of_none rfl
theorem partitionEntryWrite : ∀ part entry request, Statement (.partitionEntryWrite part entry request) := by intros; exact of_none rfl
theorem lotterySeedWrite : ∀ seed, Statement (.lotterySeedWrite seed) := by intros; exact of_none rfl
theorem vlanConfig : ∀ port ids, Statement (.vlanConfig port ids) := by intros; exact of_none rfl
theorem portRateSet : ∀ port gbit, Statement (.portRateSet port gbit) := by intros; exact of_none rfl
theorem ptpConfig : ∀ domain delay transport, Statement (.ptpConfig domain delay transport) := by intros; exact of_none rfl
theorem straitTrainRequest : ∀ train, Statement (.straitTrainRequest train) := by intros; exact of_none rfl
theorem straitDownRequest : ∀ port, Statement (.straitDownRequest port) := by intros; exact of_none rfl
theorem autoNegotiation : ∀ port gbit, Statement (.autoNegotiation port gbit) := by intros; exact of_none rfl
theorem queuePairBinding : ∀ qp asid role, Statement (.queuePairBinding qp asid role) := by intros; exact of_none rfl

end Sys2Proof.Laws.Encoding
end

