-- ==== Sys2Proof/Safety.lean ====
section
/-! DEFINITION. The terms in which claims about the part are stated: when an operation is admitted at issue, what a
state change may touch, and the canonical form of memory. -/

namespace Sys2Proof.Machine

/-- An outcome of this machine. -/
abbrev Out := Host.Outcome State Fault Refusal

/-- The encoding of an operation passes the checks of R84 (and of R310 in a marked slot) where it issues. -/
def State.Legal (s : State) (i : Instr) : Prop := s.encStop i = .ok ()

/-- An operation is admitted at issue: a legal encoding, a condition that does not discard it (R72), and every check
that its description makes at issue passes (R84, R194, R424). -/
def State.Admits (s : State) (i : Instr) : Prop := s.Legal i ∧ s.discarded i = false ∧ runCheck i s = .ok ()

/-- The 256 bytes `N` and the flags `fl` are the result of an element-wise operation (R128, R129) on `n` elements of width
`w` for destination `r`: element e is `f e` where its lane is active and what stood there elsewhere, and the flags are the
OR of those of the active elements. -/
def State.VecResult (s : State) (g : Guard) (r : BitVec 8) (w n : Nat) (f : Nat → Nat × Flags) (N : Nat) (fl : Flags) :
    Prop :=
  N < 2 ^ (w * n) ∧
    (∀ e < n, elemAt w N e =
      if activeElem (s.lanes g) w e then (f e).1 % 2 ^ w else elemAt w (s.vold g r 0) e) ∧
    (∀ k, fl.getLsbD k = true ↔ ∃ e < n, activeElem (s.lanes g) w e = true ∧ (f e).2.getLsbD k = true)

/-- The 256 bytes `N` are a reduction's result (R141): elements 0, 1, … of 32 bits replaced by `vs`, whatever the
predicate, the rest of the destination as it stood. -/
def State.RedResult (s : State) (g : Guard) (r : BitVec 8) (vs : List Nat) (N : Nat) : Prop :=
  ∀ e, elemAt 32 N e = match vs[e]? with
    | some v => v % 2 ^ 32
    | none => elemAt 32 (s.vold g r 0) e

/-- Nothing but the issuing context differs: every other context, every tile, memory and every other agent stay. -/
def State.OnlyMe (s t : State) : Prop := ∃ x, t = s.setMe x

/-- Nothing but the issuing context and the register space of its tile differs. -/
def State.OnlyMeAndSpace (s t : State) : Prop :=
  ∃ x sp, t = (s.setMe x).modTile s.myTile fun y => { y with space := sp }

/-- An access of `len` bytes at `eo` whose object translates as one extent (R230, R353, R354): the object's entry has
MAP 0, the capability's kind and the rights the access needs, no remote-copy attribute and a range that holds the
access; `pa` is where the access starts, and every byte of it exists and lies in LPDDR6, the carve-out, a mailbox window
or a scratchpad. -/
def State.Plain (s : State) (c : Cap) (rs : List Nat) (eo len pa : Nat) : Prop :=
  ∃ e, s.lookObj s.myTile s.me.sys.asid c.obj = some e ∧ bitsOf e 87 84 = c.kind ∧
    hasRights (e.extractLsb' 88 8) rs = true ∧ eo + len ≤ bitsOf e 207 160 ∧ bitsOf e 83 82 = 0 ∧
    e.getLsbD 81 = false ∧ pa = extentPa s.myTile (bitsOf e 159 96) eo ∧
    ∀ k < len, paExists (pa + k) = true ∧ paSpace (pa + k) ≠ 3

/-- What the translation of an access through `c` leaves: the port keeps the object's entry (R230, R356). -/
def State.afterPort (s : State) (c : Cap) : State :=
  match s.lookObj s.myTile s.me.sys.asid c.obj with
  | some e => s.fillObj s.myTile s.me.sys.asid c.obj e
  | none => s

/-- What a load of `n` bytes at `pa` through `c` leaves behind but its result: the entry is kept, the slices are reached
(R230, R375). -/
def State.afterLoad (s : State) (c : Cap) (pa n : Nat) : State := (s.afterPort c).touchPieces [(pa, n)]

/-- The `n` bytes at `pa` as the issuing context sees them: each the last own store that has not left the commit stage,
else memory's (R33, R234). -/
def State.ownBytes (s : State) (pa n : Nat) : List Byte :=
  (List.range n).map fun k => forward s.me.commitQ (pa + k) (s.rd8 (pa + k))

/-- Bytes with their addresses from `pa` up. -/
def cellsAt (pa : Nat) (bs : List Byte) : List (Nat × Byte) := (List.range bs.length).map fun k => (pa + k, bs.getD k 0)

/-- The issuing context with the operation `op` of a slot at the end of its commit stage, held where a region is open (R33,
R34); one of slot 7 stands behind what waits in the sync queue (R19). -/
def State.entered (s : State) (slot cls scope : Nat) (op : CommitOp) : State :=
  s.setMe { s.me with commitQ := s.me.commitQ ++ [{ bundle := s.me.bundleNo, pc := s.me.pc, cls := cls, scope := scope,
                                                    held := s.me.region.isSome, behind := s.lastSync slot, op := op }] }

/-- There is room for `op` in what open regions hold: the tile's store buffer, the context's queue (R33). -/
def State.CanCommit (s : State) (op : CommitOp) : Prop := s.me.region = none ∨ s.fits op = true

/-- The command that the pump port captures for an operation of opcode `opc` (R21, R204): the identity of its context
and bundle, the captured capabilities and s-registers, the signal in AREG1 where `sg` says that it carries one, and
nothing done yet. -/
def State.captured (s : State) (i : Instr) (opc : Nat) (b : PumpBody) (sg : Bool) : PumpCmd :=
  { id := s.nextId, tile := s.myTile, ctx := s.myCtx, bundle := s.me.bundleNo, pc := s.me.pc, asid := s.me.sys.asid,
    opc := opc, body := b, cap0 := s.ra b.areg0.toNat, cap1 := s.ra b.areg1.toNat, s0 := s.rs b.s0, s1 := s.rs b.s1,
    slotWord := (encode i).getD 0, place := .port, step := s.me.task.bind fun k => k.step, arm := s.me.task.bind fun k => k.arm,
    signal := if sg = true then some (s.ra b.areg1.toNat) else none }

/-- The state in which a command has taken the next number (R204). -/
def State.numbered (s : State) : State := { s with nextId := s.nextId + 1 }

/-- The state in which a command stands in the pump port (R204). -/
def State.inPort (s : State) (m : PumpCmd) : State :=
  { s.numbered with core := { s.core with cmds := s.core.cmds ++ [m] } }

/-- Packet `v` of a kind is the oldest of an ACTIVE queue and may be served; `rest` stands behind it (R330, R332, R400). -/
def State.Head (s : State) (q kind : Nat) (v : BitVec 1024) (rest : List (BitVec 1024)) : Prop :=
  (s.queue q).packets = v :: rest ∧ qState (s.queue q).entry = 1 ∧ pkKind v = kind ∧ pkHeadOk v = true ∧ s.holdFull = false

/-- Nothing follows a retirement: no copy of the queue waits for one (R330), and the next packet's header is not refused
(R332). -/
def State.Still (s : State) (q : Nat) (rest : List (BitVec 1024)) : Prop :=
  (s.queue q).copying = none ∧ ∀ w ∈ rest.head?, pkHeadOk w = true

/-- The oldest packet is gone, and with it every next one whose header is refused (R332); said where no copy of the queue
waits for a retirement (R330). -/
def State.Popped (s u : State) (q : Nat) (rest : List (BitVec 1024)) : Prop :=
  (s.queue q).copying = none → (u.queue q).packets = rest.dropWhile fun w => !pkHeadOk w

/-- The packet has retired with a status, by which its signal has been updated (R332, R333); said of the signal where
no takeover holds completions and nothing follows. -/
def State.Retired (s u : State) (q : Nat) (v : BitVec 1024) (rest : List (BitVec 1024)) (status : Nat) : Prop :=
  s.Popped u q rest ∧ (s.Still q rest → s.sec.fw.hold = none → ∀ pa, pkSig v = true →
    s.pkSignal q v [sigRight v] = some (pa, []) →
      u.rdNat pa 8 = (signalMerge (BitVec.ofNat 64 (s.rdNat pa 8)) (-1) status).toNat)

/-- The packet has been refused (R332): retired with STATUS 2 and counted. -/
def State.Refused (s u : State) (q : Nat) (v : BitVec 1024) (rest : List (BitVec 1024)) : Prop :=
  s.Retired u q v rest 2 ∧
    (s.Still q rest → qErrcnt (u.queue q).entry = min 0xFFFF (qErrcnt (s.queue q).entry + 1))

/-- Every byte that the two states' memories hold is the same. -/
def State.SameMem (s t : State) : Prop := ∀ a, t.rd8 a = s.rd8 a

/-- Only the bytes of cells differ, and each holds the last value written to it. -/
def State.Wrote (s t : State) (cs : List (Nat × Byte)) : Prop :=
  ∀ a, t.rd8 a = ((cs.filter fun x => x.1 == a).getLast?.map Prod.snd).getD (s.rd8 a)

/-- Memory has its canonical form. -/
def State.MemCanonical (s : State) : Prop := Memory.wf s.core.mem = true

end Sys2Proof.Machine
end

