-- ==== Sys2Proof/Certificates/Slice0/Obligations.lean ====
section
/-! DEFINITION. The statements that are to be proved of the model. Each docstring names the rules of spec/ that the
statement formalises, or the log entry where a clause is the model's own choice. -/

open Sys2Proof Sys2Proof.Machine

/-- R99: with a = s[rs1] and b = s[rs2] or the widened immediate, each admitted integer operation but DIV and REM
(which R99 leaves to R100) completes, for every a and b: the next state is the one in which s[rd] and the scalar
latch hold the row's result and nothing else differs (ScalarOutputs says what scalarS writes). No flag is set and no
value traps. -/
def Obligations.IntegerResults : Prop :=
  ∀ (g : Guard) (x : ScalarBody) (s : State),
  let a := s.rs (sbRs1 x)
  let b := s.opB x
  let out := fun v : Word => (.next (s.scalarS (sbRd x) v) : Out)
  (s.Admits (.add g x) → exec (.add g x) s = out (BitVec.ofNat 64 (a.toNat + b.toNat))) ∧
  (s.Admits (.sub g x) → exec (.sub g x) s = out (BitVec.ofInt 64 (a.toNat - b.toNat))) ∧
  (s.Admits (.mul g x) → exec (.mul g x) s = out (BitVec.ofNat 64 (a.toNat * b.toNat))) ∧
  (s.Admits (.mulh g x) → exec (.mulh g x) s = out
    (if sbU x then (BitVec.ofNat 128 (a.toNat * b.toNat)).extractLsb' 64 64
     else (BitVec.ofInt 128 (a.toInt * b.toInt)).extractLsb' 64 64)) ∧
  (s.Admits (.and g x) → exec (.and g x) s = out (a &&& b)) ∧
  (s.Admits (.or g x) → exec (.or g x) s = out (a ||| b)) ∧
  (s.Admits (.xor g x) → exec (.xor g x) s = out (a ^^^ b)) ∧
  (s.Admits (.andn g x) → exec (.andn g x) s = out (a &&& ~~~b)) ∧
  (s.Admits (.shl g x) → exec (.shl g x) s = out (BitVec.ofNat 64 (a.toNat * 2 ^ (b.toNat % 64)))) ∧
  (s.Admits (.shr g x) → exec (.shr g x) s = out (BitVec.ofNat 64 (a.toNat / 2 ^ (b.toNat % 64)))) ∧
  (s.Admits (.sra g x) → exec (.sra g x) s = out (BitVec.ofInt 64 (a.toInt / 2 ^ (b.toNat % 64)))) ∧
  (s.Admits (.min g x) → exec (.min g x) s = out
    (if (if sbU x then decide (a.toNat ≤ b.toNat) else decide (a.toInt ≤ b.toInt)) then a else b)) ∧
  (s.Admits (.max g x) → exec (.max g x) s = out
    (if (if sbU x then decide (a.toNat ≤ b.toNat) else decide (a.toInt ≤ b.toInt)) then b else a)) ∧
  (s.Admits (.clz g x) → ∃ n ≤ 64, exec (.clz g x) s = out (BitVec.ofNat 64 n) ∧
    (∀ k, 64 - n ≤ k → k < 64 → a.getLsbD k = false) ∧ (n < 64 → a.getLsbD (63 - n) = true)) ∧
  (s.Admits (.popc g x) → exec (.popc g x) s =
    out (BitVec.ofNat 64 ((List.range 64).countP fun k => a.getLsbD k)))

/-- R100: admitted DIV and REM complete for every a and b. A divisor of zero gives a quotient of all ones and the
remainder a, with no trap; signed, the least number by −1 gives itself and 0; otherwise the quotient is truncated
toward zero and the remainder is a − q × b. -/
def Obligations.DivideResults : Prop :=
  ∀ (g : Guard) (x : ScalarBody) (s : State),
  let a := s.rs (sbRs1 x)
  let b := s.opB x
  let out := fun v : Word => (.next (s.scalarS (sbRd x) v) : Out)
  (s.Admits (.div g x) →
    (b = 0 → exec (.div g x) s = out (BitVec.allOnes 64)) ∧
    (b ≠ 0 → sbU x = true → exec (.div g x) s = out (BitVec.ofNat 64 (a.toNat / b.toNat))) ∧
    (b ≠ 0 → sbU x = false → a.toInt = -2 ^ 63 → b.toInt = -1 → exec (.div g x) s = out a) ∧
    (b ≠ 0 → sbU x = false → exec (.div g x) s = out (BitVec.ofInt 64 (a.toInt.tdiv b.toInt)))) ∧
  (s.Admits (.rem g x) →
    (b = 0 → exec (.rem g x) s = out a) ∧
    (b ≠ 0 → sbU x = true → exec (.rem g x) s = out (BitVec.ofNat 64 (a.toNat % b.toNat))) ∧
    (b ≠ 0 → sbU x = false → a.toInt = -2 ^ 63 → b.toInt = -1 → exec (.rem g x) s = out 0) ∧
    (b ≠ 0 → sbU x = false → exec (.rem g x) s = out (BitVec.ofInt 64 (a.toInt - a.toInt.tdiv b.toInt * b.toInt))))

/-- R101, R102: admitted LI, LIH, MOV (by MODE), SEL and CMP (by COND, the ten assigned codes) complete with the
result of their row in s[rd], or in all 64 bits of p[rd]. -/
def Obligations.MoveSelectCompare : Prop :=
  ∀ (g : Guard) (x : ScalarBody) (s : State),
  let outS := fun v : Word => (.next (s.scalarS (sbRd x) v) : Out)
  let outP := fun v : Mask => (.next (s.scalarP (sbRd x) v) : Out)
  let mode := bitsOf (sbAux x) 2 0
  let a := s.rs (sbRs1 x)
  let b := s.cmpB x
  let all := fun c : Bool => exec (.cmp g x) s = outP (if c then BitVec.allOnes 64 else 0)
  (s.Admits (.li g x) → exec (.li g x) s = outS
    (if (sbAux2 x).getLsbD 0 then (sbImm x).zeroExtend 64 else (sbImm x).signExtend 64)) ∧
  (s.Admits (.lih g x) → exec (.lih g x) s = outS
    (BitVec.ofNat 64 ((sbImm x).toNat * 2 ^ 32 + (s.rs (sbRd x)).toNat % 2 ^ 32))) ∧
  (s.Admits (.mov g x) →
    (mode = 0 → exec (.mov g x) s = outS a) ∧
    (mode = 1 → exec (.mov g x) s = outP a) ∧
    (mode = 2 → exec (.mov g x) s = outS (s.rp (sbRs1 x).toNat)) ∧
    (mode = 3 → exec (.mov g x) s = outP (s.rp (sbRs1 x).toNat)) ∧
    (mode = 4 → exec (.mov g x) s = outS ((s.rb (sbRs1 x).toNat).zeroExtend 64))) ∧
  (s.Admits (.sel g x) → exec (.sel g x) s = outS
    (if (s.rp (bitsOf (sbAux x) 3 0)).getLsbD 0 then a else s.rs (sbRs2 x))) ∧
  (s.Admits (.cmp g x) →
    (cmpCode x = 0 → all (decide <| a = b)) ∧ (cmpCode x = 1 → all (decide <| a ≠ b)) ∧
    (cmpCode x = 2 → all (decide <| a.toInt < b.toInt)) ∧ (cmpCode x = 3 → all (decide <| b.toInt ≤ a.toInt)) ∧
    (cmpCode x = 4 → all (decide <| a.toNat < b.toNat)) ∧ (cmpCode x = 5 → all (decide <| b.toNat ≤ a.toNat)) ∧
    (cmpCode x = 6 → all (decide <| a.toInt ≤ b.toInt)) ∧ (cmpCode x = 7 → all (decide <| b.toInt < a.toInt)) ∧
    (cmpCode x = 8 → all (decide <| a.toNat ≤ b.toNat)) ∧ (cmpCode x = 9 → all (decide <| b.toNat < a.toNat)) ∧
    (∀ rd rs1 aux2 imm, x = .si rd rs1 aux2 imm → b.toInt = (imm.extractLsb' 0 28).toInt))

/-- R103: admitted PAND, POR, PXOR, PANDN, PSET (its three forms) and PCNT (its two) complete with the result of
their row. -/
def Obligations.PredicateResults : Prop :=
  ∀ (g : Guard) (x : ScalarBody) (s : State),
  let outS := fun v : Word => (.next (s.scalarS (sbRd x) v) : Out)
  let outP := fun v : Mask => (.next (s.scalarP (sbRd x) v) : Out)
  let p := s.rp (sbRs1 x).toNat
  let q := s.rp (sbRs2 x).toNat
  (s.Admits (.pand g x) → exec (.pand g x) s = outP (p &&& q)) ∧
  (s.Admits (.por g x) → exec (.por g x) s = outP (p ||| q)) ∧
  (s.Admits (.pxor g x) → exec (.pxor g x) s = outP (p ^^^ q)) ∧
  (s.Admits (.pandn g x) → exec (.pandn g x) s = outP (p &&& ~~~q)) ∧
  (s.Admits (.pset g x) → ∃ v : Mask, exec (.pset g x) s = outP v ∧
    ((sbAux2 x).toNat = 0 → ∀ k < 64, v.getLsbD k = decide ((k : Int) < (sbImm x).toInt)) ∧
    ((sbAux2 x).toNat = 1 → ∀ k < 64, v.getLsbD k = (sbImm x).getLsbD (k % 32)) ∧
    ((sbAux2 x).toNat = 2 → ∀ k < 64, v.getLsbD k = decide ((k : Int) < (s.rs (sbRs1 x)).toInt))) ∧
  (s.Admits (.pcnt g x) → ∃ n ≤ 64, exec (.pcnt g x) s = outS (BitVec.ofNat 64 n) ∧
    ((sbAux x).getLsbD 0 = false → n = (List.range 64).countP fun k => p.getLsbD k) ∧
    ((sbAux x).getLsbD 0 = true → (∀ k < n, p.getLsbD k = false) ∧ (n < 64 → p.getLsbD n = true)))

/-- R104, R105: admitted AADD, ASET, AGET, ADROP, AMOV and ACHK complete for every capability. A derived capability
keeps the source's tag and every field but the one the row changes; AGET reads the field named (window start and end
modulo 2^64, the model's choice of notes/assumptions/9.md); ACHK writes all 64 bits. -/
def Obligations.CapabilityResults : Prop :=
  ∀ (g : Guard) (x : ScalarBody) (s : State),
  let outS := fun v : Word => (.next (s.scalarS (sbRd x) v) : Out)
  let outA := fun v : Cap => (.next (s.scalarA (sbRd x) v) : Out)
  let c := s.ra (sbRs1 x).toNat
  let n := (s.opB x).toNat
  let same := fun d : Cap => d.tag = c.tag ∧ d.kind = c.kind ∧ d.obj = c.obj ∧ d.exp = c.exp ∧ d.baseM = c.baseM ∧
    d.lenM = c.lenM
  (s.Admits (.aadd g x) → ∃ d, exec (.aadd g x) s = outA d ∧ same d ∧ d.rights = c.rights ∧
    d.offset = (c.offset + n) % 2 ^ 48) ∧
  (s.Admits (.aset g x) → ∃ d, exec (.aset g x) s = outA d ∧ same d ∧ d.rights = c.rights ∧ d.offset = n % 2 ^ 48) ∧
  (s.Admits (.adrop g x) → ∃ d, exec (.adrop g x) s = outA d ∧ same d ∧ d.offset = c.offset ∧
    d.rights = c.rights &&& ~~~(if sbIsSi x then (sbImm x).extractLsb' 0 8 else (s.rs (sbRs2 x)).extractLsb' 0 8)) ∧
  (s.Admits (.amov g x) → exec (.amov g x) s = outA c) ∧
  (s.Admits (.aget g x) → ∃ v, exec (.aget g x) s = outS (BitVec.ofNat 64 v) ∧
    (bitsOf (sbAux x) 2 0 = 0 → v = c.offset) ∧ (bitsOf (sbAux x) 2 0 = 1 → v = c.baseM * 2 ^ c.exp) ∧
    (bitsOf (sbAux x) 2 0 = 2 → v = (c.baseM + c.lenM) * 2 ^ c.exp) ∧
    (bitsOf (sbAux x) 2 0 = 3 → v = c.rights.toNat) ∧ (bitsOf (sbAux x) 2 0 = 4 → v = c.kind) ∧
    (bitsOf (sbAux x) 2 0 = 5 → v = c.obj) ∧ (bitsOf (sbAux x) 2 0 = 6 → v = c.tag.toNat)) ∧
  (s.Admits (.achk g x) → exec (.achk g x) s = .next (s.scalarP (sbRd x)
    (if c.tag = true ∧ c.rights &&& (sbAux x).extractLsb' 0 8 = (sbAux x).extractLsb' 0 8 ∧ c.ws ≤ c.offset ∧
        c.offset + (s.rs (sbRs2 x)).toNat ≤ c.we then BitVec.allOnes 64 else 0)))

/-- R106: an admitted ANARROW completes for every capability and length. The result keeps tag, rights, kind, object
and offset; with a source exponent above 48 its length is 0 and the exponent and base stay; otherwise, where its
length is not 0, its window lies inside the source window and inside the request [offset, offset + n). -/
def Obligations.NarrowedWindow : Prop :=
  ∀ (g : Guard) (x : ScalarBody) (s : State),
  let c := s.ra (sbRs1 x).toNat
  let n := if sbIsSi x then (sbImm x).toNat else (s.rs (sbRs2 x)).toNat
  s.Admits (.anarrow g x) → ∃ d, exec (.anarrow g x) s = .next (s.scalarA (sbRd x) d) ∧
    d.tag = c.tag ∧ d.rights = c.rights ∧ d.kind = c.kind ∧ d.obj = c.obj ∧ d.offset = c.offset ∧
    (48 < c.exp → d.lenM = 0 ∧ d.exp = c.exp ∧ d.baseM = c.baseM) ∧
    (c.exp ≤ 48 → d.lenM ≠ 0 → max c.offset c.ws ≤ d.ws ∧ d.we ≤ min (c.offset + n) c.we)

/-- R96, R24 and the frame of every scalar operation whose result goes to s[rd], p[rd], a[rd] or b[rd]: the written
register reads the value (s0 and p0 read zero and all ones whatever is written), every other register of the file,
the other files, every other piece of the context, every other context, every tile and every byte of memory stay; ls
takes the value. -/
def Obligations.ScalarOutputs : Prop :=
  (∀ (r : Regs) (v : Word), r.setS 0 v = r ∧ r.getS 0 = 0 ∧ r.setP 0 v = r ∧ r.getP 0 = BitVec.allOnes 64) ∧
  (∀ (r : Regs) (n m : Nat) (v : Word) (c : Cap) (o : Off),
    (n ≠ 0 → (r.setS n v).getS n = v ∧ (r.setP n v).getP n = v) ∧ (r.setA n c).getA n = c ∧ (r.setB n o).getB n = o ∧
    (m ≠ n → (r.setS n v).getS m = r.getS m ∧ (r.setP n v).getP m = r.getP m ∧ (r.setA n c).getA m = r.getA m ∧
      (r.setB n o).getB m = r.getB m) ∧
    ((r.setS n v).p = r.p ∧ (r.setS n v).a = r.a ∧ (r.setS n v).b = r.b) ∧
    ((r.setP n v).s = r.s ∧ (r.setP n v).a = r.a ∧ (r.setP n v).b = r.b) ∧
    ((r.setA n c).s = r.s ∧ (r.setA n c).p = r.p ∧ (r.setA n c).b = r.b) ∧
    ((r.setB n o).s = r.s ∧ (r.setB n o).p = r.p ∧ (r.setB n o).a = r.a)) ∧
  (∀ (s : State) (rd : BitVec 6) (v : Word) (c : Cap) (o : Off),
    let at' := fun (r : Regs) (l : BitVec 128) => s.setMe { s.me with regs := r, latches := { s.me.latches with ls := l } }
    s.scalarS rd v = at' (s.me.regs.setS rd.toNat v) (v.zeroExtend 128) ∧
    s.scalarP rd v = at' (s.me.regs.setP rd.toNat v) (v.zeroExtend 128) ∧
    s.scalarA rd c = at' (s.me.regs.setA rd.toNat c) c.bits ∧
    s.scalarB rd o = at' (s.me.regs.setB rd.toNat o) (o.zeroExtend 128)) ∧
  (∀ (s : State) (x : Ctx), (s.setMe x).me = x ∧
    (∀ t c, ctxKey t c ≠ ctxKey s.myTile s.myCtx → (s.setMe x).ctx t c = s.ctx t c) ∧
    (∀ a, (s.setMe x).rd8 a = s.rd8 a) ∧ (∀ t, (s.setMe x).tile t = s.tile t) ∧
    s.setMe x = { s with core := { s.core with ctxs := (s.setMe x).core.ctxs } })

/-- R25, R107, R109: admitted LOOP completes for every count and END of either form: a count of zero pushes nothing
and sends fetch past the end bundle; any other pushes a level that starts at the next bundle, ends END bundles on,
with index 0. LDELTA writes delta[L][j] and nothing else, whether or not L is on the stack. LBREAK sets the count of
level L to its index + 1 if L is on the stack, else changes nothing. LIDX reads index or count, 0 where L is not on
the stack (the latter also for L of 6 and 7, the model's reading). R25, R27, R108: what the issue of the bundle at
the program counter does to the loop stack. With no level, or an innermost level that ends elsewhere, nothing; with
the innermost level ending here and index + 1 below its count, its index increments, fetch goes to its start and
every a-register offset has delta[L][j] added modulo 2^48 (its other fields stay); otherwise it pops and the next
level out is compared with the same bundle. -/
def Obligations.LoopsAndLoopEnds : Prop :=
  (∀ (g : Guard) (x : ScalarBody) (s : State),
  let go := fun f : Ctx → Ctx => (.next (s.modMe f) : Out)
  let level := bitsOf (sbAux x) 2 0
  (s.Admits (.loop g x) → ∃ n e : Nat,
    (∀ rd rs1 rs2 aux, x = .sr rd rs1 rs2 aux → n = (s.rs rs1).toNat ∧ e = aux.toNat % 2 ^ 16) ∧
    (∀ rd rs1 aux2 imm, x = .si rd rs1 aux2 imm → n = imm.toNat / 2 ^ 16 ∧ e = imm.toNat % 2 ^ 16) ∧ n < 2 ^ 32 ∧
    (n = 0 → exec (.loop g x) s = go fun y => { y with target := some (y.pc + BitVec.ofNat 48 (64 * e) + 64) }) ∧
    (n ≠ 0 → s.me.loops.length < 6 ∧ exec (.loop g x) s = go fun y => { y with loops := y.loops ++
      [{ start := y.pc + 64, stop := y.pc + BitVec.ofNat 48 (64 * e), count := BitVec.ofNat 32 n, index := 0 }] })) ∧
  (s.Admits (.ldelta g x) → ∃ d, exec (.ldelta g x) s = go (fun y => { y with delta := d }) ∧
    (∀ k, FMap.get 0 d k = if k = 16 * (sbRs1 x).toNat + (sbRd x).toNat then
        (if sbIsSi x then sbImm x else (s.rs (sbRs2 x)).extractLsb' 0 32) else FMap.get 0 s.me.delta k)) ∧
  (s.Admits (.lbreak g x) → ∃ ls, exec (.lbreak g x) s = go (fun y => { y with loops := ls }) ∧
    ls.length = s.me.loops.length ∧
    (∀ k v, s.me.loops[k]? = some v →
      ls[k]? = some (if k = level then { v with count := v.index + 1 } else v))) ∧
  (s.Admits (.lidx g x) → ∃ v, exec (.lidx g x) s = .next (s.scalarS (sbRd x) v) ∧
    (s.me.loops.length ≤ level → v = 0) ∧
    (∀ l, s.me.loops[level]? = some l → v.toNat = if (sbAux x).getLsbD 3 then l.count.toNat else l.index.toNat))) ∧
  ((∀ (pc : Off) (l : Level) (ls : List Level),
    endLoops pc [] = ([], none) ∧
    (l.stop ≠ pc → endLoops pc (l :: ls) = (l :: ls, none)) ∧
    (l.stop = pc → l.index.toNat + 1 < l.count.toNat →
      endLoops pc (l :: ls) = ({ l with index := l.index + 1 } :: ls, some (l.start, ls.length))) ∧
    (l.stop = pc → l.count.toNat ≤ l.index.toNat + 1 → endLoops pc (l :: ls) = endLoops pc ls)) ∧
  (∀ (x : Ctx) (l j : Nat), j < 16 →
    let c := x.regs.getA j
    let d := (x.addDeltas l).regs.getA j
    let v := FMap.get 0 x.delta (16 * l + j)
    (d.offset : Int) = (c.offset + v.toInt) % 2 ^ 48 ∧ d.tag = c.tag ∧ d.rights = c.rights ∧ d.kind = c.kind ∧
    d.obj = c.obj ∧ d.exp = c.exp ∧ d.baseM = c.baseM ∧ d.lenM = c.lenM) ∧
  (∀ s : State, let (t, pc, back) := s.loopEnd
    (back = false → pc = s.me.pc + 64 ∧ ∃ ls, t = s.modMe fun y => { y with loops := ls }) ∧
    (∀ ls l, s.me.loops = ls ++ [l] → l.stop = s.me.pc → l.index.toNat + 1 < l.count.toNat →
      back = true ∧ pc = l.start ∧
      t.me = Ctx.addDeltas { s.me with loops := ls ++ [{ l with index := l.index + 1 }] } ls.length)))

/-- R110 to R117, R125, R15: admitted VIEW writes the base of its kind (K also its capacity, and its rank fields to
0, R170) and nothing else. SRR puts the register's value into s[rd]. SRW writes the named register as its layout
says and leaves every other; to SR.PRIV a 0 clears SUP and a 1 leaves it; to SR.WIN the current BASE and SIZE are
never refused, any other write of a context that holds a task sets ERR and keeps BASE and SIZE. RDTIME.ns and .frac
read the device time. FEAT sets all bits of p[rd] where every asked feature is there. -/
def Obligations.ViewsAndSystemRegisters : Prop :=
  ∀ (g : Guard) (x : ScalarBody) (s : State),
  let sys := fun f : SysRegs → SysRegs => (.next (s.modMe fun y => { y with sys := f y.sys }) : Out)
  let v := s.srwVal x
  let n := (sbRd x).toNat
  (s.Admits (.view g x) → s.viewBase x % 256 = 0 ∧ s.viewBase x < 4096 * s.me.sys.winSize ∧ ∃ w,
    exec (.view g x) s = .next (s.modMe fun y => { y with views := w }) ∧
    w = (if n = 0 then { s.me.views with v := s.viewBase x } else if n = 1 then { s.me.views with t := s.viewBase x }
      else if n = 2 then { s.me.views with c := s.viewBase x }
      else { s.me.views with k := s.viewBase x, kCap := s.viewCap x, ranks := [] })) ∧
  (s.Admits (.srr g x) → exec (.srr g x) s = .next (s.scalarS (sbRd x) (s.sysReg (sbRs1 x).toNat))) ∧
  (s.Admits (.srw g x) →
    (n = 5 → exec (.srw g x) s = sys fun y => { y with asid := v.toNat % 2 ^ 12 }) ∧
    (n = 8 → exec (.srw g x) s = sys fun y => { y with nflag := v.extractLsb' 0 6 }) ∧
    (n = 9 → exec (.srw g x) s = sys fun y => { y with qclamp := v.extractLsb' 0 32 }) ∧
    (n = 10 → exec (.srw g x) s = sys fun y => { y with ufmax := v.extractLsb' 32 32, clampmax := v.extractLsb' 0 32 }) ∧
    (n = 11 → exec (.srw g x) s = sys fun y => { y with tol := v.extractLsb' 0 32 }) ∧
    (n = 12 → exec (.srw g x) s = sys fun y => { y with tolAbs := v.getLsbD 0 }) ∧
    (n = 13 → exec (.srw g x) s = sys fun y => { y with utvecEn := v.getLsbD 0, utvec := v.extractLsb' 6 42 }) ∧
    (n = 14 → exec (.srw g x) s = sys fun y => { y with
      inh := v.getLsbD 32, info := v.extractLsb' 16 16, slot := v.extractLsb' 8 3, cause := v.extractLsb' 0 8 }) ∧
    (n = 15 → exec (.srw g x) s = sys fun y => { y with utepc := v.extractLsb' 6 42 }) ∧
    (n = 16 → exec (.srw g x) s = sys fun y => { y with sepc := v.extractLsb' 6 42 }) ∧
    (n ∈ [5, 8, 9, 10, 11, 12, 13, 14, 15, 16] ∨ n = 6 ∨ n = 7)) ∧
  (s.Admits (.srPrivWrite g x) → n = 6 → s.me.sys.sup = true ∧
    exec (.srPrivWrite g x) s = sys fun y => { y with sup := v.getLsbD 0 }) ∧
  (s.Admits (.srWinWrite g x) → n = 7 →
    let base := v.toNat % 2 ^ 7
    let size := v.toNat / 2 ^ 8 % 2 ^ 8
    (base = s.me.sys.winBase ∧ size = s.me.sys.winSize →
      exec (.srWinWrite g x) s = sys fun y => { y with winErr := y.winErr && !v.getLsbD 16 }) ∧
    (¬ (base = s.me.sys.winBase ∧ size = s.me.sys.winSize) → s.me.task.isSome ∨ size = 0 ∨ 128 < base + size →
      exec (.srWinWrite g x) s = sys fun y => { y with winErr := true }) ∧
    (exec (.srWinWrite g x) s = sys (fun y => { y with winErr := y.winErr && !v.getLsbD 16 }) ∨
      exec (.srWinWrite g x) s = sys (fun y => { y with winErr := true }) ∨
      exec (.srWinWrite g x) s = sys fun y => { y with winBase := base, winSize := size, winErr := y.winErr && !v.getLsbD 16 })) ∧
  (s.Admits (.rdtime g x) → ∃ t : Word, exec (.rdtime g x) s = .next (s.scalarS (sbRd x) t) ∧
    (bitsOf (sbAux x) 1 0 = 0 → t = BitVec.ofNat 64 (s.now / 65536)) ∧
    (bitsOf (sbAux x) 1 0 = 1 → t = BitVec.ofNat 64 (s.now % 65536))) ∧
  (s.Admits (.feat g x) →
    let asked := ∀ k, (sbImm x).getLsbD k = true → k < 8 ∧ (s.tile s.myTile).feat.getLsbD k = true
    (asked → exec (.feat g x) s = .next (s.scalarP (sbRd x) (BitVec.allOnes 64))) ∧
    (¬ asked → exec (.feat g x) s = .next (s.scalarP (sbRd x) 0)))

/-- R111, R112, R116, R122: in a context without SUP an otherwise executable SRR of SR.SEPC, SRW of SR.ASID,
SR.PRIV, SR.WIN or SR.SEPC, and ERET take the system trap CAP_RIGHTS in the state before the operation. An SRW of
SR.PRIV and an ERET that are admitted never set SUP. -/
def Obligations.PrivilegeTraps : Prop :=
  ∀ (g : Guard) (x : ScalarBody) (s : State) (i : Instr),
  (i = .srr g x ∧ (sbRs1 x).toNat = 16 ∨ i = .srw g x ∧ (sbRd x).toNat = 5 ∨ i = .srw g x ∧ (sbRd x).toNat = 16 ∨
    i = .srPrivWrite g x ∧ (sbRd x).toNat = 6 ∨ i = .srWinWrite g x ∧ (sbRd x).toNat = 7 ∨ i = .eret g x) →
  s.Legal i → s.discarded i = false →
  (s.me.sys.sup = false → exec i s = .next (s.takeTrap { code := 0x0104, sub := 0 })) ∧
  (s.me.sys.sup = true → ∃ t, exec i s = .next t ∧ (t.me.sys.sup = true → i ≠ .eret g x))

/-- R118, R121, R122, R119, R212: admitted PBR writes b[rd] with the target of its form. TRAP with a vectored user
trap commits the open region, saves the next fetch address in SR.UTEPC, sets SR.UTCAUSE to INH 1, INFO 0, SLOT 0,
CAUSE n, and sends fetch to SR.UTVEC. UTRET clears INH and sends fetch to SR.UTEPC. ERET commits a region that an
earlier bundle opened, clears SUP and sends fetch to SR.SEPC. BR sends fetch to b[n]; BRL also writes b7 with the
address of the next bundle. -/
def Obligations.BranchTrapReturn : Prop :=
  ∀ (g : Guard) (x : ScalarBody) (y : BitVec 47) (s : State),
  (s.Admits (.pbr g x) → ∃ t : Off, exec (.pbr g x) s = .next (s.scalarB (sbRd x) t) ∧
    (∀ rd rs1 aux2 imm, x = .si rd rs1 aux2 imm → t = s.me.pc + imm.signExtend 48 * 64) ∧
    (∀ rd rs1 rs2 aux, x = .sr rd rs1 rs2 aux → t.toNat = (s.rs rs1).toNat % 2 ^ 48 ∧ t.toNat % 64 = 0)) ∧
  (s.Admits (.trap g x) → s.me.sys.utvecEn = true ∧ s.me.sys.inh = false ∧
    exec (.trap g x) s = .next (s.modMe fun c => { c.commitRegion with
      redirect := some (c.sys.utvec ++ 0#6)
      sys := { c.sys with utepc := (c.target.getD (c.pc + 64)).extractLsb' 6 42, inh := true, info := 0, slot := 0,
                          cause := BitVec.ofNat 8 ((sbImm x).toNat % 128) } })) ∧
  (s.Admits (.utret g x) → s.me.sys.inh = true ∧ exec (.utret g x) s = .next (s.modMe fun c =>
    { c with target := some (c.sys.utepc ++ 0#6), sys := { c.sys with inh := false } })) ∧
  (s.Admits (.eret g x) → s.me.sys.sup = true ∧ exec (.eret g x) s = .next (s.modMe fun c =>
    { c.commitEarlier with target := some (c.sys.sepc ++ 0#6), sys := { c.sys with sup := false } })) ∧
  (s.Admits (.br g y) → exec (.br g y) s = .next (s.modMe fun c => { c with target := some (s.rb (bitsOf y 2 0)) })) ∧
  (s.Admits (.brl g y) → exec (.brl g y) s = .next ((s.putB 7 (s.me.pc + 64)).modMe fun c =>
    { c with target := some (s.rb (bitsOf y 2 0)) }))

/-- R32, R36, R37, R73, R123, R124: admitted YIELD commits a region that an earlier bundle opened (one that its own
bundle opens stays open: notes/assumptions/61.md); with Q = 1 it asks for pre-emption, with Q = 0 and no pending
request it gives up the next cycle. END commits, stops fetch and discards the loop stack. The region-begin bit
commits an open region and records PC, loop stack and offsets; the region-commit bit releases what is held. The
pre-emption point lands a delivered request where no region is open. NOP in each of the seven classes changes
nothing. -/
def Obligations.YieldEndAndHeaderBits : Prop :=
  ∀ (g : Guard) (x : ScalarBody) (y : BitVec 47) (s : State),
  (s.Admits (.yield g x) →
    ((sbAux x).getLsbD 0 = true → exec (.yield g x) s = .next ((s.modMe Ctx.commitEarlier).askPreempt s.myTile s.myCtx .yieldQ)) ∧
    ((sbAux x).getLsbD 0 = false → s.me.preempt = none →
      exec (.yield g x) s = .next ((s.modMe Ctx.commitEarlier).modMe fun c => { c with yieldNext := true })) ∧
    ((sbAux x).getLsbD 0 = false → s.me.preempt ≠ none → exec (.yield g x) s = .next (s.modMe Ctx.commitEarlier))) ∧
  (∀ c : Ctx, (∀ r, c.region = some r → r.bundle ≠ c.bundleNo) → c.commitEarlier = c.commitRegion) ∧
  (∀ (c : Ctx) r, c.region = some r → r.bundle = c.bundleNo → c.commitEarlier = c) ∧
  (s.Admits (.endTask g x) → exec (.endTask g x) s = .next (s.modMe fun c =>
    { c.commitRegion with phase := .ending, loops := [] })) ∧
  (exec .regionBegin s = .next (s.modMe fun c => c.commitRegion.openRegion) ∧
    ∀ c : Ctx, ∃ r, c.openRegion = { c with region := some r } ∧ r.pc = c.pc ∧ r.loops = c.loops ∧
      (∀ j < 16, c.regs.a.Pairwise (fun u v => u.1 ≠ v.1) →
        (FMap.get 0 r.offs j).toNat = (c.regs.getA j).offset % 2 ^ 48)) ∧
  (exec .regionCommit s = .next (s.modMe Ctx.commitRegion) ∧
    ∀ c : Ctx, c.commitRegion.region = none ∧ (∀ e ∈ c.commitRegion.commitQ, e.held = false) ∧
      c.commitRegion.commitQ.map CommitEntry.op = c.commitQ.map CommitEntry.op) ∧
  ((s.me.region = none → exec .preemptionPoint s = .next (s.land s.myTile s.myCtx)) ∧
    (s.me.region ≠ none → exec .preemptionPoint s = .next s)) ∧
  (s.Admits (.nopScalar g y) → exec (.nopScalar g y) s = .next s) ∧
  (s.Admits (.nopVector g y) → exec (.nopVector g y) s = .next s) ∧
  (s.Admits (.nopMatrix g y) → exec (.nopMatrix g y) s = .next s) ∧
  (s.Admits (.nopLoad g y) → exec (.nopLoad g y) s = .next s) ∧
  (s.Admits (.nopStore g y) → exec (.nopStore g y) s = .next s) ∧
  (s.Admits (.nopPump g y) → exec (.nopPump g y) s = .next s) ∧
  (s.Admits (.nopSync g y) → exec (.nopSync g y) s = .next s)

/-- R72, of every slot operation of the opcode table: where its encoding passes the checks of R84 and its condition,
bit 0 of its predicate, inverted under PN, is 0, it completes and the state stays as it is (registers, flags,
memory, queues). The operations that use their predicate lane by lane are never discarded. R84, of every slot
operation of the opcode table: where the first failing encoding check gives REASON r and FIELDLO lo, the operation
takes the system trap ILLEGAL_OP (code 0x0102) with the subcode built of r, lo and the slot, in the state before it,
whatever its condition. R84, R194, R424, of every slot operation of the opcode table: where its encoding is legal
and it is not discarded, a check made at issue that fails with a trap makes the operation take that trap in the
state before it. -/
def Obligations.DiscardsAndIssueTraps : Prop :=
  (∀ (i : Instr) (s : State), s.Legal i → s.discarded i = true → exec i s = .next s) ∧
  (∀ (i : Instr) (f : SlotFields) (s : State) (r lo : Nat), slotFields i = some f →
  firstBad (s.me.issueChecks i f.g f.body) = some (r, lo) →
  exec i s = .next (s.takeTrap { code := 0x0102, sub := BitVec.ofNat 16 (r * 512 + lo * 8 + f.g.slot.toNat), slot := f.g.slot.toNat })) ∧
  (∀ (i : Instr) (s : State) (tr : Trap), (slotFields i).isSome = true → s.Legal i → s.discarded i = false →
  runCheck i s = .error (.trap tr) → exec i s = .next (s.takeTrap tr))

/-- R350: the 512 bits that a system trap of a context writes, field by field: TIME, SOURCE (the tile), CODE,
SUBCODE, PC, OBJ, ASID, OFFSET, SLOT, CTX, REGOPEN (1 too for a task whose open region a PAGE_REGEN has aborted and
which still waits for its page), DISP, REGION, NODE, QUEUE, MEMBER, RGN, STEP (all ones where the task has no step),
and every reserved bit 0; bytes 0 to 31 are the event record of R11 with the same time, source and code. -/
def Obligations.FaultRecordLayout : Prop :=
  ∀ (s : State) (time t c disp : Nat) (tr : Trap) (pc : Off),
  let r := s.faultRecord time t c disp tr pc
  let k := (s.ctx t c).task.getD {}
  bitsOf r 63 0 = time % 2 ^ 64 ∧ bitsOf r 79 64 = t % 2 ^ 16 ∧ bitsOf r 95 80 = tr.code.toNat ∧
  bitsOf r 111 96 = tr.sub.toNat ∧ bitsOf r 159 112 = pc.toNat ∧ bitsOf r 179 160 = tr.obj % 2 ^ 20 ∧
  bitsOf r 191 180 = (s.ctx t c).sys.asid % 2 ^ 12 ∧ bitsOf r 239 192 = tr.off % 2 ^ 48 ∧ bitsOf r 242 240 = tr.slot % 8 ∧
  bitsOf r 244 243 = c % 4 ∧ r.getLsbD 245 = ((s.ctx t c).region.isSome || (s.ctx t c).pageTrap.isSome) ∧ bitsOf r 248 246 = disp % 8 ∧ bitsOf r 255 249 = 0 ∧
  bitsOf r 271 256 = k.region % 2 ^ 16 ∧ bitsOf r 287 272 = k.node % 2 ^ 16 ∧ bitsOf r 300 288 = k.queue % 2 ^ 13 ∧
  bitsOf r 303 301 = 0 ∧ bitsOf r 312 304 = k.member % 2 ^ 9 ∧ r.getLsbD 313 = k.rgn ∧ bitsOf r 319 314 = 0 ∧
  (k.step = none → bitsOf r 351 320 = 0xFFFFFFFF) ∧ (∀ n, k.step = some n → bitsOf r 351 320 = n % 2 ^ 32) ∧
  bitsOf r 511 352 = 0 ∧
  ∀ q : EventRec, q.time = BitVec.ofNat 64 time → q.source = BitVec.ofNat 16 t → q.code = tr.code →
    r.extractLsb' 0 96 = (eventBits q).extractLsb' 0 96

/-- R351, R12, R7: with LOGBASE, LOG2N, LOGHEAD and LOGOVF from the partition's service entry and the driver's read
count from the word at LOGBASE − 8: where one more record would make LOGHEAD − count exceed 2^LOG2N, nothing is
written and LOGOVF increments, saturating; otherwise LOGHEAD increments modulo 2^32, no byte outside the ring
changes, and where the last unread record does not come after the new one in (TIME, SOURCE), its 64 bytes go to
LOGBASE + 64 × (LOGHEAD mod 2^LOG2N) and every other byte of memory stays; where it does come after it, that record
moves up to that slot. -/
def Obligations.FaultLog : Prop :=
  ∀ (s : State) (part : Nat) (r : BitVec 512),
  let e := s.service part
  let base := bitsOf e 63 0
  let size := 2 ^ bitsOf e 68 64
  let head := bitsOf e 159 128
  let read := s.rdNat ((base + 2 ^ 64 - 8) % 2 ^ 64) 8 % 2 ^ 32
  let t := s.logRecord part r
  let pending := (head + 1 + 2 ^ 32 - read) % 2 ^ 32
  let unread := (head + 2 ^ 32 - read) % 2 ^ 32
  let last := BitVec.ofNat 512 (s.rdNat (base + 64 * ((head + 2 ^ 32 - 1) % size)) 64)
  (size < pending → (∀ a, t.rd8 a = s.rd8 a) ∧ bitsOf (t.service part) 159 128 = head ∧
    bitsOf (t.service part) 191 160 = min (bitsOf e 191 160 + 1) (2 ^ 32 - 1)) ∧
  (pending ≤ size → bitsOf (t.service part) 159 128 = (head + 1) % 2 ^ 32 ∧ bitsOf (t.service part) 191 160 = bitsOf e 191 160 ∧
    (∀ a, a < base ∨ base + 64 * size ≤ a → t.rd8 a = s.rd8 a) ∧
    (unread = 0 ∨ faultBefore r last = false → (∀ k < 64, t.rd8 (base + 64 * (head % size) + k) = r.extractLsb' (8 * k) 8) ∧
      (∀ a, a < base + 64 * (head % size) ∨ base + 64 * (head % size) + 64 ≤ a → t.rd8 a = s.rd8 a)) ∧
    (unread ≠ 0 → unread < size → faultBefore r last = true →
      ∀ k < 64, t.rd8 (base + 64 * (head % size) + k) = last.extractLsb' (8 * k) 8)) ∧
  (∀ q : BitVec 512, faultBefore r q = true ↔ bitsOf r 63 0 < bitsOf q 63 0 ∨
    bitsOf r 63 0 = bitsOf q 63 0 ∧ bitsOf r 79 64 < bitsOf q 79 64) ∧
  bitsOf (t.service part) 127 0 = bitsOf e 127 0 ∧ bitsOf (t.service part) 511 192 = bitsOf e 511 192 ∧
  (∀ p, p ≠ part → t.service p = s.service p)

/-- R348, R349: a system trap that names no bad well page (a) with any code but PAGE_REGEN and FEATURE ends the
task: the context waits for its operations with status FAULT (RETENTION_LOSS for that code) or is free at once, its
loop stack is gone, nothing of the trapping bundle or a later one is left in the commit stage but entries marked to
stand (R199), and no command of its task that still waits in the pump port is left; (b) PAGE_REGEN with a region
open leaves the context waiting for that page; (c) FEATURE, where some tile the region may use has the group, leaves
the context landed with a request to migrate and the group added to what its task needs. R36: with a region open,
the abort closes it, discards every held entry of the commit stage and keeps the others, sets PC and loop stack to
those recorded, sets the offset of each a-register to the recorded one and keeps its other fields, and leaves the
scalar, predicate and branch-target registers, handles, views, latches, operand files, system registers, the
register space of every tile and all of memory as they are. With no region open it does nothing. -/
def Obligations.SystemTrapAndRegionAbort : Prop :=
  (∀ (s : State) (tr : Trap), tr.bad = none →
  let t := s.takeTrap tr
  let x := s.myTile
  let c := s.myCtx
  (tr.code ≠ 0x0108 → tr.code ≠ 0x010B →
    let st := if tr.code = 0x010E then 4 else 2
    ((t.ctx x c).phase = .draining st ∨ (t.ctx x c).phase = .idle) ∧ (t.ctx x c).loops = [] ∧
    (∀ e ∈ (t.ctx x c).commitQ, e.bundle < s.me.bundleNo ∨ e.stands = true) ∧
    (∀ m ∈ t.core.cmds, m.tile = x → m.ctx = c → m.owned = true → m.place ≠ .port)) ∧
  (tr.code = 0x0108 → s.me.region.isSome = true → (t.ctx x c).phase = .page s.me.sys.asid tr.obj tr.off ∧
    (t.ctx x c).region = none) ∧
  (∀ k, tr.code = 0x010B → s.me.task = some k →
    (s.regionTiles k.region).any (fun u => (s.tile u).feat.getLsbD tr.sub.toNat) = true →
    (t.ctx x c).phase = .landed ∧ (t.ctx x c).preempt = some { kind := .migrate } ∧
    (t.ctx x c).task = some { k with feat := k.feat ||| BitVec.ofNat 8 (2 ^ tr.sub.toNat) })) ∧
  (∀ (s : State) (t c : Nat),
  let x := s.ctx t c
  let u := s.abortRegion t c
  let y := u.ctx t c
  (x.region = none → u = s) ∧
  (∀ r, x.region = some r →
    y.region = none ∧ y.pc = r.pc ∧ y.loops = r.loops ∧ y.commitQ = x.commitQ.filter (fun e => !e.held) ∧
    (∀ j < 16, let d := y.regs.getA j
      let a := x.regs.getA j
      d.offset = (FMap.get 0 r.offs j).toNat ∧ d.tag = a.tag ∧ d.rights = a.rights ∧ d.kind = a.kind ∧ d.obj = a.obj ∧
      d.exp = a.exp ∧ d.baseM = a.baseM ∧ d.lenM = a.lenM) ∧
    y.regs.s = x.regs.s ∧ y.regs.p = x.regs.p ∧ y.regs.b = x.regs.b ∧ y.h = x.h ∧ y.views = x.views ∧ y.latches = x.latches ∧
    y.ofA = x.ofA ∧ y.ofB = x.ofB ∧ y.sys = x.sys ∧ y.delta = x.delta ∧
    (∀ a, u.rd8 a = s.rd8 a) ∧ (∀ v, (u.tile v).space = (s.tile v).space)))

/-- R119, of a user trap raised with cause, INFO and slot: with SR.UTVEC.EN = 0 or INH = 1 it is the system trap of
its own name; otherwise the open region commits, SR.UTEPC takes the address of the next fetch, SR.UTCAUSE takes INH
1, INFO, SLOT and CAUSE, and fetch goes to SR.UTVEC.ADDR; loop stack, update table and every other register stay. At
the end of the bundle the address saved is the one after branch and loop-back, and it reaches the PC again only
through UTRET. -/
def Obligations.UserTraps : Prop :=
  ∀ (s : State) (cause : BitVec 8) (info : BitVec 16) (tr : Trap),
  (s.me.sys.utvecEn = false ∨ s.me.sys.inh = true → s.takeUserTrap cause info tr = s.takeTrap tr) ∧
  (s.me.sys.utvecEn = true → s.me.sys.inh = false → ∃ y : Ctx, s.takeUserTrap cause info tr = s.setMe y ∧
    y.region = none ∧ (∀ e ∈ y.commitQ, e.held = false) ∧ y.redirect = some (s.me.sys.utvec ++ 0#6) ∧
    y.sys = { s.me.sys with utepc := (s.me.target.getD (s.me.pc + 64)).extractLsb' 6 42, inh := true, info := info,
                            slot := BitVec.ofNat 3 tr.slot, cause := cause } ∧
    y.loops = s.me.loops ∧ y.delta = s.me.delta ∧ y.regs = s.me.regs ∧ y.h = s.me.h ∧ y.views = s.me.views ∧
    y.latches = s.me.latches) ∧
  (∀ (x : Ctx) (next a : Off), x.redirect = some a → (x.nextFetch next).pc = a ∧
    (x.nextFetch next).sys = { x.sys with utepc := (x.target.getD next).extractLsb' 6 42 }) ∧
  (∀ (x : Ctx) (next : Off), x.redirect = none → (x.nextFetch next).pc = x.target.getD next ∧ (x.nextFetch next).sys = x.sys)

/-- R128, R129, R131: each admitted element-wise operation of R131 completes for every operand form, type and mask.
Element e of vd becomes the function of element e of each source where the lane is active and stays elsewhere; the
flags added are the OR of those of the active elements. The logic operations and the shifts have the value of their
row; of the others ElementArithmetic says the element function. -/
def Obligations.VectorElementwise : Prop :=
  ∀ (g : Guard) (x : VectorBody) (s : State),
  let t := vtype x
  let w := t.bits
  let n := t.count
  let A := s.vsrc g x.va t
  let B := s.vsrc g x.vb t
  let C := s.vsrc g x.vc t
  let a := elemAt w A
  let b := elemAt w B
  let c := elemAt w C
  let res := s.VecResult g x.vd w n
  (s.Admits (.vadd g x) → ∃ N fl, exec (.vadd g x) s = .next (s.vdone g x.vd N fl 0) ∧
    res (fun e => arithElem .add t (vrm x) (vsat x) (a e) (b e) (c e)) N fl) ∧
  (s.Admits (.vsub g x) → ∃ N fl, exec (.vsub g x) s = .next (s.vdone g x.vd N fl 0) ∧
    res (fun e => arithElem .sub t (vrm x) (vsat x) (a e) (b e) (c e)) N fl) ∧
  (s.Admits (.vmul g x) → ∃ N fl, exec (.vmul g x) s = .next (s.vdone g x.vd N fl 0) ∧
    res (fun e => arithElem (if vopt x then .mulHi else .mul) t (vrm x) (vsat x) (a e) (b e) (c e)) N fl) ∧
  (s.Admits (.vfma g x) → ∃ N fl, exec (.vfma g x) s = .next (s.vdone g x.vd N fl 0) ∧
    res (fun e => arithElem .fma t (vrm x) (vsat x) (a e) (b e) (c e)) N fl) ∧
  (s.Admits (.vmin g x) → ∃ N fl, exec (.vmin g x) s = .next (s.vdone g x.vd N fl 0) ∧
    res (fun e => minMaxElem false t (a e) (b e)) N fl) ∧
  (s.Admits (.vmax g x) → ∃ N fl, exec (.vmax g x) s = .next (s.vdone g x.vd N fl 0) ∧
    res (fun e => minMaxElem true t (a e) (b e)) N fl) ∧
  (s.Admits (.vabs g x) → ∃ N fl, exec (.vabs g x) s = .next (s.vdone g x.vd N fl 0) ∧
    res (fun e => signElem false t (vsat x) (a e)) N fl) ∧
  (s.Admits (.vneg g x) → ∃ N fl, exec (.vneg g x) s = .next (s.vdone g x.vd N fl 0) ∧
    res (fun e => signElem true t (vsat x) (a e)) N fl) ∧
  (s.Admits (.vand g x) → ∃ N fl, exec (.vand g x) s = .next (s.vdone g x.vd N fl 0) ∧
    res (fun e => (a e &&& b e, 0)) N fl) ∧
  (s.Admits (.vor g x) → ∃ N fl, exec (.vor g x) s = .next (s.vdone g x.vd N fl 0) ∧
    res (fun e => (a e ||| b e, 0)) N fl) ∧
  (s.Admits (.vxor g x) → ∃ N fl, exec (.vxor g x) s = .next (s.vdone g x.vd N fl 0) ∧
    res (fun e => (a e ^^^ b e, 0)) N fl) ∧
  (s.Admits (.vshl g x) → ∃ N fl, exec (.vshl g x) s = .next (s.vdone g x.vd N fl 0) ∧
    res (fun e => (a e * 2 ^ (b e % w), 0)) N fl) ∧
  (s.Admits (.vshr g x) → ∃ N fl, exec (.vshr g x) s = .next (s.vdone g x.vd N fl 0) ∧
    res (fun e => ((intOfBits (decide (x.type.toNat < 3)) w (a e) / (2 ^ (b e % w) : Nat) % (2 ^ w : Nat)).toNat, 0)) N fl)

/-- R132, R133: on integers VADD, VSUB, VMUL and VFMA reduce the exact result modulo 2^w, or under SAT clamp it to
the type's range with the SAT flag exactly where it was clamped; VMUL.hi gives bits [2w − 1 : w] of the exact
product; VABS and VNEG reduce |a| and −a in the same way. On floating point VADD, VSUB, VMUL and VFMA are the exact
result rounded once; VMIN and VMAX give the other operand where exactly one is NaN and the canonical NaN where both
are; VABS and VNEG change the sign bit alone except for NaN; a signalling NaN sets INV and VMIN, VMAX, VABS, VNEG
set no other flag. -/
def Obligations.ElementArithmetic : Prop :=
  (∀ (sg sat : Bool) (w : Nat) (m : RMode) (a b c : Nat),
    let x := intOfBits sg w a
    let y := intOfBits sg w b
    let z := intOfBits sg w c
    let lo : Int := if sg then -(2 ^ (w - 1) : Nat) else 0
    let hi : Int := if sg then (2 ^ (w - 1) : Nat) - 1 else (2 ^ w : Nat) - 1
    let red := fun v : Int => if sat = true then
        (((max lo (min hi v)) % (2 ^ w : Nat)).toNat, if v < lo ∨ hi < v then flagSAT else (0 : Flags))
      else ((v % (2 ^ w : Nat)).toNat, 0)
    let t := ElemFmt.int sg w
    arithElem .add t m sat a b c = red (x + y) ∧ arithElem .sub t m sat a b c = red (x - y) ∧
    arithElem .mul t m sat a b c = red (x * y) ∧ arithElem .fma t m sat a b c = red (x * y + z) ∧
    arithElem .mulHi t m sat a b c = ((x * y / (2 ^ w : Nat) % (2 ^ w : Nat)).toNat, 0) ∧
    signElem false t sat a = red x.natAbs ∧ signElem true t sat a = red (-x)) ∧
  (∀ (f : FpFmt) (sat : Bool) (m : RMode) (a b c : Nat),
    let t := ElemFmt.fp f
    let x := decodeFp f a
    let y := decodeFp f b
    let inv := if x.isSig = true ∨ y.isSig = true then flagINV else (0 : Flags)
    arithElem .add t m sat a b c = fpAdd f m x y ∧ arithElem .mul t m sat a b c = fpMul f m x y ∧
    arithElem .fma t m sat a b c = fpFma f m x y (decodeFp f c) ∧
    (∀ mx : Bool, (x.isNan = true → y.isNan = true → minMaxElem mx t a b = (f.nanBits, inv)) ∧
      (x.isNan = true → y.isNan = false → minMaxElem mx t a b = (b, inv)) ∧
      (x.isNan = false → y.isNan = true → minMaxElem mx t a b = (a, inv)) ∧
      (minMaxElem mx t a b).2 = inv) ∧
    (x.isNan = true → ∀ ng, signElem ng t sat a = (f.nanBits, if x.isSig = true then flagINV else 0)) ∧
    (x.isNan = false → a < 2 ^ (f.eb + f.mb + 1) → signElem false t sat a = (a % 2 ^ (f.eb + f.mb), 0) ∧
      ((signElem true t sat a).1 + 2 ^ (f.eb + f.mb)) % 2 ^ (f.eb + f.mb + 1) = a ∧ (signElem true t sat a).2 = 0))

/-- R134, R135: admitted VCMP sets bit i of p[pd] exactly where lane i is active and the condition holds for every
element of the lane (with ANY for at least one), clears it elsewhere, and latches the mask; nothing but predicate,
latch and flags differs. On integer types the six ordered conditions compare the values, .un is false and .or true.
VSEL takes va where bit l of the selecting predicate is 1, else vb, and writes active lanes only. -/
def Obligations.VectorCompareSelect : Prop :=
  ∀ (g : Guard) (x : VectorBody) (s : State),
  let t := vtype x
  let w := t.bits
  let n := t.count
  let A := s.vsrc g x.va t
  let B := s.vsrc g x.vb t
  let a := elemAt w A
  let b := elemAt w B
  let res := s.VecResult g x.vd w n
  (s.Admits (.vcmp g x) → ∃ v : Mask, ∃ fl,
    exec (.vcmp g x) s = .next (((s.putP (bitsOf x.vd 3 0) v).vlatch g v.toNat).addFlags g fl 0) ∧
    (∀ i < 64, v.getLsbD i = true ↔ (s.lanes g).getLsbD i = true ∧
      let cond := fun k => (vcmpCond t (bitsOf x.aux 9 6) (a (i * (32 / w) + k)) (b (i * (32 / w) + k))).1 = true
      if x.aux.getLsbD 10 = true then ∃ k < 32 / w, cond k else ∀ k < 32 / w, cond k)) ∧
  (s.Admits (.vsel g x) → ∃ N fl, exec (.vsel g x) s = .next (s.vdone g x.vd N fl 0) ∧
    res (fun e => (if activeElem (s.rp (bitsOf x.vc 3 0)) w e then a e else b e, 0)) N fl) ∧
  (∀ (sg : Bool) (k p q : Nat),
    let u := intOfBits sg k p
    let v := intOfBits sg k q
    let r := fun code => vcmpCond (.int sg k) code p q
    r 0 = (decide (u = v), 0) ∧ r 1 = (decide (u ≠ v), 0) ∧ r 2 = (decide (u < v), 0) ∧ r 3 = (decide (u ≤ v), 0) ∧
    r 4 = (decide (v < u), 0) ∧ r 5 = (decide (v ≤ u), 0) ∧ r 6 = (false, 0) ∧ r 7 = (true, 0))

/-- R136 to R139: VCVT between the types of TYPE and DTYPE, VQUANT to and VDEQ from the code format of its tensor
identifier. Where a side is TYPE 9 the entry must be valid and PART below the ratio of the widths, and the
multiplier's group index of each active element of a VQUANT or VDEQ below 64; then the operation completes:
destination element d takes the converted value of its source element where it takes part and its lane is active,
and stays elsewhere. VCVT and VDEQ add nothing to SR.QCLAMP. -/
def Obligations.VectorConvertQuantise : Prop :=
  ∀ (g : Guard) (x : VectorBody) (s : State),
  let id := bitsOf x.aux 5 0
  let part := bitsOf x.vc 4 0
  let old := s.vold g x.vd 0
  let okFor := fun ws wd : Nat => (s.tid id).valid = true ∧ part < max ws wd / min ws wd
  (let st := s.etype x.type.toNat id
   let dt := s.etype (bitsOf x.vb 3 0) id
   let ws := st.bits
   let wd := dt.bits
   let f := fun j => convertElem st dt (vrm x) (elemAt ws (s.vsrc g x.va st) (if ws ≥ wd then j else part * (2048 / wd) + j))
   s.Admits (.vcvt g x) → (x.type.toNat = 9 ∨ bitsOf x.vb 3 0 = 9 → okFor ws wd) → ∃ N fl,
    exec (.vcvt g x) s = .next (s.vdone g x.vd N fl 0) ∧
    (∀ d < 2048 / wd, elemAt wd N d = match partOffset ws wd part d with
      | some j => if activeElem (s.lanes g) wd d then (f j).1 % 2 ^ wd else elemAt wd old d
      | none => elemAt wd old d)) ∧
  (let st := vtype x
   let dt := ElemFmt.narrow (s.tid id).fmt
   let ws := st.bits
   let wd := dt.bits
   let p := fun j => fpProd (st.decode (elemAt ws (s.vsrc g x.va st) (if ws ≥ wd then j else part * (2048 / wd) + j)))
     (decodeFp fp32 (elemAt 32 (s.vsrc g x.vb (.fp fp32)) (groupIndex x j)))
   let f := fun j => dt.encode (vrm x) (p j).1.sign (p j).1.withQ
   s.Admits (.vquant g x) → okFor ws wd →
   (∀ d < 2048 / wd, ∀ j, partOffset ws wd part d = some j → activeElem (s.lanes g) wd d = true → groupIndex x j < 64) →
   ∃ N fl cl, exec (.vquant g x) s = .next (s.vdone g x.vd N fl cl) ∧
    (∀ d < 2048 / wd, elemAt wd N d = match partOffset ws wd part d with
      | some j => if activeElem (s.lanes g) wd d then (f j).1 % 2 ^ wd else elemAt wd old d
      | none => elemAt wd old d)) ∧
  (let st := ElemFmt.narrow (s.tid id).fmt
   let dt := vtype x
   let ws := st.bits
   let wd := dt.bits
   let p := fun j => fpProd (st.decode (elemAt ws (s.vsrc g x.va st) (if ws ≥ wd then j else part * (2048 / wd) + j)))
     (decodeFp fp32 (elemAt 32 (s.vsrc g x.vb (.fp fp32)) (groupIndex x j)))
   let f := fun j => dt.encode (vrm x) (p j).1.sign (p j).1.withQ
   s.Admits (.vdeq g x) → okFor ws wd →
   (∀ d < 2048 / wd, ∀ j, partOffset ws wd part d = some j → activeElem (s.lanes g) wd d = true → groupIndex x j < 64) →
   ∃ N fl, exec (.vdeq g x) s = .next (s.vdone g x.vd N fl 0) ∧
    (∀ d < 2048 / wd, elemAt wd N d = match partOffset ws wd part d with
      | some j => if activeElem (s.lanes g) wd d then (f j).1 % 2 ^ wd else elemAt wd old d
      | none => elemAt wd old d))

/-- R140 to R144: admitted VEXP2, VLOG2, VRCP, VRSQ write the defined function of each active element. VSUMR, VMAXR
and VDOT read only active elements and write element 0 (VMAXR.idx also element 1) whatever the predicate, the other
elements staying. On integer types VSUMR is the exact sum of the addend and the active elements, and VDOT that of
the addend and the products, reduced to 32 bits with the SAT rule of R132. With no active element VMAXR gives the
least value and 0xFFFFFFFF. -/
def Obligations.VectorFunctionsReductions : Prop :=
  ∀ (g : Guard) (x : VectorBody) (s : State),
  let t := vtype x
  let w := t.bits
  let n := t.count
  let A := s.vsrc g x.va t
  let B := s.vsrc g x.vb t
  let a := elemAt w A
  let b := elemAt w B
  let res := s.VecResult g x.vd w n
  (s.Admits (.vexp2 g x) → ∃ N fl, exec (.vexp2 g x) s = .next (s.vdone g x.vd N fl 0) ∧
    res (fun e => fnElem fnExp2 t (a e)) N fl) ∧
  (s.Admits (.vlog2 g x) → ∃ N fl, exec (.vlog2 g x) s = .next (s.vdone g x.vd N fl 0) ∧
    res (fun e => fnElem fnLog2 t (a e)) N fl) ∧
  (s.Admits (.vrcp g x) → ∃ N fl, exec (.vrcp g x) s = .next (s.vdone g x.vd N fl 0) ∧
    res (fun e => fnElem fnRcp t (a e)) N fl) ∧
  (s.Admits (.vrsq g x) → ∃ N fl, exec (.vrsq g x) s = .next (s.vdone g x.vd N fl 0) ∧
    res (fun e => fnElem fnRsq t (a e)) N fl) ∧
  (let add := elemAt 32 (s.vsrc g x.vb (redType x)) 0
   let v := sumElems x (s.lanes g) A add
   s.Admits (.vsumr g x) → (∃ N, exec (.vsumr g x) s = .next (s.vdone g x.vd N v.2 0) ∧ s.RedResult g x.vd [v.1] N) ∧
   ∀ sg k, redType x = .int sg k → v = reduceInt sg (vsat x) 32
     (((activeIdx (s.lanes g) t).map fun e => intOfBits sg w (a e)).sum + intOfBits sg 32 add)) ∧
  (let v := maxElems x (s.lanes g) A
   s.Admits (.vmaxr g x) →
   (∃ N, exec (.vmaxr g x) s = .next (s.vdone g x.vd N v.2.2 0) ∧
    s.RedResult g x.vd (if vopt x then [v.1, v.2.1] else [v.1]) N) ∧
   ((∀ e < n, activeElem (s.lanes g) w e = false) → v = (leastOf (redType x), 0xFFFFFFFF, 0))) ∧
  (let add := elemAt 32 (s.vsrc g x.vc (redType x)) 0
   let v := dotElems x (s.lanes g) A B add
   s.Admits (.vdot g x) → (∃ N, exec (.vdot g x) s = .next (s.vdone g x.vd N v.2 0) ∧ s.RedResult g x.vd [v.1] N) ∧
   ∀ sg k, redType x = .int sg k → v = reduceInt sg (vsat x) 32
     (((activeIdx (s.lanes g) t).map fun e => intOfBits sg w (a e) * intOfBits sg w (b e)).sum + intOfBits sg 32 add))

/-- R145 to R150: admitted VSHUF, VBCAST, VSLIDE and VIOTA write the element of their row in active lanes, their
sources read whole. VCOMPR packs the active elements in ascending order, fills with zero and counts. VPART writes
the lists of its keys one after the other, their offsets, and the count. VTOPK writes the first k pairs of a
ranking, which is a permutation of the candidates, then its fill. VMOVS writes s[sd] with the element, sign-extended
for TYPE 0 to 2. VINS puts the value into the element it names, or into all, where the lane is active. -/
def Obligations.VectorPermutations : Prop :=
  ∀ (g : Guard) (x : VectorBody) (s : State),
  let t := vtype x
  let w := t.bits
  let n := t.count
  let A := s.vsrc g x.va t
  let B := s.vsrc g x.vb t
  let C := s.vsrc g x.vc t
  let a := elemAt w A
  let b := elemAt w B
  let res := s.VecResult g x.vd w n
  (s.Admits (.vshuf g x) → ∃ N fl, exec (.vshuf g x) s = .next (s.vdone g x.vd N fl 0) ∧
    res (fun e => (if b e < n then elemAt w A (b e) else if b e < 2 * n then elemAt w C (b e - n) else 0, 0)) N fl) ∧
  (s.Admits (.vbcast g x) → ∃ N fl, exec (.vbcast g x) s = .next (s.vdone g x.vd N fl 0) ∧
    res (fun _ => (elemAt w A (bitsOf x.aux 7 0), 0)) N fl) ∧
  (s.Admits (.vslide g x) → ∃ N fl, exec (.vslide g x) s = .next (s.vdone g x.vd N fl 0) ∧
    res (fun e => (let d := bitsOf x.aux 8 0
    if x.aux.getLsbD 9 then (if d ≤ e then elemAt w A (e - d) else elemAt w B (n - d + e))
    else if e + d < n then elemAt w A (e + d) else elemAt w B (e + d - n), 0)) N fl) ∧
  (s.Admits (.viota g x) → ∃ N fl, exec (.viota g x) s = .next (s.vdone g x.vd N fl 0) ∧
    res (fun e => (elemAt w A 0 + e * bitsOf x.aux 7 0, 0)) N fl) ∧
  (s.Admits (.vcompr g x) → ∃ N, let idx := (List.range n).filter (activeElem (s.lanes g) w)
    exec (.vcompr g x) s = .next ((s.vdone g x.vd N 0 0).putS (bitsOf x.vc 5 0) (BitVec.ofNat 64 idx.length)) ∧
    ∀ e < n, elemAt w N e = match idx[e]? with
      | some i => elemAt w A i
      | none => 0) ∧
  (s.Admits (.vpart g x) → ∃ N M, let K := bitsOf x.aux 5 0 + 1
    let upTo := fun k => (List.range k).flatMap fun key =>
      (List.range 64).filter fun e => (s.lanes g).getLsbD e && elemAt 32 A e == key
    exec (.vpart g x) s = .next ((((s.vput g x.vd 0 N).vput g x.vd 1 M).vlatch g N).putS (bitsOf x.vc 5 0)
      (BitVec.ofNat 64 (upTo K).length)) ∧
    ∀ j < 64, elemAt 32 N j = (upTo K).getD j 0xFFFFFFFF ∧ elemAt 32 M j = (upTo (min j K)).length) ∧
  (s.Admits (.vtopk g x) → ∃ N M, ∃ cs : List Cand,
    exec (.vtopk g x) s = .next (((s.vput g x.vd 0 N).vput g x.vd 1 M).vlatch g N) ∧
    List.Perm cs (((List.range n).filter (activeElem (s.lanes g) w)).map
        (fun e => (elemAt 32 A e, elemAt 32 (s.vsrc g x.vb (.int false 32)) e)) ++
      (if vopt x then (List.range 64).map (fun e => (elemAt 32 C e, elemAt 32 (s.vsrc g (x.vc + 1) (.int false 32)) e))
       else [])) ∧
    ∀ j < 64, let k := bitsOf x.aux 5 0 + 1
      (j < k → ∀ p, cs[j]? = some p → elemAt 32 N j = p.1 % 2 ^ 32 ∧ elemAt 32 M j = p.2 % 2 ^ 32) ∧
      (k ≤ j ∨ cs.length ≤ j → elemAt 32 N j = leastOf t ∧ elemAt 32 M j = 0xFFFFFFFF)) ∧
  (s.Admits (.vmovs g x) → ∃ v : Word,
    let k := if x.aux.getLsbD 10 then (s.rs (x.vb.extractLsb' 0 6)).toNat % n else bitsOf x.aux 7 0
    exec (.vmovs g x) s = .next ((s.putS (bitsOf x.vd 5 0) v).vlatch g v.toNat) ∧
    v = if x.type.toNat < 3 then BitVec.ofInt 64 (intOfBits true w (a k)) else BitVec.ofNat 64 (a k)) ∧
  (s.Admits (.vins g x) → ∃ N fl, exec (.vins g x) s = .next (s.vdone g x.vd N fl 0) ∧
    res (fun e => (if x.aux.getLsbD 10 = true ∨ e = bitsOf x.aux 7 0
    then (s.rs (x.va.extractLsb' 0 6)).toNat else elemAt w (s.vold g x.vd 0) e, 0)) N fl)

/-- R16, R74, R128, R129, R50, R65, R310: what the completion of a vector operation writes (the frame of every
operation of VectorElementwise to VectorPermutations whose answer is vdone). With a LEVEL 00 destination the 256
bytes of the view in the window hold the result and every other byte of the register space stays; otherwise the 256
bytes of the operand-file entry of the executing unit do. The unit's latch takes the result; SR.NFLAG takes the
flags by OR, SR.QCLAMP the clamps, saturating; in a marked slot latch, flags and count stay. Every register, handle,
view, loop level, other latch, every other context's state and every byte of memory stay. -/
def Obligations.VectorOutputs : Prop :=
  ∀ (s : State) (g : Guard) (r : BitVec 8) (N cl : Nat) (fl : Flags),
  let t := s.vdone g r N fl cl
  let at0 := s.me.winAt (s.dstV g (ropIndex r + 0))
  let byte := fun k => BitVec.ofNat 8 (N / 2 ^ (8 * k))
  (ropLevel r = 0 →
    (∀ k < 256, FMap.get 0 (t.tile s.myTile).space (at0 + k) = byte k) ∧
    (∀ a, a < at0 ∨ at0 + 256 ≤ a → FMap.get 0 (t.tile s.myTile).space a = FMap.get 0 (s.tile s.myTile).space a) ∧
    t.me.ofA = s.me.ofA ∧ t.me.ofB = s.me.ofB) ∧
  (ropLevel r ≠ 0 → (t.tile s.myTile).space = (s.tile s.myTile).space ∧
    (unitB g = false → t.me.ofB = s.me.ofB ∧ ∀ a, FMap.get 0 t.me.ofA a =
      if 256 * ropIndex r ≤ a ∧ a < 256 * ropIndex r + 256 then byte (a - 256 * ropIndex r) else FMap.get 0 s.me.ofA a) ∧
    (unitB g = true → t.me.ofA = s.me.ofA ∧ ∀ a, FMap.get 0 t.me.ofB a =
      if 256 * ropIndex r ≤ a ∧ a < 256 * ropIndex r + 256 then byte (a - 256 * ropIndex r) else FMap.get 0 s.me.ofB a)) ∧
  (g.dup = true → t.me.latches = s.me.latches ∧ t.me.sys = s.me.sys) ∧
  (g.dup = false → t.me.latches = (if unitB g then { s.me.latches with lvb := leBytes 256 N }
      else { s.me.latches with lva := leBytes 256 N }) ∧
    t.me.sys = { s.me.sys with nflag := s.me.sys.nflag ||| fl,
                               qclamp := BitVec.ofNat 32 (min (s.me.sys.qclamp.toNat + cl) (2 ^ 32 - 1)) }) ∧
  t.me.regs = s.me.regs ∧ t.me.h = s.me.h ∧ t.me.views = s.me.views ∧ t.me.loops = s.me.loops ∧ t.me.pc = s.me.pc ∧
  t.me.commitQ = s.me.commitQ ∧ t.me.acc = s.me.acc ∧ (∀ a, t.rd8 a = s.rd8 a) ∧
  (∀ u c, ctxKey u c ≠ ctxKey s.myTile s.myCtx → t.ctx u c = s.ctx u c) ∧
  (∀ u, u ≠ s.myTile → t.tile u = s.tile u) ∧
  ∃ cs ts, t = { s with core := { s.core with ctxs := cs, tiles := ts } }

/-- R161, R156, R163, R160: an admitted MMA or MMAW with a valid entry (and a valid activation entry under A8), a C
base that is a multiple of 4 KiB and a readable block completes: the entry's cursor advances unless HOLD is set or
the slot is marked, and the step of the block at the cursor as captured is accumulated. With an invalid entry it
traps TID_INVALID with the entry number. An MMA whose block cannot be read takes the trap with the cursor advanced.
MMAT, with its own weights and scale 1, completes likewise. -/
def Obligations.MatrixSteps : Prop :=
  ∀ (g : Guard) (x : MatrixBody) (s : State),
  let n := x.tid.toNat
  let d := s.tid n
  let off := (s.me.dstEnv g).start .c (ropIndex x.dst)
  let s0 := if x.aux.getLsbD 16 = true ∨ g.dup = true then s else s.setTid n d.advance
  let actOk := x.aux.getLsbD 15 = true → (s.tid (bitsOf x.aux 5 0)).valid = true
  let aligned := (s.me.dstEnv g).base .c % 4096 = 0
  let wOf := fun cs : List Nat => cs.map (decodeNarrow d.fmt)
  (s.Admits (.mma g x) → d.valid = true → actOk → aligned →
    (∀ s1 cs sc, s0.rdBlock d d.kb d.nb = .ok (s1, cs, sc) →
      exec (.mma g x) s = .next (s1.accumulate g x false off (wOf cs) sc)) ∧
    (∀ tr, s0.rdBlock d d.kb d.nb = .error (.trap tr) → exec (.mma g x) s = .next (s0.takeTrap tr))) ∧
  (s.Admits (.mmaw g x) → d.valid = true → actOk → aligned →
    ∀ s1 cs sc, s0.rdBlock d d.kb d.nb = .ok (s1, cs, sc) →
      exec (.mmaw g x) s = .next (s1.accumulate g x true off (wOf cs) sc)) ∧
  (s.Admits (.mma g x) → d.valid = false →
    exec (.mma g x) s = .next (s.takeTrap { code := 0x010A, sub := BitVec.ofNat 16 n, slot := 3 })) ∧
  (s.Admits (.mmat g x) → actOk → aligned → exec (.mmat g x) s = .next (s.accumulate g x false off
    ((elems 16 1024 (leNat (s.rdWin (s.me.viewEnv.start .t (ropIndex x.srcB)) 2048))).map (decodeFp bf16))
    (List.replicate 1024 (.fin false 1 0))))

/-- R53 to R56: with no NaN or infinite product, an element becomes its old value plus the sum of the products each
rounded to the grid of the anchor; past the bounds of its width it takes the bound and OVF sets; UFC counts the
non-zero products that round to 0. With only +infinity among the special products it takes the upper bound, with any
other special product the lower bound, each with OVF. Elements within their bounds that are written to an
accumulator, 64-bit or wide, read back unchanged. -/
def Obligations.AccumulatorElements : Prop :=
  (∀ (wide : Bool) (anchor I : Int) (ps : List Fp),
    let hi : Int := if wide then 2 ^ 127 - 1 else 2 ^ 63 - 1
    let lo : Int := if wide then -2 ^ 127 else -2 ^ 63
    let sum := I + (ps.map fun p => p.dy.roundToGrid anchor).sum
    let gone := (ps.filter fun p => p.dy.m != 0 && p.dy.roundToGrid anchor == 0).length
    let r := stepElem wide anchor I ps
    ((∀ p ∈ ps, p.isNan = false ∧ p.isInf = false) →
      (lo ≤ sum → sum ≤ hi → r = (sum, false, gone)) ∧ (hi < sum → r = (hi, true, gone)) ∧ (sum < lo → r = (lo, true, gone))) ∧
    ((∃ p ∈ ps, p.isInf = true) → (∀ p ∈ ps, p.isNan = false ∧ (p.isInf = true → p.sign = false)) → r = (hi, true, 0)) ∧
    ((∃ p ∈ ps, p.isNan = true ∨ p.isInf = true ∧ p.sign = true) → r = (lo, true, 0))) ∧
  (∀ (s : State) (wide : Bool) (off : Nat) (vs : List Int), vs.length = 512 →
    (∀ v ∈ vs, (if wide then -2 ^ 127 else -2 ^ 63) ≤ v ∧ v < (if wide then 2 ^ 127 else 2 ^ 63 : Int)) →
    (s.wrAccum wide off vs).rdAccum wide off = vs)

/-- R164 to R168, R160: with a C base that is a multiple of 4 KiB the admitted instruction completes. MZERO writes
zeros, the anchor of AUX, OVF 0 and UFC 0. MANCHOR without RND re-anchors exactly where every element stays an
integer within its bounds, and else sets OVF and changes nothing more. MSTAT.cal captures OVF and UFC, and at its
turn in the matrix queue puts the test of them and of QCLAMP against the thresholds as they then stand into all bits
of p and into lm unless a later operation there latches too; the other forms put the packed state into s. MCLR
clears OVF and UFC as its code says and latches nothing. MREAD (with a valid entry for a narrow type) writes the
rounded products with their scale to its destination, adds the flags, and latches. -/
def Obligations.AccumulatorInstructions : Prop :=
  ∀ (g : Guard) (x : MatrixBody) (s : State),
  let dst := (s.me.dstEnv g).start .c (ropIndex x.dst)
  let own := s.me.viewEnv.start .c (ropIndex x.dst)
  let src := s.me.viewEnv.start .c (ropIndex x.srcA)
  let dstOk := (s.me.dstEnv g).base .c % 4096 = 0
  let ownOk := s.me.viewEnv.base .c % 4096 = 0
  (s.Admits (.mzero g x) → dstOk → exec (.mzero g x) s = .next (((s.wrAccum (x.aux.getLsbD 16) dst (List.replicate 512 0)).setAcc dst
    { anchor := x.aux.extractLsb' 0 16, ovf := false, ufc := 0 }).latchAccum g dst)) ∧
  (let wide := x.aux.getLsbD 0
   let an := (s.rs (x.srcA.extractLsb' 0 6)).extractLsb' 0 16
   let a := s.acc dst
   s.Admits (.manchor g x) → dstOk → (∃ t, exec (.manchor g x) s = .next t) ∧
    (x.aux.getLsbD 1 = false → ∀ vs : List Int, vs.length = (s.rdAccum wide dst).length →
      (∀ (k : Nat) (v u : Int), vs[k]? = some v → (s.rdAccum wide dst)[k]? = some u →
        accMin wide ≤ v ∧ v ≤ accMax wide ∧
        v * 2 ^ (an.toInt - a.anchor.toInt).toNat = u * 2 ^ (a.anchor.toInt - an.toInt).toNat) →
      exec (.manchor g x) s =
        .next (((s.wrAccum wide dst vs).setAcc dst { a with anchor := an }).latchAccum g dst)) ∧
    (reanchor wide (x.aux.getLsbD 1) a.anchor.toInt an.toInt (s.rdAccum wide dst) = none →
      exec (.manchor g x) s = .next ((s.setAcc dst { a with ovf := true }).latchAccum g dst))) ∧
  (let a := s.acc src
   s.Admits (.mstat g x) → ownOk →
    (bitsOf x.aux 1 0 = 0 → exec (.mstat g x) s = .next (s.pushLate (.test (bitsOf x.dst 3 0) a.ovf a.ufc))) ∧
    (bitsOf x.aux 1 0 ≠ 0 → ∃ w : Word, exec (.mstat g x) s = .next ((s.putS (bitsOf x.dst 5 0) w).latchLmWord w) ∧
      w.toNat = a.ufc.toNat + a.anchor.toNat * 2 ^ 32 + a.ovf.toNat * 2 ^ 63)) ∧
  (∀ (t : Nat) (w : LateOp) (p : Nat) (ovf : Bool) (ufc : BitVec 32), w.eff = .test p ovf ufc →
    let u := s.lateEffect t w
    let y := (s.ctx t w.ctx).sys
    let v := if ovf = true ∨ y.ufmax.toNat < ufc.toNat ∨ y.clampmax.toNat < y.qclamp.toNat then BitVec.allOnes 64 else (0 : Mask)
    (u.ctx t w.ctx).regs = (s.ctx t w.ctx).regs.setP p v ∧ (u.ctx t w.ctx).sys = y ∧ s.SameMem u ∧
    ((∀ o ∈ (s.tile t).inflight, o.ctx = w.ctx → o.eng = .matrix → ∀ r ∈ o.writes, ¬ (r.space = 3 ∧ r.lo = 3)) →
      (u.ctx t w.ctx).latches = { (s.ctx t w.ctx).latches with lm := leBytes 8 v.toNat })) ∧
  (let a := s.acc own
   s.Admits (.mclr g x) → ownOk → exec (.mclr g x) s = .next (s.setAcc own
    { a with ovf := if bitsOf x.aux 1 0 = 2 then a.ovf else false, ufc := if bitsOf x.aux 1 0 = 1 then a.ufc else 0 })) ∧
  (let dt := bitsOf x.aux 2 0
   let t := s.mreadType x
   let wide := x.aux.getLsbD 7
   let at0 := (s.me.dstEnv g).start (if dt = 2 then .v else .t) (ropIndex x.dst)
   let scale := fun e => decodeFp fp32 (elemAt 32 (s.vsrc g x.srcB (.fp fp32)) (if x.aux.getLsbD 6 then e % 32 else 0))
   let prod := fun (e : Nat) (I : Int) => (fpProd (Dy.toFp { m := I, e := (s.acc src).anchor.toInt }) (scale e)).1
   s.Admits (.mread g x) → ownOk → (dt = 3 → (s.tid x.tid.toNat).valid = true) → ∃ N fl,
    exec (.mread g x) s = .next ((if g.dup then s.wrWin at0 (leBytes (64 * t.bits) N)
      else (s.wrWin at0 (leBytes (64 * t.bits) N)).latchLm
        ((s.wrWin at0 (leBytes (64 * t.bits) N)).rdWin at0 (if dt = 2 then 2048 else 1024))).addFlags g fl 0) ∧
    ∀ e I, (s.rdAccum wide src)[e]? = some I →
      elemAt t.bits N e = (t.encode (rmode (bitsOf x.aux 5 3)) (prod e I).sign (prod e I).withQ).1 % 2 ^ t.bits)

/-- R154, R158, R156: an admitted TIDSET whose descriptor and capability pass its checks completes at issue with its
descriptor and capability captured for its turn in the matrix queue (R19), where it makes the entry valid, owned by
its context, with the descriptor, the captured capability where the tensor is local, and the initial cursor; whose
check fails, it takes that trap and sets nothing. TIDSTEP moves the cursor by its signed steps modulo the block
counts; TIDSTEP.set puts it where its registers say. Only that entry of the tile differs. The advance of R156 keeps
a cursor within its block counts. -/
def Obligations.TensorEntries : Prop :=
  (∀ (g : Guard) (x : MatrixBody) (s : State),
    let n := x.tid.toNat
    let d := s.tid n
    let v := BitVec.ofNat 512 (leNat (s.rdWin (s.me.viewEnv.start .v (ropIndex x.srcA)) 64))
    let c := s.ra (bitsOf v 107 104)
    (s.Admits (.tidset g x) →
      (tidChecks v c s.me.sys.sup = .ok () → exec (.tidset g x) s = .next (s.pushLate (.entry n v c))) ∧
      (∀ tr, tidChecks v c s.me.sys.sup = .error (.trap tr) → exec (.tidset g x) s = .next (s.takeTrap tr))) ∧
    (s.Admits (.tidstep g x) → exec (.tidstep g x) s = .next (s.setTid n { d with
      kb := (((d.kb : Int) + (x.aux.extractLsb' 8 8).toInt) % d.kblk).toNat
      nb := (((d.nb : Int) + (x.aux.extractLsb' 0 8).toInt) % d.nblk).toNat })) ∧
    (s.Admits (.tidstepSet g x) → exec (.tidstepSet g x) s = .next (s.setTid n { d with
      kb := (s.rs (x.srcA.extractLsb' 0 6)).toNat
      nb := (s.rs (x.srcB.extractLsb' 0 6)).toNat }))) ∧
  (∀ (s : State) (t : Nat) (w : LateOp) (n : Nat) (v : BitVec 512) (c : Cap), w.eff = .entry n v c →
    let u := s.lateEffect t w
    let old := FMap.get {} (s.tile t).tids n
    let d := FMap.get {} (u.tile t).tids n
    d.valid = true ∧ d.owner = w.ctx ∧ d.desc = v ∧ d.cap = (if v.getLsbD 96 then c else old.cap) ∧ d.kb = bitsOf v 271 256 ∧
    d.nb = bitsOf v 287 272 ∧ (∀ m, m ≠ n → FMap.get {} (u.tile t).tids m = FMap.get {} (s.tile t).tids m) ∧
    (∀ i k, u.ctx i k = s.ctx i k) ∧ (∀ i, i ≠ t → u.tile i = s.tile i) ∧ s.SameMem u) ∧
  (∀ (s : State) (n : Nat) (d : Tid), (s.setTid n d).tid n = d ∧ (∀ m, m ≠ n → (s.setTid n d).tid m = s.tid m) ∧
    (s.setTid n d).me = s.me ∧ ∀ a, (s.setTid n d).rd8 a = s.rd8 a) ∧
  (∀ d : Tid, d.kb < d.kblk → d.nb < d.nblk → d.advance.kb < d.kblk ∧ d.advance.nb < d.nblk ∧
    d.advance.desc = d.desc ∧ d.advance.cap = d.cap ∧ d.advance.owner = d.owner ∧ d.advance.valid = d.valid)

/-- R175 to R182, R189: LRZERO sets rank 0. LRSCALE, LRMUL, LRMULD and LRDENSE write their result, which always
fits. LRSET and LRADD write a result whose rank is within the capacity; above it, without AT, they raise LRANK with
the rank needed and the destination and write nothing. LRTRUNC and LRCOMP do the same with the operator their
procedure gives, and trap LIMIT where it gives none. LRADD of two factored operands concatenates their columns;
LRMUL with a rank of 0 gives rank 0. LRAPPLY, with a C base of a multiple of 4 KiB, completes and with rank 0 only
latches; LRRANK reads the rank field. -/
def Obligations.LowRankInstructions : Prop :=
  ∀ (g : Guard) (x : MatrixBody) (s : State),
  let A := s.rdK x.srcA
  let B := s.rdK x.srcB
  let fits := fun o : LrOp => o.rank = 255 ∨ o.rank ≤ s.me.views.kCap
  let rank := fun o : LrOp => (.next (s.takeUserTrap 128 (BitVec.ofNat 16 (o.rank * 256 + ropIndex x.dst))
    { code := 0x010F, sub := BitVec.ofNat 16 (o.rank * 256 + ropIndex x.dst), slot := 3 }) : Out)
  let limit := (.next (s.takeTrap { code := 0x0102, sub := illegalSubcode 11 63 3, slot := 3 }) : Out)
  (s.Admits (.lrzero g x) → exec (.lrzero g x) s = .next (s.setRank (ropIndex x.dst) 0)) ∧
  (s.Admits (.lrscale g x) →
    exec (.lrscale g x) s = .next (s.lrDone x.dst (lrScale ((s.rs (x.srcB.extractLsb' 0 6)).toNat % 2 ^ 32) A))) ∧
  (s.Admits (.lrmul g x) →
    exec (.lrmul g x) s = .next (s.lrDone x.dst (lrMul A B)) ∧ (A.rank = 0 ∨ B.rank = 0 → (lrMul A B).rank = 0)) ∧
  (s.Admits (.lrmuld g x) →
    exec (.lrmuld g x) s = .next (s.lrDone x.dst (lrMulDense (x.aux.getLsbD 0) (s.rdBf x.srcB) A))) ∧
  (s.Admits (.lrdense g x) → s.me.views.kCap = 64 ∧
    exec (.lrdense g x) s = .next (s.lrDone x.dst (lrDense A)) ∧ (lrDense A).rank = 255) ∧
  (let o := LrOp.factored (s.lrsetCols x x.srcA) (s.lrsetCols x x.srcB)
   s.Admits (.lrset g x) → o.rank = bitsOf x.aux 6 0 ∧ (fits o → exec (.lrset g x) s = .next (s.lrDone x.dst o)) ∧
    (¬ fits o → x.aux.getLsbD 16 = false → exec (.lrset g x) s = rank o)) ∧
  (s.Admits (.lradd g x) → (fits (lrAdd A B) → exec (.lradd g x) s = .next (s.lrDone x.dst (lrAdd A B))) ∧
    (¬ fits (lrAdd A B) → x.aux.getLsbD 16 = false → exec (.lradd g x) s = rank (lrAdd A B)) ∧
    ∀ ua va ub vb, A = .factored ua va → B = .factored ub vb → lrAdd A B = .factored (ua ++ ub) (va ++ vb)) ∧
  (s.Admits (.lrtrunc g x) →
    (∀ o, truncate s.lrTol A = some o → fits o → exec (.lrtrunc g x) s = .next (s.lrDone x.dst o)) ∧
    (∀ o, truncate s.lrTol A = some o → ¬ fits o → exec (.lrtrunc g x) s = rank o) ∧
    (truncate s.lrTol A = none → exec (.lrtrunc g x) s = limit)) ∧
  (s.Admits (.lrcomp g x) →
    (∀ rows, x.aux.getLsbD 0 = true ∧ rows = s.rdBf x.srcA ∨ x.aux.getLsbD 0 = false ∧ A = .dense rows →
      (∀ o, compress s.lrTol rows = some o → fits o → exec (.lrcomp g x) s = .next (s.lrDone x.dst o)) ∧
      (∀ o, compress s.lrTol rows = some o → ¬ fits o → exec (.lrcomp g x) s = rank o) ∧
      (compress s.lrTol rows = none → exec (.lrcomp g x) s = limit)) ∧
    (x.aux.getLsbD 0 = false → (∀ v, A = .factored [] v → exec (.lrcomp g x) s = .next (s.lrDone x.dst (.factored [] []))) ∧
      (∀ u us v, A = .factored (u :: us) v → exec (.lrcomp g x) s = limit))) ∧
  (s.Admits (.lrapply g x) → s.me.viewEnv.base .c % 4096 = 0 → ∃ t, exec (.lrapply g x) s = .next t ∧
    (∀ v, B = .factored [] v → t = s.latchLm (s.rdWin (s.me.viewEnv.start .c (ropIndex x.dst)) 4096)) ∧
    t.me.regs = s.me.regs ∧ t.me.views = s.me.views ∧ ∀ a, t.rd8 a = s.rd8 a) ∧
  (s.Admits (.lrrank g x) → let v := BitVec.ofNat 64 (s.me.rank (ropIndex x.srcA))
    exec (.lrrank g x) s = .next ((s.putS (bitsOf x.dst 5 0) v).latchLmWord v))

/-- R196 to R200, R190: with the effective offset of R192, an admitted LD, LDA or LDS of a plain extent completes
with its 2^SIZE bytes, zero-extended, in s[D]; VLD and VLDS whose runs of active lanes are plain complete with those
bytes in their places of the view and the others as they stood; TLDS with its 16 rows at the stride; VGATH with its
elements, taken one by one in ascending order; CAPLD with 16 bytes and their tag in a[D]; LRLDS with the header,
then the image of the header's rank. Each latches what it wrote. LD, LDA, LDS, VLD and VLDS take a trap found at the
port; a VGATH that fails keeps the elements below; LRLDS traps LIMIT on a header that does not fit. -/
def Obligations.LoadInstructions : Prop :=
  ∀ (g : Guard) (b : MemBody) (s : State),
  let slot := g.slot.toNat
  let c := s.ra b.areg.toNat
  let sc := b.scope.toNat
  let n := 2 ^ b.size.toNat
  let d := bitsOf b.data 5 0
  let eo := (((c.offset : Int) + b.off24.toInt) % 2 ^ 48).toNat
  let word := fun bs : List Byte => BitVec.ofNat 64 (leNat bs)
  let atV := s.me.viewEnv.start .v (ropIndex b.data)
  let runs := laneRuns (s.lanes g) n
  let runsIn := fun t : State => (∀ r ∈ runs, ∀ pa, s.Plain c [rR] (eo + r.1) r.2 pa →
      ∀ k < r.2, (t.rdWin atV n).getD (r.1 + k) 0 = (s.ownBytes pa r.2).getD k 0) ∧
    ∀ k < n, (∀ r ∈ runs, k < r.1 ∨ r.1 + r.2 ≤ k) → (t.rdWin atV n).getD k 0 = (s.rdWin atV n).getD k 0
  let atT := s.me.viewEnv.start .t (ropIndex b.data)
  let row0 := (((c.offset : Int) + 64 * (b.off24.extractLsb' 12 12).toInt) % 2 ^ 48).toNat
  let row := fun i : Nat => (row0 + 64 * (b.off24.toNat % 4096) * i) % 2 ^ 48
  (s.Admits (.ld g b) → ∀ pa, s.Plain c [rR] eo n pa → exec (.ld g b) s =
    .next (((s.afterLoad c pa n).putS d (word (s.ownBytes pa n))).latchLl (s.ownBytes pa n))) ∧
  (s.Admits (.lda g b) → ∀ pa, s.Plain c [rR] eo n pa → exec (.lda g b) s =
    .next (((s.afterLoad c pa n).putS d (word (s.ownBytes pa n))).latchLl (s.ownBytes pa n))) ∧
  (s.Admits (.lds g b) → ∀ pa, s.Plain c [rR] eo n pa → exec (.lds g b) s =
    .next (((s.afterLoad c pa n).putS d (word (s.ownBytes pa n))).latchLl (s.ownBytes pa n))) ∧
  (∀ i, i = .ld g b ∨ i = .lda g b ∨ i = .lds g b → s.Admits i →
    (∀ s1 bs, s.loadRun slot c [rR] sc eo n = .ok (s1, bs) → exec i s = .next ((s1.putS d (word bs)).latchLl bs)) ∧
    (∀ tr, s.loadRun slot c [rR] sc eo n = .error (.trap tr) → exec i s = .next (s.takeTrap tr))) ∧
  (s.Admits (.vld g b) → (∀ r ∈ runs, ∃ pa, s.Plain c [rR] (eo + r.1) r.2 pa) →
    ∃ s1 : State, exec (.vld g b) s = .next (s1.latchLl (s1.rdWin atV n)) ∧ runsIn s1) ∧
  (s.Admits (.vlds g b) → (∀ r ∈ runs, ∃ pa, s.Plain c [rR] (eo + r.1) r.2 pa) →
    ∃ s1 : State, exec (.vlds g b) s = .next (s1.latchLl (s1.rdWin atV n)) ∧ runsIn s1) ∧
  (∀ i, i = .vld g b ∨ i = .vlds g b → s.Admits i → ∀ tr, s.loadRuns slot c [rR] sc eo atV runs = .error (.trap tr) →
    exec i s = .next (s.takeTrap tr)) ∧
  (s.Admits (.tlds g b) → (∀ i < 16, ∃ pa, s.Plain c [rR] (row i) 64 pa) →
    ∃ s1 : State, exec (.tlds g b) s = .next (s1.latchLl (s1.rdWin atT 1024)) ∧ ∀ i < 16, ∀ pa, s.Plain c [rR] (row i) 64 pa →
      ∀ k < 64, (s1.rdWin atT 1024).getD (64 * i + k) 0 = (s.ownBytes pa 64).getD k 0) ∧
  (let idx := leNat (s.rdWin (s.me.viewEnv.start .v (bitsOf b.off24 21 16)) 256)
   let es := s.gatherElems g b
   (es.Pairwise fun x y => x.1 < y.1) ∧
   (∀ i a, (i, a) ∈ es ↔ i < 64 ∧ (s.lanes g).getLsbD i = true ∧ elemAt 32 idx i ≠ 2 ^ 32 - 1 ∧
     a = (((c.offset : Int) + (b.off24.extractLsb' 0 16).toInt + elemAt 32 idx i * n) % 2 ^ 48).toNat) ∧
   (s.Admits (.vgath g b) → (∀ x ∈ es, s.elemCheck slot c [rR] x.2 n = .ok () ∧ ∃ pa, s.Plain c [rR] x.2 n pa) →
    ∃ s1 : State, exec (.vgath g b) s = .next (s1.latchLl (s1.rdWin atV (64 * n))) ∧ ∀ x ∈ es, ∀ pa, s.Plain c [rR] x.2 n pa →
      ∀ k < n, (s1.rdWin atV (64 * n)).getD (n * x.1 + k) 0 = (s.ownBytes pa n).getD k 0) ∧
   (s.Admits (.vgath g b) → ∀ s1 tr, s.gather slot c sc n atV es = (s1, some (.trap tr)) →
    exec (.vgath g b) s = .next (s1.takeTrap tr))) ∧
  (s.Admits (.capld g b) → ∀ pa, s.Plain c [rR, rC] eo 16 pa → exec (.capld g b) s =
    .next (((s.afterLoad c pa 16).putA (b.data.toNat % 16)
      { bits := BitVec.ofNat 128 (leNat (s.ownBytes pa 16)), tag := forwardTag s.me.commitQ pa (s.rdTag pa) }).latchLl
        (s.ownBytes pa 16))) ∧
  (s.Admits (.lrlds g b) → ∀ pa, s.Plain c [rR] eo 64 pa →
    let h := s.ownBytes pa 64
    let rk := (h.headD 0).toNat
    let cap := s.me.views.kCap
    let fits := (∀ y ∈ h.drop 1, y = 0) ∧ (rk = 255 ∧ cap = 64 ∨ rk ≤ 64 ∧ rk ≤ cap)
    let m := if rk = 255 then 65536 else 1024 * rk
    let k := ropIndex b.data
    (¬ fits → exec (.lrlds g b) s = .next (s.takeTrap { code := 0x0102, sub := illegalSubcode 11 63 slot, slot := slot })) ∧
    (fits → capCheck slot c [kSCRATCH] [rR] [] eo (64 + m) = .ok () → ∀ pb, s.Plain c [rR] (eo + 64) m pb →
      exec (.lrlds g b) s = .next ((((((s.afterLoad c pa 64).afterLoad c pb m).wrWin (s.me.viewEnv.start .k k)
        (s.ownBytes pb m)).setRank k rk).latchLl (s.ownBytes pb m)))))

/-- R230: at issue the tag, the kind, the rights, then the bounds are looked at, and the first that fails gives
CAP_TAG, CAP_RIGHTS, CAP_RIGHTS or CAP_BOUNDS; at the memory port an object without a valid entry traps CAP_BOUNDS,
a kind or right that the entry lacks CAP_RIGHTS, a range past its length CAP_BOUNDS. R353, R354, R33, R234: a load
of a plain extent reads the bytes at the extent's physical address, each one the last own store to it that has not
left the commit stage, else memory's byte; the port remembers the entry, the slices that home the bytes are reached,
and nothing else changes. A write of one byte or of a run changes those bytes and no others, and memory keeps its
canonical form. -/
def Obligations.TranslationAndBytes : Prop :=
  (∀ (slot : Nat) (c : Cap) (kinds rs : List Nat) (eo len : Nat),
    let chk := capCheck slot c kinds rs [] eo len
    let stop := fun code : BitVec 16 =>
      (.error (.trap { code := code, sub := BitVec.ofNat 16 slot, slot := slot, obj := c.obj, off := eo }) : Except Stop Unit)
    let okKind := kinds.contains c.kind = true
    let okRights := ∀ r ∈ rs, c.rights.getLsbD r = true
    let okBounds := c.exp ≤ 48 ∧ c.baseM * 2 ^ c.exp ≤ eo ∧ eo + len ≤ (c.baseM + c.lenM) * 2 ^ c.exp
    (c.tag = false → chk = stop 0x0105) ∧ (c.tag = true → ¬ okKind → chk = stop 0x0104) ∧
    (c.tag = true → okKind → ¬ okRights → chk = stop 0x0104) ∧
    (c.tag = true → okKind → okRights → ¬ okBounds → chk = stop 0x0103) ∧
    (c.tag = true → okKind → okRights → okBounds → chk = .ok ())) ∧
  (∀ (s : State) (slot : Nat) (c : Cap) (rs : List Nat) (scope eo len : Nat),
    let stop := fun code : BitVec 16 => s.loadRun slot c rs scope eo len =
      .error (.trap { code := code, sub := BitVec.ofNat 16 slot, slot := slot, obj := c.obj, off := eo })
    let entry := s.lookObj s.myTile s.me.sys.asid c.obj
    (entry = none → stop 0x0103) ∧
    (∀ e, entry = some e →
      let okRights := ∀ r ∈ rs, (e.extractLsb' 88 8).getLsbD r = true
      (bitsOf e 87 84 ≠ c.kind → stop 0x0104) ∧ (bitsOf e 87 84 = c.kind → ¬ okRights → stop 0x0104) ∧
      (bitsOf e 87 84 = c.kind → okRights → bitsOf e 207 160 < eo + len → stop 0x0103)) ∧
    (∀ s1 bs, s.loadRun slot c rs scope eo len = .ok (s1, bs) → s.SameMem s1 ∧ s1.me = s.me) ∧
    (∀ pa, 0 < len → s.Plain c rs eo len pa → ∃ e, entry = some e ∧
      s.afterPort c = s.fillObj s.myTile s.me.sys.asid c.obj e ∧
      s.loadRun slot c rs scope eo len = .ok (s.afterLoad c pa len, s.ownBytes pa len))) ∧
  (∀ (q : List CommitEntry) (e : CommitEntry) (a : Nat) (m : Byte), forward [] a m = m ∧
    (∀ bs ds, e.op = .store bs ds → forward (q ++ [e]) a m =
      (((bs.filter fun x => x.1 == a).getLast?.map Prod.snd).getD (forward q a m)))) ∧
  (∀ (s : State) (pa : Nat) (v : Byte), (∀ a, (s.wr8 pa v).rd8 a = if a = pa then v else s.rd8 a) ∧
    (s.MemCanonical → (s.wr8 pa v).MemCanonical)) ∧
  (∀ (s : State) (pa : Nat) (bs : List Byte), (s.MemCanonical → (s.wrBytes pa bs).MemCanonical) ∧
    ∀ a, (s.wrBytes pa bs).rd8 a = if pa ≤ a ∧ a < pa + bs.length then bs.getD (a - pa) 0 else s.rd8 a)

/-- R196, R197, R199 to R202, R34: an admitted store into a plain extent completes: it enters the commit stage of
its context, held where a region is open: ST and STL with the low 2^SIZE bytes of s[D], VST with the bytes of the
active lanes, VSCAT with its elements, CAPST with a[S], ATOM with its operation and operands. No byte of memory
changes until it leaves (R34). R33: in an open region without room it traps REGION_OVERFLOW. A VSCAT that fails part
of the way leaves the elements below in the commit stage, outside a region, and traps. R72, R197: byte k of a vector
transfer is covered exactly when lane (k mod 256) div 4 is active. -/
def Obligations.GlobalStores : Prop :=
  (∀ (m : Mask) (n : Nat), n % 4 = 0 → ((laneRuns m n).Pairwise fun x y => x.1 + x.2 < y.1) ∧
    ∀ k, (∃ r ∈ laneRuns m n, r.1 ≤ k ∧ k < r.1 + r.2) ↔ k < n ∧ m.getLsbD (k % 256 / 4) = true) ∧
  ∀ (g : Guard) (b : MemBody) (s : State),
  let slot := g.slot.toNat
  let c := s.ra b.areg.toNat
  let n := 2 ^ b.size.toNat
  let eo := (((c.offset : Int) + b.off24.toInt) % 2 ^ 48).toNat
  let full := (.next (s.takeTrap { code := 0x0102, sub := illegalSubcode 8 63 slot, slot := slot }) : Out)
  let into := fun (s1 : State) (op : CommitOp) => (.next (s1.entered slot b.cls.toNat b.scope.toNat op) : Out)
  let value := (List.range n).map fun k => BitVec.ofNat 8 ((s.rs (b.data.extractLsb' 0 6)).toNat / 256 ^ k)
  let atV := s.me.viewEnv.start .v (ropIndex b.data)
  let runs := (laneRuns (s.lanes g) n).map fun r => (r.1, s.rdWin (atV + r.1) r.2)
  let es := s.gatherElems g b
  (∀ runs s1 cs ds op, s.storeCells slot c [rW] eo runs = .ok (s1, cs, ds) →
    s.SameMem s1 ∧ s.SameMem (s1.entered slot b.cls.toNat b.scope.toNat op)) ∧
  (∀ es s1 cs ds e, c.kind ≠ kSCRATCH → s.scatter slot c n atV es = (s1, cs, ds, e) → s.SameMem s1) ∧
  (s.Admits (.st g b) → ∀ pa, s.Plain c [rW] eo n pa →
    (s.CanCommit (.store (cellsAt pa value) []) → exec (.st g b) s =
      .next ((s.afterPort c).entered slot b.cls.toNat b.scope.toNat (.store (cellsAt pa value) []))) ∧
    (¬ s.CanCommit (.store (cellsAt pa value) []) → exec (.st g b) s = full)) ∧
  (s.Admits (.stl g b) → ∀ pa, s.Plain c [rW] eo n pa →
    (s.CanCommit (.store (cellsAt pa value) []) → exec (.stl g b) s =
      .next ((s.afterPort c).entered slot b.cls.toNat b.scope.toNat (.store (cellsAt pa value) []))) ∧
    (¬ s.CanCommit (.store (cellsAt pa value) []) → exec (.stl g b) s = full)) ∧
  (s.Admits (.vst g b) → (∀ r ∈ runs, ∃ pa, s.Plain c [rW] (eo + r.1) r.2.length pa) → ∃ s1 cs,
    s.storeCells slot c [rW] eo runs = .ok (s1, cs, []) ∧
    (∀ r ∈ runs, ∀ pa, s.Plain c [rW] (eo + r.1) r.2.length pa → ∀ x ∈ cellsAt pa r.2, x ∈ cs) ∧
    (cs = [] → exec (.vst g b) s = .next s1) ∧
    (cs ≠ [] → s.CanCommit (.store cs []) → exec (.vst g b) s =
      .next (s1.entered slot b.cls.toNat b.scope.toNat (.store cs [])))) ∧
  (∀ i rs, i = .st g b ∧ rs = [(0, value)] ∨ i = .stl g b ∧ rs = [(0, value)] ∨ i = .vst g b ∧ rs = runs → s.Admits i →
    (∀ s1 cs ds, s.storeCells slot c [rW] eo rs = .ok (s1, cs, ds) → cs ≠ [] →
      (s1.CanCommit (.store cs ds) → exec i s = into s1 (.store cs ds)) ∧ (¬ s1.CanCommit (.store cs ds) → exec i s = full)) ∧
    (∀ tr, s.storeCells slot c [rW] eo rs = .error (.trap tr) → exec i s = .next (s.takeTrap tr))) ∧
  (s.Admits (.vscat g b) →
    (∀ x ∈ es, s.elemCheck slot c [rW] x.2 n = .ok () ∧ ∃ pa, s.Plain c [rW] x.2 n pa) → ∃ s1 cs,
    s.scatter slot c n atV es = (s1, cs, [], none) ∧ (cs = [] → exec (.vscat g b) s = .next s1) ∧
    (cs ≠ [] → s1.CanCommit (.store cs []) → exec (.vscat g b) s =
      .next (s1.entered slot b.cls.toNat b.scope.toNat (.store cs []))) ∧
    (c.kind = kSCRATCH → cs = [])) ∧
  (s.Admits (.vscat g b) → ∀ s1 cs ds tr, s.scatter slot c n atV es = (s1, cs, ds, some (.trap tr)) →
    (cs = [] ∨ s1.me.region ≠ none → exec (.vscat g b) s = .next (s1.takeTrap tr)) ∧
    (cs ≠ [] → s1.me.region = none → ∃ e : CommitEntry, e.op = .store cs ds ∧ e.bundle = s1.me.bundleNo ∧
      e.stands = true ∧ exec (.vscat g b) s =
        .next ((s1.setMe { s1.me with commitQ := s1.me.commitQ ++ [e] }).takeTrap tr))) ∧
  (s.Admits (.capst g b) → ∀ pa, s.Plain c [rW, rC] eo 16 pa →
    let op := CommitOp.capStore pa (s.ra (b.data.toNat % 16)) []
    (s.CanCommit op → exec (.capst g b) s = .next ((s.afterPort c).entered slot b.cls.toNat b.scope.toNat op)) ∧
    (¬ s.CanCommit op → exec (.capst g b) s = full)) ∧
  (let eo20 := (((c.offset : Int) + (b.off24.extractLsb' 0 20).toInt) % 2 ^ 48).toNat
   let low := fun v : Word => BitVec.ofNat 64 (v.toNat % 2 ^ (8 * n))
   s.Admits (.atom g b) → ∀ pa, s.Plain c [rA] eo20 n pa →
    let op := CommitOp.atomic pa (b.off24.toNat / 2 ^ 20) b.size.toNat (low (s.rs (b.data.extractLsb' 0 6)))
      (low (s.rs (b.data.extractLsb' 0 6 + 1))) (b.data.toNat % 64) []
    (s.CanCommit op → exec (.atom g b) s = .next ((s.afterPort c).entered slot b.cls.toNat b.scope.toNat op)) ∧
    (¬ s.CanCommit op → exec (.atom g b) s = full))

/-- R193, R196 to R198, R201, R203, R190: an admitted STS into a plain extent writes the low 2^SIZE bytes of s[D]
from the address computed for its offset, charges them to the handle named with HE, and every other byte of memory
stays. Into plain extents VSTS completes with its runs of active lanes written, TSTS with its 16 rows, LRSTS with
the header with the rank and the image; a trap of STS or VSTS at the port is taken. ATOMS writes the new value of
R202 for the old value m, charges the handle, and s[D] takes m zero-extended. The general frame of a store in runs:
bytes outside the cells written stay. -/
def Obligations.ScratchpadStores : Prop :=
  ∀ (g : Guard) (b : MemBody) (s : State),
  let slot := g.slot.toNat
  let c := s.ra b.areg.toNat
  let n := 2 ^ b.size.toNat
  let eo19 := (((c.offset : Int) + (b.off24.extractLsb' 0 19).toInt) % 2 ^ 48).toNat
  let eo15 := (((c.offset : Int) + (b.off24.extractLsb' 0 15).toInt) % 2 ^ 48).toNat
  let he := if b.off24.getLsbD 23 then some (b.off24.toNat / 2 ^ 19 % 16) else none
  let heA := if b.off24.getLsbD 19 then some (b.off24.toNat / 2 ^ 15 % 16) else none
  let value := (List.range n).map fun k => BitVec.ofNat 8 ((s.rs (b.data.extractLsb' 0 6)).toNat / 256 ^ k)
  let atV := s.me.viewEnv.start .v (ropIndex b.data)
  let runs := (laneRuns (s.lanes g) n).map fun r => (r.1, s.rdWin (atV + r.1) r.2)
  (s.Admits (.sts g b) → ∀ pa, s.Plain c [rW] eo19 n pa → ∃ t,
    exec (.sts g b) s = .next (t.chargeMe he (pa % 2 ^ 21) n) ∧
    t = (s.afterPort c).performStore [] (cellsAt pa value) ∧
    ∀ a, (t.chargeMe he (pa % 2 ^ 21) n).rd8 a = if pa ≤ a ∧ a < pa + n then value.getD (a - pa) 0 else s.rd8 a) ∧
  (s.Admits (.sts g b) → ∀ tr, s.storeScratch slot c [rW] he eo19 [(0, value)] = .error (.trap tr) →
    exec (.sts g b) s = .next (s.takeTrap tr)) ∧
  (s.Admits (.vsts g b) → (∀ r ∈ runs, ∃ pa, s.Plain c [rW] (eo19 + r.1) r.2.length pa) →
    ∃ s1, s.storeScratch slot c [rW] he eo19 runs = .ok s1 ∧ exec (.vsts g b) s = .next s1) ∧
  (s.Admits (.vsts g b) → ∀ tr, s.storeScratch slot c [rW] he eo19 runs = .error (.trap tr) →
    exec (.vsts g b) s = .next (s.takeTrap tr)) ∧
  (let row0 := (((c.offset : Int) + 64 * (b.off24.extractLsb' 12 12).toInt) % 2 ^ 48).toNat
   let rows := (List.range 16).map fun i => ((row0 + 64 * (b.off24.toNat % 4096) * i) % 2 ^ 48, 64)
   s.Admits (.tsts g b) → (∀ r ∈ rows, ∃ pa, s.Plain c [rW] r.1 64 pa) →
    ∃ s1, s.storeRows slot c (s.me.viewEnv.start .t (ropIndex b.data)) rows = .ok s1 ∧ exec (.tsts g b) s = .next s1) ∧
  (let k := ropIndex b.data
   let rk := s.me.rank k
   let m := if rk = 255 then 65536 else 1024 * rk
   let eo := (((c.offset : Int) + b.off24.toInt) % 2 ^ 48).toNat
   s.Admits (.lrsts g b) → capCheck slot c [kSCRATCH] [rW] [] eo (64 + m) = .ok () →
    ∀ pa, s.Plain c [rW] eo (64 + m) pa → exec (.lrsts g b) s = .next ((s.afterPort c).performStore []
      (cellsAt pa (leBytes 64 rk ++ s.rdWin (s.me.viewEnv.start .k k) m)))) ∧
  (s.Admits (.atoms g b) → ∀ pa, s.Plain c [rA] eo15 n pa →
    let m := s.rdNat pa n
    let low := fun v : Word => v.toNat % 2 ^ (8 * n)
    let new := atomicNew (b.off24.toNat / 2 ^ 20) (8 * n) m (low (s.rs (b.data.extractLsb' 0 6)))
      (low (s.rs (b.data.extractLsb' 0 6 + 1)))
    exec (.atoms g b) s = .next ((((s.afterPort c).performStore []
      ((List.range n).map fun k => (pa + k, BitVec.ofNat 8 (new / 256 ^ k)))).chargeMe heA (pa % 2 ^ 21) n).putS
        (b.data.toNat % 64) (BitVec.ofNat 64 m))) ∧
  (∀ (cs : List (Nat × Byte)), s.Wrote (s.performStore [] cs) cs)

/-- R202: for an old value m, an operand v and a compare-and-swap value c of w bits, the operations 0 to 9 give the
sum modulo 2^w, the bitwise AND, OR and XOR, the signed and the unsigned minimum and maximum, v, and c where m = v,
else m. For the floating add of code 10, a NaN operand gives the canonical NaN, and a finite non-zero exact sum is
rounded once. -/
def Obligations.AtomicResults : Prop :=
  (∀ (w : Nat) (m v c : BitVec w), 0 < w →
    let new := fun op : Nat => atomicNew op w m.toNat v.toNat c.toNat
    new 0 = (m + v).toNat ∧ new 1 = (m &&& v).toNat ∧ new 2 = (m ||| v).toNat ∧ new 3 = (m ^^^ v).toNat ∧
    new 4 = (if m.toInt ≤ v.toInt then m else v).toNat ∧ new 5 = (if v.toInt ≤ m.toInt then m else v).toNat ∧
    new 6 = (if m.toNat ≤ v.toNat then m else v).toNat ∧ new 7 = (if v.toNat ≤ m.toNat then m else v).toNat ∧
    new 8 = v.toNat ∧ new 9 = (if m = v then c else m).toNat) ∧
  (∀ m v c : Nat, (decodeFp fp32 m).isNan = true ∨ (decodeFp fp32 v).isNan = true →
    atomicNew 10 32 m v c = 0x7FC00000) ∧
  (∀ (m v c : Nat), (decodeFp fp32 m).isNan = false → (decodeFp fp32 v).isNan = false →
    (decodeFp fp32 m).isInf = false → (decodeFp fp32 v).isInf = false →
    ((decodeFp fp32 m).dy.add (decodeFp fp32 v).dy).m ≠ 0 →
    atomicNew 10 32 m v c = (encodeFp fp32 .rne false ((decodeFp fp32 m).dy.add (decodeFp fp32 v).dy).toQ).1)

/-- R204, R21: an admitted copy command posts one command that holds its capabilities, its s-registers and, under
SG, its signal as captured. R33, R34: one with a scratchpad destination enters the pump port at once, and so does a
PGATH with HE; every other leaves through the commit stage, held where a region is open, and traps REGION_OVERFLOW
where a region has no room for it. R204: a length above 2^32 − 1 traps LIMIT. R205: with HE, a destination that is
not the issuing tile's scratchpad traps CB_CONFIG. R246, R248, R249, R274, R291, R297, R384: an admitted KV,
collective, stream or journal operation posts one command with its registers as captured. KVSTAT, COLSTAT, STMGET,
STMSTAT and WJSTAT enter the pump port at once; the others leave through the commit stage, held where a region is
open. Those whose assembly has SG carry their signal. -/
def Obligations.PumpCommandsPosted : Prop :=
  ((∀ (g : Guard) (b : PumpBody) (s : State),
  let sg := b.aux.getLsbD 1
  let local' := (s.ra b.areg0.toNat).kind = kSCRATCH
  let full : Out := .next (s.takeTrap { code := 0x0102, sub := illegalSubcode 8 63 6, slot := 6 })
  (s.Admits (.pcopy g b) → local' → exec (.pcopy g b) s = .next (s.inPort (s.captured (.pcopy g b) 1 b false))) ∧
  (s.Admits (.pcopy g b) → ¬ local' →
    (s.CanCommit (.pump (s.captured (.pcopy g b) 1 b false)) →
      exec (.pcopy g b) s = .next (s.numbered.entered 6 b.cls.toNat 0 (.pump (s.captured (.pcopy g b) 1 b false)))) ∧
    (¬ s.CanCommit (.pump (s.captured (.pcopy g b) 1 b false)) → exec (.pcopy g b) s = full)) ∧
  (s.Admits (.pfill g b) → local' → exec (.pfill g b) s = .next (s.inPort (s.captured (.pfill g b) 2 b sg))) ∧
  (s.Admits (.pfill g b) → ¬ local' →
    (s.CanCommit (.pump (s.captured (.pfill g b) 2 b sg)) →
      exec (.pfill g b) s = .next (s.numbered.entered 6 b.cls.toNat 0 (.pump (s.captured (.pfill g b) 2 b sg)))) ∧
    (¬ s.CanCommit (.pump (s.captured (.pfill g b) 2 b sg)) → exec (.pfill g b) s = full)) ∧
  (s.Admits (.pgath g b) → b.aux.getLsbD 0 = true → exec (.pgath g b) s = .next (s.inPort (s.captured (.pgath g b) 3 b sg))) ∧
  (s.Admits (.pgath g b) → ¬ b.aux.getLsbD 0 = true →
    (s.CanCommit (.pump (s.captured (.pgath g b) 3 b sg)) →
      exec (.pgath g b) s = .next (s.numbered.entered 6 b.cls.toNat 0 (.pump (s.captured (.pgath g b) 3 b sg)))) ∧
    (¬ s.CanCommit (.pump (s.captured (.pgath g b) 3 b sg)) → exec (.pgath g b) s = full)) ∧
  (s.Admits (.pscat g b) → 
    (s.CanCommit (.pump (s.captured (.pscat g b) 4 b sg)) →
      exec (.pscat g b) s = .next (s.numbered.entered 6 b.cls.toNat 0 (.pump (s.captured (.pscat g b) 4 b sg)))) ∧
    (¬ s.CanCommit (.pump (s.captured (.pscat g b) 4 b sg)) → exec (.pscat g b) s = full)) ∧
  (s.Admits (.pdecl g b) → 
    (s.CanCommit (.pump (s.captured (.pdecl g b) 5 b false)) →
      exec (.pdecl g b) s = .next (s.numbered.entered 6 b.cls.toNat 0 (.pump (s.captured (.pdecl g b) 5 b false)))) ∧
    (¬ s.CanCommit (.pump (s.captured (.pdecl g b) 5 b false)) → exec (.pdecl g b) s = full)) ∧
  (s.Admits (.pflushx g b) → 
    (s.CanCommit (.pump (s.captured (.pflushx g b) 6 b sg)) →
      exec (.pflushx g b) s = .next (s.numbered.entered 6 b.cls.toNat 0 (.pump (s.captured (.pflushx g b) 6 b sg)))) ∧
    (¬ s.CanCommit (.pump (s.captured (.pflushx g b) 6 b sg)) → exec (.pflushx g b) s = full))) ∧
  (∀ (g : Guard) (b : PumpBody) (s : State) (i : Instr),
    i = .pcopy g b ∨ i = .pfill g b ∨ i = .pdecl g b ∨ i = .pflushx g b →
    s.Legal i → s.discarded i = false → 2 ^ 32 ≤ (s.rs b.s0).toNat →
    exec i s = .next (s.takeTrap { code := 0x0102, sub := illegalSubcode 11 63 6, slot := 6 })) ∧
  (∀ (g : Guard) (b : PumpBody) (s : State) (i : Instr), i = .pcopy g b ∨ i = .pfill g b →
    let d := s.ra b.areg0.toNat
    s.Legal i → s.discarded i = false → b.aux.getLsbD 0 = true →
    (s.me.region ≠ none ∨ (s.me.handle b.handle.toNat).count = 0 ∨ d.kind ≠ kSCRATCH ∨
      s.notScratch s.myTile s.me.sys.asid d.obj d.offset (s.rs b.s0).toNat = true) →
    (i = .pcopy g b → s.lengthCheck b = .ok () ∧ s.rangeCheck b b.areg0.toNat kindsCopy [rPD] [] = .ok () ∧
      s.rangeCheck b b.areg1.toNat kindsCopy [rPS] [] = .ok ()) →
    (i = .pfill g b → s.lengthCheck b = .ok () ∧ s.rangeCheck b b.areg0.toNat kindsCopy [rPD] [] = .ok () ∧
      s.sgCheck b = .ok ()) →
    exec i s = .next (s.takeTrap { code := 0x010D, sub := BitVec.ofNat 16 b.handle.toNat, slot := 6 }))) ∧
  (∀ (g : Guard) (b : PumpBody) (s : State),
  let sg := b.aux.getLsbD 1
  let full : Out := .next (s.takeTrap { code := 0x0102, sub := illegalSubcode 8 63 6, slot := 6 })
  (s.Admits (.kvappend g b) → 
    (s.CanCommit (.pump (s.captured (.kvappend g b) 7 b false)) →
      exec (.kvappend g b) s = .next (s.numbered.entered 6 b.cls.toNat 0 (.pump (s.captured (.kvappend g b) 7 b false)))) ∧
    (¬ s.CanCommit (.pump (s.captured (.kvappend g b) 7 b false)) → exec (.kvappend g b) s = full)) ∧
  (s.Admits (.kvattn g b) → 
    (s.CanCommit (.pump (s.captured (.kvattn g b) 8 b false)) →
      exec (.kvattn g b) s = .next (s.numbered.entered 6 b.cls.toNat 0 (.pump (s.captured (.kvattn g b) 8 b false)))) ∧
    (¬ s.CanCommit (.pump (s.captured (.kvattn g b) 8 b false)) → exec (.kvattn g b) s = full)) ∧
  (s.Admits (.kvscore g b) → 
    (s.CanCommit (.pump (s.captured (.kvscore g b) 9 b false)) →
      exec (.kvscore g b) s = .next (s.numbered.entered 6 b.cls.toNat 0 (.pump (s.captured (.kvscore g b) 9 b false)))) ∧
    (¬ s.CanCommit (.pump (s.captured (.kvscore g b) 9 b false)) → exec (.kvscore g b) s = full)) ∧
  (s.Admits (.kvseal g b) → 
    (s.CanCommit (.pump (s.captured (.kvseal g b) 10 b sg)) →
      exec (.kvseal g b) s = .next (s.numbered.entered 6 b.cls.toNat 0 (.pump (s.captured (.kvseal g b) 10 b sg)))) ∧
    (¬ s.CanCommit (.pump (s.captured (.kvseal g b) 10 b sg)) → exec (.kvseal g b) s = full)) ∧
  (s.Admits (.kvcompact g b) → 
    (s.CanCommit (.pump (s.captured (.kvcompact g b) 11 b false)) →
      exec (.kvcompact g b) s = .next (s.numbered.entered 6 b.cls.toNat 0 (.pump (s.captured (.kvcompact g b) 11 b false)))) ∧
    (¬ s.CanCommit (.pump (s.captured (.kvcompact g b) 11 b false)) → exec (.kvcompact g b) s = full)) ∧
  (s.Admits (.kvfork g b) → 
    (s.CanCommit (.pump (s.captured (.kvfork g b) 12 b false)) →
      exec (.kvfork g b) s = .next (s.numbered.entered 6 b.cls.toNat 0 (.pump (s.captured (.kvfork g b) 12 b false)))) ∧
    (¬ s.CanCommit (.pump (s.captured (.kvfork g b) 12 b false)) → exec (.kvfork g b) s = full)) ∧
  (s.Admits (.kvforkNew g b) → 
    (s.CanCommit (.pump (s.captured (.kvforkNew g b) 12 b false)) →
      exec (.kvforkNew g b) s = .next (s.numbered.entered 6 b.cls.toNat 0 (.pump (s.captured (.kvforkNew g b) 12 b false)))) ∧
    (¬ s.CanCommit (.pump (s.captured (.kvforkNew g b) 12 b false)) → exec (.kvforkNew g b) s = full)) ∧
  (s.Admits (.kvfree g b) → 
    (s.CanCommit (.pump (s.captured (.kvfree g b) 13 b sg)) →
      exec (.kvfree g b) s = .next (s.numbered.entered 6 b.cls.toNat 0 (.pump (s.captured (.kvfree g b) 13 b sg)))) ∧
    (¬ s.CanCommit (.pump (s.captured (.kvfree g b) 13 b sg)) → exec (.kvfree g b) s = full)) ∧
  (s.Admits (.kvpin g b) → 
    (s.CanCommit (.pump (s.captured (.kvpin g b) 14 b sg)) →
      exec (.kvpin g b) s = .next (s.numbered.entered 6 b.cls.toNat 0 (.pump (s.captured (.kvpin g b) 14 b sg)))) ∧
    (¬ s.CanCommit (.pump (s.captured (.kvpin g b) 14 b sg)) → exec (.kvpin g b) s = full)) ∧
  (s.Admits (.kvwin g b) → 
    (s.CanCommit (.pump (s.captured (.kvwin g b) 15 b sg)) →
      exec (.kvwin g b) s = .next (s.numbered.entered 6 b.cls.toNat 0 (.pump (s.captured (.kvwin g b) 15 b sg)))) ∧
    (¬ s.CanCommit (.pump (s.captured (.kvwin g b) 15 b sg)) → exec (.kvwin g b) s = full)) ∧
  (s.Admits (.kvstat g b) → exec (.kvstat g b) s = .next (s.inPort (s.captured (.kvstat g b) 16 b false))) ∧
  (s.Admits (.colar g b) → 
    (s.CanCommit (.pump (s.captured (.colar g b) 17 b sg)) →
      exec (.colar g b) s = .next (s.numbered.entered 6 b.cls.toNat 0 (.pump (s.captured (.colar g b) 17 b sg)))) ∧
    (¬ s.CanCommit (.pump (s.captured (.colar g b) 17 b sg)) → exec (.colar g b) s = full)) ∧
  (s.Admits (.colrs g b) → 
    (s.CanCommit (.pump (s.captured (.colrs g b) 18 b sg)) →
      exec (.colrs g b) s = .next (s.numbered.entered 6 b.cls.toNat 0 (.pump (s.captured (.colrs g b) 18 b sg)))) ∧
    (¬ s.CanCommit (.pump (s.captured (.colrs g b) 18 b sg)) → exec (.colrs g b) s = full)) ∧
  (s.Admits (.colag g b) → 
    (s.CanCommit (.pump (s.captured (.colag g b) 19 b sg)) →
      exec (.colag g b) s = .next (s.numbered.entered 6 b.cls.toNat 0 (.pump (s.captured (.colag g b) 19 b sg)))) ∧
    (¬ s.CanCommit (.pump (s.captured (.colag g b) 19 b sg)) → exec (.colag g b) s = full)) ∧
  (s.Admits (.colbc g b) → 
    (s.CanCommit (.pump (s.captured (.colbc g b) 20 b sg)) →
      exec (.colbc g b) s = .next (s.numbered.entered 6 b.cls.toNat 0 (.pump (s.captured (.colbc g b) 20 b sg)))) ∧
    (¬ s.CanCommit (.pump (s.captured (.colbc g b) 20 b sg)) → exec (.colbc g b) s = full)) ∧
  (s.Admits (.colstat g b) → exec (.colstat g b) s = .next (s.inPort (s.captured (.colstat g b) 21 b false))) ∧
  (s.Admits (.stmget g b) → exec (.stmget g b) s = .next (s.inPort (s.captured (.stmget g b) 22 b false))) ∧
  (s.Admits (.stmstat g b) → exec (.stmstat g b) s = .next (s.inPort (s.captured (.stmstat g b) 23 b false))) ∧
  (s.Admits (.wjopen g b) → 
    (s.CanCommit (.pump (s.captured (.wjopen g b) 24 b sg)) →
      exec (.wjopen g b) s = .next (s.numbered.entered 6 b.cls.toNat 0 (.pump (s.captured (.wjopen g b) 24 b sg)))) ∧
    (¬ s.CanCommit (.pump (s.captured (.wjopen g b) 24 b sg)) → exec (.wjopen g b) s = full)) ∧
  (s.Admits (.wjwrite g b) → 
    (s.CanCommit (.pump (s.captured (.wjwrite g b) 25 b sg)) →
      exec (.wjwrite g b) s = .next (s.numbered.entered 6 b.cls.toNat 0 (.pump (s.captured (.wjwrite g b) 25 b sg)))) ∧
    (¬ s.CanCommit (.pump (s.captured (.wjwrite g b) 25 b sg)) → exec (.wjwrite g b) s = full)) ∧
  (s.Admits (.wjcommit g b) → 
    (s.CanCommit (.pump (s.captured (.wjcommit g b) 26 b sg)) →
      exec (.wjcommit g b) s = .next (s.numbered.entered 6 b.cls.toNat 0 (.pump (s.captured (.wjcommit g b) 26 b sg)))) ∧
    (¬ s.CanCommit (.pump (s.captured (.wjcommit g b) 26 b sg)) → exec (.wjcommit g b) s = full)) ∧
  (s.Admits (.wjabort g b) → 
    (s.CanCommit (.pump (s.captured (.wjabort g b) 27 b sg)) →
      exec (.wjabort g b) s = .next (s.numbered.entered 6 b.cls.toNat 0 (.pump (s.captured (.wjabort g b) 27 b sg)))) ∧
    (¬ s.CanCommit (.pump (s.captured (.wjabort g b) 27 b sg)) → exec (.wjabort g b) s = full)) ∧
  (s.Admits (.wjstat g b) → exec (.wjstat g b) s = .next (s.inPort (s.captured (.wjstat g b) 28 b false))))

/-- R215: with no incomplete operation that names the handle, an admitted CBSET whose registers keep the limits of
R28 sets up the handle with every slot FREE, LEFT 0 and OVERRUN 0, and one that breaks a limit or sets another bit
traps CB_CONFIG and leaves the handle; with one, or behind a handle operation that waits, it waits in the sync queue
(R19). R29, R214: CBWAIT completes exactly where its n slots from DRAIN are FILLED, CBSPACE where its n slots from
FILL are FREE, and otherwise the context sleeps. R216, R19: outside a region CBADV, where nothing waits in the sync
queue, takes effect at once or traps CB_CONFIG, and else waits there; with n = 0 it does nothing; in an open region
it is held. -/
def Obligations.HandleInstructions : Prop :=
  ∀ (g : Guard) (b : SyncBody) (s : State),
  let h := b.toNat / 2 ^ 43
  let n := b.toNat % 128
  let v := s.me.handle h
  let trap : Out := .next (s.takeTrap { code := 0x010D, sub := BitVec.ofNat 16 h, slot := 7 })
  let free := (s.tile s.myTile).syncQ = []
  let asleep : Out := .next (s.setMe { s.me with phase := .sleeping })
  (let a := s.rs (b.extractLsb' 37 6)
   let c := s.rs (b.extractLsb' 31 6)
   let base := a.toNat
   let ssize := c.toNat % 512
   let count := c.toNat / 2 ^ 16 % 128
   let expect := c.toNat / 2 ^ 32
   let ok := c.toNat = ssize + count * 2 ^ 16 + expect * 2 ^ 32 ∧ base % 256 = 0 ∧ 1 ≤ ssize ∧ ssize ≤ 256 ∧
     1 ≤ count ∧ count ≤ 64 ∧ 1 ≤ expect ∧ expect ≤ ssize * 256 ∧ base + count * (ssize * 256) ≤ 2 ^ 21
   s.Admits (.cbset g b) →
    (s.handleBusy h = false → free → ok → exec (.cbset g b) s =
      .next (s.setMe (s.me.setHandle h { base := base, ssize := ssize, count := count, expect := expect }))) ∧
    (s.handleBusy h = false → free → ¬ ok → exec (.cbset g b) s = trap) ∧
    (s.handleBusy h = true ∨ ¬ free → exec (.cbset g b) s = .next (s.pushSync s.me.bundleNo s.me.pc (.cbset h a c)))) ∧
  (s.Admits (.cbwait g b) →
    ((∀ i < n, v.st ((v.drain + i) % v.count) = .filled) → exec (.cbwait g b) s = .next s) ∧
    (∀ i < n, v.st ((v.drain + i) % v.count) ≠ .filled → exec (.cbwait g b) s = asleep)) ∧
  (s.Admits (.cbspace g b) →
    ((∀ i < n, v.st ((v.fill + i) % v.count) = .free) → exec (.cbspace g b) s = .next s) ∧
    (∀ i < n, v.st ((v.fill + i) % v.count) ≠ .free → exec (.cbspace g b) s = asleep)) ∧
  (s.Admits (.cbadvProduce g b) →
    (n = 0 → exec (.cbadvProduce g b) s = .next s) ∧
    (n ≠ 0 → s.me.region = none → free → (∀ w, v.advance true n = some w →
        exec (.cbadvProduce g b) s = .next (s.setMe (s.me.setHandle h w))) ∧
      (v.advance true n = none → exec (.cbadvProduce g b) s = trap)) ∧
    (n ≠ 0 → s.me.region = none → ¬ free →
      exec (.cbadvProduce g b) s = .next (s.pushSync s.me.bundleNo s.me.pc (.cbadv true h n))) ∧
    (n ≠ 0 → s.me.region ≠ none → s.CanCommit (.cbadv true h n) →
      exec (.cbadvProduce g b) s = .next (s.entered 7 16 0 (.cbadv true h n)))) ∧
  (s.Admits (.cbadvConsume g b) →
    (n = 0 → exec (.cbadvConsume g b) s = .next s) ∧
    (n ≠ 0 → s.me.region = none → free → (∀ w, v.advance false n = some w →
        exec (.cbadvConsume g b) s = .next (s.setMe (s.me.setHandle h w))) ∧
      (v.advance false n = none → exec (.cbadvConsume g b) s = trap)) ∧
    (n ≠ 0 → s.me.region = none → ¬ free →
      exec (.cbadvConsume g b) s = .next (s.pushSync s.me.bundleNo s.me.pc (.cbadv false h n))) ∧
    (n ≠ 0 → s.me.region ≠ none → s.CanCommit (.cbadv false h n) →
      exec (.cbadvConsume g b) s = .next (s.entered 7 16 0 (.cbadv false h n)))) ∧
  (∀ i, i = .cbwait g b ∨ i = .cbspace g b ∨ i = .cbadvProduce g b ∨ i = .cbadvConsume g b →
    s.Legal i → s.discarded i = false → v.count = 0 → exec i s = trap) ∧
  (∀ i, i = .cbwait g b ∨ i = .cbspace g b →
    s.Legal i → s.discarded i = false → v.count < n → exec i s = trap) ∧
  (s.Legal (.cbwait g b) → s.discarded (.cbwait g b) = false → v.overrun = true → exec (.cbwait g b) s = trap)

/-- R29: producing n slots needs n ≤ COUNT and the n slots from FILL all FREE; they become FILLING with LEFT =
EXPECT and FILL moves on modulo COUNT; consuming needs the n slots from DRAIN all FILLED; they become FREE and DRAIN
moves on; every other slot and field stays, and otherwise CB_CONFIG. A delivery of b bytes into a FILLING slot with
b ≤ LEFT takes b from LEFT and makes the slot FILLED at 0; any other delivery makes the slot FILLED with LEFT 0 and
sets OVERRUN. R30, R201: bytes are charged to the slots that hold them, and bytes outside the ring set OVERRUN. -/
def Obligations.HandleStates : Prop :=
  (∀ (h : Handle) (n : Nat), 0 < n → 0 < h.count →
    let at' := fun k i => (k + i) % h.count
    let canP := n ≤ h.count ∧ ∀ i < n, h.st (at' h.fill i) = .free
    let canC := n ≤ h.count ∧ ∀ i < n, h.st (at' h.drain i) = .filled
    (¬ canP → h.advance true n = none) ∧ (¬ canC → h.advance false n = none) ∧
    (canP → ∃ w, h.advance true n = some w ∧ w = { h with fill := w.fill, state := w.state, left := w.left } ∧
      w.fill = (h.fill + n) % h.count ∧
      ∀ k, if ∃ i < n, k = at' h.fill i then w.st k = .filling ∧ w.lf k = h.expect
        else w.st k = h.st k ∧ w.lf k = h.lf k) ∧
    (canC → ∃ w, h.advance false n = some w ∧ w = { h with drain := w.drain, state := w.state } ∧
      w.drain = (h.drain + n) % h.count ∧
      ∀ k, w.st k = if ∃ i < n, k = at' h.drain i then .free else h.st k)) ∧
  (∀ (h : Handle) (k b j : Nat),
    let w := h.deliver k b
    (j ≠ k → w.st j = h.st j ∧ w.lf j = h.lf j) ∧ w = { h with state := w.state, left := w.left, overrun := w.overrun } ∧
    (h.st k = .filling → b ≤ h.lf k → w.lf k = h.lf k - b ∧ w.overrun = h.overrun ∧
      w.st k = if b = h.lf k then .filled else .filling) ∧
    (¬ (h.st k = .filling ∧ b ≤ h.lf k) → w.lf k = 0 ∧ w.st k = .filled ∧ w.overrun = true)) ∧
  (∀ (h : Handle) (off len : Nat), 0 < len →
    let sz := h.ssize * 256
    (∀ k < h.count, h.base + k * sz ≤ off → off + len ≤ h.base + (k + 1) * sz → h.charge off len = h.deliver k len) ∧
    (off < h.base ∨ h.base + h.count * sz < off + len → (h.charge off len).overrun = true))

/-- R217, R219: where the port finds the bytes (in a plain extent it does), an admitted SIGWAIT whose condition (or
ERR) holds in the word it reads completes with the whole word in s[D], and otherwise its context sleeps; SIGADD,
JOBRAISE and JOBPOST complete: they leave through the commit stage with their address and operands; JOBWAIT
completes exactly where COMPLETE is set. A trap at the port is taken. The two waits do not pass an update of the
same bytes by an earlier bundle of the context (R234). R8 to R10: an update merges STATUS, sets ERR after it and
changes VALUE clamped to 0 and 2^56 − 1. R219: JOBRAISE and JOBPOST on a block. -/
def Obligations.SignalsAndJobs : Prop :=
  (∀ (g : Guard) (b : SyncBody) (s : State),
    let c := s.ra (b.toNat / 2 ^ 43)
    let x := (s.rs (b.extractLsb' 31 6)).toNat % 2 ^ 56
    let p := s.rs (b.extractLsb' 37 6)
    let scope := b.toNat / 2 ^ 28 % 8
    let asleep : Out := .next (s.setMe { s.me with phase := .sleeping })
    let full : Out := .next (s.takeTrap { code := 0x0102, sub := illegalSubcode 8 63 7, slot := 7 })
    let at0 := c.offset
    (∀ rs n pa, s.Plain c rs at0 n pa → s.syPort c rs n = .ok (s.afterPort c, pa, [])) ∧
    (s.Admits (.sigwait g b) → ∀ s1 pa ds, s.syPort c [rR] 8 = .ok (s1, pa, ds) →
      let w := BitVec.ofNat 64 (s.rdNat pa 8)
      let cond := b.toNat / 2 ^ 25 % 8
      let holds := w.getLsbD 63 = true ∨ cond = 0 ∧ w.toNat % 2 ^ 56 = x ∨ cond = 1 ∧ w.toNat % 2 ^ 56 ≠ x ∨
        cond = 2 ∧ w.toNat % 2 ^ 56 ≤ x ∨ cond = 3 ∧ x ≤ w.toNat % 2 ^ 56
      (holds → s.ownPending pa 8 = false → exec (.sigwait g b) s =
        .next (((s.acquireAt scope pa).touchPieces [(pa, 8)]).putS (b.toNat / 2 ^ 37 % 64) w)) ∧
      (¬ holds ∨ s.ownPending pa 8 = true → exec (.sigwait g b) s = asleep)) ∧
    (s.Admits (.sigadd g b) → ∀ s1 pa ds, s.syPort c [rW] 8 = .ok (s1, pa, ds) →
      (s.CanCommit (.sigAdd pa (s.rs (b.extractLsb' 31 6)) ds) → exec (.sigadd g b) s =
        .next (s1.entered 7 16 scope (.sigAdd pa (s.rs (b.extractLsb' 31 6)) ds))) ∧
      (¬ s.CanCommit (.sigAdd pa (s.rs (b.extractLsb' 31 6)) ds) → exec (.sigadd g b) s = full)) ∧
    (s.Admits (.jobraise g b) → p.toNat ≤ 63 ∧ ∀ s1 pa ds, s.syPort c [rW] 32 = .ok (s1, pa, ds) →
      (s.CanCommit (.jobRaise pa p.toNat (s.rs (b.extractLsb' 31 6)) ds) → exec (.jobraise g b) s =
        .next (s1.entered 7 16 scope (.jobRaise pa p.toNat (s.rs (b.extractLsb' 31 6)) ds))) ∧
      (¬ s.CanCommit (.jobRaise pa p.toNat (s.rs (b.extractLsb' 31 6)) ds) → exec (.jobraise g b) s = full)) ∧
    (s.Admits (.jobpost g b) → p.toNat ≤ 63 ∧ ∀ s1 pa ds, s.syPort c [rW] 32 = .ok (s1, pa, ds) →
      (s.CanCommit (.jobPost pa p.toNat (s.rs (b.extractLsb' 31 6)) ds) → exec (.jobpost g b) s =
        .next (s1.entered 7 16 scope (.jobPost pa p.toNat (s.rs (b.extractLsb' 31 6)) ds))) ∧
      (¬ s.CanCommit (.jobPost pa p.toNat (s.rs (b.extractLsb' 31 6)) ds) → exec (.jobpost g b) s = full)) ∧
    (s.Admits (.jobwait g b) → ∀ s1 pa ds, s.syPort c [rR] 32 = .ok (s1, pa, ds) →
      let done := (BitVec.ofNat 256 (s.rdNat pa 32)).getLsbD 192 = true ∧ s.ownPending pa 32 = false
      (done → exec (.jobwait g b) s = .next ((s.acquireAt scope pa).touchPieces [(pa, 32)])) ∧
      (¬ done → exec (.jobwait g b) s = asleep)) ∧
    (∀ i rs n, i = .sigwait g b ∧ rs = [rR] ∧ n = 8 ∨ i = .sigadd g b ∧ rs = [rW] ∧ n = 8 ∨ i = .jobraise g b ∧ rs = [rW] ∧ n = 32 ∨
      i = .jobpost g b ∧ rs = [rW] ∧ n = 32 ∨ i = .jobwait g b ∧ rs = [rR] ∧ n = 32 → s.Admits i →
      ∀ tr, s.syPort c rs n = .error (.trap tr) → exec i s = .next (s.takeTrap tr))) ∧
  (∀ (w : Word) (d : Int) (st : Nat), st < 128 →
    let r := signalMerge w d st
    let old := w.toNat / 2 ^ 56 % 128
    let new := r.toNat / 2 ^ 56 % 128
    (r.toNat % 2 ^ 56 : Int) = min (2 ^ 56 - 1) (max 0 ((w.toNat % 2 ^ 56 : Nat) + d)) ∧
    (old = 0 → new = st) ∧ (old = 7 → new = if st = 0 then 7 else st) ∧ (old ≠ 0 → old ≠ 7 → new = old) ∧
    (r.getLsbD 63 = true ↔ new ≠ 0 ∧ new ≠ 7)) ∧
  (∀ (v : BitVec 256) (p : Nat) (n : Word), p < 64 →
    let bad := v.getLsbD (128 + p) = true ∨ v.getLsbD 192 = true
    let e := v.toNat % 2 ^ 64
    (bad ∨ 2 ^ 64 ≤ e + n.toNat → jobRaise v p n = none) ∧
    (¬ bad → e + n.toNat < 2 ^ 64 → ∃ w, jobRaise v p n = some w ∧ w.toNat % 2 ^ 64 = e + n.toNat ∧
      w.toNat / 2 ^ 64 = v.toNat / 2 ^ 64) ∧
    (bad → jobPost v p n = none) ∧
    (¬ bad → ∃ w, jobPost v p n = some w ∧
      let d := min (v.toNat / 2 ^ 64 % 2 ^ 64 + n.toNat) (2 ^ 64 - 1)
      w.toNat % 2 ^ 64 = e ∧ w.toNat / 2 ^ 64 % 2 ^ 64 = d ∧
      (∀ k < 64, w.getLsbD (128 + k) = if k = p then true else v.getLsbD (128 + k)) ∧
      (w.getLsbD 192 = decide (e ≤ d)) ∧ (w.getLsbD 193 = (v.getLsbD 193 || decide (e < d))) ∧
      w.toNat / 2 ^ 194 = v.toNat / 2 ^ 194))

/-- R213: an admitted FENCE with a MASK of 0 has no effect, any other leaves its mask, its P bit and its bundle with
the context, by which the issue of later bundles is held. R220: with its own earlier operations performed, BAR
completes exactly where every other member of the gang has arrived at the generation or has ended and no member has
issued RPLW; the member's generation counts up; else it sleeps; a region that an earlier bundle opened commits (R35,
R214; notes/assumptions/61.md). R221: LAUNCH enters the commit stage for its region's reservation. LAUNCH.nb takes
an entry, from the reservation while it has one, else from the pool, and sets p[D] to all ones; with no entry free
it sets p[D] to zero and launches nothing. -/
def Obligations.FenceBarrierLaunch : Prop :=
  ∀ (g : Guard) (b : SyncBody) (s : State),
  let mask := b.extractLsb' 0 16
  (s.Admits (.fence g b) → (mask = 0 → exec (.fence g b) s = .next s) ∧
    (mask ≠ 0 → exec (.fence g b) s =
      .next (s.setMe { s.me with fences := s.me.fences ++ [(mask, b.getLsbD 16, s.me.bundleNo)] }))) ∧
  (s.Admits (.bar g b) → ∀ k, s.me.task = some k →
    let y := s.gang k.gang
    let met := y.rplw = false ∧ ∀ j < y.members.length, j = k.member ∨ y.members.getD j .ended = .ended ∨
      s.me.barGen + 1 ≤ FMap.get 0 y.barGens j
    (s.drained = true → met → ∃ t, exec (.bar g b) s = .next t ∧ t.me.barGen = s.me.barGen + 1 ∧ t.me.phase = s.me.phase ∧
      t.me.region = s.me.commitEarlier.region ∧ FMap.get 0 (t.gang k.gang).barGens k.member = s.me.barGen + 1 ∧ t.me.regs = s.me.regs ∧
      s.SameMem t) ∧
    (s.drained = false ∨ ¬ met → ∃ t, exec (.bar g b) s = .next t ∧ t.me.phase = .sleeping ∧ t.me.region = s.me.commitEarlier.region ∧
      t.me.barGen = s.me.barGen ∧ t.me.regs = s.me.regs ∧ s.SameMem t)) ∧
  (let c := s.ra (b.toNat / 2 ^ 43)
   let ref : Ref := { asid := s.me.sys.asid, obj := c.obj, off := c.offset }
   let r := (s.me.task.map fun k => k.region).getD 0
   let d := b.toNat % 16
   (s.Admits (.launch g b) → s.CanCommit (.launchWait ref r) →
     exec (.launch g b) s = .next (s.entered 7 16 0 (.launchWait ref r))) ∧
   (s.Admits (.launchNb g b) →
     let own := FMap.get 0 s.cp.plUsed r < s.regionPlres r
     let room := s.cp.plPoolUsed < s.plPool
     (¬ own → ¬ room → exec (.launchNb g b) s = .next (s.putP d 0)) ∧
     (own ∨ room →
       let from' := if own then r else 0
       let s1 := { s with cp := if own then { s.cp with plUsed := FMap.set 0 s.cp.plUsed r (FMap.get 0 s.cp.plUsed r + 1) }
                                else { s.cp with plPoolUsed := s.cp.plPoolUsed + 1 } }
       let s2 := s1.putP d (BitVec.allOnes 64)
       s2.CanCommit (.launch ref true from') →
       exec (.launchNb g b) s = .next (s2.entered 7 16 0 (.launch ref true from')))))

/-- R222: an admitted EVREAD pops the oldest record into bytes 0 to 31 of vE and sets p[D]; with none and records
dropped it writes the overflow record and clears the count; on an empty queue CODE 0, a PAYLOAD of 0 and p[D] zero
(TIME and SOURCE of that record are free values, notes/assumptions/31.md). EVWAIT completes where the queue holds a
record or the time in s[A] has come, with p[D], else sleeps. R223: CHK changes nothing where the two ranges agree,
and else raises DUPMISMATCH with the index of the first difference, as a user trap where it is vectored. R224: RPLW
ends the tasks of the gang, once. R276: TICKWAIT completes where a tick has released it, and the task's step becomes
that tick, else it sleeps. -/
def Obligations.EventsChecksReplayTicks : Prop :=
  ∀ (g : Guard) (b : SyncBody) (s : State),
  let d := b.toNat % 16
  (let at0 := s.me.viewEnv.start .v (b.toNat / 2 ^ 7 % 64)
   let put := fun (x : Ctx) (r : EventRec) (got : Bool) (o : Out) =>
     o = .next ((({ s.setMe x with freeCtr := s.freeCtr + 2 } : State).wrWin at0
       (leBytes 32 (r.payload ++ r.code ++ r.source ++ r.time).toNat)).putP d (if got then BitVec.allOnes 64 else 0))
   s.Admits (.evread g b) →
    (∀ r rs, s.me.events = r :: rs → put { s.me with events := rs } r true (exec (.evread g b) s)) ∧
    (s.me.events = [] → s.me.drops ≠ 0 → put { s.me with drops := 0, firstDrop := 0 }
      { time := s.me.firstDrop, source := BitVec.ofNat 16 s.myTile, code := 1, payload := s.me.drops.zeroExtend 160 } true
      (exec (.evread g b) s)) ∧
    (s.me.events = [] → s.me.drops = 0 → ∃ r : EventRec, r.code = 0 ∧ r.payload = 0 ∧ put s.me r false (exec (.evread g b) s))) ∧
  (let t := (s.rs (b.extractLsb' 37 6)).toNat
   s.Admits (.evwait g b) →
    (s.me.events ≠ [] → exec (.evwait g b) s = .next (s.putP d (BitVec.allOnes 64))) ∧
    (s.me.events = [] → t ≠ 0 → t ≤ s.now / 65536 → exec (.evwait g b) s = .next (s.putP d 0)) ∧
    (s.me.events = [] → t = 0 ∨ s.now / 65536 < t →
      exec (.evwait g b) s = .next (s.setMe { s.me with phase := .sleeping }))) ∧
  (let kd := b.toNat / 2 ^ 29 % 4
   let size := (if kd = 1 then 1024 else if kd = 2 then 4096 else 256) * (b.toNat / 2 ^ 23 % 64 + 1)
   let kind := if kd = 1 then ViewKind.t else if kd = 2 then .c else .v
   let xs := s.rdWin (s.me.viewEnv.start kind (b.toNat / 2 ^ 39 % 64)) size
   let ys := s.rdWin (s.me.viewEnv.start kind (b.toNat / 2 ^ 31 % 64)) size
   s.Admits (.chk g b) → (xs = ys → exec (.chk g b) s = .next s) ∧
    (∀ i < size, (∀ j < i, xs.getD j 0 = ys.getD j 0) → xs.getD i 0 ≠ ys.getD i 0 →
      let info := BitVec.ofNat 16 (min i 0xFFFF)
      let tr : Trap := { code := 0x0110, sub := info, slot := 7 }
      exec (.chk g b) s = .next (if s.me.vectored then s.setMe (s.me.userTrap 129 info 7) else s.takeTrap tr))) ∧
  (s.Admits (.rplw g b) → ∀ k, s.me.task = some k →
    ((s.gang k.gang).rplw = true → exec (.rplw g b) s = .next s) ∧
    ((s.gang k.gang).rplw = false → ∃ t, exec (.rplw g b) s = .next t ∧ s.SameMem t ∧ t = rplwEff s ∧
      ((s.gang k.gang).members[k.member]? = some (.on s.myTile s.myCtx) → t.me.phase = .draining 0 ∨ t.me.phase = .idle))) ∧
  (s.Admits (.tickwait g b) →
    (∀ k, s.me.tickTarget = some k → ∃ t, exec (.tickwait g b) s = .next t ∧ t.me.task = s.me.task.map (fun y => { y with
       step := some k }) ∧ t.me.tickTarget = none ∧ t.me.region = s.me.commitEarlier.region ∧ t.me.regs = s.me.regs ∧ s.SameMem t) ∧
    (s.me.tickTarget = none → ∃ t, exec (.tickwait g b) s = .next t ∧ t.me.phase = .sleeping ∧ t.me.region = s.me.commitEarlier.region ∧
      t.me.regs = s.me.regs ∧ t.me.waitSince = some (s.me.waitSince.getD s.now) ∧ s.SameMem t))

/-- R34, R19: entries leave in program order, none that an open region holds, none while an atomic of the context
has not performed, and no operation of slot 7 before the handle operation of the sync queue behind which it was
issued. As it leaves, a store writes exactly its bytes, a CAPST its 16 bytes and their tag, an atomic joins those
that have come to its home slice, in the order of R7, a SIGADD, JOBRAISE or JOBPOST updates its word or block at its
home, a pump command enters the port, a CBADV moves its handle or, behind others, joins the sync queue; an update
that R219 refuses traps JOB_ORDER in a context that still runs. R221: a blocking LAUNCH stalls while no entry of its
reservation is free. With nothing to leave, nothing changes. -/
def Obligations.CommitStage : Prop :=
  (∀ (s : State) (t c : Nat) (e : CommitEntry), s.departing t c = some e →
    (s.ctx t c).commitQ.head? = some e ∧ e.held = false ∧ (∀ h ∈ s.core.homeQ, ¬ (h.tile = t ∧ h.ctx = c)) ∧
    ∀ i, e.behind = some i → ∀ w ∈ (s.tile t).syncQ, w.id ≠ i) ∧
  (∀ (s : State) (t c : Nat) (e : CommitEntry) q, (s.ctx t c).commitQ = e :: q → e.held = false →
    (∀ h ∈ s.core.homeQ, ¬ (h.tile = t ∧ h.ctx = c)) → (∀ i, e.behind = some i → ∀ w ∈ (s.tile t).syncQ, w.id ≠ i) →
    s.departing t c = some e) ∧
  (∀ (a : HomeAtomic) (q : List HomeAtomic), ∃ before after, q = before ++ after ∧ insertAtomic a q = before ++ a :: after ∧
    ∀ h ∈ after.head?, h.time = a.time ∧ a.tile < h.tile) ∧
  (∀ (s : State) (t c : Nat), s.departing t c = none → exec (.commitStageDeparture t c) s = .next s) ∧
  (∀ (s : State) (t c : Nat) (e : CommitEntry), s.departing t c = some e →
    let s1 := s.setCtx t c { s.ctx t c with commitQ := (s.ctx t c).commitQ.erase e, launchStall := false }
    let out := fun u : State => exec (.commitStageDeparture t c) s = .next (u.settle t c)
    let order := if (s1.ctx t c).live = true
      then s1.takeSystemTrap t c { code := 0x010C, slot := 7 } e.pc e.bundle else s1
    (∀ bs ds, e.op = .store bs ds → out (s1.performStore ds bs)) ∧
    (∀ bs u, e.op = .store bs [] → exec (.commitStageDeparture t c) s = .next u → s.Wrote u bs) ∧
    (∀ pa cap, e.op = .capStore pa cap [] → ∃ u, out u ∧ u.rdBytes pa 16 = leBytes 16 cap.bits.toNat ∧
      u.rdTag pa = cap.tag ∧ ∀ a, a < pa ∨ pa + 16 ≤ a → u.rd8 a = s.rd8 a) ∧
    (∀ pa op size v x rd, e.op = .atomic pa op size v x rd [] →
      let h : HomeAtomic := { time := s.now / 65536, slice := pa % 2 ^ 54 / 64 % 512, tile := t, ctx := c, pa := pa, op := op,
                              size := size, v := v, cmp := x, rd := rd, bundle := e.bundle, scope := e.scope }
      out { s1 with core := { s1.core with homeQ := insertAtomic h s1.core.homeQ } }) ∧
    (∀ pa v, e.op = .sigAdd pa v [] → ∃ u, out u ∧ u.rdNat pa 8 =
      (signalMerge (BitVec.ofNat 64 (s.rdNat pa 8)) (v.extractLsb' 0 56).toInt (v.toNat / 2 ^ 56 % 128)).toNat ∧
      ∀ a, a < pa ∨ pa + 8 ≤ a → u.rd8 a = s.rd8 a) ∧
    (∀ pa p n, e.op = .jobRaise pa p n [] →
      (∀ w, jobRaise (BitVec.ofNat 256 (s.rdNat pa 32)) p n = some w → ∃ u, out u ∧ u.rdNat pa 32 = w.toNat) ∧
      (jobRaise (BitVec.ofNat 256 (s.rdNat pa 32)) p n = none → exec (.commitStageDeparture t c) s = .next order)) ∧
    (∀ pa p n, e.op = .jobPost pa p n [] →
      (∀ w, jobPost (BitVec.ofNat 256 (s.rdNat pa 32)) p n = some w → ∃ u, out u ∧ u.rdNat pa 32 = w.toNat) ∧
      (jobPost (BitVec.ofNat 256 (s.rdNat pa 32)) p n = none → exec (.commitStageDeparture t c) s = .next order)) ∧
    (∀ m, e.op = .pump m → out { s1 with core := { s1.core with cmds := s1.core.cmds ++ [m] } }) ∧
    (∀ p h n v, e.op = .cbadv p h n → (s.tile t).syncQ = [] → ((s.ctx t c).handle h).advance p n = some v →
      out (s1.setCtx t c ((s1.ctx t c).setHandle h v))) ∧
    (∀ p h n, e.op = .cbadv p h n → (s.tile t).syncQ ≠ [] → ∃ u, out u ∧ s.SameMem u ∧ (u.tile t).syncQ =
      (s.tile t).syncQ ++ [{ id := s.nextId, ctx := c, bundle := e.bundle, pc := e.pc, op := .cbadv p h n }]) ∧
    (∀ r k, e.op = .launchWait r k → s.regionPlres k ≤ FMap.get 0 s.cp.plUsed k →
      exec (.commitStageDeparture t c) s = .next (s.setCtx t c { s.ctx t c with launchStall := true })))

/-- R19: the completion of an engine takes its oldest operation out, with what it does only then (a TIDSET that must
wait stays), and touches nothing else of the tile; the handle operation at the head of the sync queue executes once
its handle is free. R203: the oldest arrival of a slice performs: its bytes take the new value of R202, every other
byte stays, the old value goes to its register. R214: a sleeping context whose wait is over runs again, one whose
wait is not stays asleep. R348: a trap raised after issue is taken by the context that runs. R12, R6, R7: a record
reaches the queue of its destination at a time that its source has not used; one from no known source is discarded.
R356: a walk of a valid object leaves its entry in the port's cache. R365, R366: a replay of a bundle or of an
operation changes no result, and its eighth in succession starts a storm of 1 ms, which ends at its time. -/
def Obligations.TileEvents : Prop :=
  ∀ (s : State),
  (∀ t e o, (s.tile t).inflight.find? (fun o => o.eng == e) = some o → (e = .sync → (s.tile t).syncQ = []) →
    let done := s.setTile t { s.tile t with inflight := (s.tile t).inflight.erase o }
    ((∀ w ∈ (s.tile t).lateQ, w.isOf o = false) → exec (.engineOperationComplete t e) s = .next (done.settle t o.ctx)) ∧
    (∀ w, (s.tile t).lateQ.find? (fun w => w.isOf o) = some w →
      (s.lateWaits t o w = true → exec (.engineOperationComplete t e) s = .next s) ∧
      (s.lateWaits t o w = false → exec (.engineOperationComplete t e) s = .next
        (((done.lateEffect t w).modTile t fun x => { x with lateQ := x.lateQ.erase w }).settle t o.ctx)))) ∧
  (∀ t w ws o, (s.tile t).syncQ = w :: ws → (s.tile t).inflight.find? (fun o => o.eng == .sync) = some o → w.isOf o = true →
    let u := s.setTile t { s.tile t with syncQ := ws, inflight := (s.tile t).inflight.filter fun p => !w.isOf p }
    (∀ h a b, w.op = .cbset h a b → (s.at t w.ctx).handleBusy h = true → exec (.engineOperationComplete t .sync) s = .next s) ∧
    ((∀ h a b, w.op = .cbset h a b → (s.at t w.ctx).handleBusy h = false) → ∀ x, (s.ctx t w.ctx).syncOp w.op = .ok x →
      exec (.engineOperationComplete t .sync) s = .next ((u.setCtx t w.ctx x).settle t w.ctx))) ∧
  (∀ slice h, s.core.homeQ.find? (fun h => h.slice == slice) = some h →
    let n := 2 ^ h.size
    let m := s.rdNat h.pa n
    let new := atomicNew h.op (8 * n) m h.v.toNat h.cmp.toNat
    ∃ u, exec (.atomicHomePerform slice) s = .next (u.settle h.tile h.ctx) ∧
      s.Wrote u ((List.range n).map fun k => (h.pa + k, BitVec.ofNat 8 (new / 256 ^ k))) ∧
      u.core.homeQ = s.core.homeQ.erase h ∧
      u.ctx h.tile h.ctx = { s.ctx h.tile h.ctx with regs := (s.ctx h.tile h.ctx).regs.setS h.rd (BitVec.ofNat 64 m) }) ∧
  (∀ t c, (s.ctx t c).phase = .sleeping → (s.ctx t c).preempt = none →
    (s.waitOver t c = true → exec (.waitRelease t c) s =
      .next (s.setCtx t c { s.ctx t c with phase := .running, captured := none })) ∧
    (s.waitOver t c = false → ∃ u, exec (.waitRelease t c) s = .next u ∧ (u.ctx t c).phase = .sleeping ∧ s.SameMem u)) ∧
  (∀ t c (r : TrapReport), (s.ctx t c).live = true → (s.ctx t c).task ≠ none → r.code ∈ lateCodes →
    (r.code = 0x0102 → 1 ≤ r.subcode.toNat / 512 ∧ r.subcode.toNat / 512 ≤ 11) →
    let tr : Trap := { code := r.code, sub := r.subcode, slot := r.slot.toNat, obj := r.obj.toNat, off := r.offset.toNat }
    exec (.systemTrap t c r) s = .next (s.takeSystemTrap t c tr r.pc r.bundle)) ∧
  (∀ t c (r : EventRec), s.pow.down = false → (∀ p ∈ s.cp.saves, p.2.parked = false) →
    let last := FMap.get 0 s.sec.lastRecord r.source.toNat
    let r' := if r.time.toNat < last then { r with time := BitVec.ofNat 64 last } else r
    (knownSource r.source.toNat = false → exec (.eventRecordPost (.context t c) r) s = .next s) ∧
    (knownSource r.source.toNat = true → (s.ctx t c).events.length < 16 →
      ∃ u, exec (.eventRecordPost (.context t c) r) s = .next u ∧ r' ∈ (u.ctx t c).events ∧
        (u.ctx t c).events.length = (s.ctx t c).events.length + 1 ∧
        FMap.get 0 u.sec.lastRecord r.source.toNat = max r.time.toNat last + 1 ∧ s.SameMem u) ∧
    (knownSource r.source.toNat = true → (s.ctx t c).events.length = 16 →
      ∃ u, exec (.eventRecordPost (.context t c) r) s = .next u ∧ (u.ctx t c).events = (s.ctx t c).events ∧
        ((s.ctx t c).drops ≠ BitVec.allOnes 32 → (u.ctx t c).drops = (s.ctx t c).drops + 1) ∧ s.SameMem u)) ∧
  (∀ t asid obj off e, t < 512 → s.walkObj asid obj = some e → bitsOf e 83 82 = 0 →
    (∀ x ∈ (s.tile t).tlbObjs, ¬ (x.asid = asid ∧ x.obj = obj)) → (s.tile t).tlbObjs.length < 32 →
    ∃ u, exec (.translationWalk t asid obj off) s = .next u ∧ u.lookObj t asid obj = some e ∧ s.SameMem u) ∧
  (∀ t c, (s.island (t / 8)).state = .on → (s.ctx t c).phase = .running →
    ((s.ctx t c).replayRun ≠ 7 → exec (.timingErrorReplay { tile := t, ctx := c }) s = .next
      ((s.setCtx t c { s.ctx t c with replayRun := (s.ctx t c).replayRun + 1 }).setTile t
        { s.tile t with replays := (s.tile t).replays + 1 })) ∧
    ((s.ctx t c).replayRun = 7 → ∃ u, exec (.timingErrorReplay { tile := t, ctx := c }) s = .next u ∧
      (u.island (t / 8)).stormUntil = some (s.now / 65536 + 1000000) ∧ s.SameMem u ∧
      u.ctx t c = { s.ctx t c with replayRun := 8 })) ∧
  (∀ t c e o, (s.island (t / 8)).state = .on → (s.tile t).inflight.find? (fun o => o.eng == e) = some o →
    ∃ u, exec (.timingErrorReplay { tile := t, ctx := c, engine := some e }) s = .next u ∧ u.core.ctxs = s.core.ctxs ∧ s.SameMem u ∧
      (u.tile t).replays = (s.tile t).replays + 1 ∧ (u.tile t).space = (s.tile t).space ∧
      (o.replayRun = 7 → (u.island (t / 8)).stormUntil = some (s.now / 65536 + 1000000))) ∧
  (∀ i w, (s.island i).stormUntil = some w →
    (w ≤ s.now / 65536 → ∃ u, exec (.stormPeriodEnd i) s = .next u ∧ (u.island i).stormUntil = none ∧ u.core = s.core) ∧
    (s.now / 65536 < w → exec (.stormPeriodEnd i) s = .next s))

/-- R360: a request is delivered once its partition has a free save slot. R38: 100 µs after delivery a request lands
on a running task even in an open region, which aborts first. R39, R361: a landed context whose operations are
complete is saved into a free slot: its registers, stacks and handles stand in the save, the member is saved, the
context is idle. R363: the saved task at the head of a drawn queue resumes on a context that can take it, with the
registers, PC and loop stack that its save area then holds. R364: an operation of a group that the tile lacks raises
FEATURE. R224: the wide variant starts once, when every member has ended. R359: a regeneration that was asked for
starts, or, where its page is not absent any more, is forgotten. -/
def Obligations.PreemptionAndReplay : Prop :=
  ∀ (s : State),
  (∀ t c r k, (s.ctx t c).preempt = some r → (s.ctx t c).task = some k → r.delivered = none →
    s.slotFree (s.regionPart k.region) = true → (s.ctx t c).phase ≠ .sleeping →
    exec (.preemptionRequestDelivery t c) s =
      .next (s.setCtx t c { s.ctx t c with preempt := some { r with delivered := some (s.now / 65536) } })) ∧
  (∀ t c r d, (s.ctx t c).preempt = some r → r.delivered = some d → r.kind ≠ .teardown → (s.ctx t c).task ≠ none →
    (s.ctx t c).phase = .running →
    (d + 100000 ≤ s.now / 65536 → ∃ u, exec (.forcedPreemption t c) s = .next u ∧ (u.ctx t c).phase = .landed ∧
      (u.ctx t c).region = none ∧ s.SameMem u) ∧
    (s.now / 65536 < d + 100000 → exec (.forcedPreemption t c) s = .next s)) ∧
  (∀ t c k slot, (s.ctx t c).phase = .landed → s.saveReady t c = true → (s.ctx t c).task = some k →
    s.freeSlot (s.regionPart k.region) = some slot → ∃ u,
    exec (.contextSave t c) s = .next u ∧ (u.ctx t c).phase = .idle ∧ (u.ctx t c).task = none ∧
    (u.save s.nextId).ctx.regs = (s.ctx t c).regs ∧ (u.save s.nextId).ctx.pc = (s.ctx t c).pc ∧
    (u.save s.nextId).ctx.loops = (s.ctx t c).loops ∧ (u.save s.nextId).ctx.task = some k ∧
    (u.save s.nextId).slot = slot ∧ (s.regionPart k.region, slot) ∈ u.cp.usedSlots) ∧
  (∀ q t c id h xs, (s.queue q).ready = .saved id :: xs → (s.queue q).held = some h →
    let v := s.readSave (s.save id)
    s.canResume v id q t c = true → (s.save id).tile = t → ∃ u,
    exec (.contextResume q t c) s = .next u ∧ (u.ctx t c).regs = v.ctx.regs ∧ (u.ctx t c).pc = v.ctx.pc ∧
    (u.ctx t c).loops = v.ctx.loops ∧ (u.ctx t c).phase = v.ctx.phase ∧ u.save id = {} ∧ s.SameMem u) ∧
  (∀ (v : Saved) (j : Nat), 0 < j → j < 64 →
    (s.readSave v).ctx.regs.getS j = BitVec.ofNat 64 (s.rdNat (v.addr + 8 * j) 8)) ∧
  (∀ t c bit, (s.ctx t c).phase = .running → (s.ctx t c).task ≠ none → bit < 8 → (s.tile t).feat.getLsbD bit = false →
    (∀ n, s.featSlot t c bit = some n → exec (.featureMigration t c bit) s = .next
      (s.takeSystemTrap t c { code := 0x010B, sub := BitVec.ofNat 16 bit, slot := n } (s.ctx t c).pc (s.ctx t c).bundleNo)) ∧
    (s.featSlot t c bit = none → exec (.featureMigration t c bit) s = .next s)) ∧
  (∀ n, (s.gang n).rplw = true → (s.gang n).wide = false → (∀ m ∈ (s.gang n).members, m = .ended) →
    s.wideKernel (s.gang n) = none → ∃ u, exec (.wideVariantLaunch n) s = .next u ∧ (u.gang n).wide = true ∧
      (u.gang n).status = mergeStatus (s.gang n).status 2 ∧ s.SameMem u) ∧
  (∀ n k, (s.gang n).rplw = true → (s.gang n).wide = false → (∀ m ∈ (s.gang n).members, m = .ended) →
    s.wideKernel (s.gang n) = some k →
    let cs := s.wideCtxs (s.gang n) k (List.range (s.gang n).members.length)
    (∀ e ∈ cs, ∃ tc, e.2 = some tc ∧ (s.island (tc.1 / 8)).state = .on) →
    ∃ u, exec (.wideVariantLaunch n) s = .next u ∧ (u.gang n).wide = true ∧ (u.gang n).rplw = false ∧
      (u.gang n).members = cs.filterMap fun e => e.2.map fun tc => .on tc.1 tc.2) ∧
  (∀ n, (s.gang n).rplw = false ∨ (s.gang n).wide = true ∨ (∃ m ∈ (s.gang n).members, m ≠ .ended) →
    exec (.wideVariantLaunch n) s = .next s) ∧
  (∀ asid obj start r, s.cp.regens.find? (fun r => r.asid == asid && r.obj == obj && r.start == start && r.inst.isNone) = some r →
    (s.cp.regens.filter fun r => r.inst.isSome).length < 256 →
    (∀ p, s.cpPage asid obj start = .page p → ∃ u, exec (.regenerationStart asid obj start) s = .next u ∧
      ∀ w ∈ u.cp.regens, ¬ (w.asid = asid ∧ w.obj = obj ∧ w.start = start)) ∧
    (∀ start' size entry idx e, s.cpPage asid obj start = .absent start' size entry idx → s.regenEntry asid idx = some e →
      exec (.regenerationStart asid obj start) s = .next (s.startRegen asid obj start' size entry e)))

/-- R204, R207: a delivery of a started PCOPY (that has read its source) or PFILL whose next bytes lie in one piece
writes exactly those bytes of its source there and counts them, charging the handle named with HE, and the command
finishes with its last byte; PDECL moves no data (R208). R204, R210, R234: a finished command goes, unless its
signal's release or its length 0 makes it wait, its signal counted down by one with its status; its trap is taken by
its context. R246, R247: a KV command that is not held back resolves at its sequence: it takes effect and finishes
with STATUS 0, or fails with its code in LASTERR (the first one stays) and STATUS 2, or 6 for SHARD; without a valid
sequence the code is SEQ_INVALID. R251, R252: KVAPPEND adds one token, KVFREE leaves no sequence. R255: the engine
takes its head job, then installs it. R239: a spilled block that is read comes back where the carve-out has room. -/
def Obligations.PumpAndKvEvents : Prop :=
  ∀ (s : State),
  (∀ id bytes m s1 pa n ds src, s.cmd id = some m → m.finished = false → s.cmdBlocked m = false →
    m.opc = 1 ∧ m.source ≠ [] ∧ src = m.source ∨ m.opc = 2 ∧ src = fillBytes m.s1 m.s0.toNat →
    m.place = .started → n = min bytes (m.s0.toNat - m.moved) →
    s.pumpPort m m.cap0 [rPD] [] (m.cap0.offset + m.moved) n = .ok (s1, [(pa, n)], ds) →
    ∃ u, exec (.pumpDelivery id bytes) s = .next u ∧
      (∀ a, u.rd8 a = if pa ≤ a ∧ a < pa + n then
        (((src.drop m.moved).take n)[a - pa]?).getD (s.rd8 a) else s.rd8 a) ∧
      (∃ w, u.cmd id = some w ∧ w.moved = m.moved + n ∧ (w.finished = true ↔ m.moved + n = m.s0.toNat)) ∧
      (m.body.aux.getLsbD 0 = true → (u.ctx m.tile m.ctx).handle m.body.handle.toNat =
        ((s.ctx m.tile m.ctx).handle m.body.handle.toNat).charge (pa % 2 ^ 21) n)) ∧
  (∀ id bytes m, s.cmd id = some m → m.finished = false → m.opc = 5 → s.cmdBlocked m = false → m.place = .queued →
    s.mayStart m = true → ∃ u, exec (.pumpDelivery id bytes) s = .next u ∧ s.SameMem u ∧ ∃ w, u.cmd id = some w ∧ w.finished = true) ∧
  (∀ id m, s.cmd id = some m → m.finished = false → exec (.pumpCommandComplete id) s = .next s) ∧
  (∀ id m, s.cmd id = some m → s.completeWaits m = true → exec (.pumpCommandComplete id) s = .next s) ∧
  (∀ id m, s.cmd id = some m → m.finished = true → s.completeWaits m = false → m.owned = true → m.fault = none →
    let gone := fun u : State =>
      (u.dropCmd m.id).modCtx m.tile m.ctx fun x => { x with awaitCmds := x.awaitCmds.filter fun k => k != m.id }
    (m.signal = none → m.job = none → exec (.pumpCommandComplete id) s = .next ((gone s).settle m.tile m.ctx)) ∧
    (∀ c s1 pa, m.signal = some c → m.job = none → s.pumpPort m c [rW] [] c.offset 8 = .ok (s1, [(pa, 8)], []) →
      ∃ u, exec (.pumpCommandComplete id) s = .next ((gone u).settle m.tile m.ctx) ∧
        u.rdNat pa 8 = (signalMerge (BitVec.ofNat 64 (s.rdNat pa 8)) (-1) m.status).toNat ∧
        ∀ a, a < pa ∨ pa + 8 ≤ a → u.rd8 a = s.rd8 a)) ∧
  (∀ id m code sub obj off, s.cmd id = some m → m.finished = true → s.completeWaits m = false → m.owned = true → m.signal = none → m.job = none →
    m.fault = some (code, sub, obj, off) → (s.ctx m.tile m.ctx).live = true → ∃ u, s.SameMem u ∧
    exec (.pumpCommandComplete id) s = .next ((u.takeSystemTrap m.tile m.ctx
      { code := code, sub := sub, slot := 6, obj := obj, off := off } m.pc m.bundle).settle m.tile m.ctx)) ∧
  (∀ id m s1 k off, s.cmd id = some m → m.finished = false → m.place = .queued → s.mayStart m = true → 7 ≤ m.opc → m.opc ≤ 16 → m.opc ≠ 11 →
    m.opc ≠ 12 → s.cmdBlocked m = false → m.home = none → s.seqHome m m.cap0 = .ok (s1, k, off) →
    let s2 := (s1.setCmd { m with place := .resolved }).modSeq k off fun q => { q with waiting := q.waiting.filter fun w => w != m.id }
    let out := exec (.kvCommandResolve id) s
    (s1.kvWaits m k off none = true → ∃ u, out = .next u ∧ m.id ∈ (u.seq k off).waiting) ∧
    (s1.kvWaits m k off none = false →
      (∀ u, kvEffect m k off none s2 = (u, none) → out = .next (if m.opc = 10 then u else u.finishCmd m.id 0)) ∧
      (∀ u c, kvEffect m k off none s2 = (u, some (.code c)) → out = .next (u.failKv m k off c)) ∧
      (kvValid (s2.seq k off).desc = false → m.opc ≠ 16 → kvEffect m k off none s2 = (s2, some (.code 1))))) ∧
  (∀ m k off c, m.opc ≠ 8 → (∃ x, s.cmd m.id = some x) →
    (s.failKv m k off c).seq k off = (if kvLastErr (s.seq k off).desc = 0
      then { s.seq k off with desc := setBits (s.seq k off).desc 184 8 c } else s.seq k off) ∧
    ∃ w, (s.failKv m k off c).cmd m.id = some w ∧ w.finished = true ∧ w.status = if c = 5 then 6 else 2) ∧
  (∀ k off, kvValid (s.seq k off).desc = true → ∃ u, kvFree k off s = (u, none) ∧ (u.seq k off).desc = 0 ∧
    (u.seq k off).table = [] ∧ s.SameMem u) ∧
  (∀ k off b pos bytes scales, kvLen (s.seq k off).desc + 1 < 2 ^ 32 →
    kvLen ((s.putToken k off b pos bytes scales).seq k off).desc = kvLen (s.seq k off).desc + 1 ∧
    ((s.putToken k off b pos bytes scales).block k b).toks = (s.block k b).toks ++ [bytes] ∧
    ((s.putToken k off b pos bytes scales).block k b).pos = (s.block k b).pos ++ [pos]) ∧
  (∀ die j js, s.jobsOf die = j :: js →
    (∃ u, exec (.compactionJob die) s = .next u ∧ u.jobsOf die = { j with built := true } :: js ∧ s.SameMem u) ∧
    (j.built = false → exec (.compactionInstall die) s = .next s) ∧
    (j.built = true → ∀ s1, (if j.compact then s.installCompact j else s.installSeal j) = (s1, none) →
      exec (.compactionInstall die) s = .next ((s1.endJob die j).finishCmd j.cmd 0))) ∧
  (∀ asid obj block e, s.walkObj asid obj = some e → bitsOf e 83 82 = 2 →
    let k := bitsOf e 159 96
    let b := s.block k block
    b.spilled = true → s.carveUsed k b.die + b.size ≤ (s.carve k b.die).len →
    ∃ u, exec (.spillReadback asid obj block) s = .next u ∧ (u.block k block).spilled = false ∧ s.SameMem u)

/-- R269: a token for no valid stream is counted as stray; one whose sender or reserved bytes are wrong as a bad
header; one outside the window as too late, one whose index the ring holds as a duplicate; one in the window, of an
index that is not there, into an open range with room, is filed with its stamp and bytes. R270: a tick that has not
come changes nothing; one that has come moves the arm to its next tick, and from 30 µs before it the islands of its
graph are asked to wake. R271: a step ends once its graph has completed (EACH) or with the next tick (FIRST), one of
an earlier arming too. R272, R274, R275: a STMGET that finds its delivery fixed receives its part and its mask; a
HOLD step that is not complete holds it until the hold limit, and then it resolves and HELDOUT counts. -/
def Obligations.StreamEvents : Prop :=
  ∀ (s : State),
  (∀ (stamp k sender z : Nat) (body : List Byte), stamp < 2 ^ 64 → k < 2 ^ 16 → sender < 2 ^ 16 → z < 2 ^ 32 → s.pow.down = false →
    let msg := leBytes 8 stamp ++ leBytes 2 k ++ leBytes 2 sender ++ leBytes 4 z ++ body
    let x := s.stream k
    let d := x.desc
    let n := stIndex d stamp
    let out := exec (.streamTokenArrival msg) s
    let counted := fun c : StreamCounts => out = .next (s.modStream k fun y => { y with counts := c })
    let good := k < 1024 ∧ stValid d = true ∧ sender = stSender d ∧ z = 0 ∧ body.length = 64 * stTsize d
    (1023 < k ∨ stValid d = false →
      out = .next { s with eng := { s.eng with stray := BitVec.ofNat 32 (min (s.eng.stray.toNat + 1) (2 ^ 32 - 1)) } }) ∧
    (k < 1024 → stValid d = true → ¬ good → counted { x.counts with badHdr := satAdd x.counts.badHdr 1 }) ∧
    (good → stamp + stWindow d < s.now / 65536 ∨ n < 0 → counted { x.counts with tooLate := satAdd x.counts.tooLate 1 }) ∧
    (good → s.now / 65536 ≤ stamp + stWindow d → 0 ≤ n → (∃ t ∈ x.ring, t.n = n) →
      counted { x.counts with dup := satAdd x.counts.dup 1 }) ∧
    (good → s.now / 65536 ≤ stamp + stWindow d → 0 ≤ n → (∀ t ∈ x.ring, t.n ≠ n) → s.rangeClosed x n = false →
      x.ring.length < stRslots d → ∃ u, out = .next u ∧ (∃ t ∈ (u.stream k).ring, t.n = n ∧ t.stamp.toNat = stamp ∧
        t.bytes = body ∧ t.backfill = false) ∧ (u.stream k).ring.length = x.ring.length + 1 ∧
        (u.stream k).counts = x.counts)) ∧
  (∀ a, let y := s.arm a
    let out := exec (.tick a) s
    (y.armed = false ∨ s.now / 65536 < y.tickTime y.nextTick → out = .next s) ∧
    (y.armed = true → y.tickTime y.nextTick ≤ s.now / 65536 → ∃ u, out = .next u ∧ (u.arm a).nextTick = y.nextTick + 1)) ∧
  (∀ a, let y := s.arm a
    y.armed = true → y.first = false ∨ y.launched = false → y.tickTime y.nextTick ≤ s.now / 65536 + 30000 →
    ∃ u, exec (.tickWakeLead a) s = .next u ∧ u.core = s.core ∧ ∀ i ∈ s.graphIslands y.graph y.region,
      (s.island i).state = .retain ∨ (s.island i).state = .off →
      (u.island i).wakeReq ≠ none ∧ (u.island i).wakeTimed = true) ∧
  (∀ a k, let y := s.arm a
    y.cur = some k → (∀ p ∈ y.past, s.pastOver p = false) →
    let ended := y.first = true ∧ y.tickTime (k + 1) ≤ s.now / 65536 ∨ y.first = false ∧ y.curInst = none
    (ended → ∃ u, exec (.stepEnd a) s = .next u ∧ (u.arm a).cur = none) ∧ (¬ ended → exec (.stepEnd a) s = .next s)) ∧
  (∀ a p, (s.arm a).past.find? s.pastOver = some p →
    ∃ u, exec (.stepEnd a) s = .next u ∧ (u.arm a).past = (s.arm a).past.filter fun q => q != p) ∧
  (∀ id m, s.cmd id = some m → m.opc = 22 → m.finished = false → s.cmdBlocked m = false → s.notStarted m = false →
    let i := m.s0.toNat % 1024
    let x := s.stream i
    stValid x.desc = true → m.arm = some (stArm x.desc) → ∀ k, m.step = some k →
    let a := s.armOf (stArm x.desc) k
    let get := exec (.stmgetResolve id) s
    let expire := exec (.holdLimitExpiry id) s
    let reached := a.tickTime k + stHoldlim x.desc ≤ s.now / 65536
    let open' := stPolicy x.desc = 1 ∧ x.complete a k = false
    let isFixed := ∃ v ∈ x.deliveries, v.step = k
    (isFixed → ∀ u, s.deliverPart m i k = .ok u → get = .next u ∧ (reached → expire = .next u)) ∧
    (¬ isFixed → ¬ open' → ∀ u, (s.fixDelivery i k a).deliverPart m i k = .ok u → get = .next u) ∧
    (¬ isFixed → open' → get = .next (s.setCmd { m with place := .stream })) ∧
    (¬ isFixed → open' → reached → ∀ u, ((s.fixDelivery i k a).modStream i fun y =>
      { y with counts := { y.counts with heldOut := satAdd y.counts.heldOut 1 } }).deliverPart m i k = .ok u →
      expire = .next u) ∧
    (¬ reached → expire = .next s)) ∧
  (∀ m i k u v, s.deliverPart m i k = .ok u → (s.stream i).deliveries.find? (fun v => v.step == k) = some v →
    let q := m.s1.toNat % 256
    (m.body.aux.toNat / 16 % 16 ≠ 0 → ∀ j < 64, ((u.ctx m.tile m.ctx).regs.getP (m.body.aux.toNat / 16 % 16)).getLsbD j =
      ((v.own ++ v.back.map some).getD (64 * q + j) none).isSome))

/-- R293: the head of a group's queue is accepted where its checks hold, and NEXTSEQ counts up (a fault of its input
or of the control block ends it with FAULT); one that is refused fails with its error. another participant's
acceptance is noted. R283, R293: once every participant has accepted, with their parameters agreed, the collective
runs on trees of the highest version that all hold; where they differ it fails with PARAM. R288, R289, R428: a
reduced chunk in its turn is written once, a broadcast-complete chunk counts once, and the last one completes the
collective with STATUS 0. R290: where straits of its trees have gone DOWN it recovers: the redo set is reduced and
written again on new trees, or DISCONNECTED ends it. R295: WAITLIM without every participant, here or at another
participant, ends it with TIMEOUT. R287: integer sums modulo 2^n and floating-point sums on the grid do not depend
on the order of the contributions, and a NaN gives the canonical NaN. -/
def Obligations.CollectiveEvents : Prop :=
  (∀ (s : State) (g : Nat),
    let has := fun (u : State) (x : Coll) => x ∈ (u.group g).colls
    (∀ id ids m, (s.group g).waiting = id :: ids → s.cmd id = some m → (s.group g).live = none →
      s.cmdBlocked { m with place := .queued } = false →
      let out := exec (.collectiveAccept { group := g }) s
      (∀ e, s.colRefused m = some e → ∃ u x, out = .next u ∧ has u x ∧ x.cmd = m.id ∧ x.state = 4 ∧ x.err = e) ∧
      (s.colRefused m = none → 0 < colCount m.descBits → ∃ u x, out = .next u ∧ has u x ∧ x.cmd = m.id ∧
        (x.state = 1 ∧ x.accepted = true ∧
          bitsOf (u.group g).entry 223 192 = (bitsOf (s.group g).entry 223 192 + 1) % 2 ^ 32 ∨ x.state = 4 ∧ x.err = 6))) ∧
    ((s.group g).waiting = [] → exec (.collectiveAccept { group := g }) s = .next s) ∧
    (∀ a : PeerAccept, s.pow.down = false → (s.group g).pmask.getLsbD a.pkg = true → a.pkg ≠ s.net.pkg →
      exec (.collectiveAccept { group := g, peer := some a }) s = .next (s.modGroup g fun y => { y with peers := y.peers ++ [a] })) ∧
    (∀ x, (s.group g).live = some x →
      (∀ held same tacc set, x.state = 1 → s.allAccepted g x = some tacc → s.agreed x held [] = some set →
        let out := exec (.versionAgreement g held same) s
        let z := ({ x with tacc := tacc, nchunk := (x.wire + 4095) / 4096 } : Coll).derive set
        (same = false → ∃ u y, out = .next u ∧ has u y ∧ y.cmd = x.cmd ∧ y.state = 4 ∧ y.err = 3) ∧
        (same = true → (x.kind = 18 → colCount x.v % (membersOf x.pmask).length = 0) → x.wire ≤ 2 ^ 28 →
          (z.roots ≠ [] → ∃ u y, out = .next u ∧ has u y ∧ y = { z with state := 2 }) ∧
          (z.roots = [] → ∃ u y, out = .next u ∧ has u y ∧ y.cmd = x.cmd ∧ y.state = 4 ∧ y.err = 4))) ∧
      (∀ held same, s.allAccepted g x = none → exec (.versionAgreement g held same) s = .next s) ∧
      (∀ held down set, s.agreed x held down = some set → set ∈ s.net.sets ∧ ∀ w ∈ s.net.sets,
        (∀ e ∈ down, e ∉ w.edges) → (∀ p ∈ (membersOf x.pmask).zipIdx, p.1 = s.net.pkg ∨ w.version ∈ held.getD p.2 []) →
        w.version ≤ set.version) ∧
      (∀ c, x.state = 2 → x.broken = [] → c < x.nchunk → c ∉ x.written → x.inTurn c = true →
        (∀ bs, x.sizesOk s.net.pkg c bs = true → ∃ u y, exec (.chunkReduced g c (some bs)) s = .next u ∧ has u y ∧
          y.cmd = x.cmd ∧ (c ∈ y.written ∨ y.state = 4 ∧ y.err = 6)) ∧
        (∃ u y, exec (.chunkReduced g c none) s = .next u ∧ has u y ∧ y.cmd = x.cmd ∧ y.state = 4 ∧ y.err = 6)) ∧
      (∀ c given, x.state ≠ 2 ∨ x.broken ≠ [] ∨ x.nchunk ≤ c ∨ c ∈ x.written → exec (.chunkReduced g c given) s = .next s) ∧
      (∀ c, x.state = 2 → x.broken = [] → c ∈ x.written → c ∉ x.bcast → ∃ u y,
        exec (.chunkBroadcastComplete g c) s = .next u ∧ has u y ∧
        y.cmd = x.cmd ∧ y.bcast = c :: x.bcast ∧ y.state = (if x.bcast.length + 1 = x.nchunk then 3 else 2)) ∧
      (∀ held unfinished set, x.state = 2 → x.broken ≠ [] → s.agreed x held x.broken = some set →
        let redo := fun c => c < x.nchunk ∧ (c ∈ unfinished ∨ c ∉ x.bcast)
        let y := x.derive set
        let out := exec (.collectiveRecovery g set.version held unfinished) s
        (∀ v, v ≠ set.version → exec (.collectiveRecovery g v held unfinished) s = .next s) ∧
        (y.roots ≠ [] → ∃ u z, out = .next u ∧ has u z ∧ z.cmd = x.cmd ∧ z.version = set.version ∧ z.edges = y.edges ∧
          z.broken = [] ∧ (∀ c, c ∈ z.written ↔ c ∈ x.written ∧ ¬ redo c)) ∧
        (y.roots = [] → ∃ u z, out = .next u ∧ has u z ∧ z.cmd = x.cmd ∧ z.state = 4 ∧ z.err = 4)) ∧
      (∀ v held unfinished, x.broken = [] ∨ s.agreed x held x.broken = none → exec (.collectiveRecovery g v held unfinished) s = .next s) ∧
      (let lim := bitsOf (s.group g).entry 255 224
       x.state = 1 → s.allAccepted g x = none →
        (lim ≠ 0 → x.acceptedAt + lim * 65536000 ≤ s.now →
          ∃ u y, exec (.collectiveTimeout { group := g }) s = .next u ∧ has u y ∧ y.cmd = x.cmd ∧ y.state = 4 ∧ y.err = 5) ∧
        (lim = 0 ∨ s.now < x.acceptedAt + lim * 65536000 → exec (.collectiveTimeout { group := g }) s = .next s) ∧
        (∀ p, x.pmask.getLsbD p = true → p ≠ s.net.pkg →
          ∃ u y, exec (.collectiveTimeout { group := g, peer := some (p, x.seq) }) s = .next u ∧ has u y ∧ y.cmd = x.cmd ∧ y.state = 4 ∧ y.err = 5)) ∧
      (∀ peer, s.allAccepted g x ≠ none → exec (.collectiveTimeout { group := g, peer := peer }) s = .next s))) ∧
  (∀ (v : BitVec 512) (xs : List Int), xs ≠ [] → colOp v = 0 →
    (colFloat v = false → reduceElem v xs = ((xs.sum % 2 ^ (8 * colElem v)).toNat, false)) ∧
    (colFloat v = true → xs.length ≤ 64 → (∀ x ∈ xs, -2 ^ 57 ≤ x ∧ x < 2 ^ 57) → reduceElem v xs = fromWire v xs.sum) ∧
    (colFloat v = true → wireNan ∈ xs → reduceElem v xs = ((colFmt v).nanBits, false)))

/-- R418: while the package has power, a DOWN strait at which a peer is seen, or that a request trains, becomes
TRAINING and sends its identity flit; the peer's identity is taken, and another one than at the last UP takes it
DOWN; after training, with a version agreed (R422), it becomes UP; a link failure or a request takes it DOWN. R417:
the sixteenth CRC failure of a flit in succession does so too. R282, R420, R421: each change is stamped with the
next version and applied; a change that has been seen changes nothing, a new one is applied, and a full table is
applied from its oldest version on. R279: the driver may fix the package's number before any strait has left DOWN.
R419: a lane stops below 64 KiB of free space and goes on above 96 KiB. R415, R266: 16 sync intervals within 40 ns
lock the servo, 4 outside release it; on an announce timeout the other port serves. A management request sets the
PTP fields. Each request that changes the table also adds one entry for the mirror where a standby exists (R398;
DEDUCED, log 56). -/
def Obligations.StraitAndTimeEvents : Prop :=
  ∀ (s : State), s.pow.down = false →
  (∀ p, p < 12 → (s.strait p).state = 0 → ∃ u, exec (.straitPeerDetect p) s = .next u ∧ (u.strait p).state = 1 ∧
    (u.strait p).version = s.net.applied + 1 ∧ u.net.applied = s.net.applied + 1 ∧ .identity p ∈ u.net.outbox ∧ u.core = s.core ∧
    (s.fwActive = true → exec (.straitTrainRequest { port := p }) s = .next (s.mirrored u))) ∧
  (∀ p n, s.fwActive = true → n < 64 → n ≠ s.net.pkg → (∀ x ∈ s.net.straits, x.2.state = 0) →
    ∃ u, exec (.straitTrainRequest { port := p, pkg := some n }) s = .next u ∧ u.net.pkg = n) ∧
  (∀ p pkg port vs, p < 12 → pkg < 64 → port < 16 → (s.strait p).state = 1 →
    ((s.strait p).lastUp = none ∨ (s.strait p).lastUp = some (pkg, port) → ∃ u, exec (.identityFlit p pkg port vs) s = .next u ∧
      (u.strait p).state = 1 ∧ (u.strait p).identity = some (pkg, port) ∧ (u.strait p).peerPkg = pkg ∧
      ((u.strait p).agreed = true ↔ ∃ v ∈ vs, v.1 = 1)) ∧
    ((s.strait p).lastUp ≠ none → (s.strait p).lastUp ≠ some (pkg, port) →
      ∃ u, exec (.identityFlit p pkg port vs) s = .next u ∧ (u.strait p).state = 0)) ∧
  (∀ p, p < 12 → (s.strait p).state = 1 → (s.strait p).identity ≠ none →
    ((s.strait p).agreed = true → ∃ u, exec (.straitUp p) s = .next u ∧ (u.strait p).state = 2 ∧
      (u.strait p).lastUp = (s.strait p).identity ∧ u.net.applied = s.net.applied + 1) ∧
    ((s.strait p).agreed = false → exec (.straitUp p) s = .next s)) ∧
  (∀ p, p < 12 → (s.strait p).state ≠ 0 → ∃ u, exec (.straitDown p) s = .next u ∧ (u.strait p).state = 0 ∧
    u.net.applied = s.net.applied + 1 ∧ (s.fwActive = true → exec (.straitDownRequest p) s = .next (s.mirrored u)) ∧
    ((s.strait p).crcRun = 15 → exec (.flitCrcRetry p true) s = .next u)) ∧
  (∀ p again, p < 12 → (s.strait p).state ≠ 0 → again = false ∨ (s.strait p).crcRun < 15 →
    ∃ u, exec (.flitCrcRetry p again) s = .next u ∧ (u.strait p).state = (s.strait p).state ∧
      (u.strait p).crcRun = if again = true then (s.strait p).crcRun + 1 else 1) ∧
  (∀ p lane free, p < 12 → lane < 8 → (s.strait p).state = 2 →
    (free < 64 → lane ∉ (s.strait p).stopped → ∃ u, exec (.virtualLaneStopGo p lane free) s = .next u ∧
      lane ∈ (u.strait p).stopped ∧ u.net.outbox = s.net.outbox ++ [.stop p lane]) ∧
    (96 < free → lane ∈ (s.strait p).stopped → ∃ u, exec (.virtualLaneStopGo p lane free) s = .next u ∧
      lane ∉ (u.strait p).stopped ∧ u.net.outbox = s.net.outbox ++ [.go p lane]) ∧
    (64 ≤ free → free ≤ 96 → exec (.virtualLaneStopGo p lane free) s = .next s)) ∧
  (∀ p c, p < 12 → (s.strait p).state = 2 →
    (s.seen c = true → exec (.linkChangeFlood p (.change c)) s = .next s) ∧
    (s.seen c = false → (latestVersions s.net.changes).length < 16 → ∃ u, exec (.linkChangeFlood p (.change c)) s = .next u ∧
      u.seen c = true ∧ u.net.applied = max s.net.applied c.version)) ∧
  (∀ p oldest cs, p < 12 → (s.strait p).state = 2 → ∃ u, exec (.linkChangeFlood p (.table oldest cs)) s = .next u ∧
    u.net.floor = max s.net.floor oldest ∧ (∀ c ∈ cs, u.seen c = true) ∧ u.core = s.core) ∧
  (∀ offset source, let x := s.net.servo
    let near := -40 ≤ offset ∧ offset ≤ 40
    ∃ u, exec (.ptpSync offset true source) s = .next u ∧ u.net.servo.offset = offset ∧ u.net.servo.grandmaster = source ∧
      (u.net.servo.locked = true ↔ if x.locked = true then near ∨ x.outRun < 3 else near ∧ 15 ≤ x.inRun) ∧
      s.now ≤ u.now ∧ (x.ever = true → u.now = s.now)) ∧
  (∀ offset source, ∃ u, exec (.ptpSync offset false source) s = .next u ∧ u.net.servo.locked = false ∧ u.now = s.now) ∧
  (∀ gm, ∃ u, exec (.announceTimeout gm) s = .next u ∧ u.net.servo.active = 1 - s.net.servo.active ∧
    (gm = s.net.servo.grandmaster → u.net.servo.locked = s.net.servo.locked) ∧
    (gm ≠ s.net.servo.grandmaster → u.net.servo.locked = false)) ∧
  (∀ domain delay transport, s.fwActive = true →
    (domain ≤ 127 → delay ≤ 1 → transport ≤ 2 → ∃ u, exec (.ptpConfig domain delay transport) s = .next u ∧
      u.net.servo.domain = domain ∧ u.net.servo.delay = delay ∧ u.net.servo.transport = transport) ∧
    (127 < domain ∨ 1 < delay ∨ 2 < transport → exec (.ptpConfig domain delay transport) s = .next s))

/-- R412: a frame that is untagged or carries no VLAN ID of its port is dropped; R413: one taken while the receive
buffer is more than half full is marked; a congestion notification halves the rate, at most once in 50 µs, and 50 µs
of quiet raise it by 5% of line rate. R414: an RDMA WRITE on a queue pair of role MEMORY writes exactly its bytes
where its object's access holds and is acknowledged; with an immediate, the immediate word too (where that word lies
is the model's Config field); anything else is answered with a NAK and writes nothing; an RDMA READ needs EXPORT,
and may name a SIGNAL object too (R334). R412, R414: requests set a port's rate and VLAN IDs and bind a queue pair,
within their ranges; each that changes the table also adds one entry for the mirror where a standby exists (R398;
DEDUCED, log 56). -/
def Obligations.EthernetAndRdmaEvents : Prop :=
  ∀ (s : State), s.pow.down = false →
  (∀ p vlan kind prio bytes, p < 2 →
    let x := FMap.get ({} : EthPort) s.net.ports p
    (vlan = none → exec (.ethernetFrameReceive p vlan kind prio bytes) s = .next s) ∧
    (∀ v, vlan = some v → v ∉ x.vlans → kind ≠ .management → exec (.ethernetFrameReceive p vlan kind prio bytes) s = .next s) ∧
    (∀ v, vlan = some v → v ∈ x.vlans → kind ≠ .management → ∃ u, exec (.ethernetFrameReceive p vlan kind prio bytes) s = .next u ∧
      ((FMap.get ({} : EthPort) u.net.ports p).ecn = true ↔ Config.rxBuffer < 2 * bytes) ∧ u.core = s.core)) ∧
  (∀ q, q < 4096 →
    ((∀ t, (s.qp q).lastCut = some t → t + 50000 ≤ s.now / 65536) → ∃ u, exec (.congestionNotification q) s = .next u ∧
      (u.qp q).rate = (s.qp q).rate / 2 ∧ (u.qp q).lastCut = some (s.now / 65536)) ∧
    (∀ t, (s.qp q).lastCut = some t → s.now / 65536 < t + 50000 → ∃ u, exec (.congestionNotification q) s = .next u ∧
      (u.qp q).rate = (s.qp q).rate) ∧
    ((s.qp q).quietSince + 50000 ≤ s.now / 65536 → ∃ u, exec (.rateRecovery q) s = .next u ∧
      (u.qp q).rate = min 100000 ((s.qp q).rate + 5000)) ∧
    (s.now / 65536 < (s.qp q).quietSince + 50000 → exec (.rateRecovery q) s = .next s)) ∧
  (∀ q obj off data imm,
    let at' := s.cpPort (s.qp q).asid obj [kGLOBAL, kMAILBOX] [rW] [] off data.length
    let nak : Out := .next { s with net := { s.net with outbox := s.net.outbox ++ [.nak q] } }
    (4096 ≤ q ∨ (s.qp q).role ≠ 1 ∨ at' = none →
      exec (.rdmaWrite q obj off data) s = nak ∧ exec (.rdmaWriteWithImmediate q obj off data imm) s = nak) ∧
    (q < 4096 → (s.qp q).role = 1 → ∀ ps ds, at' = some (ps, ds) →
      exec (.rdmaWrite q obj off data) s =
        .next { s.performStore ds (cellsOf ps data) with net := { s.net with outbox := s.net.outbox ++ [.ack q] } }) ∧
    (q < 4096 → (s.qp q).role = 1 → ∀ ps, at' = some (ps, []) →
      (∃ u, exec (.rdmaWrite q obj off data) s = .next u ∧ s.Wrote u (cellsOf ps data) ∧
        u.net.outbox = s.net.outbox ++ [.ack q]) ∧
      (∃ u, exec (.rdmaWriteWithImmediate q obj off data imm) s = .next u ∧ u.net.outbox = s.net.outbox ++ [.ack q] ∧
        let pa := s.net.pkg * 2 ^ 58 + 2 * 2 ^ 54 + Config.immOffset q % (2 ^ 24 - 3)
        s.Wrote u (cellsOf ps data ++ cellsOf [(pa, 4)] (leBytes 4 imm.toNat))))) ∧
  (∀ q obj off len,
    let ok := q < 4096 ∧ (s.qp q).role = 1 ∧ ∃ e, s.walkObj (s.qp q).asid obj = some e ∧ e.getLsbD 80 = true
    (¬ ok → exec (.rdmaRead q obj off len) s = .next { s with net := { s.net with outbox := s.net.outbox ++ [.nak q] } }) ∧
    (ok → ∀ ps ds bs, s.cpPort (s.qp q).asid obj [kGLOBAL, kMAILBOX, kSIGNAL] [rR] [] off len = some (ps, ds) → s.rdExport ps = some bs →
      ∃ u, exec (.rdmaRead q obj off len) s = .next u ∧ u.net.outbox = s.net.outbox ++ [.readData q bs] ∧ s.SameMem u)) ∧
  (∀ p gbit, p < 2 → (gbit = 200 ∨ gbit = 400 ∨ gbit = 800) → ∃ u, exec (.autoNegotiation p gbit) s = .next u ∧
    (FMap.get ({} : EthPort) u.net.ports p).rate = gbit ∧ (s.fwActive = true → exec (.portRateSet p gbit) s = .next (s.mirrored u))) ∧
  (∀ p gbit, gbit ≠ 200 → gbit ≠ 400 → gbit ≠ 800 → exec (.autoNegotiation p gbit) s = .next s ∧
    (s.fwActive = true → exec (.portRateSet p gbit) s = .next s)) ∧
  (s.fwActive = true →
    (∀ p ids, p < 2 → ids.length ≤ 64 → (∀ v ∈ ids, v < 4096) → ∃ u, exec (.vlanConfig p ids) s = .next u ∧
      (FMap.get ({} : EthPort) u.net.ports p).vlans = ids) ∧
    (∀ p ids, 64 < ids.length ∨ (∃ v ∈ ids, 4096 ≤ v) → exec (.vlanConfig p ids) s = .next s) ∧
    (∀ q asid role, q < 4096 → asid < 4096 → 1 ≤ role → role ≤ 3 → ∃ u, exec (.queuePairBinding q asid role) s = .next u ∧
      (u.qp q).asid = asid ∧ (u.qp q).role = role) ∧
    (∀ q asid role, 4096 ≤ asid ∨ role = 0 ∨ 3 < role → exec (.queuePairBinding q asid role) s = .next s))

/-- R393: the ROM runs the candidate of the higher SVN, slot A on a tie; without a candidate both complexes halt;
after a loss of power the package comes up so. R400: a takeover freezes the active complex, the standby becomes
active and completions are held; the next step releases them, and the frozen one reboots as standby. R399: an update
reboots the standby with the slot where it is a candidate and the table is accepted (a free value), the swap within
10 ms exchanges the roles and counts LIVEUPD, after 10 ms it is abandoned. R317, R395: an image that does not verify
changes nothing. R393: CONFIRM raises SVNMIN to the running SVN and extends CFGM. R394, R406, R422, R423: ATTEST,
HEAT, VERSIONS answer, TELEMETRY puts the readings into the buffer and sends its records (R365; DESIGN CHOICE, log
53). R398: each request that changes the table adds one entry for the mirror (DEDUCED, log 56), which the standby
applies entry by entry. A request to a package without power or active complex does nothing. -/
def Obligations.FirmwareEvents : Prop :=
  ∀ (s : State),
  (s.pow.down = true → ∃ u, exec .powerOnReset s = .next u ∧ u.pow.down = false ∧ u.pow.flips = [] ∧
    (∀ k, s.romPick = some k → (u.complex 0).role = .active ∧ (u.complex 0).slot = k ∧ (u.complex 1).role = .standby ∧
      (u.complex 0).svn = fiSvn (s.flash k).header ∧ (u.complex 0).cores = 4 ∧
      (u.complex 0).sram = (s.flash k).body.take 2097152 ∧ u.cp.loss = []) ∧
    (s.romPick = none → (u.complex 0).role = .halted ∧ (u.complex 1).role = .halted)) ∧
  (s.pow.down = false → s.sec.complexes ≠ [] → exec .powerOnReset s = .next s) ∧
  ((s.romPick = none ↔ s.candidate 0 = false ∧ s.candidate 1 = false) ∧
    (∀ k, s.romPick = some k → s.candidate k = true) ∧
    (s.candidate 0 = true → s.candidate 1 = true →
      s.romPick = some (if fiSvn (s.flash 0).header < fiSvn (s.flash 1).header then 1 else 0))) ∧
  (s.pow.down = false → ∃ u, exec .lpddr6TrainingDone s = .next u ∧ u.sec.trained = true ∧ u.core = s.core) ∧
  (∀ a b, s.pow.down = false → a ≠ b → s.roleOf .active = some a → s.roleOf .standby = some b →
    (s.sec.fw.hold = none → ∃ u, exec .firmwareTakeover s = .next u ∧ (u.complex a).frozen = true ∧ (u.complex a).role = .none ∧
      (u.complex b).role = .active ∧ u.sec.fw.hold = some [] ∧ u.sec.fw.update = none ∧ u.sec.fw.mirrorDue = 0 ∧
      u.sec.fw.mirrorSeq = (s.sec.fw.mirrorSeq + s.sec.fw.mirrorDue) % 2 ^ 64)) ∧
  (∀ held, s.pow.down = false → s.sec.fw.hold = some held → ∃ u, exec .firmwareTakeover s = .next u ∧
    (held = [] → u.sec.fw.hold = none ∧ s.SameMem u)) ∧
  (s.roleOf .standby ≠ none → s.sec.fw.mirrorDue ≠ 0 → ∃ u, exec .mirrorEntry s = .next u ∧
    u.sec.fw.mirrorSeq = (s.sec.fw.mirrorSeq + 1) % 2 ^ 64 ∧ u.sec.fw.mirrorDue = s.sec.fw.mirrorDue - 1 ∧ u.core = s.core) ∧
  (s.roleOf .standby = none ∨ s.sec.fw.mirrorDue = 0 → exec .mirrorEntry s = .next s) ∧
  (s.pow.down = false → s.fwActive = true →
    (∀ slot b, s.roleOf .standby = some b → ∃ u, exec (.update slot) s = .next u ∧
      (2 ≤ slot ∨ s.candidate slot = false ∨ s.sec.fw.update ≠ none ∨ s.sec.fw.hold ≠ none →
        u.sec.complexes = s.sec.complexes ∧ u.sec.fw.update = s.sec.fw.update) ∧
      (slot < 2 → s.candidate slot = true → s.sec.fw.update = none → s.sec.fw.hold = none →
        u.sec.complexes = s.sec.complexes ∧ u.sec.fw.update = none ∨
        (u.complex b).slot = slot ∧ (u.complex b).role = .standby ∧
          u.sec.fw.update = some { slot := slot, since := s.now / 65536 })) ∧
    (∀ asid obj off, s.verifyImage asid obj off = none → exec (.load asid obj off) s = .next s) ∧
    (∀ asid obj off es slot m, s.verifyImage asid obj off = some (es, slot, m) →
      (∀ e k, (e, k) ∈ es.zipIdx → sgType e ≠ 6 → s.segRoom asid (obj + 1 + k) e ≠ none) →
      ∃ u, exec (.load asid obj off) s = .next u ∧ u.sec.fw.imgCount = s.sec.fw.imgCount + 1 ∧
        u.sec.fw.imgm = sha3 (leBytes 64 s.sec.fw.imgm.toNat ++ leBytes 8 asid ++ leBytes 8 slot ++ leBytes 64 m.toNat) ∧
        ∃ x ∈ u.cp.images, x.asid = asid ∧ x.owner = slot) ∧
    (∀ nonce, ∃ u bs, exec (.attest nonce) s = .next u ∧ u.net.outbox = s.net.outbox ++ [.response "ATTEST" bs] ∧
      bs.take 320 = leBytes 320 s.attestRecord.toNat ∧ u.core = s.core) ∧
    (∀ req, ∃ u, exec (.confirm req) s = .next u ∧ u.sec.fw.svnMin = max s.sec.fw.svnMin s.activeComplex.svn ∧
      u.sec.fw.cfgm = sha3 (leBytes 64 s.sec.fw.cfgm.toNat ++ leBytes 64 req.toNat)) ∧
    (∃ u bs, exec .heat s = .next u ∧ u.net.outbox = s.net.outbox ++ [.response "HEAT" bs] ∧ bs.length = 64) ∧
    (∃ u, exec .telemetry s = .next u ∧ (s.readings.sec.telemetry.length ≤ 4096 → u.sec.telemetry = [])) ∧
    (∃ u bs, exec .versions s = .next u ∧ u.net.outbox = s.net.outbox ++ [.response "VERSIONS" bs])) ∧
  (∀ w a b, s.sec.fw.update = some w → a ≠ b → s.roleOf .active = some a → s.roleOf .standby = some b →
    (s.pow.down = false → s.quiescent = true → s.now / 65536 < w.since + 10000000 → ∃ u, exec .roleSwap s = .next u ∧ (u.complex b).role = .active ∧
      (u.complex a).role = .standby ∧ (u.complex a).slot = w.slot ∧ u.sec.fw.update = none ∧
      u.sec.fw.liveUpd = (s.sec.fw.liveUpd + 1) % 2 ^ 16 ∧ u.core = s.core) ∧
    (s.quiescent = false → exec .roleSwap s = .next s) ∧
    (w.since + 10000000 ≤ s.now / 65536 → exec .roleSwap s = .next s ∧ ∃ u, exec .fwUpdateFail s = .next u ∧
      u.sec.fw.update = none ∧ (u.complex b).role = .standby ∧ (u.complex b).slot = (s.complex a).slot) ∧
    (s.now / 65536 < w.since + 10000000 → exec .fwUpdateFail s = .next s)) ∧
  (s.pow.down = true ∨ s.fwActive = false → ∀ i, i = .heat ∨ i = .telemetry ∨ i = .versions →
    exec i s = .next s)

/-- R391: a request is served while the package is up and a complex is active, and else does nothing. R328: a queue
table entry is written while DISABLED and within its limits. R352: an ASID table entry stores its fields. R351,
R369: a service and a power entry are written while the partition holds no task. R280: a group entry is written
while no collective of the group is live. R268: a stream descriptor is written while its arm is disarmed. R395: an
owner key takes its slot and CFGM is extended (R394). R401: a partition entry is stored where nothing refuses it.
R344: a lottery seed of 0 is stored as 1. Every field that is written reads back, reserved bits are 0, and no
context, tile or byte of memory changes. Each request that changes the table also adds one entry for the mirror
where a standby exists (R398; DEDUCED, log 56). -/
def Obligations.ManagementTables : Prop :=
  ∀ (s : State),
  (s.pow.down = true ∨ s.fwActive = false → ∀ q e a f g x k d slot key req p seed (i : Instr),
    i = .queueTableWrite q e ∨ i = .asidTableWrite a f ∨ i = .serviceEntryWrite p e ∨ i = .powerEntryWrite p f ∨
    i = .groupEntryWrite g x ∨ i = .streamDescriptorWrite k d ∨ i = .ownerKeyWrite slot key req ∨
    i = .partitionEntryWrite p f req ∨ i = .lotterySeedWrite seed → exec i s = .next s) ∧
  (s.pow.down = false → s.fwActive = true →
    (∀ q e, let v := keepFields e queueFields
      (q < 8192 → qState (s.queue q).entry = 0 → qState v ≤ 1 → qLog2n v ≤ 16 → qNotify v % 16 = 0 →
        128 * qRing v + 128 * 2 ^ qLog2n v ≤ 2 ^ 24 → qNotify v + 16 ≤ 2 ^ 24 → ∃ u, exec (.queueTableWrite q e) s = .next u ∧
        (u.queue q).entry = v ∧ u.core = s.core ∧ u.tab = s.tab) ∧
      (8192 ≤ q ∨ qState (s.queue q).entry ≠ 0 ∨ 1 < qState v → exec (.queueTableWrite q e) s = .next s) ∧
      (qState v = e.toNat % 4 ∧ qRing v = e.toNat / 4 % 2 ^ 22 ∧ qAsid v = e.toNat / 2 ^ 148 % 2 ^ 12 ∧
        qRegion v = e.toNat / 2 ^ 164 % 2 ^ 16)) ∧
    (∀ a e, a < 4096 → ∃ u, exec (.asidTableWrite a e) s = .next u ∧
      (u.asidEntry a).toNat = e.toNat % 2 + e.toNat / 2 ^ 96 * 2 ^ 96 ∧ (∀ b, b ≠ a → u.asidEntry b = s.asidEntry b) ∧
      u.core = s.core) ∧
    (∀ p e, p < 8 → s.partHasTask p = false → ∃ u, exec (.serviceEntryWrite p e) s = .next u ∧ u.core = s.core ∧
      bitsOf (u.service p) 68 0 = bitsOf e 68 0 ∧ bitsOf (u.service p) 255 128 = bitsOf e 255 128 ∧
      bitsOf (u.service p) 319 288 = bitsOf e 319 288 ∧ bitsOf (u.service p) 511 320 = 0) ∧
    (∀ p e f, s.partHasTask p = true → exec (.serviceEntryWrite p e) s = .next s ∧
      exec (.powerEntryWrite p f) s = .next s) ∧
    (∀ p e, p < 8 → s.partHasTask p = false → ∃ u, exec (.powerEntryWrite p e) s = .next u ∧ u.core = s.core ∧
      bitsOf (FMap.get powerReset u.tab.powers p) 47 16 = bitsOf e 47 16 ∧
      bitsOf (FMap.get powerReset u.tab.powers p) 127 64 = bitsOf e 127 64 ∧
      bitsOf (FMap.get powerReset u.tab.powers p) 255 128 = 0) ∧
    (∀ g e, g < 256 → (s.group g).live = none → ∃ u, exec (.groupEntryWrite g e) s = .next u ∧ u.core = s.core ∧
      (u.group g).entry.getLsbD 0 = e.getLsbD 0 ∧ (u.group g).pmask = e.extractLsb' 128 64 ∧
      bitsOf (u.group g).entry 95 64 = bitsOf e 95 64 ∧ bitsOf (u.group g).entry 255 224 = bitsOf e 255 224) ∧
    (∀ g e x, g < 256 → (s.group g).live = some x →
      x.state ≠ 1 ∨ bitsOf (s.group g).entry 255 224 ≠ 0 ∨ s.allAccepted g x ≠ none → exec (.groupEntryWrite g e) s = .next s) ∧
    (∀ k e, let d := keepFields e [(0, 4), (224, 168), (400, 16), (428, 84)]
      (k < 1024 → (s.arm (stArm d)).armed = false → (s.arm (stArm (s.stream k).desc)).armed = false →
        stValid d = false ∨ streamOk d = true → ∃ u, exec (.streamDescriptorWrite k e) s = .next u ∧ (u.stream k).desc = d ∧
        (u.stream k).ring = (s.stream k).ring ∧ u.core = s.core) ∧
      (1024 ≤ k ∨ (s.arm (stArm (s.stream k).desc)).armed = true → exec (.streamDescriptorWrite k e) s = .next s)) ∧
    (∀ slot key req, slot < 8 → ∃ u, exec (.ownerKeyWrite slot key req) s = .next u ∧
      (∀ v, key = some v → FMap.get [] u.sec.fw.keys slot = v) ∧ (key = none → slot ∉ FMap.keys u.sec.fw.keys) ∧
      u.sec.fw.cfgm = sha3 (leBytes 64 s.sec.fw.cfgm.toNat ++ leBytes 64 req.toNat) ∧ u.core = s.core) ∧
    (∀ p e req, p < 8 → s.partitionRefused p e = false → ∃ u, exec (.partitionEntryWrite p e req) s = .next u ∧
      u.partition p = e ∧ u.core = s.core ∧
      u.sec.fw.cfgm = sha3 (leBytes 64 s.sec.fw.cfgm.toNat ++ leBytes 64 req.toNat)) ∧
    (∀ p e req, 8 ≤ p ∨ s.partitionRefused p e = true → exec (.partitionEntryWrite p e req) s = .next s) ∧
    (∀ p i, i ∈ s.islandsOf p ↔ i < 64 ∧ (s.partition p).getLsbD 0 = true ∧ (s.partition p).getLsbD (192 + i) = true) ∧
    (∀ seed, ∃ u, exec (.lotterySeedWrite seed) s = .next u ∧ u.cp.lottery = (if seed = 0 then 1 else seed) ∧ u.core = s.core))

/-- R329, R330: a kick of an ACTIVE queue whose TAIL is more than the ring ahead puts it in ERROR; any other copies
valid packets in order, at most to TAIL, never past 64 unretired ones, and advances HEAD by their number; a copied
slot loses its valid bit, and the word behind the notify word holds HEAD; with 64 unretired the copy waits for a
retirement. R331: a kick of a queue whose pending bit is set merges into it, one that comes while a copy waits sets
it; once a slot has freed, the service clears the next bit above the last served, wrapping, and runs its kick. R332:
a packet whose fields are not as its kind has them is refused: STATUS 2, ERRCNT. R333: LAUNCH_GRAPH creates an
instance whose nodes without predecessors are ready, and waits while its graph is live; SIGNAL writes or adds; WAIT
retires on its condition, on ERR puts the queue in ERROR; COPY posts a pump command and retires when that has gone;
BARRIER waits for the queue's instances; FLUSH_EXPORT flushes. A step whose packet is not at the head does nothing. -/
def Obligations.QueuePackets : Prop :=
  ∀ (s : State) (q : Nat),
  let x := s.queue q
  (∀ k i, (k, i) ∈ [(1, Instr.launchGraph q), (2, .signalWrite q), (2, .signalAdd q), (3, .wait q), (4, .copy q), (5, .barrier q),
      (9, .flushExport q)] → (x.packets.head?.map pkKind ≠ some k ∨ qState x.entry ≠ 1) → exec i s = .next s) ∧
  (qState x.entry ≠ 1 ∨ q ∈ s.cp.pending → exec (.notifyKick q) s = .next s) ∧
  (qState x.entry = 1 → q ∉ s.cp.pending → x.copying ≠ none →
    exec (.notifyKick q) s = .next { s with cp := { s.cp with pending := s.cp.pending ++ [q] } }) ∧
  (qState x.entry = 1 → q ∉ s.cp.pending → x.copying = none →
    let n := (s.rdNat (s.mailPa (qNotify x.entry)) 8 % 2 ^ 32 + 2 ^ 32 - qHead x.entry) % 2 ^ 32
    let slot := s.mailPa (128 * qRing x.entry + 128 * (qHead x.entry % 2 ^ qLog2n x.entry))
    let v := BitVec.ofNat 1024 (s.rdNat slot 128)
    (2 ^ qLog2n x.entry < n → ∃ u, exec (.notifyKick q) s = .next u ∧ qState (u.queue q).entry = 2 ∧ s.SameMem u ∧
      (u.queue q).packets = x.packets) ∧
    (n ≤ 2 ^ qLog2n x.entry → n ≤ 65536 → ∃ u new, exec (.notifyKick q) s = .next u ∧ new.length ≤ n ∧
      (u.queue q).packets.length ≤ max 64 x.packets.length ∧ (∀ w ∈ new, w.getLsbD 63 = true) ∧
      qHead (u.queue q).entry = (qHead x.entry + new.length) % 2 ^ 32 ∧
      (u.queue q).packets = (x.packets ++ new).dropWhile fun w => !pkHeadOk w) ∧
    (n = 1 → x.packets.length < 64 → s.bufferUsed < 65536 → v.getLsbD 63 = true →
      (∀ w ∈ (x.packets ++ [v]).head?, pkHeadOk w = true) → ∃ u, exec (.notifyKick q) s = .next u ∧
      (u.queue q).packets = x.packets ++ [v] ∧
      let done := s.mailPa (qNotify x.entry + 8)
      u.rdNat done 8 = (qHead x.entry + 1) % 2 ^ 32 ∧
      ∀ a, (a < done ∨ done + 8 ≤ a) → u.rd8 a = if a = slot + 7 then s.rd8 a &&& 0x7F#8 else s.rd8 a)) ∧
  (let idle := s.cp.pending.filter fun p => (s.queue p).copying.isNone;
    (idle = [] ∨ s.cp.slotFreed = false → exec .pendingKickService s = .next s) ∧
    (nextPending s.cp.lastServiced idle = some q → s.cp.slotFreed = true → ∃ u, exec .pendingKickService s = .next u ∧
      u.cp.lastServiced = q ∧ (u.cp.slotFreed = true ↔ u.cp.pending ≠ [] ∧ u.bufferUsed < 65536) ∧
      (qState x.entry ≠ 1 → u.cp.pending = s.cp.pending.filter fun p => p != q) ∧
      (qState x.entry = 1 → ∃ t w : State, t.cp.pending = s.cp.pending.filter (fun p => p != q) ∧ t.cp.queues = s.cp.queues ∧
        t.core = s.core ∧ exec (.notifyKick q) t = .next w ∧
        u = { w with cp := { w.cp with slotFreed := u.cp.slotFreed } }))) ∧
  (∀ last ps, (ps ≠ [] → nextPending last ps ≠ none) ∧ ∀ p, nextPending last ps = some p → p ∈ ps ∧
    (last < p ∧ (∀ r ∈ ps, last < r → p ≤ r) ∨ (∀ r ∈ ps, r ≤ last ∧ p ≤ r))) ∧
  ∀ (v : BitVec 1024) (rest : List (BitVec 1024)),
  let head := fun k : Nat => s.Head q k v rest
  let refused := fun i : Instr => ∃ u, exec i s = .next u ∧ s.Refused u q v rest
  (head 1 → (s.pkSignalOk q v = false ∨ pkZero v [(36, 92)] = false ∨ pkRef v 24 = none → refused (.launchGraph q)) ∧
    (s.pkSignalOk q v = true → pkZero v [(36, 92)] = true → ∀ obj off, pkRef v 24 = some (obj, off) →
      let g : Ref := { asid := s.queueAsid q, obj := obj, off := off }
      (s.graphLive g = true → exec (.launchGraph q) s = .next s) ∧
      (s.graphLive g = false → pkSig v = false → s.graphHeader g = none ∨
        (∃ h, s.graphHeader g = some h ∧ s.graphNodes g (hdrNnode h) = none) → refused (.launchGraph q)) ∧
      (∀ sg h ns, s.graphLive g = false → s.graphHeader g = some h → s.graphNodes g (hdrNnode h) = some ns →
        (pkSig v = false ∧ sg = none ∨ pkSig v = true ∧ ∃ pa, s.pkSignal q v [rW] = some (pa, []) ∧ sg = some pa) →
        let ready := (List.range ns.length).filter fun k => nodePred0 (ns.getD k 0) == 0
        ∃ u, exec (.launchGraph q) s = .next u ∧ s.Popped u q rest ∧ u.nextId = s.nextId + 1 ∧
          (u.queue q).ready = x.ready ++ ready.map fun k => .node s.nextId k) ∧
      (∀ sg h ns, s.graphLive g = false → s.graphHeader g = some h → s.graphNodes g (hdrNnode h) = some ns →
        (pkSig v = false ∧ sg = none ∨ pkSig v = true ∧ ∃ pa, s.pkSignal q v [rW] = some (pa, []) ∧ sg = some pa) →
        ∃ u, exec (.launchGraph q) s = .next u ∧
          let y := u.inst s.nextId
          y.queue = q ∧ y.graph = g ∧ y.header = h ∧ y.signal = sg ∧ y.status = 0 ∧ y.region = s.queueRegion q ∧
          (∀ k, k ∈ y.waiting ↔ k < ns.length ∧ nodePred0 (ns.getD k 0) ≠ 0)))) ∧
  (head 2 → let op := pk v 32 1
    let ok := pkSig v = true ∧ pkZero v [(33, 95)] = true
    (op = 1 → exec (.signalWrite q) s = .next s) ∧ (op ≠ 1 → exec (.signalAdd q) s = .next s) ∧
    (1 < op ∨ op = 0 ∧ (¬ ok ∨ s.pkSignal q v [rW] = none) → refused (.signalWrite q)) ∧
    (op = 1 → ¬ ok ∨ s.pkSignal q v [rW] = none → refused (.signalAdd q)) ∧
    (∀ pa, ok → s.pkSignal q v [rW] = some (pa, []) → s.Still q rest →
      let holds := fun (i : Instr) (w : Nat) => ∃ u, exec i s = .next u ∧ (u.queue q).packets = rest ∧ u.rdNat pa 8 = w ∧
        ∀ a, (a < pa ∨ pa + 8 ≤ a) → u.rd8 a = s.rd8 a
      let w := BitVec.ofNat 64 (pk v 24 8)
      (op = 0 → holds (.signalWrite q) (pk v 24 8)) ∧
      (op = 1 → holds (.signalAdd q)
        (signalMerge (BitVec.ofNat 64 (s.rdNat pa 8)) (w.extractLsb' 0 56).toInt (bitsOf w 62 56)).toNat))) ∧
  (head 3 → let bad := pkSig v = false ∨ 4 < pk v 32 1 ∨ pkZero v [(33, 95)] = false ∨ s.pkSignal q v [rR] = none
    (bad → refused (.wait q)) ∧
    (∀ pa ds, ¬ bad → s.pkSignal q v [rR] = some (pa, ds) →
      let w := BitVec.ofNat 64 (s.rdNat pa 8)
      let holds := sigTest (pk v 32 1) (pk v 24 8 % 2 ^ 56) w
      (holds = true → ∃ u, exec (.wait q) s = .next u ∧ s.Popped u q rest) ∧
      (holds = false → w.getLsbD 63 = true → ∃ u, exec (.wait q) s = .next u ∧ qState (u.queue q).entry = 2 ∧
        (u.queue q).packets = x.packets) ∧
      (holds = false → w.getLsbD 63 = false → exec (.wait q) s = .next s))) ∧
  (head 4 → (∀ id, x.copyCmd = some id →
      (s.cmd id ≠ none → exec (.copy q) s = .next s) ∧
      (s.cmd id = none → ∃ u, exec (.copy q) s = .next u ∧ s.Popped u q rest)) ∧
    (x.copyCmd = none →
      let n := pk v 48 8
      (2 ^ 32 ≤ n ∨ pkRef v 24 = none ∨ pkRef v 36 = none ∨ s.pkSignalOk q v = false ∨ pkZero v [(56, 72)] = false →
        refused (.copy q)) ∧
      (∀ dst src, pkRef v 24 = some dst → pkRef v 36 = some src →
        s.copyKind (s.queueAsid q) dst rPD n = none ∨ s.copyKind (s.queueAsid q) src rPS n = none → refused (.copy q)) ∧
      (∀ dst src kd ks i is, n < 2 ^ 32 → pkZero v [(56, 72)] = true → s.pkSignalOk q v = true → pkRef v 24 = some dst →
        pkRef v 36 = some src → s.copyKind (s.queueAsid q) dst rPD n = some kd → s.copyKind (s.queueAsid q) src rPS n = some ks →
        s.islandsOf (s.regionPart (s.queueRegion q)) = i :: is → ∃ u m, exec (.copy q) s = .next u ∧
          u.core.cmds = s.core.cmds ++ [m] ∧ m.id = s.nextId ∧ (u.queue q).copyCmd = some m.id ∧
          (u.queue q).packets = x.packets ∧ m.opc = 1 ∧ m.tile = 8 * i ∧ m.s0.toNat = n ∧ m.cap0 = refCap kd rPD dst ∧
          m.cap1 = refCap ks rPS src ∧ (m.signal = none ↔ pkSig v = false)))) ∧
  (head 5 → let bad := pkZero v [(24, 104)] = false ∨ s.pkSignalOk q v = false
    let live := ∃ e ∈ s.cp.insts, e.2.queue = q ∧ e.2.arm = none ∧ e.2.regen = none
    (bad → refused (.barrier q)) ∧ (¬ bad → live → exec (.barrier q) s = .next s) ∧
    (¬ bad → ¬ live → ∃ u, exec (.barrier q) s = .next u ∧ s.Retired u q v rest 0)) ∧
  (head 9 → let n := pk v 36 8
    let port := fun (kind : Nat) (r : Nat × Nat) => s.cpPort (s.queueAsid q) r.1 [kind] [] [rR, rW] r.2 n
    (pkRef v 24 = none ∨ pkZero v [(44, 84)] = false ∨ s.pkSignalOk q v = false → refused (.flushExport q)) ∧
    (∀ r, pkRef v 24 = some r → pkZero v [(44, 84)] = true → s.pkSignalOk q v = true →
      (port kGLOBAL r = none → port kMAILBOX r = none → refused (.flushExport q)) ∧
      (∀ pa ds, port kGLOBAL r = some ([(pa, n)], ds) → ∃ u, exec (.flushExport q) s = .next u ∧ s.Retired u q v rest 0 ∧
        ∀ a, FMap.get 0 u.core.exported a = if pa ≤ a ∧ a < pa + n then s.rd8 a else FMap.get 0 s.core.exported a) ∧
      (port kGLOBAL r = none → port kMAILBOX r ≠ none → ∃ u, exec (.flushExport q) s = .next u ∧ s.Retired u q v rest 0 ∧
        u.core.exported = s.core.exported)))

/-- R390, R399: they are served while a complex is active and no live update waits; one that has begun goes on.
R346: a TIMED_ARM that passes its checks arms its arm with the first tick after now; TIMED_DISARM disarms, of an
unarmed arm too with STATUS 0. A step of the arm's last arming that still runs goes on (DEDUCED, log 45). R357: an
INVALIDATE of a privileged queue drops every cached translation in its scope, and retires once the accesses
translated before have performed. R337: REGION creates with ENERGY 0, alters with ENERGY kept, destroys what is used
and not busy; the block is kept without its reserved bits (R335). R404: LEASE retires with STATUS 2 on a refusal,
else its lease stands and the islands that hold the region take its clock. R410, R411: STATEMENT before the first
servo lock retires with STATUS 2; else the 4,928 bytes are written and the chain advances. A packet whose fields are
not as its kind has them is refused. -/
def Obligations.FirmwarePackets : Prop :=
  ∀ (s : State) (q : Nat) (v : BitVec 1024) (rest : List (BitVec 1024)),
  let head := fun k : Nat => s.Head q k v rest ∧ s.fwServes = true
  let refused := fun i : Instr => ∃ u, exec i s = .next u ∧ s.Refused u q v rest
  let asid := s.queueAsid q
  let priv := qPriv (s.queue q).entry = true
  let a := pk v 24 1
  let r := pk v 24 2
  (s.fwServes = false → s.fwActive = false ∨ (s.queue q).busy = false → ∀ i n, i ∈ [Instr.lease q n, .timedArm q, .timedDisarm q, .invalidate q, .regionCreate q, .regionAlter q,
    .regionDestroy q, .statement q] → exec i s = .next s) ∧
  (∀ period phase ns, 0 < period → let t := fun k => phase + k * period
    ns < t (firstTick period phase ns) ∧ (firstTick period phase ns = 0 ∨ t (firstTick period phase ns - 1) ≤ ns)) ∧
  (head 7 →
    let period := pk v 28 8
    let phase := pk v 36 8
    let sig := (pkRef v 56).bind fun d => s.signalRef asid d.1 d.2 [rW]
    let ok := fun d : Nat × Nat => pkZero v [(27, 1), (68, 60)] = true ∧ s.pkSignalOk q v = true ∧ pk v 25 1 ≤ 1 ∧
      (pk v 26 1 = 0 ∧ pk v 56 12 = 0 ∨ pk v 26 1 = 1 ∧ sig ≠ none) ∧ s.net.servo.ever = true ∧ (s.arm a).armed = false ∧
      period % 1000 = 0 ∧ 0 < period ∧ s.regionClass (s.queueRegion q) = 0 ∧
      s.cpPort asid d.1 [kGLOBAL] [rR] [] d.2 64 ≠ none ∧ ∀ k ∈ s.streamsOf a, tooManySlots period (s.stream k).desc = false
    (pkRef v 44 = none → refused (.timedArm q)) ∧
    (∀ d, pkRef v 44 = some d → (¬ ok d → refused (.timedArm q)) ∧
      (ok d → ∃ u, exec (.timedArm q) s = .next u ∧ s.Popped u q rest ∧
        let y := u.arm a
        y.armed = true ∧ (y.first = true ↔ pk v 25 1 = 1) ∧ (y.stepEn = true ↔ pk v 26 1 = 1) ∧ y.period = period ∧
        y.phase = phase ∧ y.graph = { asid := asid, obj := d.1, off := d.2 } ∧ y.queue = q ∧
        y.nextTick = firstTick period phase (s.now / 65536) ∧ y.firstStep = y.nextTick ∧ y.cur = none ∧
        y.lastTick = (s.arm a).lastTick ∧ y.past = (s.arm a).past ++ (s.arm a).running ∧
        (∀ b, b ≠ a → u.arm b = s.arm b) ∧ ∀ k ∈ s.streamsOf a, (u.stream k).closed = [] ∧
          (u.stream k).deliveries = (s.stream k).deliveries.filter fun d => y.past.any fun p => p.step == d.step))) ∧
  (head 8 → let bad := pkZero v [(25, 103)] = false ∨ s.pkSignalOk q v = false
    (bad → refused (.timedDisarm q)) ∧
    (¬ bad → (s.arm a).armed = false → ∃ u, exec (.timedDisarm q) s = .next u ∧ s.Retired u q v rest 0 ∧ u.cp.arms = s.cp.arms) ∧
    (¬ bad → (s.arm a).armed = true → ∃ u, exec (.timedDisarm q) s = .next u ∧ s.Popped u q rest ∧ (u.arm a).armed = false)) ∧
  (head 10 →
    let ok := priv ∧ pkZero v [(25, 1), (48, 80)] = true ∧ s.pkSignalOk q v = true ∧ a ≤ 3 ∧ pk v 26 2 ≤ 4095 ∧
      pk v 28 4 < 2 ^ 20 ∧ (a = 3 → pk v 40 8 ≠ 0)
    let x := s.queue q
    (x.busy = false → ¬ ok → refused (.invalidate q)) ∧
    (x.busy = true → (∃ w ∈ x.awaits, s.stillOut w = true) → exec (.invalidate q) s = .next s) ∧
    (x.busy = true → (∀ w ∈ x.awaits, s.stillOut w = false) → ∃ u, exec (.invalidate q) s = .next u ∧ s.Retired u q v rest 0) ∧
    (x.busy = false → ok → ∃ u, exec (.invalidate q) s = .next u ∧
      (s.translated = [] → s.Retired u q v rest 0) ∧
      (s.translated ≠ [] → (u.queue q).packets = x.packets ∧ (u.queue q).busy = true ∧ (u.queue q).awaits = s.translated) ∧
      (∀ t, (∀ o ∈ (u.tile t).tlbObjs, invObj v o = false) ∧ ∀ o ∈ (u.tile t).tlbPages, invPage v o = false) ∧
      (∀ n, (∀ o ∈ (u.slice n).tlbObjs, invObj v o = false) ∧ ∀ o ∈ (u.slice n).tlbPages, invPage v o = false) ∧
      (FMap.wf {} s.core.tiles = true → ∀ t o, o ∈ (s.tile t).tlbObjs → invObj v o = false → o ∈ (u.tile t).tlbObjs))) ∧
  (∀ (b : BitVec 2048) depth energy, depth < 8 → let k := keepBlock b depth energy
    rDepth k = depth ∧ bitsOf k 639 576 = energy % 2 ^ 64 ∧ rParent k = rParent b ∧ rPart k = rPart b ∧ rOvr k = rOvr b ∧
    bitsOf k 31 19 = 0 ∧ bitsOf k 2047 643 = 0) ∧
  (head 11 → let op := pk v 26 1
    let ok := s.regionOk q v = true
    let d := fun b : BitVec 2048 => if rParent b = 0 then 0 else rDepth (s.regionBlock (rParent b)) + 1
    (op ≠ 0 → op ≤ 2 → exec (.regionCreate q) s = .next s) ∧ (op ≠ 1 → exec (.regionAlter q) s = .next s) ∧
    (op ≠ 2 → exec (.regionDestroy q) s = .next s) ∧ (2 < op → refused (.regionCreate q)) ∧
    (∀ b, ok → s.regionRead q v = some b → s.regionRefused r b = false →
      (op = 0 → s.regionBlock r = 0 → ∃ u, exec (.regionCreate q) s = .next u ∧ s.Popped u q rest ∧
        u.regionBlock r = keepBlock b (d b) 0 ∧ ∀ p, p ≠ r → u.regionBlock p = s.regionBlock p) ∧
      (op = 1 → s.regionBlock r ≠ 0 → ∃ u, exec (.regionAlter q) s = .next u ∧ s.Popped u q rest ∧
        u.regionBlock r = keepBlock b (d b) (bitsOf (s.regionBlock r) 639 576) ∧ ∀ p, p ≠ r → u.regionBlock p = s.regionBlock p)) ∧
    (¬ ok ∨ s.regionRead q v = none ∨ (∃ b, s.regionRead q v = some b ∧ s.regionRefused r b = true) →
      (op = 0 → refused (.regionCreate q)) ∧ (op = 1 → refused (.regionAlter q))) ∧
    (op = 0 → s.regionBlock r ≠ 0 → refused (.regionCreate q)) ∧ (op = 1 → s.regionBlock r = 0 → refused (.regionAlter q)) ∧
    (op = 2 → (ok ∧ s.regionBlock r ≠ 0 ∧ s.regionBusy r = false → ∃ u, exec (.regionDestroy q) s = .next u ∧
        s.Retired u q v rest 0 ∧ u.regionBlock r = 0) ∧
      (¬ ok ∨ s.regionBlock r = 0 ∨ s.regionBusy r = true → refused (.regionDestroy q)))) ∧
  (head 6 → ∀ projected,
    let dur := pk v 28 4
    let bad := pkZero v [(27, 1), (32, 96)] = false ∨ s.pkSignalOk q v = false ∨ dur = 0 ∨ 20000 < dur
    let step := pk v 26 1
    (bad → refused (.lease q projected)) ∧
    (¬ bad → s.leaseRefused r step projected = true → ∃ u, exec (.lease q projected) s = .next u ∧ s.Retired u q v rest 2 ∧
      u.pow.leases = s.pow.leases) ∧
    (¬ bad → s.leaseRefused r step projected = false →
      let l : Lease := { part := s.regionPart r, region := r, step := step, granted := s.now / 65536,
                         ends := s.now / 65536 + 1000 * dur }
      ∃ u, exec (.lease q projected) s = .next u ∧ s.Retired u q v rest 0 ∧ u.pow.leases = s.pow.leases ++ [l] ∧
        ∀ i ∈ s.leaseIslands l, (s.island i).leased = none → (u.island i).leased = some (2000 + 200 * step)) ∧
    (s.regionBlock r = 0 ∨ step = 0 ∨ 3 < step ∨ s.regionClass r = 0 ∨ (s.partition (s.regionPart r)).getLsbD 1 = true ∨
      (∃ l ∈ s.pow.leases, l.part = s.regionPart r) ∨ 2800 < projected → s.leaseRefused r step projected = true)) ∧
  (head 12 →
    let ok := priv ∧ pkZero v [(25, 3), (40, 88)] = true ∧ s.pkSignalOk q v = true ∧ a ≤ 7
    (¬ ok ∨ pkRef v 28 = none → refused (.statement q)) ∧
    (∀ d, pkRef v 28 = some d →
      let port := s.cpPort asid d.1 [kGLOBAL, kMAILBOX] [rW] [] d.2 4928
      (port = none → refused (.statement q)) ∧
      (ok → port ≠ none → s.net.servo.ever = false → ∃ u, exec (.statement q) s = .next u ∧ s.Retired u q v rest 2 ∧
        u.pow.chains = s.pow.chains) ∧
      (∀ ps, ok → port = some (ps, []) → s.net.servo.ever = true → pkSig v = false → s.Still q rest →
        ∃ u cls, exec (.statement q) s = .next u ∧ (u.queue q).packets = rest ∧ (cls = 1 ∨ cls = 2) ∧
          let bytes := s.statement a cls
          s.Wrote u (cellsOf ps bytes) ∧ (u.chain a).seq = (s.chain a).seq + 1 ∧ (u.chain a).tend = s.tend ∧
          (u.chain a).digest = sha3 bytes ∧ (u.chain a).degraded = false ∧ (u.chain a).powerLoss = false)))

/-- R346: a tick's node that heads its queue is tried first. R344: dispatch with no held node that can start and no
eligible queue changes nothing; with one eligible queue of the best class that queue's head is tried; among several
the generator takes one step and the first queue whose running sum of tickets exceeds the remainder is drawn. R339,
R342: a node that fails its checks completes with STATUS 2 without running, a graph-end node with 0, and its
instance has its end released. R341: a node completes once its members have ended: its entry goes, the instance's
status merges; each edge decrements its successor's counter, and a counter that reaches 0 makes that node ready at
the end of the ready list, a malformed edge or a counter already 0 merges STATUS 2. R342: an instance over ends with
its signal counted down. R400: during a takeover both are held back. R347: teardown puts the queue in DRAINING,
drops its packets but a running one, discards its instances, disarms its arms; a drained queue is DISABLED, with
HEAD kept. -/
def Obligations.GraphEvents : Prop :=
  ∀ (s : State),
  (s.cp.ahead = [] → let held := s.cp.queues.keys.filter fun q => (s.queue q).held.isSome && !(s.queue q).ready.isEmpty
    let drawn := s.topClass (s.cp.queues.keys.filter s.eligible)
    (held = [] → drawn = [] → exec .nodeDispatch s = .next s) ∧
    (∀ q u, held = [q] → s.tryQueue q = (u, true) → exec .nodeDispatch s = .next u) ∧
    (∀ q u, held = [] → drawn = [q] → s.tryQueue q = (u, true) → exec .nodeDispatch s = .next u) ∧
    (∀ q p ps u, held = [] → drawn = q :: p :: ps →
      let x := lotteryStep s.cp.lottery
      let total := (drawn.map s.tickets).foldl (· + ·) 0
      0 < total → ∀ w, walkTickets s.tickets (x.toNat % total) 0 drawn = some w →
        State.tryQueue { s with cp := { s.cp with lottery := x } } w = (u, true) → exec .nodeDispatch s = .next u)) ∧
  (∀ q it xs u, s.cp.ahead = (q, it) :: xs → (s.queue q).ready.head? = some it → (s.queue q).held ≠ none ∨ s.eligible q = true →
    s.pruneAhead.tryQueue q = (u, true) → exec .nodeDispatch s = .next u) ∧
  (∀ (tk : Nat → Nat) (a b : List Nat) (q r : Nat), let before := (a.map tk).foldl (· + ·) 0
    before ≤ r → r < before + tk q → walkTickets tk r 0 (a ++ q :: b) = some q) ∧
  (∀ (w : Work) held, let x := s.inst w.inst
    let region := x.nodeRegion w.node
    (nodeOk w.node = false ∨ s.regionBlock region = 0 → s.tryNode w held = .done (s.nullNode w region 2)) ∧
    (nodeOk w.node = true → s.regionBlock region ≠ 0 → nodeKind w.node = 5 →
      ∃ u, s.tryNode w held = .done u ∧ (u.inst w.inst).endReleased = true ∧ (u.gang s.nextId).status = 0 ∧
        (u.gang s.nextId).inst = w.inst ∧ (u.gang s.nextId).finished = true ∧
        (u.queue w.queue).ready = (s.queue w.queue).ready.drop 1) ∧
    (∀ st, (s.nullNode w region st).gang s.nextId = { s.gangOf w region with status := st } ∧
      ((s.nullNode w region st).queue w.queue).ready = (s.queue w.queue).ready.drop 1 ∧
      ((s.nullNode w region st).queue w.queue).held = none)) ∧
  (∀ g, let x := s.gang g
    let ready := g ∈ FMap.keys s.cp.gangs ∧ x.finished = true ∧ s.isHeld (.gangDone g) = false ∧ s.holdFull = false
    (¬ ready → exec (.nodeComplete g) s = .next s) ∧
    (ready → s.sec.fw.hold = none → ∃ u, exec (.nodeComplete g) s = .next u ∧ u.gang g = {} ∧
      (nodeSigen x.node = false → (s.inst x.inst).discarded = true → s.SameMem u ∧
        (u.inst x.inst).status = mergeStatus (s.inst x.inst).status (if x.wide = true ∧ x.status = 0 then 7 else x.status)) ∧
      (nodeSigen x.node = true → (s.inst x.inst).discarded = true → ∀ pa,
        s.signalRef x.terms.asid (nodeSigobj x.node) (nodeSigoff x.node) [rW] = some (pa, []) →
        u.rdNat pa 8 = (signalMerge (BitVec.ofNat 64 (s.rdNat pa 8)) (-1)
          (if x.wide = true ∧ x.status = 0 then 7 else x.status)).toNat)) ∧
    (ready → ∀ h, s.sec.fw.hold = some h → ∃ u, exec (.nodeComplete g) s = .next u ∧ u.cp = s.cp ∧ u.core = s.core ∧
      u.sec.fw.hold = some (h ++ [(s.now, 0x5000, .gangDone g)]))) ∧
  (∀ i e, let x := s.inst i
    let spoilt : State := s.modInst i fun y => { y with status := mergeStatus y.status 2 }
    s.releaseEdge i none = spoilt ∧
    (s.counter x e.succ = none ∨ s.counter x e.succ = some 0 → s.releaseEdge i (some e) = spoilt) ∧
    (∀ n, s.counter x e.succ = some (n + 1) → n ≠ 0 → s.releaseEdge i (some e) = s.setCounter x e.succ n) ∧
    (s.counter x e.succ = some 1 → ∃ u, s.releaseEdge i (some e) = u ∧
      (u.queue x.queue).ready = (s.queue x.queue).ready ++ [.node i e.succ] ∧ e.succ ∉ (u.inst i).waiting)) ∧
  (∀ i, let x := s.inst i
    let ready := i ∈ FMap.keys s.cp.insts ∧ s.instOver i = true ∧ s.isHeld (.instEnd i) = false ∧ s.holdFull = false
    (¬ ready → exec (.instanceEnd i) s = .next s) ∧
    (ready → s.sec.fw.hold = none → ∃ u, exec (.instanceEnd i) s = .next u ∧ u.inst i = {} ∧
      (∀ l ∈ u.cp.loss, l.inst ≠ i) ∧
      (∀ pa, x.signal = some pa → x.stepSig = none → x.arm = none → (∀ r ∈ s.cp.regens, r.inst ≠ some i) →
        u.rdNat pa 8 = (signalMerge (BitVec.ofNat 64 (s.rdNat pa 8)) (-1) x.status).toNat)) ∧
    (ready → ∀ h, s.sec.fw.hold = some h → ∃ u, exec (.instanceEnd i) s = .next u ∧ u.cp = s.cp ∧
      u.sec.fw.hold = some (h ++ [(s.now, 0x5000, .instEnd i)]))) ∧
  (∀ q, let x := s.queue q
    (qState x.entry = 0 ∨ qState x.entry = 3 → exec (.queueTeardown q) s = .next s) ∧
    (qState x.entry = 1 ∨ qState x.entry = 2 → ∃ u, exec (.queueTeardown q) s = .next u ∧ qState (u.queue q).entry = 3 ∧
      (u.queue q).packets = (if x.busy = true then x.packets.take 1 else []) ∧ q ∉ u.cp.pending ∧
      (∀ i ∈ FMap.keys s.cp.insts, (s.inst i).queue = q → (u.inst i).discarded = true) ∧
      (∀ k, (s.arm k).armed = true → (s.arm k).queue = q → (u.arm k).armed = false) ∧ (u.queue q).copying = none) ∧
    (let idle := (∀ e ∈ s.cp.insts, e.2.queue ≠ q) ∧ x.busy = false;
      (qState x.entry = 3 → idle → ∃ u, exec (.queueDrained q) s = .next u ∧ qState (u.queue q).entry = 0 ∧
        (u.queue q).packets = x.packets ∧ (u.queue q).ready = [] ∧ qHead (u.queue q).entry = qHead x.entry ∧ u.core = s.core) ∧
      (qState x.entry ≠ 3 ∨ ¬ idle → exec (.queueDrained q) s = .next s)))

/-- R368, R370: an island that is ON and has been quiet for 256 cycles becomes IDLE, and ON again when something of
it is busy or a command has reached its pump; after PARKDLY, with every task parkable and slots for them, it becomes
RETAIN: no task, no pending operation and, R367, none of its scratchpad bytes is left, and every other byte stays
where no task was parked; after OFFDLY, with no valid resume record and not in MINON, OFF. R371, R372: a record
names its triggers; a trigger asks for the wake. R368: the wake of the first request begins, tick schedules before
the others, then the oldest, then the lowest number, at most 8 in 1 µs. R373, R374: when it completes the island is
ON, no record is valid, an entry that fails its parity reads VALID 0, a wear counter all ones. R375: a slice without
access for 50 µs retains, wakes for one that waits, and turns OFF unless it is needed. R378: the scrubber, to which
errors come as its argument, marks a failing page bad and mends single errors. R382: while a complex is active,
apply copies a shadow page home, and after the last the redirection ends and the journal is APPLIED, one unit a
step, or a failed verify stops it. R396: a self-test settles an island. -/
def Obligations.IslandAndWellEvents : Prop :=
  ∀ (s : State) (i : Nat),
  let x := s.island i
  let ns := s.now / 65536
  let still := x.state = .on ∧ s.islandQuiet i = true ∧ x.busyAt + 256 * 65536000 ≤ x.cycles
  (still → ∃ u, exec (.islandIdle i) s = .next u ∧ (u.island i).state = .idle ∧
    (u.island i).idleSince = some ns ∧ u.core = s.core) ∧
  (¬ still → exec (.islandIdle i) s = .next s) ∧
  let roused := x.state = .idle ∧ (s.islandQuiet i = false ∨ ∃ m ∈ s.core.cmds, m.island = i ∧ m.left = false ∧ m.place = .accepted)
  (roused → ∃ u, exec (.islandIdleExit i) s = .next u ∧ (u.island i).state = .on ∧
    (u.island i).busyAt = x.cycles ∧ u.core = s.core) ∧
  (¬ roused → exec (.islandIdleExit i) s = .next s) ∧
  (∀ d p, x.idleSince = some d → s.partOf i = some p →
    let e := s.powerEntry p
    let tasks := (ctxsOf i).filter fun tc => (s.ctx tc.1 tc.2).task.isSome
    let slots := (List.range (bitsOf (s.service p) 303 288)).filter fun k => !s.cp.usedSlots.contains (p, k)
    let ok := x.state = .idle ∧ e.getLsbD 0 = false ∧ bitsOf e 31 16 ≠ 0xFFFF ∧ d + 1000 * bitsOf e 31 16 ≤ ns ∧
      (∀ tc ∈ tasks, s.parkable tc.1 tc.2 = true) ∧ s.savesDue p + tasks.length ≤ slots.length ∧
      ∀ m ∈ s.core.cmds, m.island ≠ i ∨ m.left = true ∨ m.place = .accepted
    (¬ ok → exec (.islandPark i) s = .next s) ∧
    (ok → ∃ u, exec (.islandPark i) s = .next u ∧ (u.island i).state = .retain ∧ (u.island i).idleSince = some ns ∧
      (∀ tc ∈ ctxsOf i, (u.ctx tc.1 tc.2).task = none) ∧ (∀ t ∈ tilesOf i, (u.tile t).inflight = [] ∧ (u.tile t).space = [] ∧
        (u.tile t).syncQ = [] ∧ (u.tile t).lateQ = []) ∧
      let mine := fun a : Nat => paSpace a = 4 ∧ paPkg a = s.net.pkg ∧ paAddr a / 2 ^ 25 = i
      (∀ a, mine a → u.rd8 a = 0) ∧ (tasks = [] → ∀ a, ¬ mine a → u.rd8 a = s.rd8 a)) ∧
    (let off := x.state = .retain ∧ bitsOf e 47 32 ≠ 0xFFFF ∧ d + 1000000 * bitsOf e 47 32 ≤ ns ∧
       (∀ tc ∈ ctxsOf i, (s.ctx tc.1 tc.2).parked = false) ∧ e.getLsbD (64 + s.relIsland p i) = false;
     (¬ off → exec (.islandOff i) s = .next s) ∧
     (off → ∃ u, exec (.islandOff i) s = .next u ∧ (u.island i).state = .off ∧ (∀ t ∈ tilesOf i, (u.tile t).tids = []) ∧
       s.SameMem u))) ∧
  (∀ t c at' mon s1 id, c < 4 → s.parkTriggers t c = some (at', mon) → s.saveTask t c true = some (s1, id) →
    let r := ((s.parkTask t c).ctx t c).rec0
    r = ((s.parkTask t c).ctx t c).rec1 ∧ r.getLsbD 0 = true ∧ bitsOf r 2 1 = c ∧ recWakeAt r = at' % 2 ^ 64 ∧
    recMon r = mon % 2 ^ 64 ∧ bitsOf r 511 448 = (s1.save id).addr % 2 ^ 64) ∧
  (∀ b, s.nextWake = some b → b < 64 ∧ s.wantsWake b = true ∧ ∀ j < 64, s.wantsWake j = true →
    let y := s.island b
    let z := s.island j
    (y.wakeTimed = true ∨ z.wakeTimed = false) ∧ (y.wakeTimed = z.wakeTimed →
      y.wakeReq.getD 0 ≤ z.wakeReq.getD 0 ∧ (y.wakeReq.getD 0 = z.wakeReq.getD 0 → b ≤ j))) ∧
  (let recent := s.pow.wakesBegun.filter fun t => decide (s.now < t + 1000 * 65536);
    (s.nextWake = some i → recent.length < 8 → ∃ u, exec (.islandWake i) s = .next u ∧ (u.island i).state = .waking ∧
      ((u.island i).fromOff = true ↔ x.state = .off) ∧ u.pow.wakesBegun = recent ++ [s.now] ∧ u.core = s.core) ∧
    (s.nextWake ≠ some i ∨ 8 ≤ recent.length → exec (.islandWake i) s = .next s)) ∧
  (∀ bad, (x.state ≠ .waking → exec (.islandWakeComplete i bad) s = .next s) ∧
    (x.state = .waking → ∃ u, exec (.islandWakeComplete i bad) s = .next u ∧
      (∀ tc ∈ ctxsOf i, (u.ctx tc.1 tc.2).rec0 = 0 ∧ (u.ctx tc.1 tc.2).rec1 = 0) ∧
      ((∀ e ∈ s.cp.saves, e.2.parked = false ∨ e.2.tile / 8 ≠ i) → (u.island i).state = .on ∧ (u.island i).wakeReq = none ∧
        (u.island i).ceiling = 2200 ∧ (x.fromOff = true → ∀ t ∈ tilesOf i, (u.tile t).tids = []) ∧
        (x.fromOff = false → s.SameMem u ∧
          (∀ t n, t / 8 = i → (t, 1, n) ∈ bad → (FMap.get ({} : Tid) (u.tile t).tids n).valid = false) ∧
          (∀ t n, t / 8 = i → (t, 3, n) ∈ bad → FMap.get 0 (u.well t).wear n = BitVec.allOnes 32))))) ∧
  (∀ t c, let y := s.ctx t c
    let asks := s.pow.down = false ∧ y.parked = true ∧ (recWakeAt y.rec0 ≠ 0 ∧ recWakeAt y.rec0 ≤ ns + 10000 ∨ ctxKey t c ∈ s.pow.monHits ∨
      ∃ e ∈ s.cp.saves, e.2.parked = true ∧ e.2.tile = t ∧ e.2.ctxNo = c ∧ e.2.ctx.events ≠ [])
    (asks → exec (.resumeTrigger t c) s =
      .next (State.askWake { s with pow := { s.pow with monHits := s.pow.monHits.filter fun k => k != ctxKey t c } } false (t / 8))) ∧ (¬ asks → exec (.resumeTrigger t c) s = .next s)) ∧
  (∀ timed, (x.state = .retain ∨ x.state = .off → ((s.askWake timed i).island i).wakeReq = some (x.wakeReq.getD s.now)) ∧
    (x.state ≠ .retain → x.state ≠ .off → s.askWake timed i = s)) ∧
  (∀ mask : BitVec 64, (s.fwActive = false → exec (.driverWakeRequest mask) s = .next s) ∧
    (s.fwActive = true → ∃ u, exec (.driverWakeRequest mask) s = .next u ∧ u.core = s.core ∧ (i < 64 → mask.getLsbD i = true →
      x.state = .retain ∨ x.state = .off → (u.island i).wakeReq = some (x.wakeReq.getD s.now)))) ∧
  (∀ pass, (s.pow.down = true ∨ 64 ≤ i ∨ x.selfTest ≠ .pending → exec (.islandSelfTestDone i pass) s = .next s) ∧
    (s.pow.down = false → i < 64 → x.selfTest = .pending → ∃ u, exec (.islandSelfTestDone i pass) s = .next u ∧ u.core = s.core ∧
      (u.island i).selfTest = (if pass = true then .passed else .failed) ∧ (u.island i).state = x.state)) ∧
  (let y := s.slice i;
    let rests := s.pow.down = false ∧ y.state = .active ∧ y.accessed + 50000 ≤ ns
    let wakes := s.pow.down = false ∧ y.waking = true;
    (rests → ∃ u, exec (.cisternRetain i) s = .next u ∧ (u.slice i).state = .retain ∧ s.SameMem u) ∧
    (¬ rests → exec (.cisternRetain i) s = .next s) ∧
    (wakes → ∃ u, exec (.cisternWake i) s = .next u ∧ (u.slice i).state = .active ∧ (u.slice i).waking = false ∧ s.SameMem u) ∧
    (¬ wakes → exec (.cisternWake i) s = .next s) ∧
    (s.fwActive = false ∨ s.sliceNeeded i = true ∨ s.spillSlice i = none → exec (.cisternOffRequest i) s = .next s) ∧
    (s.fwActive = true → s.sliceNeeded i = false → s.spillSlice i ≠ none → ∃ u, exec (.cisternOffRequest i) s = .next u ∧
      u.slice i = { state := .off } ∧ s.SameMem u)) ∧
  (∀ t p e, let w := (s.well t).arise e
    let mine := fun k : Nat => 512 * p ≤ k ∧ k < 512 * p + 512
    (s.pow.down = true → exec (.wellScrub t { page := p, arisen := e }) s = .next s) ∧
    (s.pow.down = false → 12288 ≤ p ∨ p ∈ w.badPages → ∃ u, exec (.wellScrub t { page := p, arisen := e }) s = .next u ∧ u.well t = w ∧ s.SameMem u) ∧
    (s.pow.down = false → p < 12288 → p ∉ w.badPages → p ∈ w.crcBad ∨ (∃ k ∈ w.eccDouble, mine k) → ∃ u, exec (.wellScrub t { page := p, arisen := e }) s = .next u ∧
      (u.well t).badPages = w.badPages ++ [p] ∧ s.SameMem u) ∧
    (s.pow.down = false → p < 12288 → p ∉ w.badPages → p ∉ w.crcBad → (∀ k ∈ w.eccDouble, ¬ mine k) →
      ∃ u, exec (.wellScrub t { page := p, arisen := e }) s = .next u ∧
      (∀ k, k ∈ (u.well t).eccSingle ↔ k ∈ w.eccSingle ∧ ¬ mine k) ∧ (u.well t).badPages = w.badPages ∧ s.SameMem u)) ∧
  (∀ t, let w := s.well t
    let runs := s.pow.down = false ∧ s.fwActive = true ∧ w.applying = true ∧ s.wjMid t = false
    (w.applying = true ↔ w.applyStep ≠ 0 ∨ w.journal.state = .committed ∧ w.verifyFailed = false) ∧
    (¬ runs → exec (.journalApply t) s = .next s) ∧
    (runs → w.applyStep = 0 → ∃ u, exec (.journalApply t) s = .next u ∧ ((u.well t).verifyFailed = true ∨
      (∀ p j, (w.redirect.take w.active.2.nred)[w.applyNext]? = some (p, j) → (u.well t).applyNext = w.applyNext + 1 ∧
        (∀ o < 4096, u.rd8 (s.wellPa t (4096 * p + o)) = s.rd8 (s.wellPa t (shadowOff j + o))) ∧
        ∀ a, (a < s.wellPa t (4096 * p) ∨ s.wellPa t (4096 * p + 4096) ≤ a) → u.rd8 a = s.rd8 a) ∧
      ((w.redirect.take w.active.2.nred)[w.applyNext]? = none → (u.well t).applyStep = 1 ∧
        (u.well t).active.2.redir = false ∧ s.SameMem u))) ∧
    (runs → w.applyStep ≠ 0 → ∃ u, exec (.journalApply t) s = .next u ∧ s.SameMem u ∧
      (u.well t).applyStep = (if w.applyStep = 1 then 2 else if w.applyStep = 2 then 3 else 0) ∧
      (w.applyStep = 2 → (u.well t).journal.state = .applied ∧ (u.well t).shadowMask = 0)))

/-- R278: the ceiling of a timed island falls to 2.2 GHz when half the bundles of a window hold a matrix operation,
and rises to 2.4 GHz below 45%. R402: a clock that needs a higher voltage waits until its rail has settled. R404,
R405: a lease ends when its time or its revocation has come, and its islands lose the leased clock; a revocation
gives every context of its region an event and drops the clock no sooner than 50 µs later. R407: the meters add up;
a failed self-check degrades the statements. R409: a tick counts the rails' energy for their partitions, in µJ with
the residue kept; a split loses nothing. R406: the heat map takes the sensors, an island of 70 or more that is not
timed steps down by 0.2 GHz, and at 100 the package goes down. R376: a brown-out leaves the wells, the non-volatile
elements, the loss list and the energy counters, and nothing of any task. -/
def Obligations.EnergyEvents : Prop :=
  ∀ (s : State),
  let ns := s.now / 65536
  (∀ i, let x := s.island i
    let due := s.timedIsland i = true ∧ x.state.up = true ∧ x.windowAt + 8192 * 65536000 ≤ x.cycles
    (¬ due → exec (.clockShareWindow i) s = .next s) ∧
    (due → ∃ u, exec (.clockShareWindow i) s = .next u ∧ (u.island i).shareBundles = 0 ∧
      (u.island i).windowAt = x.windowAt + 8192 * 65536000 ∧ u.core = s.core ∧
      (x.ceiling = 2400 → 65536 ≤ 2 * x.shareBundles → (u.island i).ceiling = 2200) ∧
      (x.ceiling = 2200 → 100 * x.shareBundles < 45 * 65536 → (u.island i).ceiling = 2400) ∧
      (x.ceiling = 2400 → 2 * x.shareBundles < 65536 → (u.island i).ceiling = 2400) ∧
      (x.ceiling = 2200 → 45 * 65536 ≤ 100 * x.shareBundles → (u.island i).ceiling = 2200))) ∧
  (∀ i p mhz, s.partOf i = some p → let x := s.island i
    let waits := x.state.up = true ∧ s.railTop p < mhz
    let u := s.setClock i mhz
    (waits → (u.island i).clock = x.clock ∧ (u.island i).nextClock = some mhz ∧ (u.rail p).settling = true) ∧
    (¬ waits → (u.island i).clock = mhz ∧ (u.island i).nextClock = none)) ∧
  (∀ p, ((s.rail p).settling = false → exec (.railSettled p) s = .next s) ∧
    ((s.rail p).settling = true → ∃ u, exec (.railSettled p) s = .next u ∧ (u.rail p).settling = false ∧ u.core = s.core ∧
      ∀ i ∈ s.islandsOf p, (u.island i).clock = (s.island i).nextClock.getD (s.island i).clock ∧ (u.island i).nextClock = none)) ∧
  (∀ p, ((∀ l ∈ s.pow.leases, l.part ≠ p) → exec (.leaseExpiry p) s = .next s ∧ ∀ n, exec (.leaseRevoke p n) s = .next s) ∧
    (∀ l, s.pow.leases.find? (fun l => l.part == p) = some l →
      let over' := l.ends ≤ ns ∨ ∃ d, l.dropAt = some d ∧ d ≤ ns
      (¬ over' → exec (.leaseExpiry p) s = .next s) ∧
      (over' → ∃ u, exec (.leaseExpiry p) s = .next u ∧ (∀ m, m ∈ u.pow.leases ↔ m ∈ s.pow.leases ∧ m.part ≠ p) ∧
        (∀ i ∈ s.islandsOf p, (u.island i).leased = none) ∧ u.core = s.core) ∧
      (∀ n, (l.dropAt ≠ none ∨ s.fwActive = false ∨ s.mayRevoke l n = false → exec (.leaseRevoke p n) s = .next s) ∧
        (l.dropAt = none → s.fwActive = true → s.mayRevoke l n = true → ∃ u drop, exec (.leaseRevoke p n) s = .next u ∧
          ns + 50000 ≤ drop ∧ (∀ m ∈ u.pow.leases, m.part = p → m.dropAt = some drop) ∧
          ∀ t c k, c < 4 → (s.ctx t c).task = some k → k.region = l.region → (s.ctx t c).events.length < 16 →
            (∀ e ∈ s.cp.saves, e.2.parked = true → e.2.tile = t → e.2.ctxNo ≠ c) →
            ∃ r ∈ (u.ctx t c).events, r.code = 0x0150 ∧
              r.payload = BitVec.ofNat 160 (drop % 2 ^ 64 + l.step * 2 ^ 64))))) ∧
  (∀ rails input failed, (s.pow.down = true → exec (.meterIntegration rails input failed) s = .next s) ∧
    (s.pow.down = false → ∃ u, exec (.meterIntegration rails input failed) s = .next u ∧
      u.pow.inputEnergy = s.pow.inputEnergy + input ∧ (∀ p < 8, (u.rail p).energy = (s.rail p).energy + rails.getD p 0) ∧
      (failed ≠ [] → ∀ p < 8, (u.chain p).degraded = true) ∧ (failed = [] → u.pow.chains = s.pow.chains) ∧ u.core = s.core)) ∧
  (∀ total ws, (∃ w ∈ ws, w ≠ 0) → (splitPj total ws).foldl (· + ·) 0 = total ∧ (splitPj total ws).length = ws.length) ∧
  (s.pow.down = true ∨ ns < 1000000 * (s.pow.tick + 1) → exec .accountingTick s = .next s) ∧
  (s.pow.down = false → 1000000 * (s.pow.tick + 1) ≤ ns → ∃ u, exec .accountingTick s = .next u ∧
    u.pow.tick = s.pow.tick + 1 ∧ u.pow.inputEnergy = 0 ∧ u.pow.activity = [] ∧ u.pow.doneUnits = [] ∧ s.SameMem u ∧
    u.pow.inputHistory.length ≤ 100 ∧ u.pow.inputHistory.getLast? = some s.pow.inputEnergy ∧
    (∀ p < 8, FMap.get 0 s.pow.energy (6 * p) + (FMap.get 0 s.pow.residue (6 * p) + (s.rail p).energy) / 1000000 < 2 ^ 64 →
      1000000 * FMap.get 0 u.pow.energy (6 * p) + FMap.get 0 u.pow.residue (6 * p) =
        1000000 * FMap.get 0 s.pow.energy (6 * p) + FMap.get 0 s.pow.residue (6 * p) + (s.rail p).energy) ∧
    (FMap.wf {} s.pow.rails = true → ∀ p, (u.rail p).energy = 0 ∧ (u.rail p).last = (s.rail p).energy)) ∧
  (∀ sensors : List Int, (s.pow.down = true → exec (.heatRefresh sensors) s = .next s) ∧
    (s.pow.down = false → sensors.length = 64 → (∃ d ∈ sensors, 100 ≤ d) →
      ∃ u, exec (.heatRefresh sensors) s = .next u ∧ u.pow.down = true) ∧
    (s.pow.down = false → sensors.length = 64 → (∀ d ∈ sensors, d < 100) → (∀ e ∈ s.pow.heat, e.1 < 64) →
      ∃ u, exec (.heatRefresh sensors) s = .next u ∧ u.pow.down = false ∧ u.core = s.core ∧
        (∀ i < 64, ((FMap.get 0 u.pow.heat i).toNat : Int) = max 0 (sensors.getD i 0)) ∧
        (∀ i ∈ s.freeIslands, 70 ≤ sensors.getD i 0 → 1400 ≤ (s.island i).clock → (s.island i).state.up = true →
          (u.island i).clock = (s.island i).clock - 200 ∧ (u.island i).hot = true) ∧
        ∀ i ∈ s.freeIslands, sensors.getD i 0 < 65 → (u.island i).clock = (s.island i).clock)) ∧
  (∀ w flips, (s.pow.down = true → exec (.brownOut { torn := w, flips := flips }) s = .next { s with pow := { s.pow with flips := s.pow.flips ++ flips } }) ∧
    (s.pow.down = false → ∃ u, exec (.brownOut { torn := w, flips := flips }) s = .next u ∧ u.pow.down = true ∧ u.pow.flips = flips ∧ u.cp = { loss := s.cp.loss } ∧
      u.tab = {} ∧ u.eng = {} ∧ u.core.cmds = [] ∧ u.pow.energy = s.pow.energy ∧ u.sec.nor = s.sec.nor ∧
      (∀ p < 8, (u.chain p).powerLoss = true ∧ (u.chain p).seq = (s.chain p).seq) ∧
      (FMap.wf {} s.core.tiles = true → ∀ t, ((∀ x, w = some x → x.tile ≠ t) → (u.tile t).well = (s.tile t).well) ∧
        (u.tile t).tids = (s.tile t).tids ∧
        (u.tile t).inflight = []) ∧
      ((FMap.keys s.core.ctxs).Nodup → ∀ t c, c < 4 → (u.ctx t c).task = none ∧ (u.ctx t c).rec0 = (s.ctx t c).rec0 ∧
        (u.ctx t c).commitQ = [] ∧ (u.ctx t c).sys.winSize = (s.ctx t c).sys.winSize) ∧
      (w = none → ∀ a, u.rd8 a = if paSpace a = 3 ∨ paPkg a ≠ s.net.pkg then s.rd8 a else 0)))

/-- R71, R76 to R83: the words that the spec gives for VADD v4, v1, v2 under p2 (03), LD of double size at a3 + 64
(03), VFMA (05), MMA c2, t1, tid3 (06), LRSET k0, v0, v4, 2 (07), ST.d.c5.pkg (08), LOOP 8 (04), KVATTN.g4.hd1 (10),
WJOPEN tid5 (20) and CBADV.cons h1, 1 (21) decode in their slots to those instructions with the fields listed there.
R83: an opcode with no entry in its class is refused. -/
def Obligations.DecodedWords : Prop :=
  let at' := fun (n : BitVec 3) (p : BitVec 4) => ({ slot := n, pn := false, pred := p, dup := false } : Guard)
  decodeSlot 1 false 0x0011020081004000 = .ok (.vadd (at' 1 2) { vd := 4, va := 1, vb := 2, vc := 0, type := 8, aux := 0 }) ∧
  decodeSlot 4 false 0x0010029803000040 = .ok (.ld (at' 4 0)
    { data := 5, areg := 3, cls := 0, scope := 0, size := 3, off24 := 0x40 }) ∧
  decodeSlot 2 false 0x004084008121C100 = .ok (.vfma (at' 2 1)
    { vd := 8, va := 1, vb := 2, vc := 0x43, type := 8, aux := 0x100 }) ∧
  decodeSlot 3 false 0x0030010080060000 = .ok (.mma (at' 3 0) { dst := 2, srcA := 1, srcB := 0, tid := 3, aux := 0 }) ∧
  decodeSlot 3 false 0x00C0000002000002 = .ok (.lrset (at' 3 0) { dst := 0, srcA := 0, srcB := 4, tid := 0, aux := 2 }) ∧
  decodeSlot 5 false 0x00100392C3000010 = .ok (.st (at' 5 0)
    { data := 7, areg := 2, cls := 5, scope := 4, size := 3, off24 := 0x10 }) ∧
  decodeSlot 0 false 0x0240400000080003 = .ok (.loop (at' 0 0) (.si 0 0 0 0x00080003)) ∧
  decodeSlot 6 false 0x00802B1459031003 = .ok (.kvattn (at' 6 0)
    { areg0 := 5, areg1 := 6, s0 := 10, s1 := 11, handle := 2, cls := 0, aux := 0x31003 }) ∧
  decodeSlot 6 false 0x0180000000000500 = .ok (.wjopen (at' 6 0)
    { areg0 := 0, areg1 := 0, s0 := 0, s1 := 0, handle := 0, cls := 0, aux := 0x500 }) ∧
  decodeSlot 7 false 0x0070080000000081 = .ok (.cbadvConsume (at' 7 0) 0x080000000081) ∧
  decodeSlot 7 false 0x0FF0000000000000 = .error (.unassignedOpcode 0xFF)

/-- R15: each window is 128 KiB at 128 KiB times the context number, ERR 0. R28, R151: every handle has COUNT 0, no
tensor entry is valid. R268, R280, R328, R335, R351, R352, R401: every entry of the driver's tables is 0; R369: but
for PARKDLY 50 and OFFDLY 10. That no context holds a task, that memory lists nothing and that a byte no one has
written reads 0 (notes/assumptions/1.md and 2.md) are the model's choices. -/
def Obligations.ResetValues : Prop :=
  let s := State.reset
  s.core.mem = [] ∧ s.MemCanonical ∧ (∀ a, s.rd8 a = 0) ∧
  (∀ t c, (s.ctx t c).task = none ∧ (s.ctx t c).sys.winSize = 32 ∧ (s.ctx t c).sys.winBase = 32 * c ∧
    (s.ctx t c).sys.winErr = false ∧ ∀ h, ((s.ctx t c).handle h).count = 0) ∧
  (∀ t n, (FMap.get ({} : Tid) (s.tile t).tids n).valid = false) ∧
  (∀ q, (s.queue q).entry = 0) ∧ (∀ r, s.regionBlock r = 0) ∧ (∀ p, s.service p = 0 ∧ s.partition p = 0) ∧
  (∀ a, s.asidEntry a = 0) ∧ (∀ k, (s.stream k).desc = 0) ∧ (∀ g, (s.group g).entry = 0) ∧
  (∀ p, bitsOf (s.powerEntry p) 31 16 = 50 ∧ bitsOf (s.powerEntry p) 47 32 = 10 ∧ (s.powerEntry p).getLsbD 0 = false ∧
    bitsOf (s.powerEntry p) 127 64 = 0)

/-- R68, R69: the bundle fetched at the program counter of the one context of a tile that may issue is decoded;
where it holds one operation in slot n, nothing holds it back (R17) and its checks pass (R424), the step of that
tile is exec of that operation, of slot 0 before the registers are captured for the other slots, of another slot
after (R21); then the operation enters its engine's queue, the round-robin pointer moves (R18) and the bundle ends.
The checks of slots 1 to 7 are made once (R424): `look` finds that they pass, and marks the context. Where an access
has met memory that is not ready (R375, R396; DEDUCED, log 50), the move is put off and the slice wakes. A move of
the agenda that is an event is exec of the event after the time it names; the agenda itself is the model's own
(notes/assumptions/3.md). -/
def Obligations.StepRuns : Prop :=
  (∀ (s : State) (dt : Nat) (i : Instr) (ms : List Move), s.agenda = .happen dt i :: ms →
    let b := State.elapse { s with agenda := ms } dt
    (inBundle i = true → step s = .next b) ∧
    (inBundle i = false → (∀ u, exec i b = .next u → u.pow.blocked = false → step s = exec i b) ∧
      (∀ u, exec i b = .next u → u.pow.blocked = true → step s = .next (b.waitFor u)) ∧
      ((∀ u, exec i b ≠ .next u) → step s = exec i b))) ∧
  (∀ (s s0 r0 : State) (dt t c n : Nat) (ms : List Move) (w : BitVec 512) (d : BitVec 8) (i : Instr) (q0 : Bool),
    let a := State.elapse { s with agenda := ms } dt
    let b := a.modCtx t c fun x => { x with checked := true }
    let s1 := (s0.at t c).modMe fun x => { x with captured := none }
    let turn := fun r : State => (r.modTile t fun x => { x with q := (c + 1) % 4 }).countIssue [(n, i)]
    let ends := fun r : State => r.finishBundle w false s1.me.region.isSome
    let steps := fun v : State => (v.pow.blocked = false → step s = .next v) ∧
      (v.pow.blocked = true → step s = .next ((b.waitFor v).modTile t fun x => { x with q := (c + 1) % 4 }))
    s.agenda = .issue dt t :: ms → a.pow.down = false → (a.island (t / 8)).state = .on → c < 4 →
    (∀ k < 4, (a.ctx t k).yieldNext = false ∧ (k ≠ c → (a.ctx t k).issues = false)) → a.look t c = .ready r0 w [(n, i)] q0 →
    (b.ctx t c).issues = true → b.codeWaits t c = false → b.fetch t c = .ok (s0, w, d) → illegalBundle w = false →
    (decodeHeader w).rb = false → (decodeHeader w).rc = false → (decodeHeader w).pp = false →
    decodeBundle w d = [(n, .ok i)] → commitsFirst i = false → onlyWaits i = false → s1.me.checked = true →
    (∀ u, n = 0 → s1.bundleHeld t c (if s1.discarded i = true then none else some i) [(0, s1.foot i)] w = false →
      s1.encStop i = .ok () → s1.runStop i = .ok () → exec i s1 = .next u → u.me.going = true →
      u.core.cur = (t, c) → steps (ends (turn u.capture))) ∧
    (∀ u, n ≠ 0 → s1.bundleHeld t c none [(n, s1.capture.foot i)] w = false →
      (n = 7 → s1.capture.discarded i = true ∨ waitReady i s1.capture = .ok true) →
      exec i (turn s1.capture) = .next u → u.me.going = true →
      steps (ends (match ((turn s1.capture).foot i).inFlight u.myCtx u.me.bundleNo n with
        | some o => u.modTile u.myTile fun x => { x with inflight := x.inflight ++ [o] }
        | none => u))))

/-- R71, R76 to R83: for every slot operation of the opcode table in a slot that serves its class, with every field
at every value, the encoder gives a word, and that word decodes in that slot to the operation; and every word that
decodes in a slot is the word of the operation it decodes to, so that no bit of an encoding is dropped and no two
words stand for one operation. -/
def Obligations.DecodeEncode : Prop :=
  (∀ (i : Instr) (f : SlotFields), slotFields i = some f → wellFormed i = true →
    ∃ x, encode i = some x ∧ decodeSlot f.g.slot.toNat f.g.dup x = .ok i) ∧
  (∀ (n : Nat) (dup : Bool) (x : SlotWord) (i : Instr), n < 8 → decodeSlot n dup x = .ok i → encode i = some x)

/-- R3, R354: memory is the bytes of physical addresses; the model holds it as a list whose addresses rise strictly
and that lists no byte equal to what an unlisted address reads as (notes/assumptions/1.md). From every state whose
memory has that form, whichever agent moves and whatever it does, a step that answers a next state leaves memory in
that form. -/
def Obligations.StepKeepsMemoryCanonical : Prop :=
  ∀ (s t : State), s.MemCanonical → step s = .next t → t.MemCanonical
end

