-- ==== Sys2Proof/Laws/Dispatch.lean ====
section
/-! SUPPORT. The dispatch, one equation per constructor. -/

namespace Sys2Proof.Machine

theorem exec_nopScalar (s : State) : ∀ g body, exec (.nopScalar g body) s = execNopScalar g body s := by intros; rfl
theorem exec_add (s : State) : ∀ g b, exec (.add g b) s = execAdd g b s := by intros; rfl
theorem exec_sub (s : State) : ∀ g b, exec (.sub g b) s = execSub g b s := by intros; rfl
theorem exec_mul (s : State) : ∀ g b, exec (.mul g b) s = execMul g b s := by intros; rfl
theorem exec_mulh (s : State) : ∀ g b, exec (.mulh g b) s = execMulh g b s := by intros; rfl
theorem exec_div (s : State) : ∀ g b, exec (.div g b) s = execDiv g b s := by intros; rfl
theorem exec_rem (s : State) : ∀ g b, exec (.rem g b) s = execRem g b s := by intros; rfl
theorem exec_and (s : State) : ∀ g b, exec (.and g b) s = execAnd g b s := by intros; rfl
theorem exec_or (s : State) : ∀ g b, exec (.or g b) s = execOr g b s := by intros; rfl
theorem exec_xor (s : State) : ∀ g b, exec (.xor g b) s = execXor g b s := by intros; rfl
theorem exec_andn (s : State) : ∀ g b, exec (.andn g b) s = execAndn g b s := by intros; rfl
theorem exec_shl (s : State) : ∀ g b, exec (.shl g b) s = execShl g b s := by intros; rfl
theorem exec_shr (s : State) : ∀ g b, exec (.shr g b) s = execShr g b s := by intros; rfl
theorem exec_sra (s : State) : ∀ g b, exec (.sra g b) s = execSra g b s := by intros; rfl
theorem exec_min (s : State) : ∀ g b, exec (.min g b) s = execMin g b s := by intros; rfl
theorem exec_max (s : State) : ∀ g b, exec (.max g b) s = execMax g b s := by intros; rfl
theorem exec_clz (s : State) : ∀ g b, exec (.clz g b) s = execClz g b s := by intros; rfl
theorem exec_popc (s : State) : ∀ g b, exec (.popc g b) s = execPopc g b s := by intros; rfl
theorem exec_li (s : State) : ∀ g b, exec (.li g b) s = execLi g b s := by intros; rfl
theorem exec_lih (s : State) : ∀ g b, exec (.lih g b) s = execLih g b s := by intros; rfl
theorem exec_mov (s : State) : ∀ g b, exec (.mov g b) s = execMov g b s := by intros; rfl
theorem exec_sel (s : State) : ∀ g b, exec (.sel g b) s = execSel g b s := by intros; rfl
theorem exec_cmp (s : State) : ∀ g b, exec (.cmp g b) s = execCmp g b s := by intros; rfl
theorem exec_pand (s : State) : ∀ g b, exec (.pand g b) s = execPand g b s := by intros; rfl
theorem exec_por (s : State) : ∀ g b, exec (.por g b) s = execPor g b s := by intros; rfl
theorem exec_pxor (s : State) : ∀ g b, exec (.pxor g b) s = execPxor g b s := by intros; rfl
theorem exec_pandn (s : State) : ∀ g b, exec (.pandn g b) s = execPandn g b s := by intros; rfl
theorem exec_pset (s : State) : ∀ g b, exec (.pset g b) s = execPset g b s := by intros; rfl
theorem exec_pcnt (s : State) : ∀ g b, exec (.pcnt g b) s = execPcnt g b s := by intros; rfl
theorem exec_aadd (s : State) : ∀ g b, exec (.aadd g b) s = execAadd g b s := by intros; rfl
theorem exec_aset (s : State) : ∀ g b, exec (.aset g b) s = execAset g b s := by intros; rfl
theorem exec_aget (s : State) : ∀ g b, exec (.aget g b) s = execAget g b s := by intros; rfl
theorem exec_anarrow (s : State) : ∀ g b, exec (.anarrow g b) s = execAnarrow g b s := by intros; rfl
theorem exec_adrop (s : State) : ∀ g b, exec (.adrop g b) s = execAdrop g b s := by intros; rfl
theorem exec_amov (s : State) : ∀ g b, exec (.amov g b) s = execAmov g b s := by intros; rfl
theorem exec_achk (s : State) : ∀ g b, exec (.achk g b) s = execAchk g b s := by intros; rfl
theorem exec_loop (s : State) : ∀ g b, exec (.loop g b) s = execLoop g b s := by intros; rfl
theorem exec_ldelta (s : State) : ∀ g b, exec (.ldelta g b) s = execLdelta g b s := by intros; rfl
theorem exec_lbreak (s : State) : ∀ g b, exec (.lbreak g b) s = execLbreak g b s := by intros; rfl
theorem exec_lidx (s : State) : ∀ g b, exec (.lidx g b) s = execLidx g b s := by intros; rfl
theorem exec_view (s : State) : ∀ g b, exec (.view g b) s = execView g b s := by intros; rfl
theorem exec_srr (s : State) : ∀ g b, exec (.srr g b) s = execSrr g b s := by intros; rfl
theorem exec_srw (s : State) : ∀ g b, exec (.srw g b) s = execSrw g b s := by intros; rfl
theorem exec_srWinWrite (s : State) : ∀ g b, exec (.srWinWrite g b) s = execSrWinWrite g b s := by intros; rfl
theorem exec_srPrivWrite (s : State) : ∀ g b, exec (.srPrivWrite g b) s = execSrPrivWrite g b s := by intros; rfl
theorem exec_rdtime (s : State) : ∀ g b, exec (.rdtime g b) s = execRdtime g b s := by intros; rfl
theorem exec_pbr (s : State) : ∀ g b, exec (.pbr g b) s = execPbr g b s := by intros; rfl
theorem exec_trap (s : State) : ∀ g b, exec (.trap g b) s = execTrap g b s := by intros; rfl
theorem exec_utret (s : State) : ∀ g b, exec (.utret g b) s = execUtret g b s := by intros; rfl
theorem exec_eret (s : State) : ∀ g b, exec (.eret g b) s = execEret g b s := by intros; rfl
theorem exec_yield (s : State) : ∀ g b, exec (.yield g b) s = execYield g b s := by intros; rfl
theorem exec_endTask (s : State) : ∀ g b, exec (.endTask g b) s = execEndTask g b s := by intros; rfl
theorem exec_feat (s : State) : ∀ g b, exec (.feat g b) s = execFeat g b s := by intros; rfl
theorem exec_nopVector (s : State) : ∀ g body, exec (.nopVector g body) s = execNopVector g body s := by intros; rfl
theorem exec_vadd (s : State) : ∀ g b, exec (.vadd g b) s = execVadd g b s := by intros; rfl
theorem exec_vsub (s : State) : ∀ g b, exec (.vsub g b) s = execVsub g b s := by intros; rfl
theorem exec_vmul (s : State) : ∀ g b, exec (.vmul g b) s = execVmul g b s := by intros; rfl
theorem exec_vfma (s : State) : ∀ g b, exec (.vfma g b) s = execVfma g b s := by intros; rfl
theorem exec_vmin (s : State) : ∀ g b, exec (.vmin g b) s = execVmin g b s := by intros; rfl
theorem exec_vmax (s : State) : ∀ g b, exec (.vmax g b) s = execVmax g b s := by intros; rfl
theorem exec_vabs (s : State) : ∀ g b, exec (.vabs g b) s = execVabs g b s := by intros; rfl
theorem exec_vneg (s : State) : ∀ g b, exec (.vneg g b) s = execVneg g b s := by intros; rfl
theorem exec_vand (s : State) : ∀ g b, exec (.vand g b) s = execVand g b s := by intros; rfl
theorem exec_vor (s : State) : ∀ g b, exec (.vor g b) s = execVor g b s := by intros; rfl
theorem exec_vxor (s : State) : ∀ g b, exec (.vxor g b) s = execVxor g b s := by intros; rfl
theorem exec_vshl (s : State) : ∀ g b, exec (.vshl g b) s = execVshl g b s := by intros; rfl
theorem exec_vshr (s : State) : ∀ g b, exec (.vshr g b) s = execVshr g b s := by intros; rfl
theorem exec_vcmp (s : State) : ∀ g b, exec (.vcmp g b) s = execVcmp g b s := by intros; rfl
theorem exec_vsel (s : State) : ∀ g b, exec (.vsel g b) s = execVsel g b s := by intros; rfl
theorem exec_vcvt (s : State) : ∀ g b, exec (.vcvt g b) s = execVcvt g b s := by intros; rfl
theorem exec_vquant (s : State) : ∀ g b, exec (.vquant g b) s = execVquant g b s := by intros; rfl
theorem exec_vdeq (s : State) : ∀ g b, exec (.vdeq g b) s = execVdeq g b s := by intros; rfl
theorem exec_vexp2 (s : State) : ∀ g b, exec (.vexp2 g b) s = execVexp2 g b s := by intros; rfl
theorem exec_vlog2 (s : State) : ∀ g b, exec (.vlog2 g b) s = execVlog2 g b s := by intros; rfl
theorem exec_vrcp (s : State) : ∀ g b, exec (.vrcp g b) s = execVrcp g b s := by intros; rfl
theorem exec_vrsq (s : State) : ∀ g b, exec (.vrsq g b) s = execVrsq g b s := by intros; rfl
theorem exec_vsumr (s : State) : ∀ g b, exec (.vsumr g b) s = execVsumr g b s := by intros; rfl
theorem exec_vmaxr (s : State) : ∀ g b, exec (.vmaxr g b) s = execVmaxr g b s := by intros; rfl
theorem exec_vdot (s : State) : ∀ g b, exec (.vdot g b) s = execVdot g b s := by intros; rfl
theorem exec_vshuf (s : State) : ∀ g b, exec (.vshuf g b) s = execVshuf g b s := by intros; rfl
theorem exec_vbcast (s : State) : ∀ g b, exec (.vbcast g b) s = execVbcast g b s := by intros; rfl
theorem exec_vslide (s : State) : ∀ g b, exec (.vslide g b) s = execVslide g b s := by intros; rfl
theorem exec_viota (s : State) : ∀ g b, exec (.viota g b) s = execViota g b s := by intros; rfl
theorem exec_vcompr (s : State) : ∀ g b, exec (.vcompr g b) s = execVcompr g b s := by intros; rfl
theorem exec_vpart (s : State) : ∀ g b, exec (.vpart g b) s = execVpart g b s := by intros; rfl
theorem exec_vtopk (s : State) : ∀ g b, exec (.vtopk g b) s = execVtopk g b s := by intros; rfl
theorem exec_vmovs (s : State) : ∀ g b, exec (.vmovs g b) s = execVmovs g b s := by intros; rfl
theorem exec_vins (s : State) : ∀ g b, exec (.vins g b) s = execVins g b s := by intros; rfl
theorem exec_nopMatrix (s : State) : ∀ g body, exec (.nopMatrix g body) s = execNopMatrix g body s := by intros; rfl
theorem exec_mzero (s : State) : ∀ g b, exec (.mzero g b) s = execMzero g b s := by intros; rfl
theorem exec_manchor (s : State) : ∀ g b, exec (.manchor g b) s = execManchor g b s := by intros; rfl
theorem exec_mma (s : State) : ∀ g b, exec (.mma g b) s = execMma g b s := by intros; rfl
theorem exec_mmat (s : State) : ∀ g b, exec (.mmat g b) s = execMmat g b s := by intros; rfl
theorem exec_mmaw (s : State) : ∀ g b, exec (.mmaw g b) s = execMmaw g b s := by intros; rfl
theorem exec_mread (s : State) : ∀ g b, exec (.mread g b) s = execMread g b s := by intros; rfl
theorem exec_mstat (s : State) : ∀ g b, exec (.mstat g b) s = execMstat g b s := by intros; rfl
theorem exec_mclr (s : State) : ∀ g b, exec (.mclr g b) s = execMclr g b s := by intros; rfl
theorem exec_tidset (s : State) : ∀ g b, exec (.tidset g b) s = execTidset g b s := by intros; rfl
theorem exec_tidstep (s : State) : ∀ g b, exec (.tidstep g b) s = execTidstep g b s := by intros; rfl
theorem exec_tidstepSet (s : State) : ∀ g b, exec (.tidstepSet g b) s = execTidstepSet g b s := by intros; rfl
theorem exec_lrzero (s : State) : ∀ g b, exec (.lrzero g b) s = execLrzero g b s := by intros; rfl
theorem exec_lrset (s : State) : ∀ g b, exec (.lrset g b) s = execLrset g b s := by intros; rfl
theorem exec_lradd (s : State) : ∀ g b, exec (.lradd g b) s = execLradd g b s := by intros; rfl
theorem exec_lrscale (s : State) : ∀ g b, exec (.lrscale g b) s = execLrscale g b s := by intros; rfl
theorem exec_lrmul (s : State) : ∀ g b, exec (.lrmul g b) s = execLrmul g b s := by intros; rfl
theorem exec_lrmuld (s : State) : ∀ g b, exec (.lrmuld g b) s = execLrmuld g b s := by intros; rfl
theorem exec_lrtrunc (s : State) : ∀ g b, exec (.lrtrunc g b) s = execLrtrunc g b s := by intros; rfl
theorem exec_lrdense (s : State) : ∀ g b, exec (.lrdense g b) s = execLrdense g b s := by intros; rfl
theorem exec_lrcomp (s : State) : ∀ g b, exec (.lrcomp g b) s = execLrcomp g b s := by intros; rfl
theorem exec_lrapply (s : State) : ∀ g b, exec (.lrapply g b) s = execLrapply g b s := by intros; rfl
theorem exec_lrrank (s : State) : ∀ g b, exec (.lrrank g b) s = execLrrank g b s := by intros; rfl
theorem exec_nopLoad (s : State) : ∀ g body, exec (.nopLoad g body) s = execNopLoad g body s := by intros; rfl
theorem exec_ld (s : State) : ∀ g b, exec (.ld g b) s = execLd g b s := by intros; rfl
theorem exec_lda (s : State) : ∀ g b, exec (.lda g b) s = execLda g b s := by intros; rfl
theorem exec_lds (s : State) : ∀ g b, exec (.lds g b) s = execLds g b s := by intros; rfl
theorem exec_vld (s : State) : ∀ g b, exec (.vld g b) s = execVld g b s := by intros; rfl
theorem exec_vlds (s : State) : ∀ g b, exec (.vlds g b) s = execVlds g b s := by intros; rfl
theorem exec_tlds (s : State) : ∀ g b, exec (.tlds g b) s = execTlds g b s := by intros; rfl
theorem exec_vgath (s : State) : ∀ g b, exec (.vgath g b) s = execVgath g b s := by intros; rfl
theorem exec_capld (s : State) : ∀ g b, exec (.capld g b) s = execCapld g b s := by intros; rfl
theorem exec_lrlds (s : State) : ∀ g b, exec (.lrlds g b) s = execLrlds g b s := by intros; rfl
theorem exec_nopStore (s : State) : ∀ g body, exec (.nopStore g body) s = execNopStore g body s := by intros; rfl
theorem exec_st (s : State) : ∀ g b, exec (.st g b) s = execSt g b s := by intros; rfl
theorem exec_stl (s : State) : ∀ g b, exec (.stl g b) s = execStl g b s := by intros; rfl
theorem exec_sts (s : State) : ∀ g b, exec (.sts g b) s = execSts g b s := by intros; rfl
theorem exec_vst (s : State) : ∀ g b, exec (.vst g b) s = execVst g b s := by intros; rfl
theorem exec_vsts (s : State) : ∀ g b, exec (.vsts g b) s = execVsts g b s := by intros; rfl
theorem exec_tsts (s : State) : ∀ g b, exec (.tsts g b) s = execTsts g b s := by intros; rfl
theorem exec_vscat (s : State) : ∀ g b, exec (.vscat g b) s = execVscat g b s := by intros; rfl
theorem exec_capst (s : State) : ∀ g b, exec (.capst g b) s = execCapst g b s := by intros; rfl
theorem exec_atom (s : State) : ∀ g b, exec (.atom g b) s = execAtom g b s := by intros; rfl
theorem exec_atoms (s : State) : ∀ g b, exec (.atoms g b) s = execAtoms g b s := by intros; rfl
theorem exec_lrsts (s : State) : ∀ g b, exec (.lrsts g b) s = execLrsts g b s := by intros; rfl
theorem exec_nopPump (s : State) : ∀ g body, exec (.nopPump g body) s = execNopPump g body s := by intros; rfl
theorem exec_pcopy (s : State) : ∀ g b, exec (.pcopy g b) s = execPcopy g b s := by intros; rfl
theorem exec_pfill (s : State) : ∀ g b, exec (.pfill g b) s = execPfill g b s := by intros; rfl
theorem exec_pgath (s : State) : ∀ g b, exec (.pgath g b) s = execPgath g b s := by intros; rfl
theorem exec_pscat (s : State) : ∀ g b, exec (.pscat g b) s = execPscat g b s := by intros; rfl
theorem exec_pdecl (s : State) : ∀ g b, exec (.pdecl g b) s = execPdecl g b s := by intros; rfl
theorem exec_pflushx (s : State) : ∀ g b, exec (.pflushx g b) s = execPflushx g b s := by intros; rfl
theorem exec_kvappend (s : State) : ∀ g b, exec (.kvappend g b) s = execKvappend g b s := by intros; rfl
theorem exec_kvattn (s : State) : ∀ g b, exec (.kvattn g b) s = execKvattn g b s := by intros; rfl
theorem exec_kvscore (s : State) : ∀ g b, exec (.kvscore g b) s = execKvscore g b s := by intros; rfl
theorem exec_kvseal (s : State) : ∀ g b, exec (.kvseal g b) s = execKvseal g b s := by intros; rfl
theorem exec_kvcompact (s : State) : ∀ g b, exec (.kvcompact g b) s = execKvcompact g b s := by intros; rfl
theorem exec_kvfork (s : State) : ∀ g b, exec (.kvfork g b) s = execKvfork g b s := by intros; rfl
theorem exec_kvforkNew (s : State) : ∀ g b, exec (.kvforkNew g b) s = execKvforkNew g b s := by intros; rfl
theorem exec_kvfree (s : State) : ∀ g b, exec (.kvfree g b) s = execKvfree g b s := by intros; rfl
theorem exec_kvpin (s : State) : ∀ g b, exec (.kvpin g b) s = execKvpin g b s := by intros; rfl
theorem exec_kvwin (s : State) : ∀ g b, exec (.kvwin g b) s = execKvwin g b s := by intros; rfl
theorem exec_kvstat (s : State) : ∀ g b, exec (.kvstat g b) s = execKvstat g b s := by intros; rfl
theorem exec_colar (s : State) : ∀ g b, exec (.colar g b) s = execColar g b s := by intros; rfl
theorem exec_colrs (s : State) : ∀ g b, exec (.colrs g b) s = execColrs g b s := by intros; rfl
theorem exec_colag (s : State) : ∀ g b, exec (.colag g b) s = execColag g b s := by intros; rfl
theorem exec_colbc (s : State) : ∀ g b, exec (.colbc g b) s = execColbc g b s := by intros; rfl
theorem exec_colstat (s : State) : ∀ g b, exec (.colstat g b) s = execColstat g b s := by intros; rfl
theorem exec_stmget (s : State) : ∀ g b, exec (.stmget g b) s = execStmget g b s := by intros; rfl
theorem exec_stmstat (s : State) : ∀ g b, exec (.stmstat g b) s = execStmstat g b s := by intros; rfl
theorem exec_wjopen (s : State) : ∀ g b, exec (.wjopen g b) s = execWjopen g b s := by intros; rfl
theorem exec_wjwrite (s : State) : ∀ g b, exec (.wjwrite g b) s = execWjwrite g b s := by intros; rfl
theorem exec_wjcommit (s : State) : ∀ g b, exec (.wjcommit g b) s = execWjcommit g b s := by intros; rfl
theorem exec_wjabort (s : State) : ∀ g b, exec (.wjabort g b) s = execWjabort g b s := by intros; rfl
theorem exec_wjstat (s : State) : ∀ g b, exec (.wjstat g b) s = execWjstat g b s := by intros; rfl
theorem exec_nopSync (s : State) : ∀ g body, exec (.nopSync g body) s = execNopSync g body s := by intros; rfl
theorem exec_br (s : State) : ∀ g b, exec (.br g b) s = execBr g b s := by intros; rfl
theorem exec_brl (s : State) : ∀ g b, exec (.brl g b) s = execBrl g b s := by intros; rfl
theorem exec_fence (s : State) : ∀ g b, exec (.fence g b) s = execFence g b s := by intros; rfl
theorem exec_cbset (s : State) : ∀ g b, exec (.cbset g b) s = execCbset g b s := by intros; rfl
theorem exec_cbwait (s : State) : ∀ g b, exec (.cbwait g b) s = execCbwait g b s := by intros; rfl
theorem exec_cbspace (s : State) : ∀ g b, exec (.cbspace g b) s = execCbspace g b s := by intros; rfl
theorem exec_cbadvProduce (s : State) : ∀ g b, exec (.cbadvProduce g b) s = execCbadvProduce g b s := by intros; rfl
theorem exec_cbadvConsume (s : State) : ∀ g b, exec (.cbadvConsume g b) s = execCbadvConsume g b s := by intros; rfl
theorem exec_sigwait (s : State) : ∀ g b, exec (.sigwait g b) s = execSigwait g b s := by intros; rfl
theorem exec_sigadd (s : State) : ∀ g b, exec (.sigadd g b) s = execSigadd g b s := by intros; rfl
theorem exec_jobraise (s : State) : ∀ g b, exec (.jobraise g b) s = execJobraise g b s := by intros; rfl
theorem exec_jobpost (s : State) : ∀ g b, exec (.jobpost g b) s = execJobpost g b s := by intros; rfl
theorem exec_jobwait (s : State) : ∀ g b, exec (.jobwait g b) s = execJobwait g b s := by intros; rfl
theorem exec_bar (s : State) : ∀ g b, exec (.bar g b) s = execBar g b s := by intros; rfl
theorem exec_launch (s : State) : ∀ g b, exec (.launch g b) s = execLaunch g b s := by intros; rfl
theorem exec_launchNb (s : State) : ∀ g b, exec (.launchNb g b) s = execLaunchNb g b s := by intros; rfl
theorem exec_evread (s : State) : ∀ g b, exec (.evread g b) s = execEvread g b s := by intros; rfl
theorem exec_evwait (s : State) : ∀ g b, exec (.evwait g b) s = execEvwait g b s := by intros; rfl
theorem exec_chk (s : State) : ∀ g b, exec (.chk g b) s = execChk g b s := by intros; rfl
theorem exec_rplw (s : State) : ∀ g b, exec (.rplw g b) s = execRplw g b s := by intros; rfl
theorem exec_tickwait (s : State) : ∀ g b, exec (.tickwait g b) s = execTickwait g b s := by intros; rfl
theorem exec_regionBegin (s : State) : exec .regionBegin s = execRegionBegin s := by rfl
theorem exec_regionCommit (s : State) : exec .regionCommit s = execRegionCommit s := by rfl
theorem exec_preemptionPoint (s : State) : exec .preemptionPoint s = execPreemptionPoint s := by rfl
theorem exec_commitStageDeparture (s : State) : ∀ tile ctx, exec (.commitStageDeparture tile ctx) s = execCommitStageDeparture tile ctx s := by intros; rfl
theorem exec_engineOperationComplete (s : State) : ∀ tile e, exec (.engineOperationComplete tile e) s = execEngineOperationComplete tile e s := by intros; rfl
theorem exec_waitRelease (s : State) : ∀ tile ctx, exec (.waitRelease tile ctx) s = execWaitRelease tile ctx s := by intros; rfl
theorem exec_systemTrap (s : State) : ∀ tile ctx r, exec (.systemTrap tile ctx r) s = execSystemTrap tile ctx r s := by intros; rfl
theorem exec_eventRecordPost (s : State) : ∀ dest r, exec (.eventRecordPost dest r) s = execEventRecordPost dest r s := by intros; rfl
theorem exec_timingErrorReplay (s : State) : ∀ site, exec (.timingErrorReplay site) s = execTimingErrorReplay site s := by intros; rfl
theorem exec_stormPeriodEnd (s : State) : ∀ island, exec (.stormPeriodEnd island) s = execStormPeriodEnd island s := by intros; rfl
theorem exec_preemptionRequestDelivery (s : State) : ∀ tile ctx, exec (.preemptionRequestDelivery tile ctx) s = execPreemptionRequestDelivery tile ctx s := by intros; rfl
theorem exec_forcedPreemption (s : State) : ∀ tile ctx, exec (.forcedPreemption tile ctx) s = execForcedPreemption tile ctx s := by intros; rfl
theorem exec_contextSave (s : State) : ∀ tile ctx, exec (.contextSave tile ctx) s = execContextSave tile ctx s := by intros; rfl
theorem exec_contextResume (s : State) : ∀ queue tile ctx, exec (.contextResume queue tile ctx) s = execContextResume queue tile ctx s := by intros; rfl
theorem exec_featureMigration (s : State) : ∀ tile ctx bit, exec (.featureMigration tile ctx bit) s = execFeatureMigration tile ctx bit s := by intros; rfl
theorem exec_pumpDelivery (s : State) : ∀ cmd bytes, exec (.pumpDelivery cmd bytes) s = execPumpDelivery cmd bytes s := by intros; rfl
theorem exec_pumpCommandComplete (s : State) : ∀ cmd, exec (.pumpCommandComplete cmd) s = execPumpCommandComplete cmd s := by intros; rfl
theorem exec_atomicHomePerform (s : State) : ∀ slice, exec (.atomicHomePerform slice) s = execAtomicHomePerform slice s := by intros; rfl
theorem exec_wideVariantLaunch (s : State) : ∀ gang, exec (.wideVariantLaunch gang) s = execWideVariantLaunch gang s := by intros; rfl
theorem exec_kvCommandResolve (s : State) : ∀ cmd, exec (.kvCommandResolve cmd) s = execKvCommandResolve cmd s := by intros; rfl
theorem exec_compactionJob (s : State) : ∀ die, exec (.compactionJob die) s = execCompactionJob die s := by intros; rfl
theorem exec_compactionInstall (s : State) : ∀ die, exec (.compactionInstall die) s = execCompactionInstall die s := by intros; rfl
theorem exec_spillReadback (s : State) : ∀ asid obj block, exec (.spillReadback asid obj block) s = execSpillReadback asid obj block s := by intros; rfl
theorem exec_streamTokenArrival (s : State) : ∀ message, exec (.streamTokenArrival message) s = execStreamTokenArrival message s := by intros; rfl
theorem exec_tick (s : State) : ∀ arm, exec (.tick arm) s = execTick arm s := by intros; rfl
theorem exec_tickWakeLead (s : State) : ∀ arm, exec (.tickWakeLead arm) s = execTickWakeLead arm s := by intros; rfl
theorem exec_holdLimitExpiry (s : State) : ∀ cmd, exec (.holdLimitExpiry cmd) s = execHoldLimitExpiry cmd s := by intros; rfl
theorem exec_stmgetResolve (s : State) : ∀ cmd, exec (.stmgetResolve cmd) s = execStmgetResolve cmd s := by intros; rfl
theorem exec_stepEnd (s : State) : ∀ arm, exec (.stepEnd arm) s = execStepEnd arm s := by intros; rfl
theorem exec_clockShareWindow (s : State) : ∀ island, exec (.clockShareWindow island) s = execClockShareWindow island s := by intros; rfl
theorem exec_collectiveAccept (s : State) : ∀ news, exec (.collectiveAccept news) s = execCollectiveAccept news s := by intros; rfl
theorem exec_versionAgreement (s : State) : ∀ group held same, exec (.versionAgreement group held same) s = execVersionAgreement group held same s := by intros; rfl
theorem exec_chunkReduced (s : State) : ∀ group chunk contributions, exec (.chunkReduced group chunk contributions) s = execChunkReduced group chunk contributions s := by intros; rfl
theorem exec_chunkBroadcastComplete (s : State) : ∀ group chunk, exec (.chunkBroadcastComplete group chunk) s = execChunkBroadcastComplete group chunk s := by intros; rfl
theorem exec_collectiveRecovery (s : State) : ∀ group version held unfinished, exec (.collectiveRecovery group version held unfinished) s = execCollectiveRecovery group version held unfinished s := by intros; rfl
theorem exec_collectiveTimeout (s : State) : ∀ news, exec (.collectiveTimeout news) s = execCollectiveTimeout news s := by intros; rfl
theorem exec_straitPeerDetect (s : State) : ∀ port, exec (.straitPeerDetect port) s = execStraitPeerDetect port s := by intros; rfl
theorem exec_identityFlit (s : State) : ∀ port pkg peerPort versions, exec (.identityFlit port pkg peerPort versions) s = execIdentityFlit port pkg peerPort versions s := by intros; rfl
theorem exec_straitUp (s : State) : ∀ port, exec (.straitUp port) s = execStraitUp port s := by intros; rfl
theorem exec_straitDown (s : State) : ∀ port, exec (.straitDown port) s = execStraitDown port s := by intros; rfl
theorem exec_flitCrcRetry (s : State) : ∀ port again, exec (.flitCrcRetry port again) s = execFlitCrcRetry port again s := by intros; rfl
theorem exec_virtualLaneStopGo (s : State) : ∀ port lane free, exec (.virtualLaneStopGo port lane free) s = execVirtualLaneStopGo port lane free s := by intros; rfl
theorem exec_linkChangeFlood (s : State) : ∀ port news, exec (.linkChangeFlood port news) s = execLinkChangeFlood port news s := by intros; rfl
theorem exec_ptpSync (s : State) : ∀ offset grandmaster source, exec (.ptpSync offset grandmaster source) s = execPtpSync offset grandmaster source s := by intros; rfl
theorem exec_announceTimeout (s : State) : ∀ grandmaster, exec (.announceTimeout grandmaster) s = execAnnounceTimeout grandmaster s := by intros; rfl
theorem exec_ethernetFrameReceive (s : State) : ∀ port vlan kind priority bytes, exec (.ethernetFrameReceive port vlan kind priority bytes) s = execEthernetFrameReceive port vlan kind priority bytes s := by intros; rfl
theorem exec_congestionNotification (s : State) : ∀ qp, exec (.congestionNotification qp) s = execCongestionNotification qp s := by intros; rfl
theorem exec_rateRecovery (s : State) : ∀ qp, exec (.rateRecovery qp) s = execRateRecovery qp s := by intros; rfl
theorem exec_rdmaWrite (s : State) : ∀ qp obj offset data, exec (.rdmaWrite qp obj offset data) s = execRdmaWrite qp obj offset data s := by intros; rfl
theorem exec_rdmaWriteWithImmediate (s : State) : ∀ qp obj offset data imm, exec (.rdmaWriteWithImmediate qp obj offset data imm) s = execRdmaWriteWithImmediate qp obj offset data imm s := by intros; rfl
theorem exec_rdmaRead (s : State) : ∀ qp obj offset length, exec (.rdmaRead qp obj offset length) s = execRdmaRead qp obj offset length s := by intros; rfl
theorem exec_notifyKick (s : State) : ∀ queue, exec (.notifyKick queue) s = execNotifyKick queue s := by intros; rfl
theorem exec_pendingKickService (s : State) : exec .pendingKickService s = execPendingKickService s := by rfl
theorem exec_launchGraph (s : State) : ∀ queue, exec (.launchGraph queue) s = execLaunchGraph queue s := by intros; rfl
theorem exec_signalWrite (s : State) : ∀ queue, exec (.signalWrite queue) s = execSignalWrite queue s := by intros; rfl
theorem exec_signalAdd (s : State) : ∀ queue, exec (.signalAdd queue) s = execSignalAdd queue s := by intros; rfl
theorem exec_wait (s : State) : ∀ queue, exec (.wait queue) s = execWait queue s := by intros; rfl
theorem exec_copy (s : State) : ∀ queue, exec (.copy queue) s = execCopy queue s := by intros; rfl
theorem exec_barrier (s : State) : ∀ queue, exec (.barrier queue) s = execBarrier queue s := by intros; rfl
theorem exec_lease (s : State) : ∀ queue projected, exec (.lease queue projected) s = execLease queue projected s := by intros; rfl
theorem exec_timedArm (s : State) : ∀ queue, exec (.timedArm queue) s = execTimedArm queue s := by intros; rfl
theorem exec_timedDisarm (s : State) : ∀ queue, exec (.timedDisarm queue) s = execTimedDisarm queue s := by intros; rfl
theorem exec_flushExport (s : State) : ∀ queue, exec (.flushExport queue) s = execFlushExport queue s := by intros; rfl
theorem exec_invalidate (s : State) : ∀ queue, exec (.invalidate queue) s = execInvalidate queue s := by intros; rfl
theorem exec_regionCreate (s : State) : ∀ queue, exec (.regionCreate queue) s = execRegionCreate queue s := by intros; rfl
theorem exec_regionAlter (s : State) : ∀ queue, exec (.regionAlter queue) s = execRegionAlter queue s := by intros; rfl
theorem exec_regionDestroy (s : State) : ∀ queue, exec (.regionDestroy queue) s = execRegionDestroy queue s := by intros; rfl
theorem exec_statement (s : State) : ∀ queue, exec (.statement queue) s = execStatement queue s := by intros; rfl
theorem exec_nodeDispatch (s : State) : exec .nodeDispatch s = execNodeDispatch s := by rfl
theorem exec_nodeComplete (s : State) : ∀ gang, exec (.nodeComplete gang) s = execNodeComplete gang s := by intros; rfl
theorem exec_instanceEnd (s : State) : ∀ inst, exec (.instanceEnd inst) s = execInstanceEnd inst s := by intros; rfl
theorem exec_queueTeardown (s : State) : ∀ queue, exec (.queueTeardown queue) s = execQueueTeardown queue s := by intros; rfl
theorem exec_queueDrained (s : State) : ∀ queue, exec (.queueDrained queue) s = execQueueDrained queue s := by intros; rfl
theorem exec_regenerationStart (s : State) : ∀ asid obj page, exec (.regenerationStart asid obj page) s = execRegenerationStart asid obj page s := by intros; rfl
theorem exec_translationWalk (s : State) : ∀ tile asid obj offset, exec (.translationWalk tile asid obj offset) s = execTranslationWalk tile asid obj offset s := by intros; rfl
theorem exec_islandIdle (s : State) : ∀ island, exec (.islandIdle island) s = execIslandIdle island s := by intros; rfl
theorem exec_islandIdleExit (s : State) : ∀ island, exec (.islandIdleExit island) s = execIslandIdleExit island s := by intros; rfl
theorem exec_islandPark (s : State) : ∀ island, exec (.islandPark island) s = execIslandPark island s := by intros; rfl
theorem exec_islandOff (s : State) : ∀ island, exec (.islandOff island) s = execIslandOff island s := by intros; rfl
theorem exec_islandWake (s : State) : ∀ island, exec (.islandWake island) s = execIslandWake island s := by intros; rfl
theorem exec_islandWakeComplete (s : State) : ∀ island badParity, exec (.islandWakeComplete island badParity) s = execIslandWakeComplete island badParity s := by intros; rfl
theorem exec_resumeTrigger (s : State) : ∀ tile ctx, exec (.resumeTrigger tile ctx) s = execResumeTrigger tile ctx s := by intros; rfl
theorem exec_driverWakeRequest (s : State) : ∀ islands, exec (.driverWakeRequest islands) s = execDriverWakeRequest islands s := by intros; rfl
theorem exec_cisternRetain (s : State) : ∀ slice, exec (.cisternRetain slice) s = execCisternRetain slice s := by intros; rfl
theorem exec_cisternWake (s : State) : ∀ slice, exec (.cisternWake slice) s = execCisternWake slice s := by intros; rfl
theorem exec_cisternOffRequest (s : State) : ∀ slice, exec (.cisternOffRequest slice) s = execCisternOffRequest slice s := by intros; rfl
theorem exec_railSettled (s : State) : ∀ rail, exec (.railSettled rail) s = execRailSettled rail s := by intros; rfl
theorem exec_brownOut (s : State) : ∀ loss, exec (.brownOut loss) s = execBrownOut loss s := by intros; rfl
theorem exec_powerOnReset (s : State) : exec .powerOnReset s = execPowerOnReset s := by rfl
theorem exec_islandSelfTestDone (s : State) : ∀ island pass, exec (.islandSelfTestDone island pass) s = execIslandSelfTestDone island pass s := by intros; rfl
theorem exec_lpddr6TrainingDone (s : State) : exec .lpddr6TrainingDone s = execLpddr6TrainingDone s := by rfl
theorem exec_wellScrub (s : State) : ∀ tile scrub, exec (.wellScrub tile scrub) s = execWellScrub tile scrub s := by intros; rfl
theorem exec_journalApply (s : State) : ∀ tile, exec (.journalApply tile) s = execJournalApply tile s := by intros; rfl
theorem exec_accountingTick (s : State) : exec .accountingTick s = execAccountingTick s := by rfl
theorem exec_meterIntegration (s : State) : ∀ rails input failed, exec (.meterIntegration rails input failed) s = execMeterIntegration rails input failed s := by intros; rfl
theorem exec_leaseExpiry (s : State) : ∀ part, exec (.leaseExpiry part) s = execLeaseExpiry part s := by intros; rfl
theorem exec_leaseRevoke (s : State) : ∀ part projected, exec (.leaseRevoke part projected) s = execLeaseRevoke part projected s := by intros; rfl
theorem exec_heatRefresh (s : State) : ∀ sensors, exec (.heatRefresh sensors) s = execHeatRefresh sensors s := by intros; rfl
theorem exec_firmwareTakeover (s : State) : exec .firmwareTakeover s = execFirmwareTakeover s := by rfl
theorem exec_mirrorEntry (s : State) : exec .mirrorEntry s = execMirrorEntry s := by rfl
theorem exec_update (s : State) : ∀ slot, exec (.update slot) s = execUpdate slot s := by intros; rfl
theorem exec_roleSwap (s : State) : exec .roleSwap s = execRoleSwap s := by rfl
theorem exec_fwUpdateFail (s : State) : exec .fwUpdateFail s = execFwUpdateFail s := by rfl
theorem exec_load (s : State) : ∀ asid obj offset, exec (.load asid obj offset) s = execLoad asid obj offset s := by intros; rfl
theorem exec_attest (s : State) : ∀ nonce, exec (.attest nonce) s = execAttest nonce s := by intros; rfl
theorem exec_confirm (s : State) : ∀ request, exec (.confirm request) s = execConfirm request s := by intros; rfl
theorem exec_heat (s : State) : exec .heat s = execHeat s := by rfl
theorem exec_telemetry (s : State) : exec .telemetry s = execTelemetry s := by rfl
theorem exec_versions (s : State) : exec .versions s = execVersions s := by rfl
theorem exec_queueTableWrite (s : State) : ∀ queue entry, exec (.queueTableWrite queue entry) s = execQueueTableWrite queue entry s := by intros; rfl
theorem exec_asidTableWrite (s : State) : ∀ asid entry, exec (.asidTableWrite asid entry) s = execAsidTableWrite asid entry s := by intros; rfl
theorem exec_serviceEntryWrite (s : State) : ∀ part entry, exec (.serviceEntryWrite part entry) s = execServiceEntryWrite part entry s := by intros; rfl
theorem exec_powerEntryWrite (s : State) : ∀ part entry, exec (.powerEntryWrite part entry) s = execPowerEntryWrite part entry s := by intros; rfl
theorem exec_groupEntryWrite (s : State) : ∀ group entry, exec (.groupEntryWrite group entry) s = execGroupEntryWrite group entry s := by intros; rfl
theorem exec_streamDescriptorWrite (s : State) : ∀ stream entry, exec (.streamDescriptorWrite stream entry) s = execStreamDescriptorWrite stream entry s := by intros; rfl
theorem exec_ownerKeyWrite (s : State) : ∀ slot key request, exec (.ownerKeyWrite slot key request) s = execOwnerKeyWrite slot key request s := by intros; rfl
theorem exec_partitionEntryWrite (s : State) : ∀ part entry request, exec (.partitionEntryWrite part entry request) s = execPartitionEntryWrite part entry request s := by intros; rfl
theorem exec_lotterySeedWrite (s : State) : ∀ seed, exec (.lotterySeedWrite seed) s = execLotterySeedWrite seed s := by intros; rfl
theorem exec_vlanConfig (s : State) : ∀ port ids, exec (.vlanConfig port ids) s = execVlanConfig port ids s := by intros; rfl
theorem exec_portRateSet (s : State) : ∀ port gbit, exec (.portRateSet port gbit) s = execPortRateSet port gbit s := by intros; rfl
theorem exec_ptpConfig (s : State) : ∀ domain delay transport, exec (.ptpConfig domain delay transport) s = execPtpConfig domain delay transport s := by intros; rfl
theorem exec_straitTrainRequest (s : State) : ∀ train, exec (.straitTrainRequest train) s = execStraitTrainRequest train s := by intros; rfl
theorem exec_straitDownRequest (s : State) : ∀ port, exec (.straitDownRequest port) s = execStraitDownRequest port s := by intros; rfl
theorem exec_autoNegotiation (s : State) : ∀ port gbit, exec (.autoNegotiation port gbit) s = execAutoNegotiation port gbit s := by intros; rfl
theorem exec_queuePairBinding (s : State) : ∀ qp asid role, exec (.queuePairBinding qp asid role) s = execQueuePairBinding qp asid role s := by intros; rfl

end Sys2Proof.Machine
end

