-- ==== Sys2Proof/Laws/FMap.lean ====
section
/-! SUPPORT. The laws of finite maps: read after write, write after write, runs, and the canonical form. -/

namespace Sys2Proof.Machine

section
variable {α : Type}

theorem FMap.get_erase_same (d : α) (m : FMap α) (k : Nat) : FMap.get d (FMap.erase m k) k = d := by
  induction m with
  | nil => rfl
  | cons x m ih =>
    obtain ⟨j, w⟩ := x
    by_cases h : j = k <;> simp [FMap.erase, FMap.get, h, ih]

theorem FMap.get_erase_other (d : α) (m : FMap α) {k j : Nat} (h : j ≠ k) :
    FMap.get d (FMap.erase m k) j = FMap.get d m j := by
  induction m with
  | nil => rfl
  | cons x m ih =>
    obtain ⟨i, w⟩ := x
    by_cases hi : i = k
    · subst hi
      simp [FMap.erase, FMap.get, ih, Ne.symm h]
    · simp [FMap.erase, FMap.get, hi, ih]

theorem FMap.erase_erase (m : FMap α) (k : Nat) : FMap.erase (FMap.erase m k) k = FMap.erase m k := by
  induction m with
  | nil => rfl
  | cons x m ih =>
    obtain ⟨j, w⟩ := x
    by_cases h : j = k <;> simp [FMap.erase, h, ih]

theorem FMap.get_insert_other (d : α) (m : FMap α) {k j : Nat} (v : α) (h : j ≠ k) :
    FMap.get d (FMap.insert m k v) j = FMap.get d m j := by
  induction m with
  | nil => simp [FMap.insert, FMap.get, Ne.symm h]
  | cons x m ih =>
    obtain ⟨i, w⟩ := x
    by_cases hi : k < i
    · simp [FMap.insert, FMap.get, hi, Ne.symm h]
    · simp [FMap.insert, FMap.get, hi, ih]

theorem FMap.get_insert_erase (d : α) (m : FMap α) (k : Nat) (v : α) :
    FMap.get d (FMap.insert (FMap.erase m k) k v) k = v := by
  induction m with
  | nil => simp [FMap.erase, FMap.insert, FMap.get]
  | cons x m ih =>
    obtain ⟨i, w⟩ := x
    by_cases hi : i = k
    · simpa [FMap.erase, hi] using ih
    · by_cases hl : k < i <;> simp [FMap.erase, FMap.insert, FMap.get, hi, hl, ih]

theorem FMap.erase_insert_erase (m : FMap α) (k : Nat) (v : α) :
    FMap.erase (FMap.insert (FMap.erase m k) k v) k = FMap.erase m k := by
  induction m with
  | nil => simp [FMap.erase, FMap.insert]
  | cons x m ih =>
    obtain ⟨i, w⟩ := x
    by_cases hi : i = k
    · simpa [FMap.erase, hi] using ih
    · by_cases hl : k < i <;> simp [FMap.erase, FMap.insert, hi, hl, ih, FMap.erase_erase]

variable [DecidableEq α]

/-- A read after a write to the same key gives the value written. -/
@[simp] theorem FMap.get_set_same (d : α) (m : FMap α) (k : Nat) (v : α) : FMap.get d (FMap.set d m k v) k = v := by
  unfold FMap.set
  split
  · rename_i h; rw [FMap.get_erase_same, h]
  · exact FMap.get_insert_erase d m k v

/-- A write leaves every other key alone. -/
theorem FMap.get_set_other (d e : α) (m : FMap α) {k j : Nat} (v : α) (h : j ≠ k) :
    FMap.get e (FMap.set d m k v) j = FMap.get e m j := by
  unfold FMap.set
  split
  · exact FMap.get_erase_other e m h
  · rw [FMap.get_insert_other e _ v h, FMap.get_erase_other e m h]

/-- The last write to a key stands. -/
@[simp] theorem FMap.set_set_same (d : α) (m : FMap α) (k : Nat) (v w : α) :
    FMap.set d (FMap.set d m k v) k w = FMap.set d m k w := by
  have h : FMap.erase (FMap.set d m k v) k = FMap.erase m k := by
    unfold FMap.set
    split
    · exact FMap.erase_erase m k
    · exact FMap.erase_insert_erase m k v
  rw [FMap.set, h, ← FMap.set]

/-- A run read back after it was written, at each of its keys. -/
theorem FMap.get_setRun_other (d : α) (vs : List α) (m : FMap α) {k j : Nat} (h : j < k ∨ k + vs.length ≤ j) :
    FMap.get d (FMap.setRun d m k vs) j = FMap.get d m j := by
  induction vs generalizing m k with
  | nil => rfl
  | cons v vs ih =>
    simp only [List.length_cons] at h
    rw [FMap.setRun, ih _ (by omega), FMap.get_set_other d d m v (by omega)]

theorem FMap.get_setRun_mem (d : α) (vs : List α) (m : FMap α) (k i : Nat) (h : i < vs.length) :
    FMap.get d (FMap.setRun d m k vs) (k + i) = vs[i] := by
  induction vs generalizing m k i with
  | nil => simp at h
  | cons v vs ih =>
    cases i with
    | zero =>
      have e := FMap.get_setRun_other d vs (FMap.set d m k v) (k := k + 1) (j := k) (by omega)
      simpa [FMap.setRun] using e
    | succ i =>
      simp only [List.length_cons] at h
      have := ih (FMap.set d m k v) (k + 1) i (by omega)
      rw [FMap.setRun, show k + (i + 1) = k + 1 + i by omega, this]
      rfl

theorem FMap.wfFrom_mono (d : α) (m : FMap α) {a b : Nat} (h : a ≤ b) (w : FMap.wfFrom d b m = true) :
    FMap.wfFrom d a m = true := by
  cases m with
  | nil => rfl
  | cons x m =>
    obtain ⟨j, v⟩ := x
    simp only [FMap.wfFrom, Bool.and_eq_true, decide_eq_true_eq] at w ⊢
    exact ⟨⟨by omega, w.1.2⟩, w.2⟩

theorem FMap.wfFrom_erase (d : α) (m : FMap α) (k a : Nat) (w : FMap.wfFrom d a m = true) :
    FMap.wfFrom d a (FMap.erase m k) = true := by
  induction m generalizing a with
  | nil => rfl
  | cons x m ih =>
    obtain ⟨j, v⟩ := x
    simp only [FMap.wfFrom, Bool.and_eq_true, decide_eq_true_eq] at w
    by_cases h : j = k
    · simp only [FMap.erase, h, if_true]
      exact FMap.wfFrom_mono d _ (by omega) (ih _ w.2)
    · simp only [FMap.erase, h, if_false, FMap.wfFrom, Bool.and_eq_true, decide_eq_true_eq]
      exact ⟨w.1, ih _ w.2⟩

theorem FMap.wfFrom_insert_erase (d : α) (m : FMap α) (k a : Nat) (v : α) (hv : v ≠ d) (ha : a ≤ k)
    (w : FMap.wfFrom d a m = true) : FMap.wfFrom d a (FMap.insert (FMap.erase m k) k v) = true := by
  induction m generalizing a with
  | nil => simp [FMap.erase, FMap.insert, FMap.wfFrom, ha, hv]
  | cons x m ih =>
    obtain ⟨j, u⟩ := x
    simp only [FMap.wfFrom, Bool.and_eq_true, decide_eq_true_eq] at w
    by_cases h : j = k
    · subst h
      simp only [FMap.erase, if_true]
      exact ih a ha (FMap.wfFrom_mono d _ (by omega) w.2)
    · by_cases hl : k < j
      · simp only [FMap.erase, h, if_false, FMap.insert, hl, if_true, FMap.wfFrom, Bool.and_eq_true, decide_eq_true_eq]
        exact ⟨⟨ha, hv⟩, ⟨by omega, w.1.2⟩, FMap.wfFrom_erase d m k _ w.2⟩
      · simp only [FMap.erase, h, if_false, FMap.insert, hl, FMap.wfFrom, Bool.and_eq_true, decide_eq_true_eq]
        exact ⟨w.1, ih (j + 1) (by omega) w.2⟩

/-- A write keeps the canonical form. -/
theorem FMap.wf_set (d : α) (m : FMap α) (k : Nat) (v : α) (w : FMap.wf d m = true) :
    FMap.wf d (FMap.set d m k v) = true := by
  unfold FMap.set FMap.wf
  split
  · exact FMap.wfFrom_erase d m k 0 w
  · rename_i h
    exact FMap.wfFrom_insert_erase d m k 0 v h (Nat.zero_le k) w

/-- A run of writes keeps the canonical form. -/
theorem FMap.wf_setRun (d : α) (vs : List α) (m : FMap α) (k : Nat) (w : FMap.wf d m = true) :
    FMap.wf d (FMap.setRun d m k vs) = true := by
  induction vs generalizing m k with
  | nil => exact w
  | cons v vs ih => exact ih _ _ (FMap.wf_set d m k v w)

theorem FMap.wfFrom_filter (d : α) (p : Nat × α → Bool) (m : FMap α) (a : Nat) (w : FMap.wfFrom d a m = true) :
    FMap.wfFrom d a (m.filter p) = true := by
  induction m generalizing a with
  | nil => rfl
  | cons x m ih =>
    obtain ⟨j, v⟩ := x
    simp only [FMap.wfFrom, Bool.and_eq_true, decide_eq_true_eq] at w
    by_cases h : p (j, v) = true
    · simp only [List.filter_cons, h, if_true, FMap.wfFrom, Bool.and_eq_true, decide_eq_true_eq]
      exact ⟨w.1, ih _ w.2⟩
    · simp only [List.filter_cons, h]
      exact FMap.wfFrom_mono d _ (by omega) (ih _ w.2)

/-- Dropping entries keeps the canonical form. -/
theorem FMap.wf_filter (d : α) (p : Nat × α → Bool) (m : FMap α) (w : FMap.wf d m = true) :
    FMap.wf d (m.filter p) = true := FMap.wfFrom_filter d p m 0 w

/-- Two canonical maps that read alike are equal. -/
theorem FMap.get_of_lt (d : α) (m : FMap α) {a k : Nat} (w : FMap.wfFrom d a m = true) (h : k < a) :
    FMap.get d m k = d := by
  induction m generalizing a with
  | nil => rfl
  | cons x m ih =>
    obtain ⟨j, v⟩ := x
    simp only [FMap.wfFrom, Bool.and_eq_true, decide_eq_true_eq] at w
    rw [FMap.get, if_neg (by omega)]
    exact ih w.2 (by omega)

end

end Sys2Proof.Machine
end

