-- ==== Sys2Proof/Laws/State.lean ====
section
/-! SUPPORT. What the named updates of the state leave alone, field by field, and what they write. -/

namespace Sys2Proof.Machine

/-! Each field that an update does not write. -/

@[simp] theorem State.setCtx_now (s : State) (t c : Nat) (x : Ctx) : (s.setCtx t c x).now = s.now := rfl
@[simp] theorem State.setCtx_freeCtr (s : State) (t c : Nat) (x : Ctx) : (s.setCtx t c x).freeCtr = s.freeCtr := rfl
@[simp] theorem State.setCtx_nextId (s : State) (t c : Nat) (x : Ctx) : (s.setCtx t c x).nextId = s.nextId := rfl
@[simp] theorem State.setCtx_agenda (s : State) (t c : Nat) (x : Ctx) : (s.setCtx t c x).agenda = s.agenda := rfl
@[simp] theorem State.setCtx_cp (s : State) (t c : Nat) (x : Ctx) : (s.setCtx t c x).cp = s.cp := rfl
@[simp] theorem State.setCtx_tab (s : State) (t c : Nat) (x : Ctx) : (s.setCtx t c x).tab = s.tab := rfl
@[simp] theorem State.setCtx_eng (s : State) (t c : Nat) (x : Ctx) : (s.setCtx t c x).eng = s.eng := rfl
@[simp] theorem State.setCtx_net (s : State) (t c : Nat) (x : Ctx) : (s.setCtx t c x).net = s.net := rfl
@[simp] theorem State.setCtx_pow (s : State) (t c : Nat) (x : Ctx) : (s.setCtx t c x).pow = s.pow := rfl
@[simp] theorem State.setCtx_sec (s : State) (t c : Nat) (x : Ctx) : (s.setCtx t c x).sec = s.sec := rfl
@[simp] theorem State.setCtx_core_cur (s : State) (t c : Nat) (x : Ctx) : (s.setCtx t c x).core.cur = s.core.cur := rfl
@[simp] theorem State.setCtx_core_tiles (s : State) (t c : Nat) (x : Ctx) : (s.setCtx t c x).core.tiles = s.core.tiles := rfl
@[simp] theorem State.setCtx_core_mem (s : State) (t c : Nat) (x : Ctx) : (s.setCtx t c x).core.mem = s.core.mem := rfl
@[simp] theorem State.setCtx_core_capTags (s : State) (t c : Nat) (x : Ctx) : (s.setCtx t c x).core.capTags = s.core.capTags := rfl
@[simp] theorem State.setCtx_core_exported (s : State) (t c : Nat) (x : Ctx) : (s.setCtx t c x).core.exported = s.core.exported := rfl
@[simp] theorem State.setCtx_core_remoteLines (s : State) (t c : Nat) (x : Ctx) : (s.setCtx t c x).core.remoteLines = s.core.remoteLines := rfl
@[simp] theorem State.setCtx_core_homeQ (s : State) (t c : Nat) (x : Ctx) : (s.setCtx t c x).core.homeQ = s.core.homeQ := rfl
@[simp] theorem State.setCtx_core_cmds (s : State) (t c : Nat) (x : Ctx) : (s.setCtx t c x).core.cmds = s.core.cmds := rfl
@[simp] theorem State.modCtx_now (s : State) (t c : Nat) (f : Ctx → Ctx) : (s.modCtx t c f).now = s.now := rfl
@[simp] theorem State.modCtx_freeCtr (s : State) (t c : Nat) (f : Ctx → Ctx) : (s.modCtx t c f).freeCtr = s.freeCtr := rfl
@[simp] theorem State.modCtx_nextId (s : State) (t c : Nat) (f : Ctx → Ctx) : (s.modCtx t c f).nextId = s.nextId := rfl
@[simp] theorem State.modCtx_agenda (s : State) (t c : Nat) (f : Ctx → Ctx) : (s.modCtx t c f).agenda = s.agenda := rfl
@[simp] theorem State.modCtx_cp (s : State) (t c : Nat) (f : Ctx → Ctx) : (s.modCtx t c f).cp = s.cp := rfl
@[simp] theorem State.modCtx_tab (s : State) (t c : Nat) (f : Ctx → Ctx) : (s.modCtx t c f).tab = s.tab := rfl
@[simp] theorem State.modCtx_eng (s : State) (t c : Nat) (f : Ctx → Ctx) : (s.modCtx t c f).eng = s.eng := rfl
@[simp] theorem State.modCtx_net (s : State) (t c : Nat) (f : Ctx → Ctx) : (s.modCtx t c f).net = s.net := rfl
@[simp] theorem State.modCtx_pow (s : State) (t c : Nat) (f : Ctx → Ctx) : (s.modCtx t c f).pow = s.pow := rfl
@[simp] theorem State.modCtx_sec (s : State) (t c : Nat) (f : Ctx → Ctx) : (s.modCtx t c f).sec = s.sec := rfl
@[simp] theorem State.modCtx_core_cur (s : State) (t c : Nat) (f : Ctx → Ctx) : (s.modCtx t c f).core.cur = s.core.cur := rfl
@[simp] theorem State.modCtx_core_tiles (s : State) (t c : Nat) (f : Ctx → Ctx) : (s.modCtx t c f).core.tiles = s.core.tiles := rfl
@[simp] theorem State.modCtx_core_mem (s : State) (t c : Nat) (f : Ctx → Ctx) : (s.modCtx t c f).core.mem = s.core.mem := rfl
@[simp] theorem State.modCtx_core_capTags (s : State) (t c : Nat) (f : Ctx → Ctx) : (s.modCtx t c f).core.capTags = s.core.capTags := rfl
@[simp] theorem State.modCtx_core_exported (s : State) (t c : Nat) (f : Ctx → Ctx) : (s.modCtx t c f).core.exported = s.core.exported := rfl
@[simp] theorem State.modCtx_core_remoteLines (s : State) (t c : Nat) (f : Ctx → Ctx) : (s.modCtx t c f).core.remoteLines = s.core.remoteLines := rfl
@[simp] theorem State.modCtx_core_homeQ (s : State) (t c : Nat) (f : Ctx → Ctx) : (s.modCtx t c f).core.homeQ = s.core.homeQ := rfl
@[simp] theorem State.modCtx_core_cmds (s : State) (t c : Nat) (f : Ctx → Ctx) : (s.modCtx t c f).core.cmds = s.core.cmds := rfl
@[simp] theorem State.setMe_now (s : State) (x : Ctx) : (s.setMe x).now = s.now := rfl
@[simp] theorem State.setMe_freeCtr (s : State) (x : Ctx) : (s.setMe x).freeCtr = s.freeCtr := rfl
@[simp] theorem State.setMe_nextId (s : State) (x : Ctx) : (s.setMe x).nextId = s.nextId := rfl
@[simp] theorem State.setMe_agenda (s : State) (x : Ctx) : (s.setMe x).agenda = s.agenda := rfl
@[simp] theorem State.setMe_cp (s : State) (x : Ctx) : (s.setMe x).cp = s.cp := rfl
@[simp] theorem State.setMe_tab (s : State) (x : Ctx) : (s.setMe x).tab = s.tab := rfl
@[simp] theorem State.setMe_eng (s : State) (x : Ctx) : (s.setMe x).eng = s.eng := rfl
@[simp] theorem State.setMe_net (s : State) (x : Ctx) : (s.setMe x).net = s.net := rfl
@[simp] theorem State.setMe_pow (s : State) (x : Ctx) : (s.setMe x).pow = s.pow := rfl
@[simp] theorem State.setMe_sec (s : State) (x : Ctx) : (s.setMe x).sec = s.sec := rfl
@[simp] theorem State.setMe_core_cur (s : State) (x : Ctx) : (s.setMe x).core.cur = s.core.cur := rfl
@[simp] theorem State.setMe_core_tiles (s : State) (x : Ctx) : (s.setMe x).core.tiles = s.core.tiles := rfl
@[simp] theorem State.setMe_core_mem (s : State) (x : Ctx) : (s.setMe x).core.mem = s.core.mem := rfl
@[simp] theorem State.setMe_core_capTags (s : State) (x : Ctx) : (s.setMe x).core.capTags = s.core.capTags := rfl
@[simp] theorem State.setMe_core_exported (s : State) (x : Ctx) : (s.setMe x).core.exported = s.core.exported := rfl
@[simp] theorem State.setMe_core_remoteLines (s : State) (x : Ctx) : (s.setMe x).core.remoteLines = s.core.remoteLines := rfl
@[simp] theorem State.setMe_core_homeQ (s : State) (x : Ctx) : (s.setMe x).core.homeQ = s.core.homeQ := rfl
@[simp] theorem State.setMe_core_cmds (s : State) (x : Ctx) : (s.setMe x).core.cmds = s.core.cmds := rfl
@[simp] theorem State.modMe_now (s : State) (f : Ctx → Ctx) : (s.modMe f).now = s.now := rfl
@[simp] theorem State.modMe_freeCtr (s : State) (f : Ctx → Ctx) : (s.modMe f).freeCtr = s.freeCtr := rfl
@[simp] theorem State.modMe_nextId (s : State) (f : Ctx → Ctx) : (s.modMe f).nextId = s.nextId := rfl
@[simp] theorem State.modMe_agenda (s : State) (f : Ctx → Ctx) : (s.modMe f).agenda = s.agenda := rfl
@[simp] theorem State.modMe_cp (s : State) (f : Ctx → Ctx) : (s.modMe f).cp = s.cp := rfl
@[simp] theorem State.modMe_tab (s : State) (f : Ctx → Ctx) : (s.modMe f).tab = s.tab := rfl
@[simp] theorem State.modMe_eng (s : State) (f : Ctx → Ctx) : (s.modMe f).eng = s.eng := rfl
@[simp] theorem State.modMe_net (s : State) (f : Ctx → Ctx) : (s.modMe f).net = s.net := rfl
@[simp] theorem State.modMe_pow (s : State) (f : Ctx → Ctx) : (s.modMe f).pow = s.pow := rfl
@[simp] theorem State.modMe_sec (s : State) (f : Ctx → Ctx) : (s.modMe f).sec = s.sec := rfl
@[simp] theorem State.modMe_core_cur (s : State) (f : Ctx → Ctx) : (s.modMe f).core.cur = s.core.cur := rfl
@[simp] theorem State.modMe_core_tiles (s : State) (f : Ctx → Ctx) : (s.modMe f).core.tiles = s.core.tiles := rfl
@[simp] theorem State.modMe_core_mem (s : State) (f : Ctx → Ctx) : (s.modMe f).core.mem = s.core.mem := rfl
@[simp] theorem State.modMe_core_capTags (s : State) (f : Ctx → Ctx) : (s.modMe f).core.capTags = s.core.capTags := rfl
@[simp] theorem State.modMe_core_exported (s : State) (f : Ctx → Ctx) : (s.modMe f).core.exported = s.core.exported := rfl
@[simp] theorem State.modMe_core_remoteLines (s : State) (f : Ctx → Ctx) : (s.modMe f).core.remoteLines = s.core.remoteLines := rfl
@[simp] theorem State.modMe_core_homeQ (s : State) (f : Ctx → Ctx) : (s.modMe f).core.homeQ = s.core.homeQ := rfl
@[simp] theorem State.modMe_core_cmds (s : State) (f : Ctx → Ctx) : (s.modMe f).core.cmds = s.core.cmds := rfl
@[simp] theorem State.setTile_now (s : State) (t : Nat) (x : Tile) : (s.setTile t x).now = s.now := rfl
@[simp] theorem State.setTile_freeCtr (s : State) (t : Nat) (x : Tile) : (s.setTile t x).freeCtr = s.freeCtr := rfl
@[simp] theorem State.setTile_nextId (s : State) (t : Nat) (x : Tile) : (s.setTile t x).nextId = s.nextId := rfl
@[simp] theorem State.setTile_agenda (s : State) (t : Nat) (x : Tile) : (s.setTile t x).agenda = s.agenda := rfl
@[simp] theorem State.setTile_cp (s : State) (t : Nat) (x : Tile) : (s.setTile t x).cp = s.cp := rfl
@[simp] theorem State.setTile_tab (s : State) (t : Nat) (x : Tile) : (s.setTile t x).tab = s.tab := rfl
@[simp] theorem State.setTile_eng (s : State) (t : Nat) (x : Tile) : (s.setTile t x).eng = s.eng := rfl
@[simp] theorem State.setTile_net (s : State) (t : Nat) (x : Tile) : (s.setTile t x).net = s.net := rfl
@[simp] theorem State.setTile_pow (s : State) (t : Nat) (x : Tile) : (s.setTile t x).pow = s.pow := rfl
@[simp] theorem State.setTile_sec (s : State) (t : Nat) (x : Tile) : (s.setTile t x).sec = s.sec := rfl
@[simp] theorem State.setTile_core_cur (s : State) (t : Nat) (x : Tile) : (s.setTile t x).core.cur = s.core.cur := rfl
@[simp] theorem State.setTile_core_ctxs (s : State) (t : Nat) (x : Tile) : (s.setTile t x).core.ctxs = s.core.ctxs := rfl
@[simp] theorem State.setTile_core_mem (s : State) (t : Nat) (x : Tile) : (s.setTile t x).core.mem = s.core.mem := rfl
@[simp] theorem State.setTile_core_capTags (s : State) (t : Nat) (x : Tile) : (s.setTile t x).core.capTags = s.core.capTags := rfl
@[simp] theorem State.setTile_core_exported (s : State) (t : Nat) (x : Tile) : (s.setTile t x).core.exported = s.core.exported := rfl
@[simp] theorem State.setTile_core_remoteLines (s : State) (t : Nat) (x : Tile) : (s.setTile t x).core.remoteLines = s.core.remoteLines := rfl
@[simp] theorem State.setTile_core_homeQ (s : State) (t : Nat) (x : Tile) : (s.setTile t x).core.homeQ = s.core.homeQ := rfl
@[simp] theorem State.setTile_core_cmds (s : State) (t : Nat) (x : Tile) : (s.setTile t x).core.cmds = s.core.cmds := rfl
@[simp] theorem State.modTile_now (s : State) (t : Nat) (f : Tile → Tile) : (s.modTile t f).now = s.now := rfl
@[simp] theorem State.modTile_freeCtr (s : State) (t : Nat) (f : Tile → Tile) : (s.modTile t f).freeCtr = s.freeCtr := rfl
@[simp] theorem State.modTile_nextId (s : State) (t : Nat) (f : Tile → Tile) : (s.modTile t f).nextId = s.nextId := rfl
@[simp] theorem State.modTile_agenda (s : State) (t : Nat) (f : Tile → Tile) : (s.modTile t f).agenda = s.agenda := rfl
@[simp] theorem State.modTile_cp (s : State) (t : Nat) (f : Tile → Tile) : (s.modTile t f).cp = s.cp := rfl
@[simp] theorem State.modTile_tab (s : State) (t : Nat) (f : Tile → Tile) : (s.modTile t f).tab = s.tab := rfl
@[simp] theorem State.modTile_eng (s : State) (t : Nat) (f : Tile → Tile) : (s.modTile t f).eng = s.eng := rfl
@[simp] theorem State.modTile_net (s : State) (t : Nat) (f : Tile → Tile) : (s.modTile t f).net = s.net := rfl
@[simp] theorem State.modTile_pow (s : State) (t : Nat) (f : Tile → Tile) : (s.modTile t f).pow = s.pow := rfl
@[simp] theorem State.modTile_sec (s : State) (t : Nat) (f : Tile → Tile) : (s.modTile t f).sec = s.sec := rfl
@[simp] theorem State.modTile_core_cur (s : State) (t : Nat) (f : Tile → Tile) : (s.modTile t f).core.cur = s.core.cur := rfl
@[simp] theorem State.modTile_core_ctxs (s : State) (t : Nat) (f : Tile → Tile) : (s.modTile t f).core.ctxs = s.core.ctxs := rfl
@[simp] theorem State.modTile_core_mem (s : State) (t : Nat) (f : Tile → Tile) : (s.modTile t f).core.mem = s.core.mem := rfl
@[simp] theorem State.modTile_core_capTags (s : State) (t : Nat) (f : Tile → Tile) : (s.modTile t f).core.capTags = s.core.capTags := rfl
@[simp] theorem State.modTile_core_exported (s : State) (t : Nat) (f : Tile → Tile) : (s.modTile t f).core.exported = s.core.exported := rfl
@[simp] theorem State.modTile_core_remoteLines (s : State) (t : Nat) (f : Tile → Tile) : (s.modTile t f).core.remoteLines = s.core.remoteLines := rfl
@[simp] theorem State.modTile_core_homeQ (s : State) (t : Nat) (f : Tile → Tile) : (s.modTile t f).core.homeQ = s.core.homeQ := rfl
@[simp] theorem State.modTile_core_cmds (s : State) (t : Nat) (f : Tile → Tile) : (s.modTile t f).core.cmds = s.core.cmds := rfl
@[simp] theorem State.wr8_now (s : State) (pa : Nat) (v : Byte) : (s.wr8 pa v).now = s.now := rfl
@[simp] theorem State.wr8_freeCtr (s : State) (pa : Nat) (v : Byte) : (s.wr8 pa v).freeCtr = s.freeCtr := rfl
@[simp] theorem State.wr8_nextId (s : State) (pa : Nat) (v : Byte) : (s.wr8 pa v).nextId = s.nextId := rfl
@[simp] theorem State.wr8_agenda (s : State) (pa : Nat) (v : Byte) : (s.wr8 pa v).agenda = s.agenda := rfl
@[simp] theorem State.wr8_cp (s : State) (pa : Nat) (v : Byte) : (s.wr8 pa v).cp = s.cp := rfl
@[simp] theorem State.wr8_tab (s : State) (pa : Nat) (v : Byte) : (s.wr8 pa v).tab = s.tab := rfl
@[simp] theorem State.wr8_eng (s : State) (pa : Nat) (v : Byte) : (s.wr8 pa v).eng = s.eng := rfl
@[simp] theorem State.wr8_net (s : State) (pa : Nat) (v : Byte) : (s.wr8 pa v).net = s.net := rfl
@[simp] theorem State.wr8_pow (s : State) (pa : Nat) (v : Byte) : (s.wr8 pa v).pow = s.pow := rfl
@[simp] theorem State.wr8_sec (s : State) (pa : Nat) (v : Byte) : (s.wr8 pa v).sec = s.sec := rfl
@[simp] theorem State.wr8_core_cur (s : State) (pa : Nat) (v : Byte) : (s.wr8 pa v).core.cur = s.core.cur := rfl
@[simp] theorem State.wr8_core_ctxs (s : State) (pa : Nat) (v : Byte) : (s.wr8 pa v).core.ctxs = s.core.ctxs := rfl
@[simp] theorem State.wr8_core_tiles (s : State) (pa : Nat) (v : Byte) : (s.wr8 pa v).core.tiles = s.core.tiles := rfl
@[simp] theorem State.wr8_core_capTags (s : State) (pa : Nat) (v : Byte) : (s.wr8 pa v).core.capTags = untag s.core.capTags pa 1 := rfl
@[simp] theorem State.wr8_core_exported (s : State) (pa : Nat) (v : Byte) : (s.wr8 pa v).core.exported = s.core.exported := rfl
@[simp] theorem State.wr8_core_remoteLines (s : State) (pa : Nat) (v : Byte) : (s.wr8 pa v).core.remoteLines = s.core.remoteLines := rfl
@[simp] theorem State.wr8_core_homeQ (s : State) (pa : Nat) (v : Byte) : (s.wr8 pa v).core.homeQ = s.core.homeQ := rfl
@[simp] theorem State.wr8_core_cmds (s : State) (pa : Nat) (v : Byte) : (s.wr8 pa v).core.cmds = s.core.cmds := rfl
@[simp] theorem State.wrBytes_now (s : State) (pa : Nat) (bs : List Byte) : (s.wrBytes pa bs).now = s.now := rfl
@[simp] theorem State.wrBytes_freeCtr (s : State) (pa : Nat) (bs : List Byte) : (s.wrBytes pa bs).freeCtr = s.freeCtr := rfl
@[simp] theorem State.wrBytes_nextId (s : State) (pa : Nat) (bs : List Byte) : (s.wrBytes pa bs).nextId = s.nextId := rfl
@[simp] theorem State.wrBytes_agenda (s : State) (pa : Nat) (bs : List Byte) : (s.wrBytes pa bs).agenda = s.agenda := rfl
@[simp] theorem State.wrBytes_cp (s : State) (pa : Nat) (bs : List Byte) : (s.wrBytes pa bs).cp = s.cp := rfl
@[simp] theorem State.wrBytes_tab (s : State) (pa : Nat) (bs : List Byte) : (s.wrBytes pa bs).tab = s.tab := rfl
@[simp] theorem State.wrBytes_eng (s : State) (pa : Nat) (bs : List Byte) : (s.wrBytes pa bs).eng = s.eng := rfl
@[simp] theorem State.wrBytes_net (s : State) (pa : Nat) (bs : List Byte) : (s.wrBytes pa bs).net = s.net := rfl
@[simp] theorem State.wrBytes_pow (s : State) (pa : Nat) (bs : List Byte) : (s.wrBytes pa bs).pow = s.pow := rfl
@[simp] theorem State.wrBytes_sec (s : State) (pa : Nat) (bs : List Byte) : (s.wrBytes pa bs).sec = s.sec := rfl
@[simp] theorem State.wrBytes_core_cur (s : State) (pa : Nat) (bs : List Byte) : (s.wrBytes pa bs).core.cur = s.core.cur := rfl
@[simp] theorem State.wrBytes_core_ctxs (s : State) (pa : Nat) (bs : List Byte) : (s.wrBytes pa bs).core.ctxs = s.core.ctxs := rfl
@[simp] theorem State.wrBytes_core_tiles (s : State) (pa : Nat) (bs : List Byte) : (s.wrBytes pa bs).core.tiles = s.core.tiles := rfl
@[simp] theorem State.wrBytes_core_capTags (s : State) (pa : Nat) (bs : List Byte) : (s.wrBytes pa bs).core.capTags = untag s.core.capTags pa bs.length := rfl
@[simp] theorem State.wrBytes_core_exported (s : State) (pa : Nat) (bs : List Byte) : (s.wrBytes pa bs).core.exported = s.core.exported := rfl
@[simp] theorem State.wrBytes_core_remoteLines (s : State) (pa : Nat) (bs : List Byte) : (s.wrBytes pa bs).core.remoteLines = s.core.remoteLines := rfl
@[simp] theorem State.wrBytes_core_homeQ (s : State) (pa : Nat) (bs : List Byte) : (s.wrBytes pa bs).core.homeQ = s.core.homeQ := rfl
@[simp] theorem State.wrBytes_core_cmds (s : State) (pa : Nat) (bs : List Byte) : (s.wrBytes pa bs).core.cmds = s.core.cmds := rfl
@[simp] theorem State.wrNat_now (s : State) (pa n v : Nat) : (s.wrNat pa n v).now = s.now := rfl
@[simp] theorem State.wrNat_freeCtr (s : State) (pa n v : Nat) : (s.wrNat pa n v).freeCtr = s.freeCtr := rfl
@[simp] theorem State.wrNat_nextId (s : State) (pa n v : Nat) : (s.wrNat pa n v).nextId = s.nextId := rfl
@[simp] theorem State.wrNat_agenda (s : State) (pa n v : Nat) : (s.wrNat pa n v).agenda = s.agenda := rfl
@[simp] theorem State.wrNat_cp (s : State) (pa n v : Nat) : (s.wrNat pa n v).cp = s.cp := rfl
@[simp] theorem State.wrNat_tab (s : State) (pa n v : Nat) : (s.wrNat pa n v).tab = s.tab := rfl
@[simp] theorem State.wrNat_eng (s : State) (pa n v : Nat) : (s.wrNat pa n v).eng = s.eng := rfl
@[simp] theorem State.wrNat_net (s : State) (pa n v : Nat) : (s.wrNat pa n v).net = s.net := rfl
@[simp] theorem State.wrNat_pow (s : State) (pa n v : Nat) : (s.wrNat pa n v).pow = s.pow := rfl
@[simp] theorem State.wrNat_sec (s : State) (pa n v : Nat) : (s.wrNat pa n v).sec = s.sec := rfl
@[simp] theorem State.wrNat_core_cur (s : State) (pa n v : Nat) : (s.wrNat pa n v).core.cur = s.core.cur := rfl
@[simp] theorem State.wrNat_core_ctxs (s : State) (pa n v : Nat) : (s.wrNat pa n v).core.ctxs = s.core.ctxs := rfl
@[simp] theorem State.wrNat_core_tiles (s : State) (pa n v : Nat) : (s.wrNat pa n v).core.tiles = s.core.tiles := rfl
@[simp] theorem State.wrNat_core_capTags (s : State) (pa n v : Nat) : (s.wrNat pa n v).core.capTags = untag s.core.capTags pa (leBytes n v).length := rfl
@[simp] theorem State.wrNat_core_exported (s : State) (pa n v : Nat) : (s.wrNat pa n v).core.exported = s.core.exported := rfl
@[simp] theorem State.wrNat_core_remoteLines (s : State) (pa n v : Nat) : (s.wrNat pa n v).core.remoteLines = s.core.remoteLines := rfl
@[simp] theorem State.wrNat_core_homeQ (s : State) (pa n v : Nat) : (s.wrNat pa n v).core.homeQ = s.core.homeQ := rfl
@[simp] theorem State.wrNat_core_cmds (s : State) (pa n v : Nat) : (s.wrNat pa n v).core.cmds = s.core.cmds := rfl
@[simp] theorem State.wrTag_now (s : State) (pa : Nat) (v : Bool) : (s.wrTag pa v).now = s.now := rfl
@[simp] theorem State.wrTag_freeCtr (s : State) (pa : Nat) (v : Bool) : (s.wrTag pa v).freeCtr = s.freeCtr := rfl
@[simp] theorem State.wrTag_nextId (s : State) (pa : Nat) (v : Bool) : (s.wrTag pa v).nextId = s.nextId := rfl
@[simp] theorem State.wrTag_agenda (s : State) (pa : Nat) (v : Bool) : (s.wrTag pa v).agenda = s.agenda := rfl
@[simp] theorem State.wrTag_cp (s : State) (pa : Nat) (v : Bool) : (s.wrTag pa v).cp = s.cp := rfl
@[simp] theorem State.wrTag_tab (s : State) (pa : Nat) (v : Bool) : (s.wrTag pa v).tab = s.tab := rfl
@[simp] theorem State.wrTag_eng (s : State) (pa : Nat) (v : Bool) : (s.wrTag pa v).eng = s.eng := rfl
@[simp] theorem State.wrTag_net (s : State) (pa : Nat) (v : Bool) : (s.wrTag pa v).net = s.net := rfl
@[simp] theorem State.wrTag_pow (s : State) (pa : Nat) (v : Bool) : (s.wrTag pa v).pow = s.pow := rfl
@[simp] theorem State.wrTag_sec (s : State) (pa : Nat) (v : Bool) : (s.wrTag pa v).sec = s.sec := rfl
@[simp] theorem State.wrTag_core_cur (s : State) (pa : Nat) (v : Bool) : (s.wrTag pa v).core.cur = s.core.cur := rfl
@[simp] theorem State.wrTag_core_ctxs (s : State) (pa : Nat) (v : Bool) : (s.wrTag pa v).core.ctxs = s.core.ctxs := rfl
@[simp] theorem State.wrTag_core_tiles (s : State) (pa : Nat) (v : Bool) : (s.wrTag pa v).core.tiles = s.core.tiles := rfl
@[simp] theorem State.wrTag_core_mem (s : State) (pa : Nat) (v : Bool) : (s.wrTag pa v).core.mem = s.core.mem := rfl
@[simp] theorem State.wrTag_core_exported (s : State) (pa : Nat) (v : Bool) : (s.wrTag pa v).core.exported = s.core.exported := rfl
@[simp] theorem State.wrTag_core_remoteLines (s : State) (pa : Nat) (v : Bool) : (s.wrTag pa v).core.remoteLines = s.core.remoteLines := rfl
@[simp] theorem State.wrTag_core_homeQ (s : State) (pa : Nat) (v : Bool) : (s.wrTag pa v).core.homeQ = s.core.homeQ := rfl
@[simp] theorem State.wrTag_core_cmds (s : State) (pa : Nat) (v : Bool) : (s.wrTag pa v).core.cmds = s.core.cmds := rfl
@[simp] theorem State.modGang_now (s : State) (g : Nat) (f : Gang → Gang) : (s.modGang g f).now = s.now := rfl
@[simp] theorem State.modGang_freeCtr (s : State) (g : Nat) (f : Gang → Gang) : (s.modGang g f).freeCtr = s.freeCtr := rfl
@[simp] theorem State.modGang_nextId (s : State) (g : Nat) (f : Gang → Gang) : (s.modGang g f).nextId = s.nextId := rfl
@[simp] theorem State.modGang_agenda (s : State) (g : Nat) (f : Gang → Gang) : (s.modGang g f).agenda = s.agenda := rfl
@[simp] theorem State.modGang_tab (s : State) (g : Nat) (f : Gang → Gang) : (s.modGang g f).tab = s.tab := rfl
@[simp] theorem State.modGang_eng (s : State) (g : Nat) (f : Gang → Gang) : (s.modGang g f).eng = s.eng := rfl
@[simp] theorem State.modGang_net (s : State) (g : Nat) (f : Gang → Gang) : (s.modGang g f).net = s.net := rfl
@[simp] theorem State.modGang_pow (s : State) (g : Nat) (f : Gang → Gang) : (s.modGang g f).pow = s.pow := rfl
@[simp] theorem State.modGang_sec (s : State) (g : Nat) (f : Gang → Gang) : (s.modGang g f).sec = s.sec := rfl
@[simp] theorem State.modGang_core (s : State) (g : Nat) (f : Gang → Gang) : (s.modGang g f).core = s.core := rfl
@[simp] theorem State.modGang_cp_queues (s : State) (g : Nat) (f : Gang → Gang) : (s.modGang g f).cp.queues = s.cp.queues := rfl
@[simp] theorem State.modGang_cp_pending (s : State) (g : Nat) (f : Gang → Gang) : (s.modGang g f).cp.pending = s.cp.pending := rfl
@[simp] theorem State.modGang_cp_lastServiced (s : State) (g : Nat) (f : Gang → Gang) : (s.modGang g f).cp.lastServiced = s.cp.lastServiced := rfl
@[simp] theorem State.modGang_cp_regions (s : State) (g : Nat) (f : Gang → Gang) : (s.modGang g f).cp.regions = s.cp.regions := rfl
@[simp] theorem State.modGang_cp_regionEnergy (s : State) (g : Nat) (f : Gang → Gang) : (s.modGang g f).cp.regionEnergy = s.cp.regionEnergy := rfl
@[simp] theorem State.modGang_cp_insts (s : State) (g : Nat) (f : Gang → Gang) : (s.modGang g f).cp.insts = s.cp.insts := rfl
@[simp] theorem State.modGang_cp_saves (s : State) (g : Nat) (f : Gang → Gang) : (s.modGang g f).cp.saves = s.cp.saves := rfl
@[simp] theorem State.modGang_cp_usedSlots (s : State) (g : Nat) (f : Gang → Gang) : (s.modGang g f).cp.usedSlots = s.cp.usedSlots := rfl
@[simp] theorem State.modGang_cp_lottery (s : State) (g : Nat) (f : Gang → Gang) : (s.modGang g f).cp.lottery = s.cp.lottery := rfl
@[simp] theorem State.modGang_cp_plUsed (s : State) (g : Nat) (f : Gang → Gang) : (s.modGang g f).cp.plUsed = s.cp.plUsed := rfl
@[simp] theorem State.modGang_cp_plPoolUsed (s : State) (g : Nat) (f : Gang → Gang) : (s.modGang g f).cp.plPoolUsed = s.cp.plPoolUsed := rfl
@[simp] theorem State.modGang_cp_arms (s : State) (g : Nat) (f : Gang → Gang) : (s.modGang g f).cp.arms = s.cp.arms := rfl
@[simp] theorem State.modGang_cp_regens (s : State) (g : Nat) (f : Gang → Gang) : (s.modGang g f).cp.regens = s.cp.regens := rfl
@[simp] theorem State.modGang_cp_images (s : State) (g : Nat) (f : Gang → Gang) : (s.modGang g f).cp.images = s.cp.images := rfl
@[simp] theorem State.modGang_cp_loss (s : State) (g : Nat) (f : Gang → Gang) : (s.modGang g f).cp.loss = s.cp.loss := rfl
@[simp] theorem State.modInst_now (s : State) (i : Nat) (f : Inst → Inst) : (s.modInst i f).now = s.now := rfl
@[simp] theorem State.modInst_freeCtr (s : State) (i : Nat) (f : Inst → Inst) : (s.modInst i f).freeCtr = s.freeCtr := rfl
@[simp] theorem State.modInst_nextId (s : State) (i : Nat) (f : Inst → Inst) : (s.modInst i f).nextId = s.nextId := rfl
@[simp] theorem State.modInst_agenda (s : State) (i : Nat) (f : Inst → Inst) : (s.modInst i f).agenda = s.agenda := rfl
@[simp] theorem State.modInst_tab (s : State) (i : Nat) (f : Inst → Inst) : (s.modInst i f).tab = s.tab := rfl
@[simp] theorem State.modInst_eng (s : State) (i : Nat) (f : Inst → Inst) : (s.modInst i f).eng = s.eng := rfl
@[simp] theorem State.modInst_net (s : State) (i : Nat) (f : Inst → Inst) : (s.modInst i f).net = s.net := rfl
@[simp] theorem State.modInst_pow (s : State) (i : Nat) (f : Inst → Inst) : (s.modInst i f).pow = s.pow := rfl
@[simp] theorem State.modInst_sec (s : State) (i : Nat) (f : Inst → Inst) : (s.modInst i f).sec = s.sec := rfl
@[simp] theorem State.modInst_core (s : State) (i : Nat) (f : Inst → Inst) : (s.modInst i f).core = s.core := rfl
@[simp] theorem State.modInst_cp_queues (s : State) (i : Nat) (f : Inst → Inst) : (s.modInst i f).cp.queues = s.cp.queues := rfl
@[simp] theorem State.modInst_cp_pending (s : State) (i : Nat) (f : Inst → Inst) : (s.modInst i f).cp.pending = s.cp.pending := rfl
@[simp] theorem State.modInst_cp_lastServiced (s : State) (i : Nat) (f : Inst → Inst) : (s.modInst i f).cp.lastServiced = s.cp.lastServiced := rfl
@[simp] theorem State.modInst_cp_regions (s : State) (i : Nat) (f : Inst → Inst) : (s.modInst i f).cp.regions = s.cp.regions := rfl
@[simp] theorem State.modInst_cp_regionEnergy (s : State) (i : Nat) (f : Inst → Inst) : (s.modInst i f).cp.regionEnergy = s.cp.regionEnergy := rfl
@[simp] theorem State.modInst_cp_gangs (s : State) (i : Nat) (f : Inst → Inst) : (s.modInst i f).cp.gangs = s.cp.gangs := rfl
@[simp] theorem State.modInst_cp_saves (s : State) (i : Nat) (f : Inst → Inst) : (s.modInst i f).cp.saves = s.cp.saves := rfl
@[simp] theorem State.modInst_cp_usedSlots (s : State) (i : Nat) (f : Inst → Inst) : (s.modInst i f).cp.usedSlots = s.cp.usedSlots := rfl
@[simp] theorem State.modInst_cp_lottery (s : State) (i : Nat) (f : Inst → Inst) : (s.modInst i f).cp.lottery = s.cp.lottery := rfl
@[simp] theorem State.modInst_cp_plUsed (s : State) (i : Nat) (f : Inst → Inst) : (s.modInst i f).cp.plUsed = s.cp.plUsed := rfl
@[simp] theorem State.modInst_cp_plPoolUsed (s : State) (i : Nat) (f : Inst → Inst) : (s.modInst i f).cp.plPoolUsed = s.cp.plPoolUsed := rfl
@[simp] theorem State.modInst_cp_arms (s : State) (i : Nat) (f : Inst → Inst) : (s.modInst i f).cp.arms = s.cp.arms := rfl
@[simp] theorem State.modInst_cp_regens (s : State) (i : Nat) (f : Inst → Inst) : (s.modInst i f).cp.regens = s.cp.regens := rfl
@[simp] theorem State.modInst_cp_images (s : State) (i : Nat) (f : Inst → Inst) : (s.modInst i f).cp.images = s.cp.images := rfl
@[simp] theorem State.modInst_cp_loss (s : State) (i : Nat) (f : Inst → Inst) : (s.modInst i f).cp.loss = s.cp.loss := rfl
@[simp] theorem State.modQueue_now (s : State) (q : Nat) (f : Queue → Queue) : (s.modQueue q f).now = s.now := rfl
@[simp] theorem State.modQueue_freeCtr (s : State) (q : Nat) (f : Queue → Queue) : (s.modQueue q f).freeCtr = s.freeCtr := rfl
@[simp] theorem State.modQueue_nextId (s : State) (q : Nat) (f : Queue → Queue) : (s.modQueue q f).nextId = s.nextId := rfl
@[simp] theorem State.modQueue_agenda (s : State) (q : Nat) (f : Queue → Queue) : (s.modQueue q f).agenda = s.agenda := rfl
@[simp] theorem State.modQueue_tab (s : State) (q : Nat) (f : Queue → Queue) : (s.modQueue q f).tab = s.tab := rfl
@[simp] theorem State.modQueue_eng (s : State) (q : Nat) (f : Queue → Queue) : (s.modQueue q f).eng = s.eng := rfl
@[simp] theorem State.modQueue_net (s : State) (q : Nat) (f : Queue → Queue) : (s.modQueue q f).net = s.net := rfl
@[simp] theorem State.modQueue_pow (s : State) (q : Nat) (f : Queue → Queue) : (s.modQueue q f).pow = s.pow := rfl
@[simp] theorem State.modQueue_sec (s : State) (q : Nat) (f : Queue → Queue) : (s.modQueue q f).sec = s.sec := rfl
@[simp] theorem State.modQueue_core (s : State) (q : Nat) (f : Queue → Queue) : (s.modQueue q f).core = s.core := rfl
@[simp] theorem State.modQueue_cp_pending (s : State) (q : Nat) (f : Queue → Queue) : (s.modQueue q f).cp.pending = s.cp.pending := rfl
@[simp] theorem State.modQueue_cp_lastServiced (s : State) (q : Nat) (f : Queue → Queue) : (s.modQueue q f).cp.lastServiced = s.cp.lastServiced := rfl
@[simp] theorem State.modQueue_cp_regions (s : State) (q : Nat) (f : Queue → Queue) : (s.modQueue q f).cp.regions = s.cp.regions := rfl
@[simp] theorem State.modQueue_cp_regionEnergy (s : State) (q : Nat) (f : Queue → Queue) : (s.modQueue q f).cp.regionEnergy = s.cp.regionEnergy := rfl
@[simp] theorem State.modQueue_cp_insts (s : State) (q : Nat) (f : Queue → Queue) : (s.modQueue q f).cp.insts = s.cp.insts := rfl
@[simp] theorem State.modQueue_cp_gangs (s : State) (q : Nat) (f : Queue → Queue) : (s.modQueue q f).cp.gangs = s.cp.gangs := rfl
@[simp] theorem State.modQueue_cp_saves (s : State) (q : Nat) (f : Queue → Queue) : (s.modQueue q f).cp.saves = s.cp.saves := rfl
@[simp] theorem State.modQueue_cp_usedSlots (s : State) (q : Nat) (f : Queue → Queue) : (s.modQueue q f).cp.usedSlots = s.cp.usedSlots := rfl
@[simp] theorem State.modQueue_cp_lottery (s : State) (q : Nat) (f : Queue → Queue) : (s.modQueue q f).cp.lottery = s.cp.lottery := rfl
@[simp] theorem State.modQueue_cp_plUsed (s : State) (q : Nat) (f : Queue → Queue) : (s.modQueue q f).cp.plUsed = s.cp.plUsed := rfl
@[simp] theorem State.modQueue_cp_plPoolUsed (s : State) (q : Nat) (f : Queue → Queue) : (s.modQueue q f).cp.plPoolUsed = s.cp.plPoolUsed := rfl
@[simp] theorem State.modQueue_cp_arms (s : State) (q : Nat) (f : Queue → Queue) : (s.modQueue q f).cp.arms = s.cp.arms := rfl
@[simp] theorem State.modQueue_cp_regens (s : State) (q : Nat) (f : Queue → Queue) : (s.modQueue q f).cp.regens = s.cp.regens := rfl
@[simp] theorem State.modQueue_cp_images (s : State) (q : Nat) (f : Queue → Queue) : (s.modQueue q f).cp.images = s.cp.images := rfl
@[simp] theorem State.modQueue_cp_loss (s : State) (q : Nat) (f : Queue → Queue) : (s.modQueue q f).cp.loss = s.cp.loss := rfl

/-! Who issues. -/


@[simp] theorem State.setCtx_myTile (s : State) (t c : Nat) (x : Ctx) : (s.setCtx t c x).myTile = s.myTile := rfl
@[simp] theorem State.setCtx_myCtx (s : State) (t c : Nat) (x : Ctx) : (s.setCtx t c x).myCtx = s.myCtx := rfl
@[simp] theorem State.modCtx_myTile (s : State) (t c : Nat) (f : Ctx → Ctx) : (s.modCtx t c f).myTile = s.myTile := rfl
@[simp] theorem State.modCtx_myCtx (s : State) (t c : Nat) (f : Ctx → Ctx) : (s.modCtx t c f).myCtx = s.myCtx := rfl
@[simp] theorem State.setMe_myTile (s : State) (x : Ctx) : (s.setMe x).myTile = s.myTile := rfl
@[simp] theorem State.setMe_myCtx (s : State) (x : Ctx) : (s.setMe x).myCtx = s.myCtx := rfl
@[simp] theorem State.modMe_myTile (s : State) (f : Ctx → Ctx) : (s.modMe f).myTile = s.myTile := rfl
@[simp] theorem State.modMe_myCtx (s : State) (f : Ctx → Ctx) : (s.modMe f).myCtx = s.myCtx := rfl
@[simp] theorem State.setTile_myTile (s : State) (t : Nat) (x : Tile) : (s.setTile t x).myTile = s.myTile := rfl
@[simp] theorem State.setTile_myCtx (s : State) (t : Nat) (x : Tile) : (s.setTile t x).myCtx = s.myCtx := rfl
@[simp] theorem State.modTile_myTile (s : State) (t : Nat) (f : Tile → Tile) : (s.modTile t f).myTile = s.myTile := rfl
@[simp] theorem State.modTile_myCtx (s : State) (t : Nat) (f : Tile → Tile) : (s.modTile t f).myCtx = s.myCtx := rfl
@[simp] theorem State.wr8_myTile (s : State) (pa : Nat) (v : Byte) : (s.wr8 pa v).myTile = s.myTile := rfl
@[simp] theorem State.wr8_myCtx (s : State) (pa : Nat) (v : Byte) : (s.wr8 pa v).myCtx = s.myCtx := rfl
@[simp] theorem State.wrBytes_myTile (s : State) (pa : Nat) (bs : List Byte) : (s.wrBytes pa bs).myTile = s.myTile := rfl
@[simp] theorem State.wrBytes_myCtx (s : State) (pa : Nat) (bs : List Byte) : (s.wrBytes pa bs).myCtx = s.myCtx := rfl
@[simp] theorem State.wrNat_myTile (s : State) (pa n v : Nat) : (s.wrNat pa n v).myTile = s.myTile := rfl
@[simp] theorem State.wrNat_myCtx (s : State) (pa n v : Nat) : (s.wrNat pa n v).myCtx = s.myCtx := rfl
@[simp] theorem State.wrTag_myTile (s : State) (pa : Nat) (v : Bool) : (s.wrTag pa v).myTile = s.myTile := rfl
@[simp] theorem State.wrTag_myCtx (s : State) (pa : Nat) (v : Bool) : (s.wrTag pa v).myCtx = s.myCtx := rfl

/-! Contexts. -/

/-- The issuing context after it was replaced. -/
@[simp] theorem State.setMe_me (s : State) (x : Ctx) : (s.setMe x).me = x := by
  simp [State.setMe, State.setCtx, State.me, State.ctx]

/-- The issuing context after it was changed. -/
@[simp] theorem State.modMe_me (s : State) (f : Ctx → Ctx) : (s.modMe f).me = f s.me := by
  simp [State.modMe]

/-- Two replacements of the issuing context: the last stands. -/
@[simp] theorem State.setMe_setMe (s : State) (x y : Ctx) : (s.setMe x).setMe y = s.setMe y := by
  simp [State.setMe, State.setCtx]

/-- Two changes of the issuing context, one after the other. -/
@[simp] theorem State.modMe_modMe (s : State) (f g : Ctx → Ctx) : (s.modMe f).modMe g = s.modMe (fun x => g (f x)) := by
  simp [State.modMe]

/-- The context that was replaced. -/
@[simp] theorem State.setCtx_ctx (s : State) (t c : Nat) (x : Ctx) : (s.setCtx t c x).ctx t c = x := by
  simp [State.setCtx, State.ctx]

/-- The context that was changed. -/
@[simp] theorem State.modCtx_ctx (s : State) (t c : Nat) (f : Ctx → Ctx) : (s.modCtx t c f).ctx t c = f (s.ctx t c) := by
  simp [State.modCtx]

/-- Every other context stays. -/
theorem State.setCtx_ctx_other (s : State) {t c u d : Nat} (x : Ctx) (h : ctxKey u d ≠ ctxKey t c) :
    (s.setCtx t c x).ctx u d = s.ctx u d := by
  simp [State.setCtx, State.ctx, FMap.get_set_other _ _ _ _ h]

/-- Every other context stays. -/
theorem State.modMe_ctx_other (s : State) {u d : Nat} (f : Ctx → Ctx) (h : ctxKey u d ≠ ctxKey s.myTile s.myCtx) :
    (s.modMe f).ctx u d = s.ctx u d := s.setCtx_ctx_other _ h

@[simp] theorem State.modMe_tile (s : State) (f : Ctx → Ctx) (t : Nat) : (s.modMe f).tile t = s.tile t := rfl
@[simp] theorem State.modTile_me (s : State) (t : Nat) (f : Tile → Tile) : (s.modTile t f).me = s.me := rfl
@[simp] theorem State.modTile_ctx (s : State) (t u c : Nat) (f : Tile → Tile) : (s.modTile t f).ctx u c = s.ctx u c := rfl

/-! Tiles. -/

/-- The tile that was changed. -/
@[simp] theorem State.modTile_tile (s : State) (t : Nat) (f : Tile → Tile) : (s.modTile t f).tile t = f (s.tile t) := by
  simp [State.modTile, State.setTile, State.tile]

/-- Every other tile stays. -/
theorem State.modTile_tile_other (s : State) {t u : Nat} (f : Tile → Tile) (h : u ≠ t) :
    (s.modTile t f).tile u = s.tile u := by
  simp [State.modTile, State.setTile, State.tile, FMap.get_set_other _ _ _ _ h]

/-! Memory. -/

/-- A byte read where it was written. -/
@[simp] theorem State.wr8_rd8 (s : State) (pa : Nat) (v : Byte) : (s.wr8 pa v).rd8 pa = v := by
  simp [State.wr8, State.rd8]

/-- A byte read elsewhere. -/
theorem State.wr8_rd8_other (s : State) {pa qa : Nat} (v : Byte) (h : qa ≠ pa) : (s.wr8 pa v).rd8 qa = s.rd8 qa := by
  simp [State.wr8, State.rd8, FMap.get_set_other _ _ _ _ h]

/-- A byte read outside the bytes written. -/
theorem State.wrBytes_rd8_other (s : State) {pa qa : Nat} (bs : List Byte) (h : qa < pa ∨ pa + bs.length ≤ qa) :
    (s.wrBytes pa bs).rd8 qa = s.rd8 qa := FMap.get_setRun_other 0 bs s.core.mem h

/-- A byte read inside the bytes written. -/
theorem State.wrBytes_rd8 (s : State) (pa : Nat) (bs : List Byte) (i : Nat) (h : i < bs.length) :
    (s.wrBytes pa bs).rd8 (pa + i) = bs[i] := FMap.get_setRun_mem 0 bs s.core.mem pa i h

@[simp] theorem State.modMe_rd8 (s : State) (f : Ctx → Ctx) (pa : Nat) : (s.modMe f).rd8 pa = s.rd8 pa := rfl
@[simp] theorem State.modTile_rd8 (s : State) (t : Nat) (f : Tile → Tile) (pa : Nat) : (s.modTile t f).rd8 pa = s.rd8 pa := rfl

/-- The canonical form of memory is kept by each operation that writes memory. -/
theorem State.wr8_wf (s : State) (pa : Nat) (v : Byte) (w : Memory.wf s.core.mem = true) :
    Memory.wf (s.wr8 pa v).core.mem = true := FMap.wf_set 0 _ pa v w

theorem State.wrBytes_wf (s : State) (pa : Nat) (bs : List Byte) (w : Memory.wf s.core.mem = true) :
    Memory.wf (s.wrBytes pa bs).core.mem = true := FMap.wf_setRun 0 bs _ pa w

theorem State.wrNat_wf (s : State) (pa n v : Nat) (w : Memory.wf s.core.mem = true) :
    Memory.wf (s.wrNat pa n v).core.mem = true := s.wrBytes_wf pa _ w

theorem State.wrCells_wf (s : State) (cs : List (Nat × Byte)) (w : Memory.wf s.core.mem = true) :
    Memory.wf (s.wrCells cs).core.mem = true := by
  induction cs generalizing s with
  | nil => exact w
  | cons x cs ih => exact ih _ (s.wr8_wf x.1 x.2 w)

theorem State.markDirty_wf (s : State) (es : List Nat) (w : Memory.wf s.core.mem = true) :
    Memory.wf (s.markDirty es).core.mem = true := by
  induction es generalizing s with
  | nil => exact w
  | cons e es ih => exact ih _ (s.wr8_wf e _ w)

/-- Memory right after reset is canonical: nothing is listed. -/
theorem State.reset_mem_wf : Memory.wf State.reset.core.mem = true := rfl

end Sys2Proof.Machine
end

