-- ==== Sys2Proof/Laws/AtIssue.lean ====
section
/-! SUPPORT. What the frame of a slot operation answers: admitted, discarded, illegal, or stopped by its own check. -/

namespace Sys2Proof.Machine

/-- The condition of an operation that is not discarded. -/
theorem State.cond_of_not_discarded {s : State} {i : Instr} {g : Guard} (hg : (slotFields i).map SlotFields.g = some g)
    (hl : laneWise i = false) (h : s.discarded i = false) : s.cond g = true := by
  obtain ⟨f, hf, rfl⟩ := Option.map_eq_some_iff.mp hg
  simpa [State.discarded, hf, hl] using h

/-- An admitted operation answers what its effect gives. -/
theorem atIssue_admitted {i : Instr} {g : Guard} {check : State → Except Stop Unit} {eff : State → Except Stop State}
    {s : State} (h : s.Admits i) (hg : (slotFields i).map SlotFields.g = some g) (hl : laneWise i = false)
    (hc : runCheck i s = check s) : atIssue i g check eff s = finish s (eff s) := by
  have hcond := State.cond_of_not_discarded hg hl h.2.1
  have h1 : s.encStop i = .ok () := h.1
  have h3 : check s = .ok () := hc ▸ h.2.2
  simp [atIssue, h1, h3, hcond, bind, Except.bind]

/-- The same for an operation that is governed lane by lane. -/
theorem atIssueLanes_admitted {i : Instr} {check : State → Except Stop Unit} {eff : State → Except Stop State}
    {s : State} (h : s.Admits i) (hc : runCheck i s = check s) :
    atIssueLanes i check eff s = finish s (eff s) := by
  have h1 : s.encStop i = .ok () := h.1
  have h3 : check s = .ok () := hc ▸ h.2.2
  simp [atIssueLanes, h1, h3, bind, Except.bind]

/-- A discarded operation changes nothing (R72). -/
theorem atIssue_discarded {i : Instr} {g : Guard} {check : State → Except Stop Unit} {eff : State → Except Stop State}
    {s : State} (h : s.encStop i = .ok ()) (hc : s.cond g = false) : atIssue i g check eff s = .next s := by
  simp [atIssue, h, hc, finish, bind, Except.bind]

/-- An encoding check that fails is a trap taken in the state before the operation (R84). -/
theorem atIssue_illegal {i : Instr} {g : Guard} {check : State → Except Stop Unit} {eff : State → Except Stop State}
    {s : State} {tr : Trap} (h : s.encStop i = .error (.trap tr)) : atIssue i g check eff s = .next (s.takeTrap tr) := by
  simp [atIssue, h, finish, bind, Except.bind]

/-- The same for an operation that is governed lane by lane. -/
theorem atIssueLanes_illegal {i : Instr} {check : State → Except Stop Unit} {eff : State → Except Stop State}
    {s : State} {tr : Trap} (h : s.encStop i = .error (.trap tr)) : atIssueLanes i check eff s = .next (s.takeTrap tr) := by
  simp [atIssueLanes, h, finish, bind, Except.bind]

/-- An effect that succeeds is the next state. -/
@[simp] theorem finish_ok (s t : State) : finish s (.ok t) = .next t := rfl
/-- A trap is taken in the state before the operation. -/
@[simp] theorem finish_trap (s : State) (tr : Trap) : finish s (.error (.trap tr)) = .next (s.takeTrap tr) := rfl

/-- An admitted operation whose effect succeeds answers that effect. -/
theorem atIssue_next {i : Instr} {g : Guard} {check : State → Except Stop Unit} {eff : State → Except Stop State}
    {s t : State} (h : s.Admits i) (he : eff s = .ok t) (hg : (slotFields i).map SlotFields.g = some g)
    (hl : laneWise i = false) (hc : runCheck i s = check s) : atIssue i g check eff s = .next t := by
  rw [atIssue_admitted h hg hl hc, he]; rfl

/-- The same for an operation that is governed lane by lane. -/
theorem atIssueLanes_next {i : Instr} {check : State → Except Stop Unit} {eff : State → Except Stop State}
    {s t : State} (h : s.Admits i) (he : eff s = .ok t) (hc : runCheck i s = check s) :
    atIssueLanes i check eff s = .next t := by
  rw [atIssueLanes_admitted h hc, he]; rfl

/-- An admitted operation whose effect stops at a trap takes it in the state before. -/
theorem atIssue_trap {i : Instr} {g : Guard} {check : State → Except Stop Unit} {eff : State → Except Stop State}
    {s : State} {tr : Trap} (h : s.Admits i) (he : eff s = .error (.trap tr))
    (hg : (slotFields i).map SlotFields.g = some g) (hl : laneWise i = false) (hc : runCheck i s = check s) :
    atIssue i g check eff s = .next (s.takeTrap tr) := by
  rw [atIssue_admitted h hg hl hc, he]; rfl

/-- The same for an operation that is governed lane by lane. -/
theorem atIssueLanes_trap {i : Instr} {check : State → Except Stop Unit} {eff : State → Except Stop State}
    {s : State} {tr : Trap} (h : s.Admits i) (he : eff s = .error (.trap tr)) (hc : runCheck i s = check s) :
    atIssueLanes i check eff s = .next (s.takeTrap tr) := by
  rw [atIssueLanes_admitted h hc, he]; rfl

/-- What a check that passes has found. -/
theorem require_ok {b : Bool} {e : Stop} (h : require b e = .ok ()) : b = true := by
  unfold require at h; split at h <;> first | assumption | cases h

end Sys2Proof.Machine
end

