-- ==== Sys2Proof/Laws/Memory.lean ====
section
/-! SUPPORT. Memory: a read after a write, the bytes that a write leaves alone, and the canonical form that every operation over
memory keeps. -/

namespace Sys2Proof.Machine
open Sys2Proof

/-- A byte written reads back. -/
@[simp] theorem State.rd8_wr8_same (s : State) (pa : Nat) (v : Byte) : (s.wr8 pa v).rd8 pa = v :=
  FMap.get_set_same 0 s.core.mem pa v

/-- Another byte reads as before. -/
theorem State.rd8_wr8_other (s : State) {pa a : Nat} (v : Byte) (h : a ≠ pa) : (s.wr8 pa v).rd8 a = s.rd8 a :=
  FMap.get_set_other 0 0 s.core.mem v h

/-- A byte of a run written reads back. -/
theorem State.rd8_wrBytes_mem (s : State) (pa : Nat) (bs : List Byte) (i : Nat) (h : i < bs.length) :
    (s.wrBytes pa bs).rd8 (pa + i) = bs[i] := FMap.get_setRun_mem 0 bs s.core.mem pa i h

/-- Bytes outside a run written read as before. -/
theorem State.rd8_wrBytes_other (s : State) {pa a : Nat} (bs : List Byte) (h : a < pa ∨ pa + bs.length ≤ a) :
    (s.wrBytes pa bs).rd8 a = s.rd8 a := FMap.get_setRun_other 0 bs s.core.mem h

/-- Two states with the same memory have it in canonical form together. -/
theorem State.MemCanonical.congr {s t : State} (h : t.core.mem = s.core.mem) (c : s.MemCanonical) : t.MemCanonical := by
  unfold State.MemCanonical at *
  rw [h]
  exact c

theorem State.MemCanonical.wr8 {s : State} (c : s.MemCanonical) (pa : Nat) (v : Byte) : (s.wr8 pa v).MemCanonical :=
  FMap.wf_set 0 s.core.mem pa v c

theorem State.MemCanonical.wrBytes {s : State} (c : s.MemCanonical) (pa : Nat) (bs : List Byte) :
    (s.wrBytes pa bs).MemCanonical := FMap.wf_setRun 0 bs s.core.mem pa c

/-- A fold whose step keeps memory keeps it. -/
theorem foldl_mem {α : Type} (f : State → α → State) (hf : ∀ s x, (f s x).core.mem = s.core.mem) (xs : List α) (s : State) :
    (xs.foldl f s).core.mem = s.core.mem := by
  induction xs generalizing s with
  | nil => rfl
  | cons x xs ih => rw [List.foldl_cons, ih, hf]

/-- The loss of an island's volatile stores (R367) keeps the canonical form. -/
theorem State.MemCanonical.loseVolatile {s : State} (c : s.MemCanonical) (i : Nat) : (s.loseVolatile i).MemCanonical := by
  refine FMap.wf_filter 0 _ _ ?_
  rw [foldl_mem, foldl_mem]
  · exact c
  · exact fun _ _ => rfl
  · exact fun _ _ => rfl

/-- The loss of power (R376) keeps the canonical form. -/
theorem State.MemCanonical.powerLoss {s : State} (c : s.MemCanonical) : s.powerLoss.MemCanonical := by
  unfold State.powerLoss State.MemCanonical
  rw [foldl_mem]
  · exact FMap.wf_filter 0 _ _ c
  · exact fun _ _ => rfl

/-- The memory right after reset has the form. -/
theorem reset_memCanonical : State.reset.MemCanonical := rfl

end Sys2Proof.Machine
end

