-- ==== Sys2Proof/Laws/Mirror.lean ====
section
/-! SUPPORT. What a mirror entry can change: only the count of entries that the standby has not acknowledged (R398). -/

namespace Sys2Proof.Machine

/-- Everything a mirror entry can do: nothing, or one more entry due. -/
theorem State.mirror_cases (s : State) :
    s.mirror = s ∨ s.mirror =
      { s with sec := { s.sec with fw := { s.sec.fw with mirrorDue := s.sec.fw.mirrorDue + 1 } } } := by
  unfold State.mirror
  split
  · exact .inr rfl
  · exact .inl rfl

/-- A step with its mirror entry is the step, or the step with one more entry due. -/
theorem State.mirrored_cases (s t : State) : s.mirrored t = t ∨ s.mirrored t = t.mirror := by
  unfold State.mirrored
  split
  · exact .inl rfl
  · exact .inr rfl

@[simp] theorem State.mirror_core (s : State) : s.mirror.core = s.core := by
  rcases s.mirror_cases with h | h <;> rw [h]
@[simp] theorem State.mirror_cp (s : State) : s.mirror.cp = s.cp := by rcases s.mirror_cases with h | h <;> rw [h]
@[simp] theorem State.mirror_tab (s : State) : s.mirror.tab = s.tab := by rcases s.mirror_cases with h | h <;> rw [h]
@[simp] theorem State.mirror_net (s : State) : s.mirror.net = s.net := by rcases s.mirror_cases with h | h <;> rw [h]
@[simp] theorem State.mirror_pow (s : State) : s.mirror.pow = s.pow := by rcases s.mirror_cases with h | h <;> rw [h]
@[simp] theorem State.mirrored_core (s t : State) : (s.mirrored t).core = t.core := by
  rcases s.mirrored_cases t with h | h <;> simp [h]
@[simp] theorem State.mirrored_cp (s t : State) : (s.mirrored t).cp = t.cp := by
  rcases s.mirrored_cases t with h | h <;> simp [h]
@[simp] theorem State.mirrored_tab (s t : State) : (s.mirrored t).tab = t.tab := by
  rcases s.mirrored_cases t with h | h <;> simp [h]
@[simp] theorem State.mirrored_net (s t : State) : (s.mirrored t).net = t.net := by
  rcases s.mirrored_cases t with h | h <;> simp [h]
@[simp] theorem State.mirrored_pow (s t : State) : (s.mirrored t).pow = t.pow := by
  rcases s.mirrored_cases t with h | h <;> simp [h]

end Sys2Proof.Machine
end

