-- ==== Sys2Proof/Laws/Slots.lean ====
section
/-! SUPPORT. Every slot operation runs in the frame of R72 and R84, one lemma per constructor, and all of
them at once. -/

namespace Sys2Proof.Machine

/-- The operation runs in the frame of `atIssue`, with the run-time checks of `runCheck`. -/
def FramedBit (i : Instr) : Prop := ∃ eff, ∀ s, exec i s = atIssue i (guardOf i) (runCheck i) eff s
/-- The operation runs in the frame of `atIssueLanes`, with the run-time checks of `runCheck`. -/
def FramedLanes (i : Instr) : Prop := ∃ eff, ∀ s, exec i s = atIssueLanes i (runCheck i) eff s

theorem framed_nopScalar : ∀ g body, FramedBit (.nopScalar g body) := fun _ _ => ⟨_, fun s => (exec_nopScalar s _ _).trans rfl⟩
theorem framed_add : ∀ g b, FramedBit (.add g b) := fun _ _ => ⟨_, fun s => (exec_add s _ _).trans rfl⟩
theorem framed_sub : ∀ g b, FramedBit (.sub g b) := fun _ _ => ⟨_, fun s => (exec_sub s _ _).trans rfl⟩
theorem framed_mul : ∀ g b, FramedBit (.mul g b) := fun _ _ => ⟨_, fun s => (exec_mul s _ _).trans rfl⟩
theorem framed_mulh : ∀ g b, FramedBit (.mulh g b) := fun _ _ => ⟨_, fun s => (exec_mulh s _ _).trans rfl⟩
theorem framed_div : ∀ g b, FramedBit (.div g b) := fun _ _ => ⟨_, fun s => (exec_div s _ _).trans rfl⟩
theorem framed_rem : ∀ g b, FramedBit (.rem g b) := fun _ _ => ⟨_, fun s => (exec_rem s _ _).trans rfl⟩
theorem framed_and : ∀ g b, FramedBit (.and g b) := fun _ _ => ⟨_, fun s => (exec_and s _ _).trans rfl⟩
theorem framed_or : ∀ g b, FramedBit (.or g b) := fun _ _ => ⟨_, fun s => (exec_or s _ _).trans rfl⟩
theorem framed_xor : ∀ g b, FramedBit (.xor g b) := fun _ _ => ⟨_, fun s => (exec_xor s _ _).trans rfl⟩
theorem framed_andn : ∀ g b, FramedBit (.andn g b) := fun _ _ => ⟨_, fun s => (exec_andn s _ _).trans rfl⟩
theorem framed_shl : ∀ g b, FramedBit (.shl g b) := fun _ _ => ⟨_, fun s => (exec_shl s _ _).trans rfl⟩
theorem framed_shr : ∀ g b, FramedBit (.shr g b) := fun _ _ => ⟨_, fun s => (exec_shr s _ _).trans rfl⟩
theorem framed_sra : ∀ g b, FramedBit (.sra g b) := fun _ _ => ⟨_, fun s => (exec_sra s _ _).trans rfl⟩
theorem framed_min : ∀ g b, FramedBit (.min g b) := fun _ _ => ⟨_, fun s => (exec_min s _ _).trans rfl⟩
theorem framed_max : ∀ g b, FramedBit (.max g b) := fun _ _ => ⟨_, fun s => (exec_max s _ _).trans rfl⟩
theorem framed_clz : ∀ g b, FramedBit (.clz g b) := fun _ _ => ⟨_, fun s => (exec_clz s _ _).trans rfl⟩
theorem framed_popc : ∀ g b, FramedBit (.popc g b) := fun _ _ => ⟨_, fun s => (exec_popc s _ _).trans rfl⟩
theorem framed_li : ∀ g b, FramedBit (.li g b) := fun _ _ => ⟨_, fun s => (exec_li s _ _).trans rfl⟩
theorem framed_lih : ∀ g b, FramedBit (.lih g b) := fun _ _ => ⟨_, fun s => (exec_lih s _ _).trans rfl⟩
theorem framed_mov : ∀ g b, FramedBit (.mov g b) := fun _ _ => ⟨_, fun s => (exec_mov s _ _).trans rfl⟩
theorem framed_sel : ∀ g b, FramedBit (.sel g b) := fun _ _ => ⟨_, fun s => (exec_sel s _ _).trans rfl⟩
theorem framed_cmp : ∀ g b, FramedBit (.cmp g b) := fun _ _ => ⟨_, fun s => (exec_cmp s _ _).trans rfl⟩
theorem framed_pand : ∀ g b, FramedBit (.pand g b) := fun _ _ => ⟨_, fun s => (exec_pand s _ _).trans rfl⟩
theorem framed_por : ∀ g b, FramedBit (.por g b) := fun _ _ => ⟨_, fun s => (exec_por s _ _).trans rfl⟩
theorem framed_pxor : ∀ g b, FramedBit (.pxor g b) := fun _ _ => ⟨_, fun s => (exec_pxor s _ _).trans rfl⟩
theorem framed_pandn : ∀ g b, FramedBit (.pandn g b) := fun _ _ => ⟨_, fun s => (exec_pandn s _ _).trans rfl⟩
theorem framed_pset : ∀ g b, FramedBit (.pset g b) := fun _ _ => ⟨_, fun s => (exec_pset s _ _).trans rfl⟩
theorem framed_pcnt : ∀ g b, FramedBit (.pcnt g b) := fun _ _ => ⟨_, fun s => (exec_pcnt s _ _).trans rfl⟩
theorem framed_aadd : ∀ g b, FramedBit (.aadd g b) := fun _ _ => ⟨_, fun s => (exec_aadd s _ _).trans rfl⟩
theorem framed_aset : ∀ g b, FramedBit (.aset g b) := fun _ _ => ⟨_, fun s => (exec_aset s _ _).trans rfl⟩
theorem framed_aget : ∀ g b, FramedBit (.aget g b) := fun _ _ => ⟨_, fun s => (exec_aget s _ _).trans rfl⟩
theorem framed_anarrow : ∀ g b, FramedBit (.anarrow g b) := fun _ _ => ⟨_, fun s => (exec_anarrow s _ _).trans rfl⟩
theorem framed_adrop : ∀ g b, FramedBit (.adrop g b) := fun _ _ => ⟨_, fun s => (exec_adrop s _ _).trans rfl⟩
theorem framed_amov : ∀ g b, FramedBit (.amov g b) := fun _ _ => ⟨_, fun s => (exec_amov s _ _).trans rfl⟩
theorem framed_achk : ∀ g b, FramedBit (.achk g b) := fun _ _ => ⟨_, fun s => (exec_achk s _ _).trans rfl⟩
theorem framed_loop : ∀ g b, FramedBit (.loop g b) := fun _ _ => ⟨_, fun s => (exec_loop s _ _).trans rfl⟩
theorem framed_ldelta : ∀ g b, FramedBit (.ldelta g b) := fun _ _ => ⟨_, fun s => (exec_ldelta s _ _).trans rfl⟩
theorem framed_lbreak : ∀ g b, FramedBit (.lbreak g b) := fun _ _ => ⟨_, fun s => (exec_lbreak s _ _).trans rfl⟩
theorem framed_lidx : ∀ g b, FramedBit (.lidx g b) := fun _ _ => ⟨_, fun s => (exec_lidx s _ _).trans rfl⟩
theorem framed_view : ∀ g b, FramedBit (.view g b) := fun _ _ => ⟨_, fun s => (exec_view s _ _).trans rfl⟩
theorem framed_srr : ∀ g b, FramedBit (.srr g b) := fun _ _ => ⟨_, fun s => (exec_srr s _ _).trans rfl⟩
theorem framed_srw : ∀ g b, FramedBit (.srw g b) := fun _ _ => ⟨_, fun s => (exec_srw s _ _).trans rfl⟩
theorem framed_srWinWrite : ∀ g b, FramedBit (.srWinWrite g b) := fun _ _ => ⟨_, fun s => (exec_srWinWrite s _ _).trans rfl⟩
theorem framed_srPrivWrite : ∀ g b, FramedBit (.srPrivWrite g b) := fun _ _ => ⟨_, fun s => (exec_srPrivWrite s _ _).trans rfl⟩
theorem framed_rdtime : ∀ g b, FramedBit (.rdtime g b) := fun _ _ => ⟨_, fun s => (exec_rdtime s _ _).trans rfl⟩
theorem framed_pbr : ∀ g b, FramedBit (.pbr g b) := fun _ _ => ⟨_, fun s => (exec_pbr s _ _).trans rfl⟩
theorem framed_trap : ∀ g b, FramedBit (.trap g b) := fun _ _ => ⟨_, fun s => (exec_trap s _ _).trans rfl⟩
theorem framed_utret : ∀ g b, FramedBit (.utret g b) := fun _ _ => ⟨_, fun s => (exec_utret s _ _).trans rfl⟩
theorem framed_eret : ∀ g b, FramedBit (.eret g b) := fun _ _ => ⟨_, fun s => (exec_eret s _ _).trans rfl⟩
theorem framed_yield : ∀ g b, FramedBit (.yield g b) := fun _ _ => ⟨_, fun s => (exec_yield s _ _).trans rfl⟩
theorem framed_endTask : ∀ g b, FramedBit (.endTask g b) := fun _ _ => ⟨_, fun s => (exec_endTask s _ _).trans rfl⟩
theorem framed_feat : ∀ g b, FramedBit (.feat g b) := fun _ _ => ⟨_, fun s => (exec_feat s _ _).trans rfl⟩
theorem framed_nopVector : ∀ g body, FramedLanes (.nopVector g body) := fun _ _ => ⟨_, fun s => (exec_nopVector s _ _).trans rfl⟩
theorem framed_vadd : ∀ g b, FramedLanes (.vadd g b) := fun _ _ => ⟨_, fun s => (exec_vadd s _ _).trans rfl⟩
theorem framed_vsub : ∀ g b, FramedLanes (.vsub g b) := fun _ _ => ⟨_, fun s => (exec_vsub s _ _).trans rfl⟩
theorem framed_vmul : ∀ g b, FramedLanes (.vmul g b) := fun _ _ => ⟨_, fun s => (exec_vmul s _ _).trans rfl⟩
theorem framed_vfma : ∀ g b, FramedLanes (.vfma g b) := fun _ _ => ⟨_, fun s => (exec_vfma s _ _).trans rfl⟩
theorem framed_vmin : ∀ g b, FramedLanes (.vmin g b) := fun _ _ => ⟨_, fun s => (exec_vmin s _ _).trans rfl⟩
theorem framed_vmax : ∀ g b, FramedLanes (.vmax g b) := fun _ _ => ⟨_, fun s => (exec_vmax s _ _).trans rfl⟩
theorem framed_vabs : ∀ g b, FramedLanes (.vabs g b) := fun _ _ => ⟨_, fun s => (exec_vabs s _ _).trans rfl⟩
theorem framed_vneg : ∀ g b, FramedLanes (.vneg g b) := fun _ _ => ⟨_, fun s => (exec_vneg s _ _).trans rfl⟩
theorem framed_vand : ∀ g b, FramedLanes (.vand g b) := fun _ _ => ⟨_, fun s => (exec_vand s _ _).trans rfl⟩
theorem framed_vor : ∀ g b, FramedLanes (.vor g b) := fun _ _ => ⟨_, fun s => (exec_vor s _ _).trans rfl⟩
theorem framed_vxor : ∀ g b, FramedLanes (.vxor g b) := fun _ _ => ⟨_, fun s => (exec_vxor s _ _).trans rfl⟩
theorem framed_vshl : ∀ g b, FramedLanes (.vshl g b) := fun _ _ => ⟨_, fun s => (exec_vshl s _ _).trans rfl⟩
theorem framed_vshr : ∀ g b, FramedLanes (.vshr g b) := fun _ _ => ⟨_, fun s => (exec_vshr s _ _).trans rfl⟩
theorem framed_vcmp : ∀ g b, FramedLanes (.vcmp g b) := fun _ _ => ⟨_, fun s => (exec_vcmp s _ _).trans rfl⟩
theorem framed_vsel : ∀ g b, FramedLanes (.vsel g b) := fun _ _ => ⟨_, fun s => (exec_vsel s _ _).trans rfl⟩
theorem framed_vcvt : ∀ g b, FramedLanes (.vcvt g b) := fun _ _ => ⟨_, fun s => (exec_vcvt s _ _).trans rfl⟩
theorem framed_vquant : ∀ g b, FramedLanes (.vquant g b) := fun _ _ => ⟨_, fun s => (exec_vquant s _ _).trans rfl⟩
theorem framed_vdeq : ∀ g b, FramedLanes (.vdeq g b) := fun _ _ => ⟨_, fun s => (exec_vdeq s _ _).trans rfl⟩
theorem framed_vexp2 : ∀ g b, FramedLanes (.vexp2 g b) := fun _ _ => ⟨_, fun s => (exec_vexp2 s _ _).trans rfl⟩
theorem framed_vlog2 : ∀ g b, FramedLanes (.vlog2 g b) := fun _ _ => ⟨_, fun s => (exec_vlog2 s _ _).trans rfl⟩
theorem framed_vrcp : ∀ g b, FramedLanes (.vrcp g b) := fun _ _ => ⟨_, fun s => (exec_vrcp s _ _).trans rfl⟩
theorem framed_vrsq : ∀ g b, FramedLanes (.vrsq g b) := fun _ _ => ⟨_, fun s => (exec_vrsq s _ _).trans rfl⟩
theorem framed_vsumr : ∀ g b, FramedLanes (.vsumr g b) := fun _ _ => ⟨_, fun s => (exec_vsumr s _ _).trans rfl⟩
theorem framed_vmaxr : ∀ g b, FramedLanes (.vmaxr g b) := fun _ _ => ⟨_, fun s => (exec_vmaxr s _ _).trans rfl⟩
theorem framed_vdot : ∀ g b, FramedLanes (.vdot g b) := fun _ _ => ⟨_, fun s => (exec_vdot s _ _).trans rfl⟩
theorem framed_vshuf : ∀ g b, FramedLanes (.vshuf g b) := fun _ _ => ⟨_, fun s => (exec_vshuf s _ _).trans rfl⟩
theorem framed_vbcast : ∀ g b, FramedLanes (.vbcast g b) := fun _ _ => ⟨_, fun s => (exec_vbcast s _ _).trans rfl⟩
theorem framed_vslide : ∀ g b, FramedLanes (.vslide g b) := fun _ _ => ⟨_, fun s => (exec_vslide s _ _).trans rfl⟩
theorem framed_viota : ∀ g b, FramedLanes (.viota g b) := fun _ _ => ⟨_, fun s => (exec_viota s _ _).trans rfl⟩
theorem framed_vcompr : ∀ g b, FramedLanes (.vcompr g b) := fun _ _ => ⟨_, fun s => (exec_vcompr s _ _).trans rfl⟩
theorem framed_vpart : ∀ g b, FramedLanes (.vpart g b) := fun _ _ => ⟨_, fun s => (exec_vpart s _ _).trans rfl⟩
theorem framed_vtopk : ∀ g b, FramedLanes (.vtopk g b) := fun _ _ => ⟨_, fun s => (exec_vtopk s _ _).trans rfl⟩
theorem framed_vmovs : ∀ g b, FramedBit (.vmovs g b) := fun _ _ => ⟨_, fun s => (exec_vmovs s _ _).trans rfl⟩
theorem framed_vins : ∀ g b, FramedLanes (.vins g b) := fun _ _ => ⟨_, fun s => (exec_vins s _ _).trans rfl⟩
theorem framed_nopMatrix : ∀ g body, FramedBit (.nopMatrix g body) := fun _ _ => ⟨_, fun s => (exec_nopMatrix s _ _).trans rfl⟩
theorem framed_mzero : ∀ g b, FramedBit (.mzero g b) := fun _ _ => ⟨_, fun s => (exec_mzero s _ _).trans rfl⟩
theorem framed_manchor : ∀ g b, FramedBit (.manchor g b) := fun _ _ => ⟨_, fun s => (exec_manchor s _ _).trans rfl⟩
theorem framed_mma : ∀ g b, FramedBit (.mma g b) := fun _ _ => ⟨_, fun s => (exec_mma s _ _).trans rfl⟩
theorem framed_mmat : ∀ g b, FramedBit (.mmat g b) := fun _ _ => ⟨_, fun s => (exec_mmat s _ _).trans rfl⟩
theorem framed_mmaw : ∀ g b, FramedBit (.mmaw g b) := fun _ _ => ⟨_, fun s => (exec_mmaw s _ _).trans rfl⟩
theorem framed_mread : ∀ g b, FramedBit (.mread g b) := fun _ _ => ⟨_, fun s => (exec_mread s _ _).trans rfl⟩
theorem framed_mstat : ∀ g b, FramedBit (.mstat g b) := fun _ _ => ⟨_, fun s => (exec_mstat s _ _).trans rfl⟩
theorem framed_mclr : ∀ g b, FramedBit (.mclr g b) := fun _ _ => ⟨_, fun s => (exec_mclr s _ _).trans rfl⟩
theorem framed_tidset : ∀ g b, FramedBit (.tidset g b) := fun _ _ => ⟨_, fun s => (exec_tidset s _ _).trans rfl⟩
theorem framed_tidstep : ∀ g b, FramedBit (.tidstep g b) := fun _ _ => ⟨_, fun s => (exec_tidstep s _ _).trans rfl⟩
theorem framed_tidstepSet : ∀ g b, FramedBit (.tidstepSet g b) := fun _ _ => ⟨_, fun s => (exec_tidstepSet s _ _).trans rfl⟩
theorem framed_lrzero : ∀ g b, FramedBit (.lrzero g b) := fun _ _ => ⟨_, fun s => (exec_lrzero s _ _).trans rfl⟩
theorem framed_lrset : ∀ g b, FramedBit (.lrset g b) := fun _ _ => ⟨_, fun s => (exec_lrset s _ _).trans rfl⟩
theorem framed_lradd : ∀ g b, FramedBit (.lradd g b) := fun _ _ => ⟨_, fun s => (exec_lradd s _ _).trans rfl⟩
theorem framed_lrscale : ∀ g b, FramedBit (.lrscale g b) := fun _ _ => ⟨_, fun s => (exec_lrscale s _ _).trans rfl⟩
theorem framed_lrmul : ∀ g b, FramedBit (.lrmul g b) := fun _ _ => ⟨_, fun s => (exec_lrmul s _ _).trans rfl⟩
theorem framed_lrmuld : ∀ g b, FramedBit (.lrmuld g b) := fun _ _ => ⟨_, fun s => (exec_lrmuld s _ _).trans rfl⟩
theorem framed_lrtrunc : ∀ g b, FramedBit (.lrtrunc g b) := fun _ _ => ⟨_, fun s => (exec_lrtrunc s _ _).trans rfl⟩
theorem framed_lrdense : ∀ g b, FramedBit (.lrdense g b) := fun _ _ => ⟨_, fun s => (exec_lrdense s _ _).trans rfl⟩
theorem framed_lrcomp : ∀ g b, FramedBit (.lrcomp g b) := fun _ _ => ⟨_, fun s => (exec_lrcomp s _ _).trans rfl⟩
theorem framed_lrapply : ∀ g b, FramedBit (.lrapply g b) := fun _ _ => ⟨_, fun s => (exec_lrapply s _ _).trans rfl⟩
theorem framed_lrrank : ∀ g b, FramedBit (.lrrank g b) := fun _ _ => ⟨_, fun s => (exec_lrrank s _ _).trans rfl⟩
theorem framed_nopLoad : ∀ g body, FramedBit (.nopLoad g body) := fun _ _ => ⟨_, fun s => (exec_nopLoad s _ _).trans rfl⟩
theorem framed_ld : ∀ g b, FramedBit (.ld g b) := fun _ _ => ⟨_, fun s => (exec_ld s _ _).trans rfl⟩
theorem framed_lda : ∀ g b, FramedBit (.lda g b) := fun _ _ => ⟨_, fun s => (exec_lda s _ _).trans rfl⟩
theorem framed_lds : ∀ g b, FramedBit (.lds g b) := fun _ _ => ⟨_, fun s => (exec_lds s _ _).trans rfl⟩
theorem framed_vld : ∀ g b, FramedLanes (.vld g b) := fun _ _ => ⟨_, fun s => (exec_vld s _ _).trans rfl⟩
theorem framed_vlds : ∀ g b, FramedLanes (.vlds g b) := fun _ _ => ⟨_, fun s => (exec_vlds s _ _).trans rfl⟩
theorem framed_tlds : ∀ g b, FramedBit (.tlds g b) := fun _ _ => ⟨_, fun s => (exec_tlds s _ _).trans rfl⟩
theorem framed_vgath : ∀ g b, FramedLanes (.vgath g b) := fun _ _ => ⟨_, fun s => (exec_vgath s _ _).trans rfl⟩
theorem framed_capld : ∀ g b, FramedBit (.capld g b) := fun _ _ => ⟨_, fun s => (exec_capld s _ _).trans rfl⟩
theorem framed_lrlds : ∀ g b, FramedBit (.lrlds g b) := fun _ _ => ⟨_, fun s => (exec_lrlds s _ _).trans rfl⟩
theorem framed_nopStore : ∀ g body, FramedBit (.nopStore g body) := fun _ _ => ⟨_, fun s => (exec_nopStore s _ _).trans rfl⟩
theorem framed_st : ∀ g b, FramedBit (.st g b) := fun _ _ => ⟨_, fun s => (exec_st s _ _).trans rfl⟩
theorem framed_stl : ∀ g b, FramedBit (.stl g b) := fun _ _ => ⟨_, fun s => (exec_stl s _ _).trans rfl⟩
theorem framed_sts : ∀ g b, FramedBit (.sts g b) := fun _ _ => ⟨_, fun s => (exec_sts s _ _).trans rfl⟩
theorem framed_vst : ∀ g b, FramedLanes (.vst g b) := fun _ _ => ⟨_, fun s => (exec_vst s _ _).trans rfl⟩
theorem framed_vsts : ∀ g b, FramedLanes (.vsts g b) := fun _ _ => ⟨_, fun s => (exec_vsts s _ _).trans rfl⟩
theorem framed_tsts : ∀ g b, FramedBit (.tsts g b) := fun _ _ => ⟨_, fun s => (exec_tsts s _ _).trans rfl⟩
theorem framed_vscat : ∀ g b, FramedLanes (.vscat g b) := fun _ _ => ⟨_, fun s => (exec_vscat s _ _).trans rfl⟩
theorem framed_capst : ∀ g b, FramedBit (.capst g b) := fun _ _ => ⟨_, fun s => (exec_capst s _ _).trans rfl⟩
theorem framed_atom : ∀ g b, FramedBit (.atom g b) := fun _ _ => ⟨_, fun s => (exec_atom s _ _).trans rfl⟩
theorem framed_atoms : ∀ g b, FramedBit (.atoms g b) := fun _ _ => ⟨_, fun s => (exec_atoms s _ _).trans rfl⟩
theorem framed_lrsts : ∀ g b, FramedBit (.lrsts g b) := fun _ _ => ⟨_, fun s => (exec_lrsts s _ _).trans rfl⟩
theorem framed_nopPump : ∀ g body, FramedBit (.nopPump g body) := fun _ _ => ⟨_, fun s => (exec_nopPump s _ _).trans rfl⟩
theorem framed_pcopy : ∀ g b, FramedBit (.pcopy g b) := fun _ _ => ⟨_, fun s => (exec_pcopy s _ _).trans rfl⟩
theorem framed_pfill : ∀ g b, FramedBit (.pfill g b) := fun _ _ => ⟨_, fun s => (exec_pfill s _ _).trans rfl⟩
theorem framed_pgath : ∀ g b, FramedBit (.pgath g b) := fun _ _ => ⟨_, fun s => (exec_pgath s _ _).trans rfl⟩
theorem framed_pscat : ∀ g b, FramedBit (.pscat g b) := fun _ _ => ⟨_, fun s => (exec_pscat s _ _).trans rfl⟩
theorem framed_pdecl : ∀ g b, FramedBit (.pdecl g b) := fun _ _ => ⟨_, fun s => (exec_pdecl s _ _).trans rfl⟩
theorem framed_pflushx : ∀ g b, FramedBit (.pflushx g b) := fun _ _ => ⟨_, fun s => (exec_pflushx s _ _).trans rfl⟩
theorem framed_kvappend : ∀ g b, FramedBit (.kvappend g b) := fun _ _ => ⟨_, fun s => (exec_kvappend s _ _).trans rfl⟩
theorem framed_kvattn : ∀ g b, FramedBit (.kvattn g b) := fun _ _ => ⟨_, fun s => (exec_kvattn s _ _).trans rfl⟩
theorem framed_kvscore : ∀ g b, FramedBit (.kvscore g b) := fun _ _ => ⟨_, fun s => (exec_kvscore s _ _).trans rfl⟩
theorem framed_kvseal : ∀ g b, FramedBit (.kvseal g b) := fun _ _ => ⟨_, fun s => (exec_kvseal s _ _).trans rfl⟩
theorem framed_kvcompact : ∀ g b, FramedBit (.kvcompact g b) := fun _ _ => ⟨_, fun s => (exec_kvcompact s _ _).trans rfl⟩
theorem framed_kvfork : ∀ g b, FramedBit (.kvfork g b) := fun _ _ => ⟨_, fun s => (exec_kvfork s _ _).trans rfl⟩
theorem framed_kvforkNew : ∀ g b, FramedBit (.kvforkNew g b) := fun _ _ => ⟨_, fun s => (exec_kvforkNew s _ _).trans rfl⟩
theorem framed_kvfree : ∀ g b, FramedBit (.kvfree g b) := fun _ _ => ⟨_, fun s => (exec_kvfree s _ _).trans rfl⟩
theorem framed_kvpin : ∀ g b, FramedBit (.kvpin g b) := fun _ _ => ⟨_, fun s => (exec_kvpin s _ _).trans rfl⟩
theorem framed_kvwin : ∀ g b, FramedBit (.kvwin g b) := fun _ _ => ⟨_, fun s => (exec_kvwin s _ _).trans rfl⟩
theorem framed_kvstat : ∀ g b, FramedBit (.kvstat g b) := fun _ _ => ⟨_, fun s => (exec_kvstat s _ _).trans rfl⟩
theorem framed_colar : ∀ g b, FramedBit (.colar g b) := fun _ _ => ⟨_, fun s => (exec_colar s _ _).trans rfl⟩
theorem framed_colrs : ∀ g b, FramedBit (.colrs g b) := fun _ _ => ⟨_, fun s => (exec_colrs s _ _).trans rfl⟩
theorem framed_colag : ∀ g b, FramedBit (.colag g b) := fun _ _ => ⟨_, fun s => (exec_colag s _ _).trans rfl⟩
theorem framed_colbc : ∀ g b, FramedBit (.colbc g b) := fun _ _ => ⟨_, fun s => (exec_colbc s _ _).trans rfl⟩
theorem framed_colstat : ∀ g b, FramedBit (.colstat g b) := fun _ _ => ⟨_, fun s => (exec_colstat s _ _).trans rfl⟩
theorem framed_stmget : ∀ g b, FramedBit (.stmget g b) := fun _ _ => ⟨_, fun s => (exec_stmget s _ _).trans rfl⟩
theorem framed_stmstat : ∀ g b, FramedBit (.stmstat g b) := fun _ _ => ⟨_, fun s => (exec_stmstat s _ _).trans rfl⟩
theorem framed_wjopen : ∀ g b, FramedBit (.wjopen g b) := fun _ _ => ⟨_, fun s => (exec_wjopen s _ _).trans rfl⟩
theorem framed_wjwrite : ∀ g b, FramedBit (.wjwrite g b) := fun _ _ => ⟨_, fun s => (exec_wjwrite s _ _).trans rfl⟩
theorem framed_wjcommit : ∀ g b, FramedBit (.wjcommit g b) := fun _ _ => ⟨_, fun s => (exec_wjcommit s _ _).trans rfl⟩
theorem framed_wjabort : ∀ g b, FramedBit (.wjabort g b) := fun _ _ => ⟨_, fun s => (exec_wjabort s _ _).trans rfl⟩
theorem framed_wjstat : ∀ g b, FramedBit (.wjstat g b) := fun _ _ => ⟨_, fun s => (exec_wjstat s _ _).trans rfl⟩
theorem framed_nopSync : ∀ g body, FramedBit (.nopSync g body) := fun _ _ => ⟨_, fun s => (exec_nopSync s _ _).trans rfl⟩
theorem framed_br : ∀ g b, FramedBit (.br g b) := fun _ _ => ⟨_, fun s => (exec_br s _ _).trans rfl⟩
theorem framed_brl : ∀ g b, FramedBit (.brl g b) := fun _ _ => ⟨_, fun s => (exec_brl s _ _).trans rfl⟩
theorem framed_fence : ∀ g b, FramedBit (.fence g b) := fun _ _ => ⟨_, fun s => (exec_fence s _ _).trans rfl⟩
theorem framed_cbset : ∀ g b, FramedBit (.cbset g b) := fun _ _ => ⟨_, fun s => (exec_cbset s _ _).trans rfl⟩
theorem framed_cbwait : ∀ g b, FramedBit (.cbwait g b) := fun _ _ => ⟨_, fun s => (exec_cbwait s _ _).trans rfl⟩
theorem framed_cbspace : ∀ g b, FramedBit (.cbspace g b) := fun _ _ => ⟨_, fun s => (exec_cbspace s _ _).trans rfl⟩
theorem framed_cbadvProduce : ∀ g b, FramedBit (.cbadvProduce g b) := fun _ _ => ⟨_, fun s => (exec_cbadvProduce s _ _).trans rfl⟩
theorem framed_cbadvConsume : ∀ g b, FramedBit (.cbadvConsume g b) := fun _ _ => ⟨_, fun s => (exec_cbadvConsume s _ _).trans rfl⟩
theorem framed_sigwait : ∀ g b, FramedBit (.sigwait g b) := fun _ _ => ⟨_, fun s => (exec_sigwait s _ _).trans rfl⟩
theorem framed_sigadd : ∀ g b, FramedBit (.sigadd g b) := fun _ _ => ⟨_, fun s => (exec_sigadd s _ _).trans rfl⟩
theorem framed_jobraise : ∀ g b, FramedBit (.jobraise g b) := fun _ _ => ⟨_, fun s => (exec_jobraise s _ _).trans rfl⟩
theorem framed_jobpost : ∀ g b, FramedBit (.jobpost g b) := fun _ _ => ⟨_, fun s => (exec_jobpost s _ _).trans rfl⟩
theorem framed_jobwait : ∀ g b, FramedBit (.jobwait g b) := fun _ _ => ⟨_, fun s => (exec_jobwait s _ _).trans rfl⟩
theorem framed_bar : ∀ g b, FramedBit (.bar g b) := fun _ _ => ⟨_, fun s => (exec_bar s _ _).trans rfl⟩
theorem framed_launch : ∀ g b, FramedBit (.launch g b) := fun _ _ => ⟨_, fun s => (exec_launch s _ _).trans rfl⟩
theorem framed_launchNb : ∀ g b, FramedBit (.launchNb g b) := fun _ _ => ⟨_, fun s => (exec_launchNb s _ _).trans rfl⟩
theorem framed_evread : ∀ g b, FramedBit (.evread g b) := fun _ _ => ⟨_, fun s => (exec_evread s _ _).trans rfl⟩
theorem framed_evwait : ∀ g b, FramedBit (.evwait g b) := fun _ _ => ⟨_, fun s => (exec_evwait s _ _).trans rfl⟩
theorem framed_chk : ∀ g b, FramedBit (.chk g b) := fun _ _ => ⟨_, fun s => (exec_chk s _ _).trans rfl⟩
theorem framed_rplw : ∀ g b, FramedBit (.rplw g b) := fun _ _ => ⟨_, fun s => (exec_rplw s _ _).trans rfl⟩
theorem framed_tickwait : ∀ g b, FramedBit (.tickwait g b) := fun _ _ => ⟨_, fun s => (exec_tickwait s _ _).trans rfl⟩

/-- Every slot operation runs in one of the two frames. -/
theorem slot_framed (i : Instr) (hs : (slotFields i).isSome = true) :
    (laneWise i = false ∧ FramedBit i) ∨ (laneWise i = true ∧ FramedLanes i) := by
  cases i with
  | nopScalar g body => exact .inl ⟨rfl, framed_nopScalar g body⟩
  | add g b => exact .inl ⟨rfl, framed_add g b⟩
  | sub g b => exact .inl ⟨rfl, framed_sub g b⟩
  | mul g b => exact .inl ⟨rfl, framed_mul g b⟩
  | mulh g b => exact .inl ⟨rfl, framed_mulh g b⟩
  | div g b => exact .inl ⟨rfl, framed_div g b⟩
  | rem g b => exact .inl ⟨rfl, framed_rem g b⟩
  | and g b => exact .inl ⟨rfl, framed_and g b⟩
  | or g b => exact .inl ⟨rfl, framed_or g b⟩
  | xor g b => exact .inl ⟨rfl, framed_xor g b⟩
  | andn g b => exact .inl ⟨rfl, framed_andn g b⟩
  | shl g b => exact .inl ⟨rfl, framed_shl g b⟩
  | shr g b => exact .inl ⟨rfl, framed_shr g b⟩
  | sra g b => exact .inl ⟨rfl, framed_sra g b⟩
  | min g b => exact .inl ⟨rfl, framed_min g b⟩
  | max g b => exact .inl ⟨rfl, framed_max g b⟩
  | clz g b => exact .inl ⟨rfl, framed_clz g b⟩
  | popc g b => exact .inl ⟨rfl, framed_popc g b⟩
  | li g b => exact .inl ⟨rfl, framed_li g b⟩
  | lih g b => exact .inl ⟨rfl, framed_lih g b⟩
  | mov g b => exact .inl ⟨rfl, framed_mov g b⟩
  | sel g b => exact .inl ⟨rfl, framed_sel g b⟩
  | cmp g b => exact .inl ⟨rfl, framed_cmp g b⟩
  | pand g b => exact .inl ⟨rfl, framed_pand g b⟩
  | por g b => exact .inl ⟨rfl, framed_por g b⟩
  | pxor g b => exact .inl ⟨rfl, framed_pxor g b⟩
  | pandn g b => exact .inl ⟨rfl, framed_pandn g b⟩
  | pset g b => exact .inl ⟨rfl, framed_pset g b⟩
  | pcnt g b => exact .inl ⟨rfl, framed_pcnt g b⟩
  | aadd g b => exact .inl ⟨rfl, framed_aadd g b⟩
  | aset g b => exact .inl ⟨rfl, framed_aset g b⟩
  | aget g b => exact .inl ⟨rfl, framed_aget g b⟩
  | anarrow g b => exact .inl ⟨rfl, framed_anarrow g b⟩
  | adrop g b => exact .inl ⟨rfl, framed_adrop g b⟩
  | amov g b => exact .inl ⟨rfl, framed_amov g b⟩
  | achk g b => exact .inl ⟨rfl, framed_achk g b⟩
  | loop g b => exact .inl ⟨rfl, framed_loop g b⟩
  | ldelta g b => exact .inl ⟨rfl, framed_ldelta g b⟩
  | lbreak g b => exact .inl ⟨rfl, framed_lbreak g b⟩
  | lidx g b => exact .inl ⟨rfl, framed_lidx g b⟩
  | view g b => exact .inl ⟨rfl, framed_view g b⟩
  | srr g b => exact .inl ⟨rfl, framed_srr g b⟩
  | srw g b => exact .inl ⟨rfl, framed_srw g b⟩
  | srWinWrite g b => exact .inl ⟨rfl, framed_srWinWrite g b⟩
  | srPrivWrite g b => exact .inl ⟨rfl, framed_srPrivWrite g b⟩
  | rdtime g b => exact .inl ⟨rfl, framed_rdtime g b⟩
  | pbr g b => exact .inl ⟨rfl, framed_pbr g b⟩
  | trap g b => exact .inl ⟨rfl, framed_trap g b⟩
  | utret g b => exact .inl ⟨rfl, framed_utret g b⟩
  | eret g b => exact .inl ⟨rfl, framed_eret g b⟩
  | yield g b => exact .inl ⟨rfl, framed_yield g b⟩
  | endTask g b => exact .inl ⟨rfl, framed_endTask g b⟩
  | feat g b => exact .inl ⟨rfl, framed_feat g b⟩
  | nopVector g body => exact .inr ⟨rfl, framed_nopVector g body⟩
  | vadd g b => exact .inr ⟨rfl, framed_vadd g b⟩
  | vsub g b => exact .inr ⟨rfl, framed_vsub g b⟩
  | vmul g b => exact .inr ⟨rfl, framed_vmul g b⟩
  | vfma g b => exact .inr ⟨rfl, framed_vfma g b⟩
  | vmin g b => exact .inr ⟨rfl, framed_vmin g b⟩
  | vmax g b => exact .inr ⟨rfl, framed_vmax g b⟩
  | vabs g b => exact .inr ⟨rfl, framed_vabs g b⟩
  | vneg g b => exact .inr ⟨rfl, framed_vneg g b⟩
  | vand g b => exact .inr ⟨rfl, framed_vand g b⟩
  | vor g b => exact .inr ⟨rfl, framed_vor g b⟩
  | vxor g b => exact .inr ⟨rfl, framed_vxor g b⟩
  | vshl g b => exact .inr ⟨rfl, framed_vshl g b⟩
  | vshr g b => exact .inr ⟨rfl, framed_vshr g b⟩
  | vcmp g b => exact .inr ⟨rfl, framed_vcmp g b⟩
  | vsel g b => exact .inr ⟨rfl, framed_vsel g b⟩
  | vcvt g b => exact .inr ⟨rfl, framed_vcvt g b⟩
  | vquant g b => exact .inr ⟨rfl, framed_vquant g b⟩
  | vdeq g b => exact .inr ⟨rfl, framed_vdeq g b⟩
  | vexp2 g b => exact .inr ⟨rfl, framed_vexp2 g b⟩
  | vlog2 g b => exact .inr ⟨rfl, framed_vlog2 g b⟩
  | vrcp g b => exact .inr ⟨rfl, framed_vrcp g b⟩
  | vrsq g b => exact .inr ⟨rfl, framed_vrsq g b⟩
  | vsumr g b => exact .inr ⟨rfl, framed_vsumr g b⟩
  | vmaxr g b => exact .inr ⟨rfl, framed_vmaxr g b⟩
  | vdot g b => exact .inr ⟨rfl, framed_vdot g b⟩
  | vshuf g b => exact .inr ⟨rfl, framed_vshuf g b⟩
  | vbcast g b => exact .inr ⟨rfl, framed_vbcast g b⟩
  | vslide g b => exact .inr ⟨rfl, framed_vslide g b⟩
  | viota g b => exact .inr ⟨rfl, framed_viota g b⟩
  | vcompr g b => exact .inr ⟨rfl, framed_vcompr g b⟩
  | vpart g b => exact .inr ⟨rfl, framed_vpart g b⟩
  | vtopk g b => exact .inr ⟨rfl, framed_vtopk g b⟩
  | vmovs g b => exact .inl ⟨rfl, framed_vmovs g b⟩
  | vins g b => exact .inr ⟨rfl, framed_vins g b⟩
  | nopMatrix g body => exact .inl ⟨rfl, framed_nopMatrix g body⟩
  | mzero g b => exact .inl ⟨rfl, framed_mzero g b⟩
  | manchor g b => exact .inl ⟨rfl, framed_manchor g b⟩
  | mma g b => exact .inl ⟨rfl, framed_mma g b⟩
  | mmat g b => exact .inl ⟨rfl, framed_mmat g b⟩
  | mmaw g b => exact .inl ⟨rfl, framed_mmaw g b⟩
  | mread g b => exact .inl ⟨rfl, framed_mread g b⟩
  | mstat g b => exact .inl ⟨rfl, framed_mstat g b⟩
  | mclr g b => exact .inl ⟨rfl, framed_mclr g b⟩
  | tidset g b => exact .inl ⟨rfl, framed_tidset g b⟩
  | tidstep g b => exact .inl ⟨rfl, framed_tidstep g b⟩
  | tidstepSet g b => exact .inl ⟨rfl, framed_tidstepSet g b⟩
  | lrzero g b => exact .inl ⟨rfl, framed_lrzero g b⟩
  | lrset g b => exact .inl ⟨rfl, framed_lrset g b⟩
  | lradd g b => exact .inl ⟨rfl, framed_lradd g b⟩
  | lrscale g b => exact .inl ⟨rfl, framed_lrscale g b⟩
  | lrmul g b => exact .inl ⟨rfl, framed_lrmul g b⟩
  | lrmuld g b => exact .inl ⟨rfl, framed_lrmuld g b⟩
  | lrtrunc g b => exact .inl ⟨rfl, framed_lrtrunc g b⟩
  | lrdense g b => exact .inl ⟨rfl, framed_lrdense g b⟩
  | lrcomp g b => exact .inl ⟨rfl, framed_lrcomp g b⟩
  | lrapply g b => exact .inl ⟨rfl, framed_lrapply g b⟩
  | lrrank g b => exact .inl ⟨rfl, framed_lrrank g b⟩
  | nopLoad g body => exact .inl ⟨rfl, framed_nopLoad g body⟩
  | ld g b => exact .inl ⟨rfl, framed_ld g b⟩
  | lda g b => exact .inl ⟨rfl, framed_lda g b⟩
  | lds g b => exact .inl ⟨rfl, framed_lds g b⟩
  | vld g b => exact .inr ⟨rfl, framed_vld g b⟩
  | vlds g b => exact .inr ⟨rfl, framed_vlds g b⟩
  | tlds g b => exact .inl ⟨rfl, framed_tlds g b⟩
  | vgath g b => exact .inr ⟨rfl, framed_vgath g b⟩
  | capld g b => exact .inl ⟨rfl, framed_capld g b⟩
  | lrlds g b => exact .inl ⟨rfl, framed_lrlds g b⟩
  | nopStore g body => exact .inl ⟨rfl, framed_nopStore g body⟩
  | st g b => exact .inl ⟨rfl, framed_st g b⟩
  | stl g b => exact .inl ⟨rfl, framed_stl g b⟩
  | sts g b => exact .inl ⟨rfl, framed_sts g b⟩
  | vst g b => exact .inr ⟨rfl, framed_vst g b⟩
  | vsts g b => exact .inr ⟨rfl, framed_vsts g b⟩
  | tsts g b => exact .inl ⟨rfl, framed_tsts g b⟩
  | vscat g b => exact .inr ⟨rfl, framed_vscat g b⟩
  | capst g b => exact .inl ⟨rfl, framed_capst g b⟩
  | atom g b => exact .inl ⟨rfl, framed_atom g b⟩
  | atoms g b => exact .inl ⟨rfl, framed_atoms g b⟩
  | lrsts g b => exact .inl ⟨rfl, framed_lrsts g b⟩
  | nopPump g body => exact .inl ⟨rfl, framed_nopPump g body⟩
  | pcopy g b => exact .inl ⟨rfl, framed_pcopy g b⟩
  | pfill g b => exact .inl ⟨rfl, framed_pfill g b⟩
  | pgath g b => exact .inl ⟨rfl, framed_pgath g b⟩
  | pscat g b => exact .inl ⟨rfl, framed_pscat g b⟩
  | pdecl g b => exact .inl ⟨rfl, framed_pdecl g b⟩
  | pflushx g b => exact .inl ⟨rfl, framed_pflushx g b⟩
  | kvappend g b => exact .inl ⟨rfl, framed_kvappend g b⟩
  | kvattn g b => exact .inl ⟨rfl, framed_kvattn g b⟩
  | kvscore g b => exact .inl ⟨rfl, framed_kvscore g b⟩
  | kvseal g b => exact .inl ⟨rfl, framed_kvseal g b⟩
  | kvcompact g b => exact .inl ⟨rfl, framed_kvcompact g b⟩
  | kvfork g b => exact .inl ⟨rfl, framed_kvfork g b⟩
  | kvforkNew g b => exact .inl ⟨rfl, framed_kvforkNew g b⟩
  | kvfree g b => exact .inl ⟨rfl, framed_kvfree g b⟩
  | kvpin g b => exact .inl ⟨rfl, framed_kvpin g b⟩
  | kvwin g b => exact .inl ⟨rfl, framed_kvwin g b⟩
  | kvstat g b => exact .inl ⟨rfl, framed_kvstat g b⟩
  | colar g b => exact .inl ⟨rfl, framed_colar g b⟩
  | colrs g b => exact .inl ⟨rfl, framed_colrs g b⟩
  | colag g b => exact .inl ⟨rfl, framed_colag g b⟩
  | colbc g b => exact .inl ⟨rfl, framed_colbc g b⟩
  | colstat g b => exact .inl ⟨rfl, framed_colstat g b⟩
  | stmget g b => exact .inl ⟨rfl, framed_stmget g b⟩
  | stmstat g b => exact .inl ⟨rfl, framed_stmstat g b⟩
  | wjopen g b => exact .inl ⟨rfl, framed_wjopen g b⟩
  | wjwrite g b => exact .inl ⟨rfl, framed_wjwrite g b⟩
  | wjcommit g b => exact .inl ⟨rfl, framed_wjcommit g b⟩
  | wjabort g b => exact .inl ⟨rfl, framed_wjabort g b⟩
  | wjstat g b => exact .inl ⟨rfl, framed_wjstat g b⟩
  | nopSync g body => exact .inl ⟨rfl, framed_nopSync g body⟩
  | br g b => exact .inl ⟨rfl, framed_br g b⟩
  | brl g b => exact .inl ⟨rfl, framed_brl g b⟩
  | fence g b => exact .inl ⟨rfl, framed_fence g b⟩
  | cbset g b => exact .inl ⟨rfl, framed_cbset g b⟩
  | cbwait g b => exact .inl ⟨rfl, framed_cbwait g b⟩
  | cbspace g b => exact .inl ⟨rfl, framed_cbspace g b⟩
  | cbadvProduce g b => exact .inl ⟨rfl, framed_cbadvProduce g b⟩
  | cbadvConsume g b => exact .inl ⟨rfl, framed_cbadvConsume g b⟩
  | sigwait g b => exact .inl ⟨rfl, framed_sigwait g b⟩
  | sigadd g b => exact .inl ⟨rfl, framed_sigadd g b⟩
  | jobraise g b => exact .inl ⟨rfl, framed_jobraise g b⟩
  | jobpost g b => exact .inl ⟨rfl, framed_jobpost g b⟩
  | jobwait g b => exact .inl ⟨rfl, framed_jobwait g b⟩
  | bar g b => exact .inl ⟨rfl, framed_bar g b⟩
  | launch g b => exact .inl ⟨rfl, framed_launch g b⟩
  | launchNb g b => exact .inl ⟨rfl, framed_launchNb g b⟩
  | evread g b => exact .inl ⟨rfl, framed_evread g b⟩
  | evwait g b => exact .inl ⟨rfl, framed_evwait g b⟩
  | chk g b => exact .inl ⟨rfl, framed_chk g b⟩
  | rplw g b => exact .inl ⟨rfl, framed_rplw g b⟩
  | tickwait g b => exact .inl ⟨rfl, framed_tickwait g b⟩
  | regionBegin => exact absurd hs Bool.false_ne_true
  | regionCommit => exact absurd hs Bool.false_ne_true
  | preemptionPoint => exact absurd hs Bool.false_ne_true
  | commitStageDeparture _ _ => exact absurd hs Bool.false_ne_true
  | engineOperationComplete _ _ => exact absurd hs Bool.false_ne_true
  | waitRelease _ _ => exact absurd hs Bool.false_ne_true
  | systemTrap _ _ _ => exact absurd hs Bool.false_ne_true
  | eventRecordPost _ _ => exact absurd hs Bool.false_ne_true
  | timingErrorReplay _ => exact absurd hs Bool.false_ne_true
  | stormPeriodEnd _ => exact absurd hs Bool.false_ne_true
  | preemptionRequestDelivery _ _ => exact absurd hs Bool.false_ne_true
  | forcedPreemption _ _ => exact absurd hs Bool.false_ne_true
  | contextSave _ _ => exact absurd hs Bool.false_ne_true
  | contextResume _ _ _ => exact absurd hs Bool.false_ne_true
  | featureMigration _ _ _ => exact absurd hs Bool.false_ne_true
  | pumpDelivery _ _ => exact absurd hs Bool.false_ne_true
  | pumpCommandComplete _ => exact absurd hs Bool.false_ne_true
  | atomicHomePerform _ => exact absurd hs Bool.false_ne_true
  | wideVariantLaunch _ => exact absurd hs Bool.false_ne_true
  | kvCommandResolve _ => exact absurd hs Bool.false_ne_true
  | compactionJob _ => exact absurd hs Bool.false_ne_true
  | compactionInstall _ => exact absurd hs Bool.false_ne_true
  | spillReadback _ _ _ => exact absurd hs Bool.false_ne_true
  | streamTokenArrival _ => exact absurd hs Bool.false_ne_true
  | tick _ => exact absurd hs Bool.false_ne_true
  | tickWakeLead _ => exact absurd hs Bool.false_ne_true
  | holdLimitExpiry _ => exact absurd hs Bool.false_ne_true
  | stmgetResolve _ => exact absurd hs Bool.false_ne_true
  | stepEnd _ => exact absurd hs Bool.false_ne_true
  | clockShareWindow _ => exact absurd hs Bool.false_ne_true
  | collectiveAccept _ => exact absurd hs Bool.false_ne_true
  | versionAgreement _ _ _ => exact absurd hs Bool.false_ne_true
  | chunkReduced _ _ _ => exact absurd hs Bool.false_ne_true
  | chunkBroadcastComplete _ _ => exact absurd hs Bool.false_ne_true
  | collectiveRecovery _ _ _ _ => exact absurd hs Bool.false_ne_true
  | collectiveTimeout _ => exact absurd hs Bool.false_ne_true
  | straitPeerDetect _ => exact absurd hs Bool.false_ne_true
  | identityFlit _ _ _ _ => exact absurd hs Bool.false_ne_true
  | straitUp _ => exact absurd hs Bool.false_ne_true
  | straitDown _ => exact absurd hs Bool.false_ne_true
  | flitCrcRetry _ _ => exact absurd hs Bool.false_ne_true
  | virtualLaneStopGo _ _ _ => exact absurd hs Bool.false_ne_true
  | linkChangeFlood _ _ => exact absurd hs Bool.false_ne_true
  | ptpSync _ _ _ => exact absurd hs Bool.false_ne_true
  | announceTimeout _ => exact absurd hs Bool.false_ne_true
  | ethernetFrameReceive _ _ _ _ _ => exact absurd hs Bool.false_ne_true
  | congestionNotification _ => exact absurd hs Bool.false_ne_true
  | rateRecovery _ => exact absurd hs Bool.false_ne_true
  | rdmaWrite _ _ _ _ => exact absurd hs Bool.false_ne_true
  | rdmaWriteWithImmediate _ _ _ _ _ => exact absurd hs Bool.false_ne_true
  | rdmaRead _ _ _ _ => exact absurd hs Bool.false_ne_true
  | notifyKick _ => exact absurd hs Bool.false_ne_true
  | pendingKickService => exact absurd hs Bool.false_ne_true
  | launchGraph _ => exact absurd hs Bool.false_ne_true
  | signalWrite _ => exact absurd hs Bool.false_ne_true
  | signalAdd _ => exact absurd hs Bool.false_ne_true
  | wait _ => exact absurd hs Bool.false_ne_true
  | copy _ => exact absurd hs Bool.false_ne_true
  | barrier _ => exact absurd hs Bool.false_ne_true
  | lease _ _ => exact absurd hs Bool.false_ne_true
  | timedArm _ => exact absurd hs Bool.false_ne_true
  | timedDisarm _ => exact absurd hs Bool.false_ne_true
  | flushExport _ => exact absurd hs Bool.false_ne_true
  | invalidate _ => exact absurd hs Bool.false_ne_true
  | regionCreate _ => exact absurd hs Bool.false_ne_true
  | regionAlter _ => exact absurd hs Bool.false_ne_true
  | regionDestroy _ => exact absurd hs Bool.false_ne_true
  | statement _ => exact absurd hs Bool.false_ne_true
  | nodeDispatch => exact absurd hs Bool.false_ne_true
  | nodeComplete _ => exact absurd hs Bool.false_ne_true
  | instanceEnd _ => exact absurd hs Bool.false_ne_true
  | queueTeardown _ => exact absurd hs Bool.false_ne_true
  | queueDrained _ => exact absurd hs Bool.false_ne_true
  | regenerationStart _ _ _ => exact absurd hs Bool.false_ne_true
  | translationWalk _ _ _ _ => exact absurd hs Bool.false_ne_true
  | islandIdle _ => exact absurd hs Bool.false_ne_true
  | islandIdleExit _ => exact absurd hs Bool.false_ne_true
  | islandPark _ => exact absurd hs Bool.false_ne_true
  | islandOff _ => exact absurd hs Bool.false_ne_true
  | islandWake _ => exact absurd hs Bool.false_ne_true
  | islandWakeComplete _ _ => exact absurd hs Bool.false_ne_true
  | resumeTrigger _ _ => exact absurd hs Bool.false_ne_true
  | driverWakeRequest _ => exact absurd hs Bool.false_ne_true
  | cisternRetain _ => exact absurd hs Bool.false_ne_true
  | cisternWake _ => exact absurd hs Bool.false_ne_true
  | cisternOffRequest _ => exact absurd hs Bool.false_ne_true
  | railSettled _ => exact absurd hs Bool.false_ne_true
  | brownOut _ => exact absurd hs Bool.false_ne_true
  | powerOnReset => exact absurd hs Bool.false_ne_true
  | islandSelfTestDone _ _ => exact absurd hs Bool.false_ne_true
  | lpddr6TrainingDone => exact absurd hs Bool.false_ne_true
  | wellScrub _ _ => exact absurd hs Bool.false_ne_true
  | journalApply _ => exact absurd hs Bool.false_ne_true
  | accountingTick => exact absurd hs Bool.false_ne_true
  | meterIntegration _ _ _ => exact absurd hs Bool.false_ne_true
  | leaseExpiry _ => exact absurd hs Bool.false_ne_true
  | leaseRevoke _ _ => exact absurd hs Bool.false_ne_true
  | heatRefresh _ => exact absurd hs Bool.false_ne_true
  | firmwareTakeover => exact absurd hs Bool.false_ne_true
  | mirrorEntry => exact absurd hs Bool.false_ne_true
  | update _ => exact absurd hs Bool.false_ne_true
  | roleSwap => exact absurd hs Bool.false_ne_true
  | fwUpdateFail => exact absurd hs Bool.false_ne_true
  | load _ _ _ => exact absurd hs Bool.false_ne_true
  | attest _ => exact absurd hs Bool.false_ne_true
  | confirm _ => exact absurd hs Bool.false_ne_true
  | heat => exact absurd hs Bool.false_ne_true
  | telemetry => exact absurd hs Bool.false_ne_true
  | versions => exact absurd hs Bool.false_ne_true
  | queueTableWrite _ _ => exact absurd hs Bool.false_ne_true
  | asidTableWrite _ _ => exact absurd hs Bool.false_ne_true
  | serviceEntryWrite _ _ => exact absurd hs Bool.false_ne_true
  | powerEntryWrite _ _ => exact absurd hs Bool.false_ne_true
  | groupEntryWrite _ _ => exact absurd hs Bool.false_ne_true
  | streamDescriptorWrite _ _ => exact absurd hs Bool.false_ne_true
  | ownerKeyWrite _ _ _ => exact absurd hs Bool.false_ne_true
  | partitionEntryWrite _ _ _ => exact absurd hs Bool.false_ne_true
  | lotterySeedWrite _ => exact absurd hs Bool.false_ne_true
  | vlanConfig _ _ => exact absurd hs Bool.false_ne_true
  | portRateSet _ _ => exact absurd hs Bool.false_ne_true
  | ptpConfig _ _ _ => exact absurd hs Bool.false_ne_true
  | straitTrainRequest _ => exact absurd hs Bool.false_ne_true
  | straitDownRequest _ => exact absurd hs Bool.false_ne_true
  | autoNegotiation _ _ => exact absurd hs Bool.false_ne_true
  | queuePairBinding _ _ _ => exact absurd hs Bool.false_ne_true

theorem guardOf_fields {i : Instr} {f : SlotFields} (h : slotFields i = some f) : guardOf i = f.g := by
  simp [guardOf, h]

end Sys2Proof.Machine
end

