-- ==== Sys2Proof/Laws/Vector.lean ====
section
/-! SUPPORT. What the shared vector forms do: packed elements, element-wise results, flags and reductions. -/

namespace Sys2Proof.Machine

theorem packElems_lt (w : Nat) : ∀ l : List Nat, packElems w l < 2 ^ (w * l.length)
  | [] => by simp [packElems]
  | c :: cs => by
    have ih := packElems_lt w cs
    have h1 : c % 2 ^ w < 2 ^ w := Nat.mod_lt _ (Nat.two_pow_pos w)
    have h2 : 2 ^ w * (packElems w cs + 1) ≤ 2 ^ w * 2 ^ (w * cs.length) := Nat.mul_le_mul_left _ ih
    rw [Nat.mul_add, Nat.mul_one] at h2
    rw [List.length_cons, Nat.mul_succ, Nat.add_comm (w * cs.length), Nat.pow_add, packElems]
    omega

/-- Element e of packed codes. -/
theorem elemAt_packElems (w : Nat) : ∀ (l : List Nat) (e : Nat), elemAt w (packElems w l) e = (l.getD e 0) % 2 ^ w
  | [], e => by simp [packElems, elemAt]
  | c :: cs, 0 => by
    simp [packElems, elemAt]
  | c :: cs, e + 1 => by
    have ih := elemAt_packElems w cs e
    have h1 : c % 2 ^ w < 2 ^ w := Nat.mod_lt _ (Nat.two_pow_pos w)
    simp only [elemAt] at ih
    simp only [packElems, elemAt, List.getD_cons_succ]
    rw [Nat.mul_succ, Nat.add_comm (w * e), Nat.pow_add, ← Nat.div_div_eq_div_mul,
      Nat.add_mul_div_left _ _ (Nat.two_pow_pos w), Nat.div_eq_of_lt h1, Nat.zero_add, ih]

theorem elemAt_lt (w N e : Nat) : elemAt w N e < 2 ^ w := Nat.mod_lt _ (Nat.two_pow_pos w)

theorem orFlags_getLsbD (k : Nat) : ∀ l : List Flags, (orFlags l).getLsbD k = l.any fun f => f.getLsbD k
  | [] => by simp [orFlags]
  | f :: fs => by simp [orFlags, BitVec.getLsbD_or, orFlags_getLsbD k fs]

/-- The elements of an element-wise result. -/
theorem mapElems_elem (m : Mask) (w n old : Nat) (f : Nat → Nat × Flags) (e : Nat) (he : e < n) :
    elemAt w (mapElems m w n old f).1 e = if activeElem m w e then (f e).1 % 2 ^ w else elemAt w old e := by
  simp only [mapElems, elemAt_packElems]
  simp only [List.map_map, List.getD_eq_getElem?_getD, List.getElem?_map, List.getElem?_range he, Option.map_some,
    Option.getD_some, Function.comp]
  split
  · rfl
  · exact Nat.mod_eq_of_lt (elemAt_lt w old e)

/-- The flags of an element-wise result. -/
theorem mapElems_flag (m : Mask) (w n old : Nat) (f : Nat → Nat × Flags) (k : Nat) :
    (mapElems m w n old f).2.getLsbD k = true ↔ ∃ e < n, activeElem m w e = true ∧ (f e).2.getLsbD k = true := by
  simp only [mapElems, orFlags_getLsbD, List.map_map, List.any_eq_true, List.mem_map, List.mem_range]
  constructor
  · rintro ⟨_, ⟨e, he, rfl⟩, hk⟩
    simp only [Function.comp] at hk
    split at hk
    · exact ⟨e, he, by assumption, hk⟩
    · simp at hk
  · rintro ⟨e, he, ha, hk⟩
    exact ⟨_, ⟨e, he, rfl⟩, by simpa [Function.comp, ha] using hk⟩

theorem mapElems_lt (m : Mask) (w n old : Nat) (f : Nat → Nat × Flags) : (mapElems m w n old f).1 < 2 ^ (w * n) := by
  have := packElems_lt w (((List.range n).map fun e => if activeElem m w e then f e else (elemAt w old e, 0)).map Prod.fst)
  simpa [mapElems] using this

/-- What `mapElems` computes is an element-wise result. -/
theorem vecResult_mapElems (s : State) (g : Guard) (r : BitVec 8) (w n : Nat) (f : Nat → Nat × Flags) :
    s.VecResult g r w n f (mapElems (s.lanes g) w n (s.vold g r 0) f).1 (mapElems (s.lanes g) w n (s.vold g r 0) f).2 :=
  ⟨mapElems_lt .., fun e he => mapElems_elem _ _ _ _ _ e he, mapElems_flag _ _ _ _ _⟩

/-- An admitted element-wise operation completes with its element function. -/
theorem vecElem_admitted {i : Instr} {g : Guard} {b : VectorBody} {f : Nat → Nat → Nat → Nat → Nat × Flags} {s : State}
    (h : s.Admits i) (hc : runCheck i s = .ok ()) :
    ∃ N fl, vecElem i g b f s = .next (s.vdone g b.vd N fl 0) ∧
      s.VecResult g b.vd (vtype b).bits (vtype b).count
        (fun e => f e (elemAt (vtype b).bits (s.vsrc g b.va (vtype b)) e)
          (elemAt (vtype b).bits (s.vsrc g b.vb (vtype b)) e) (elemAt (vtype b).bits (s.vsrc g b.vc (vtype b)) e)) N fl :=
  ⟨_, _, atIssueLanes_next h rfl hc, vecResult_mapElems ..⟩

/-- The elements of a reduction's result. -/
theorem replaceLow_elem (old : Nat) (vs : List Nat) (e : Nat) :
    elemAt 32 (replaceLow old vs) e = match vs[e]? with
      | some v => v % 2 ^ 32
      | none => elemAt 32 old e := by
  have hlt := packElems_lt 32 vs
  unfold replaceLow
  by_cases he : e < vs.length
  · rw [List.getElem?_eq_getElem he]
    have h1 := elemAt_packElems 32 vs e
    rw [List.getD_eq_getElem?_getD, List.getElem?_eq_getElem he, Option.getD_some] at h1
    show elemAt 32 _ e = vs[e] % 2 ^ 32
    rw [← h1]
    obtain ⟨k, hk⟩ : ∃ k, vs.length = e + 1 + k := ⟨vs.length - (e + 1), by omega⟩
    simp only [elemAt]
    rw [hk, show 32 * (e + 1 + k) = 32 * e + (32 + 32 * k) by omega, Nat.pow_add, Nat.mul_left_comm,
      Nat.add_comm, Nat.add_mul_div_left _ _ (Nat.two_pow_pos _), Nat.pow_add, Nat.mul_left_comm,
      Nat.add_mul_mod_self_left]
  · have he' : vs.length ≤ e := by omega
    rw [List.getElem?_eq_none he']
    show elemAt 32 _ e = elemAt 32 old e
    obtain ⟨k, hk⟩ : ∃ k, e = vs.length + k := ⟨e - vs.length, by omega⟩
    simp only [elemAt]
    rw [hk, Nat.mul_add, Nat.pow_add, ← Nat.div_div_eq_div_mul, Nat.add_comm,
      Nat.add_mul_div_right _ _ (Nat.two_pow_pos _), Nat.div_eq_of_lt hlt, Nat.zero_add, Nat.div_div_eq_div_mul]

end Sys2Proof.Machine
end

