-- ==== Sys2Proof/Tests/Slice0.lean ====
section
/-! SUPPORT. Tests: the words of the spec's encoding tables against the decoder, an ill-formed term for each check of
WellFormed, one-step checks against the spec's worked values, and for every obligation with hypotheses a state that
meets them. -/

namespace Sys2Proof.Tests

set_option Elab.async false
set_option maxRecDepth 100000

open Sys2Proof Sys2Proof.Machine

/-! Helpers. -/

/-- The guard of the decoding tables. -/
def gd (n : BitVec 3) : Guard := { slot := n, pn := true, pred := 9, dup := false }
/-- A guard that is always true. -/
def gu (n : BitVec 3) : Guard := { slot := n, pn := false, pred := 0, dup := false }
def sb0 : ScalarBody := .sr 9 10 11 0x1234567
def vb0 : VectorBody := { vd := 0x41, va := 0x82, vb := 3, vc := 0xC2, type := 8, aux := 0x155 }
def mb0 : MatrixBody := { dst := 2, srcA := 0x81, srcB := 0x43, tid := 0x2A, aux := 0xABCD }
def xb0 : MemBody := { data := 5, areg := 3, cls := 9, scope := 4, size := 2, off24 := 0xABCDEF }
def pb0 : PumpBody := { areg0 := 5, areg1 := 6, s0 := 0x2A, s1 := 0x15, handle := 9, cls := 7, aux := 0x1A2B4 }

/-- Whether a word decodes in a slot to an instruction. -/
def decodesTo (n : Nat) (x : SlotWord) (i : Instr) : Bool :=
  match decodeSlot n false x with
  | .ok j => decide (j = i)
  | .error _ => false

/-- R83, the scalar slot's map: one word for each opcode, with PN 1, PRED 9 and every field of the format nonzero. -/
theorem test_decode_scalar : (([
    (0x000C8928B1234567, .nopScalar (gd 0) 0x928B1234567), (0x001C8928B1234567, .add (gd 0) sb0),
    (0x002C8928B1234567, .sub (gd 0) sb0), (0x003C8928B1234567, .mul (gd 0) sb0),
    (0x004C8928B1234567, .mulh (gd 0) sb0), (0x005C8928B1234567, .div (gd 0) sb0),
    (0x006C8928B1234567, .rem (gd 0) sb0), (0x007C8928B1234567, .and (gd 0) sb0), (0x008C8928B1234567, .or (gd 0) sb0),
    (0x009C8928B1234567, .xor (gd 0) sb0), (0x00AC8928B1234567, .andn (gd 0) sb0),
    (0x00BC8928B1234567, .shl (gd 0) sb0), (0x00CC8928B1234567, .shr (gd 0) sb0),
    (0x00DC8928B1234567, .sra (gd 0) sb0), (0x00EC8928B1234567, .min (gd 0) sb0),
    (0x00FC8928B1234567, .max (gd 0) sb0), (0x010C8928B1234567, .clz (gd 0) sb0),
    (0x011C8928B1234567, .popc (gd 0) sb0), (0x012C8928B1234567, .li (gd 0) sb0),
    (0x013C8928B1234567, .lih (gd 0) sb0), (0x014C8928B1234567, .mov (gd 0) sb0),
    (0x015C8928B1234567, .sel (gd 0) sb0), (0x016C8928B1234567, .cmp (gd 0) sb0),
    (0x017C8928B1234567, .pand (gd 0) sb0), (0x018C8928B1234567, .por (gd 0) sb0),
    (0x019C8928B1234567, .pxor (gd 0) sb0), (0x01AC8928B1234567, .pandn (gd 0) sb0),
    (0x01BC8928B1234567, .pset (gd 0) sb0), (0x01CC8928B1234567, .pcnt (gd 0) sb0),
    (0x01DC8928B1234567, .aadd (gd 0) sb0), (0x01EC8928B1234567, .aset (gd 0) sb0),
    (0x01FC8928B1234567, .aget (gd 0) sb0), (0x020C8928B1234567, .anarrow (gd 0) sb0),
    (0x021C8928B1234567, .adrop (gd 0) sb0), (0x022C8928B1234567, .amov (gd 0) sb0),
    (0x023C8928B1234567, .achk (gd 0) sb0), (0x024C8928B1234567, .loop (gd 0) sb0),
    (0x025C8928B1234567, .ldelta (gd 0) sb0), (0x026C8928B1234567, .lbreak (gd 0) sb0),
    (0x027C8928B1234567, .lidx (gd 0) sb0), (0x028C8928B1234567, .view (gd 0) sb0),
    (0x029C8928B1234567, .srr (gd 0) sb0), (0x02AC8928B1234567, .srw (gd 0) sb0),
    (0x02AC8728B1234567, .srWinWrite (gd 0) (.sr 7 10 11 0x1234567)),
    (0x02AC8628B1234567, .srPrivWrite (gd 0) (.sr 6 10 11 0x1234567)), (0x02BC8928B1234567, .rdtime (gd 0) sb0),
    (0x02CC8928B1234567, .pbr (gd 0) sb0), (0x02DC8928B1234567, .trap (gd 0) sb0),
    (0x02EC8928B1234567, .utret (gd 0) sb0), (0x02FC8928B1234567, .eret (gd 0) sb0),
    (0x030C8928B1234567, .yield (gd 0) sb0), (0x031C8928B1234567, .endTask (gd 0) sb0),
    (0x032C8928B1234567, .feat (gd 0) sb0)] : List (SlotWord × Instr)).all fun r =>
    decodesTo 0 r.1 r.2) = true := by decide +kernel

/-- R83, the vector slot's map: one word for each opcode, with PN 1, PRED 9 and every field of the format nonzero. -/
theorem test_decode_vector : (([
    (0x000CA0C101E14155, .nopVector (gd 1) 0x20C101E14155), (0x001CA0C101E14155, .vadd (gd 1) vb0),
    (0x002CA0C101E14155, .vsub (gd 1) vb0), (0x003CA0C101E14155, .vmul (gd 1) vb0),
    (0x004CA0C101E14155, .vfma (gd 1) vb0), (0x005CA0C101E14155, .vmin (gd 1) vb0),
    (0x006CA0C101E14155, .vmax (gd 1) vb0), (0x007CA0C101E14155, .vabs (gd 1) vb0),
    (0x008CA0C101E14155, .vneg (gd 1) vb0), (0x009CA0C101E14155, .vand (gd 1) vb0),
    (0x00ACA0C101E14155, .vor (gd 1) vb0), (0x00BCA0C101E14155, .vxor (gd 1) vb0),
    (0x00CCA0C101E14155, .vshl (gd 1) vb0), (0x00DCA0C101E14155, .vshr (gd 1) vb0),
    (0x00ECA0C101E14155, .vcmp (gd 1) vb0), (0x00FCA0C101E14155, .vsel (gd 1) vb0),
    (0x010CA0C101E14155, .vcvt (gd 1) vb0), (0x011CA0C101E14155, .vquant (gd 1) vb0),
    (0x012CA0C101E14155, .vdeq (gd 1) vb0), (0x013CA0C101E14155, .vexp2 (gd 1) vb0),
    (0x014CA0C101E14155, .vlog2 (gd 1) vb0), (0x015CA0C101E14155, .vrcp (gd 1) vb0),
    (0x016CA0C101E14155, .vrsq (gd 1) vb0), (0x017CA0C101E14155, .vsumr (gd 1) vb0),
    (0x018CA0C101E14155, .vmaxr (gd 1) vb0), (0x019CA0C101E14155, .vdot (gd 1) vb0),
    (0x01ACA0C101E14155, .vshuf (gd 1) vb0), (0x01BCA0C101E14155, .vbcast (gd 1) vb0),
    (0x01CCA0C101E14155, .vslide (gd 1) vb0), (0x01DCA0C101E14155, .viota (gd 1) vb0),
    (0x01ECA0C101E14155, .vcompr (gd 1) vb0), (0x01FCA0C101E14155, .vpart (gd 1) vb0),
    (0x020CA0C101E14155, .vtopk (gd 1) vb0), (0x021CA0C101E14155, .vmovs (gd 1) vb0),
    (0x022CA0C101E14155, .vins (gd 1) vb0)] : List (SlotWord × Instr)).all fun r =>
    decodesTo 1 r.1 r.2) = true := by decide +kernel

/-- R83, the matrix slot's map: one word for each opcode, with PN 1, PRED 9 and every field of the format nonzero. -/
theorem test_decode_matrix : (([
    (0x000C8140A1D4ABCD, .nopMatrix (gd 3) 0x140A1D4ABCD), (0x001C8140A1D4ABCD, .mzero (gd 3) mb0),
    (0x002C8140A1D4ABCD, .manchor (gd 3) mb0), (0x003C8140A1D4ABCD, .mma (gd 3) mb0),
    (0x004C8140A1D4ABCD, .mmat (gd 3) mb0), (0x005C8140A1D4ABCD, .mmaw (gd 3) mb0),
    (0x006C8140A1D4ABCD, .mread (gd 3) mb0), (0x007C8140A1D4ABCD, .mstat (gd 3) mb0),
    (0x008C8140A1D4ABCD, .mclr (gd 3) mb0), (0x009C8140A1D4ABCD, .tidset (gd 3) mb0),
    (0x00AC8140A1D4ABCD, .tidstep (gd 3) mb0), (0x00AC8140A1D5ABCD, .tidstepSet (gd 3) { mb0 with aux := 0x1ABCD }),
    (0x00BC8140A1D4ABCD, .lrzero (gd 3) mb0), (0x00CC8140A1D4ABCD, .lrset (gd 3) mb0),
    (0x00DC8140A1D4ABCD, .lradd (gd 3) mb0), (0x00EC8140A1D4ABCD, .lrscale (gd 3) mb0),
    (0x00FC8140A1D4ABCD, .lrmul (gd 3) mb0), (0x010C8140A1D4ABCD, .lrmuld (gd 3) mb0),
    (0x011C8140A1D4ABCD, .lrtrunc (gd 3) mb0), (0x012C8140A1D4ABCD, .lrdense (gd 3) mb0),
    (0x013C8140A1D4ABCD, .lrcomp (gd 3) mb0), (0x014C8140A1D4ABCD, .lrapply (gd 3) mb0),
    (0x015C8140A1D4ABCD, .lrrank (gd 3) mb0)] : List (SlotWord × Instr)).all fun r =>
    decodesTo 3 r.1 r.2) = true := by decide +kernel

/-- R83, the load slot's map: one word for each opcode, with PN 1, PRED 9 and every field of the format nonzero. -/
theorem test_decode_load : (([
    (0x000C829CC2ABCDEF, .nopLoad (gd 4) 0x29CC2ABCDEF), (0x001C829CC2ABCDEF, .ld (gd 4) xb0),
    (0x002C829CC2ABCDEF, .lda (gd 4) xb0), (0x003C829CC2ABCDEF, .lds (gd 4) xb0),
    (0x004C829CC2ABCDEF, .vld (gd 4) xb0), (0x005C829CC2ABCDEF, .vlds (gd 4) xb0),
    (0x006C829CC2ABCDEF, .tlds (gd 4) xb0), (0x007C829CC2ABCDEF, .vgath (gd 4) xb0),
    (0x008C829CC2ABCDEF, .capld (gd 4) xb0), (0x009C829CC2ABCDEF, .lrlds (gd 4) xb0)] : List (SlotWord × Instr)).all fun r =>
    decodesTo 4 r.1 r.2) = true := by decide +kernel

/-- R83, the store slot's map: one word for each opcode, with PN 1, PRED 9 and every field of the format nonzero. -/
theorem test_decode_store : (([
    (0x000C829CC2ABCDEF, .nopStore (gd 5) 0x29CC2ABCDEF), (0x001C829CC2ABCDEF, .st (gd 5) xb0),
    (0x002C829CC2ABCDEF, .stl (gd 5) xb0), (0x003C829CC2ABCDEF, .sts (gd 5) xb0),
    (0x004C829CC2ABCDEF, .vst (gd 5) xb0), (0x005C829CC2ABCDEF, .vsts (gd 5) xb0),
    (0x006C829CC2ABCDEF, .tsts (gd 5) xb0), (0x007C829CC2ABCDEF, .vscat (gd 5) xb0),
    (0x008C829CC2ABCDEF, .capst (gd 5) xb0), (0x009C829CC2ABCDEF, .atom (gd 5) xb0),
    (0x00AC829CC2ABCDEF, .atoms (gd 5) xb0), (0x00BC829CC2ABCDEF, .lrsts (gd 5) xb0)] : List (SlotWord × Instr)).all fun r =>
    decodesTo 5 r.1 r.2) = true := by decide +kernel

/-- R83, the pump slot's map: one word for each opcode, with PN 1, PRED 9 and every field of the format nonzero. -/
theorem test_decode_pump : (([
    (0x000CAB54ACB9A2B4, .nopPump (gd 6) 0x2B54ACB9A2B4), (0x001CAB54ACB9A2B4, .pcopy (gd 6) pb0),
    (0x002CAB54ACB9A2B4, .pfill (gd 6) pb0), (0x003CAB54ACB9A2B4, .pgath (gd 6) pb0),
    (0x004CAB54ACB9A2B4, .pscat (gd 6) pb0), (0x005CAB54ACB9A2B4, .pdecl (gd 6) pb0),
    (0x006CAB54ACB9A2B4, .pflushx (gd 6) pb0), (0x007CAB54ACB9A2B4, .kvappend (gd 6) pb0),
    (0x008CAB54ACB9A2B4, .kvattn (gd 6) pb0), (0x009CAB54ACB9A2B4, .kvscore (gd 6) pb0),
    (0x00ACAB54ACB9A2B4, .kvseal (gd 6) pb0), (0x00BCAB54ACB9A2B4, .kvcompact (gd 6) pb0),
    (0x00CCAB54ACB9A2B4, .kvfork (gd 6) pb0), (0x00CCAB54ACB9A2B5, .kvforkNew (gd 6) { pb0 with aux := 0x1A2B5 }),
    (0x00DCAB54ACB9A2B4, .kvfree (gd 6) pb0), (0x00ECAB54ACB9A2B4, .kvpin (gd 6) pb0),
    (0x00FCAB54ACB9A2B4, .kvwin (gd 6) pb0), (0x010CAB54ACB9A2B4, .kvstat (gd 6) pb0),
    (0x011CAB54ACB9A2B4, .colar (gd 6) pb0), (0x012CAB54ACB9A2B4, .colrs (gd 6) pb0),
    (0x013CAB54ACB9A2B4, .colag (gd 6) pb0), (0x014CAB54ACB9A2B4, .colbc (gd 6) pb0),
    (0x015CAB54ACB9A2B4, .colstat (gd 6) pb0), (0x016CAB54ACB9A2B4, .stmget (gd 6) pb0),
    (0x017CAB54ACB9A2B4, .stmstat (gd 6) pb0), (0x018CAB54ACB9A2B4, .wjopen (gd 6) pb0),
    (0x019CAB54ACB9A2B4, .wjwrite (gd 6) pb0), (0x01ACAB54ACB9A2B4, .wjcommit (gd 6) pb0),
    (0x01BCAB54ACB9A2B4, .wjabort (gd 6) pb0), (0x01CCAB54ACB9A2B4, .wjstat (gd 6) pb0)] : List (SlotWord × Instr)).all fun r =>
    decodesTo 6 r.1 r.2) = true := by decide +kernel

/-- R83, the sync slot's map: one word for each opcode, with PN 1, PRED 9 and every field of the format nonzero. -/
theorem test_decode_sync : (([
    (0x000C92345678900A, .nopSync (gd 7) 0x12345678900A), (0x001C92345678900A, .br (gd 7) 0x12345678900A),
    (0x002C92345678900A, .brl (gd 7) 0x12345678900A), (0x003C92345678900A, .fence (gd 7) 0x12345678900A),
    (0x004C92345678900A, .cbset (gd 7) 0x12345678900A), (0x005C92345678900A, .cbwait (gd 7) 0x12345678900A),
    (0x006C92345678900A, .cbspace (gd 7) 0x12345678900A), (0x007C92345678900A, .cbadvProduce (gd 7) 0x12345678900A),
    (0x007C92345678908A, .cbadvConsume (gd 7) 0x12345678908A), (0x008C92345678900A, .sigwait (gd 7) 0x12345678900A),
    (0x009C92345678900A, .sigadd (gd 7) 0x12345678900A), (0x00AC92345678900A, .jobraise (gd 7) 0x12345678900A),
    (0x00BC92345678900A, .jobpost (gd 7) 0x12345678900A), (0x00CC92345678900A, .jobwait (gd 7) 0x12345678900A),
    (0x00DC92345678900A, .bar (gd 7) 0x12345678900A), (0x00EC92345678900A, .launch (gd 7) 0x12345678900A),
    (0x00EC92345678901A, .launchNb (gd 7) 0x12345678901A), (0x00FC92345678900A, .evread (gd 7) 0x12345678900A),
    (0x010C92345678900A, .evwait (gd 7) 0x12345678900A), (0x011C92345678900A, .chk (gd 7) 0x12345678900A),
    (0x012C92345678900A, .rplw (gd 7) 0x12345678900A), (0x013C92345678900A, .tickwait (gd 7) 0x12345678900A)] : List (SlotWord × Instr)).all fun r =>
    decodesTo 7 r.1 r.2) = true := by decide +kernel

/-- R83: an opcode with no entry in the map of its class decodes to no instruction. -/
theorem test_decode_unassigned : ((List.range 8).all fun n => (List.range 256).all fun opc =>
    let top := [0x32, 0x22, 0x22, 0x15, 0x09, 0x0B, 0x1C, 0x13].getD n 0
    match decodeSlot n false (BitVec.ofNat 60 (opc * 2 ^ 52)) with
    | .ok _ => decide (opc ≤ top)
    | .error e => decide (top < opc) && decide (e = .unassignedOpcode opc)) = true := by decide +kernel

/-- The words of the spec's worked examples (03, 05, 06, 07, 08, 10, 12, 11, 20, 21). -/
theorem test_decode_worked :
    decodesTo 1 0x0011020081004000 (.vadd { slot := 1, pn := false, pred := 2, dup := false }
      { vd := 4, va := 1, vb := 2, vc := 0, type := 8, aux := 0 }) = true ∧
    decodesTo 4 0x0010029803000040 (.ld (gu 4) { data := 5, areg := 3, cls := 0, scope := 0, size := 3, off24 := 0x40 }) = true ∧
    decodesTo 0 0x0240400000080003 (.loop (gu 0) (.si 0 0 0 0x80003)) = true ∧
    decodesTo 3 0x0030010080060000 (.mma (gu 3) { dst := 2, srcA := 1, srcB := 0, tid := 3, aux := 0 }) = true ∧
    decodesTo 6 0x00802B1459031003 (.kvattn (gu 6)
      { areg0 := 5, areg1 := 6, s0 := 10, s1 := 11, handle := 2, cls := 0, aux := 0x31003 }) = true ∧
    decodesTo 7 0x0070080000000081 (.cbadvConsume (gu 7) 0x80000000081) = true := by decide +kernel

/-- R68 to R70 and the bundle of 03 with VADD in slot 1 and LD in slot 4: header 0x01000112, first bytes 12 01 00 01. -/
theorem test_bundle_worked :
    let w : BitVec 512 := BitVec.ofNat 512 (0x01000112 + 0x0810040000000000 * 2 ^ 64 + 0x11020 * 2 ^ 128 +
      0x0298030000400000 * 2 ^ 256 + 0x10 * 2 ^ 320)
    illegalBundle w = false ∧ decodeHeader w = { ver := 1, reserved := 0, rc := false, rb := false, pp := true, occ := 0x12 } ∧
    slotWord w 1 = 0x0011020081004000 ∧ slotWord w 4 = 0x0010029803000040 ∧
    (decodeBundle w 0).map Prod.fst = [1, 4] ∧ (bytesOfBundle w).take 4 = [0x12, 0x01, 0x00, 0x01] ∧
    bundleOfBytes (bytesOfBundle w) = w := by decide +kernel

/-- R70: another version, a reserved header bit, a nonzero word in an unoccupied slot. -/
theorem test_bundle_illegal : illegalBundle 0x02000000 = true ∧ illegalBundle 0x01000800 = true ∧
    illegalBundle 0x80000001000000 = true ∧ illegalBundle 0x01000000 = false := by decide +kernel

/-- The three header bits as the rows of the opcode table that they are (R32, R37, R68). -/
theorem test_decode_header : decodeTableWord 0 0x01000200 = some .regionBegin ∧
    decodeTableWord 0 0x01000400 = some .regionCommit ∧ decodeTableWord 0 0x01000100 = some .preemptionPoint ∧
    decodeTableWord 0 0x01000000 = none := by decide +kernel

/-! WellFormed: an ill-formed term for each check, each refused; with the REASON (R86) and FIELDLO that the spec gives. -/

def sr (rd rs1 rs2 : BitVec 6) (aux : BitVec 28 := 0) : ScalarBody := .sr rd rs1 rs2 aux
def si (rd rs1 : BitVec 6) (imm : BitVec 32) (aux2 : BitVec 2 := 0) : ScalarBody := .si rd rs1 aux2 imm
def vv (vd va vb vc : BitVec 8) (type : BitVec 4) (aux : BitVec 11 := 0) : VectorBody := ⟨vd, va, vb, vc, type, aux⟩
def mx (dst a b : BitVec 8) (tid : BitVec 6 := 0) (aux : BitVec 17 := 0) : MatrixBody := ⟨dst, a, b, tid, aux⟩
def me (data : BitVec 8) (areg : BitVec 4) (size : BitVec 4) (off : BitVec 24 := 0) (scope : BitVec 3 := 0) : MemBody :=
  ⟨data, areg, 0, scope, size, off⟩
def pc (a0 a1 : BitVec 4) (s0 s1 : BitVec 6) (h : BitVec 4 := 0) (aux : BitVec 19 := 0) : PumpBody := ⟨a0, a1, s0, s1, h, 0, aux⟩

/-- R69: an operation in a slot that does not serve its class; R83's split rows with the other row's field. -/
theorem test_wf_slot_row : ([.add (gu 1) (sr 1 2 3), .vadd (gu 3) (vv 0 1 2 0 8), .mclr (gu 4) (mx 0 0 0), .ld (gu 5) (me 0 0 3),
      .st (gu 4) (me 0 0 3), .pcopy (gu 7) (pc 0 1 0 0), .bar (gu 6) 0,
      .srw (gu 0) (sr 7 1 0), .srw (gu 0) (sr 6 1 0), .srWinWrite (gu 0) (sr 8 1 0), .srPrivWrite (gu 0) (sr 7 1 0),
      .tidstep (gu 3) (mx 0 0 0 0 0x10000), .tidstepSet (gu 3) (mx 0 1 2), .kvfork (gu 6) (pc 0 1 0 0 0 1),
      .kvforkNew (gu 6) (pc 0 1 0 0), .cbadvProduce (gu 7) 0x80, .cbadvConsume (gu 7) 1, .launch (gu 7) 0x10, .launchNb (gu 7) 0]
      : List Instr).all (fun i => !wellFormed i) = true ∧
    ([.add (gu 0) (sr 1 2 3), .vadd (gu 2) (vv 0 1 2 0 8), .mclr (gu 3) (mx 0 0 0), .ld (gu 4) (me 0 0 3), .st (gu 5) (me 0 0 3),
      .pcopy (gu 6) (pc 0 1 0 0), .bar (gu 7) 0, .srw (gu 0) (sr 8 1 0), .srWinWrite (gu 0) (sr 7 1 0), .srPrivWrite (gu 0) (sr 6 1 0),
      .tidstep (gu 3) (mx 0 0 0), .tidstepSet (gu 3) (mx 0 1 2 0 0x10000), .kvfork (gu 6) (pc 0 1 0 0), .kvforkNew (gu 6) (pc 0 1 0 0 0 1),
      .cbadvProduce (gu 7) 1, .cbadvConsume (gu 7) 0x80, .launch (gu 7) 0, .launchNb (gu 7) 0x10] : List Instr).all wellFormed = true := by
  decide +kernel

/-- Whether the first failing encoding check of each term reports the REASON and FIELDLO beside it. -/
def refusedAs (xs : List (Instr × Nat × Nat)) : Bool :=
  xs.all fun x => !wellFormed x.1 && decide (encodingFault none x.1 = some x.2)

/-- The scalar slot's checks (R73, R76, R82, R98 to R125). -/
theorem test_wf_scalar : refusedAs [(.nopScalar { gu 0 with pn := true } 0, 3, 51), (.nopScalar { gu 0 with pred := 1 } 0, 3, 47),
    (.nopScalar (gu 0) 1, 3, 0), (.add (gu 0) (sr 1 2 3 1), 3, 0), (.add (gu 0) (si 1 2 3 2), 3, 33), (.mulh (gu 0) (sr 1 2 3 2), 3, 1),
    (.clz (gu 0) (si 1 2 0), 5, 46), (.clz (gu 0) (sr 1 2 3), 3, 28), (.popc (gu 0) (sr 1 2 0 4), 3, 0), (.li (gu 0) (sr 1 0 0), 5, 46),
    (.li (gu 0) (si 1 2 0), 3, 34), (.lih (gu 0) (si 1 0 0 1), 3, 32), (.mov (gu 0) (sr 1 2 0 5), 5, 0), (.mov (gu 0) (sr 16 2 0 1), 4, 40),
    (.mov (gu 0) (sr 1 8 0 4), 4, 34), (.mov (gu 0) (sr 1 2 1 0), 3, 28), (.mov (gu 0) (sr 1 2 0 8), 3, 3), (.sel (gu 0) (sr 1 2 3 16), 3, 4),
    (.cmp (gu 0) (sr 16 1 2 0), 4, 40), (.cmp (gu 0) (sr 1 1 2 10), 5, 0), (.cmp (gu 0) (si 1 2 0xA0000000), 5, 28),
    (.cmp (gu 0) (si 1 2 0 1), 3, 32), (.pand (gu 0) (sr 1 16 0), 4, 34), (.pandn (gu 0) (sr 1 2 16), 4, 28), (.pset (gu 0) (sr 1 0 0), 5, 46),
    (.pset (gu 0) (si 1 0 0 3), 5, 32), (.pset (gu 0) (si 1 2 5 2), 3, 0), (.pset (gu 0) (si 1 2 5 0), 3, 34), (.pcnt (gu 0) (sr 1 2 0 2), 3, 1),
    (.aadd (gu 0) (sr 16 1 0), 4, 40), (.aget (gu 0) (sr 1 2 0 7), 5, 0), (.anarrow (gu 0) (si 1 2 5 1), 3, 32),
    (.adrop (gu 0) (si 1 2 0x100), 3, 8), (.amov (gu 0) (sr 1 2 3), 3, 28), (.achk (gu 0) (sr 1 2 3 0x100), 3, 8),
    (.loop (gu 0) (si 0 0 0x80000), 5, 0), (.loop (gu 0) (sr 1 2 0 3), 3, 40), (.loop (gu 0) (sr 0 2 0 0x10001), 3, 16),
    (.ldelta (gu 0) (si 1 6 0), 4, 34), (.lbreak (gu 0) (sr 0 0 0 6), 5, 0), (.lidx (gu 0) (sr 1 0 0 16), 3, 4),
    (.view (gu 0) (sr 4 1 0), 4, 40), (.view (gu 0) (sr 0 1 2), 3, 28), (.view (gu 0) (si 0 0 0x100000), 3, 20),
    (.view (gu 0) (si 3 0 0x8000000), 3, 27), (.srr (gu 0) (sr 1 17 0), 5, 34), (.srw (gu 0) (sr 17 1 0), 5, 40),
    (.rdtime (gu 0) (sr 1 0 0 3), 5, 0), (.pbr (gu 0) (si 8 0 0), 4, 40), (.trap (gu 0) (si 0 0 0x80), 3, 7), (.utret (gu 0) (sr 0 0 0 1), 3, 0),
    (.eret (gu 0) (sr 0 1 0), 3, 34), (.endTask (gu 0) (sr 1 0 0), 3, 40), (.yield (gu 0) (sr 0 0 0 2), 3, 1), (.feat (gu 0) (si 1 1 0), 3, 34)]
    = true := by decide +kernel

/-- The vector and matrix slots' checks (R74, R77, R78, R82, R127 to R150, R161 to R182). -/
theorem test_wf_vector_matrix : refusedAs [(.vadd (gu 1) (vv 0x80 1 2 0 8), 4, 39), (.vadd (gu 1) (vv 0 0x85 2 0 8), 4, 31),
    (.vadd (gu 1) (vv 0 1 0x48 0 8), 4, 23), (.vadd (gu 1) (vv 0 1 2 1 8), 3, 15), (.vadd (gu 1) (vv 0 1 2 0 12), 2, 11),
    (.vadd (gu 1) (vv 0 1 2 0 8 0x500), 5, 8), (.vadd (gu 1) (vv 0 1 2 0 8 0x40), 3, 0), (.vmul (gu 1) (vv 0 1 2 0 8 0x40), 3, 6),
    (.vmul (gu 1) (vv 0 1 2 0 2 1), 3, 0), (.vabs (gu 1) (vv 0 1 2 0 8), 3, 23), (.vneg (gu 1) (vv 0 1 0 0 8 0x100), 3, 8),
    (.vshl (gu 1) (vv 0 1 2 0 6), 2, 11), (.vcmp (gu 1) (vv 0x10 1 2 0 8), 3, 43), (.vcmp (gu 1) (vv 1 1 2 0 8 0x200), 5, 6),
    (.vsel (gu 1) (vv 0 1 2 0x10 8), 3, 19), (.vcvt (gu 1) (vv 0 1 10 0 8), 2, 23), (.vcvt (gu 1) (vv 0 1 6 2 8), 5, 15),
    (.vcvt (gu 1) (vv 0 1 6 0 10), 2, 11), (.vcvt (gu 1) (vv 0 1 6 0 8 1), 3, 0), (.vquant (gu 1) (vv 0 1 2 0x20 8), 3, 20),
    (.vdeq (gu 1) (vv 0 1 2 0 9), 2, 11), (.vexp2 (gu 1) (vv 0 1 0 0 2), 2, 11), (.vsumr (gu 1) (vv 0 1 2 0 8 1), 3, 0),
    (.vmaxr (gu 1) (vv 0 1 0 0 8 0x80), 3, 7), (.vbcast (gu 1) (vv 0 1 0 0 8 64), 5, 0), (.vslide (gu 1) (vv 0 1 2 0 8 65), 5, 0),
    (.viota (gu 1) (vv 0 1 0 0 8), 2, 11), (.vcompr (gu 1) (vv 0 1 0 0x40 8), 3, 21), (.vpart (gu 1) (vv 63 1 0 0 5), 4, 39),
    (.vpart (gu 1) (vv 0 1 0 0 2), 2, 11), (.vtopk (gu 1) (vv 0x47 1 2 0 8), 4, 39), (.vtopk (gu 1) (vv 0 1 2 1 8), 3, 15),
    (.vmovs (gu 1) (vv 0x40 1 0 0 8), 3, 45), (.vmovs (gu 1) (vv 0 1 0 0 8 64), 5, 0), (.vins (gu 1) (vv 0 0x40 0 0 8), 3, 37),
    (.nopMatrix (gu 3) 2, 3, 0), (.mzero (gu 3) (mx 0x40 0 0), 4, 39), (.mzero (gu 3) (mx 1 0 0 0 0x10000), 5, 39),
    (.manchor (gu 3) (mx 0 0x80 0), 4, 31), (.mma (gu 3) (mx 0 1 1), 3, 23), (.mma (gu 3) (mx 0 1 0 0 0x40), 3, 6),
    (.mma (gu 3) (mx 0 1 0 0 1), 3, 0), (.mmat (gu 3) (mx 0 1 63), 4, 23), (.mmat (gu 3) (mx 0 1 2 1), 3, 17), (.mmaw (gu 3) (mx 1 1 0), 5, 39),
    (.mread (gu 3) (mx 57 0 0 0 2), 4, 39), (.mread (gu 3) (mx 0 0 0x40 0 2), 4, 23), (.mread (gu 3) (mx 0 0 0 1 2), 3, 17),
    (.mread (gu 3) (mx 0 0 0 0 4), 5, 0), (.mread (gu 3) (mx 0 0 0 0 0x2A), 5, 3), (.mstat (gu 3) (mx 0x10 0 0), 3, 43),
    (.mstat (gu 3) (mx 0 0 0 0 2), 5, 0), (.mclr (gu 3) (mx 0 0 0 0 3), 5, 0), (.tidset (gu 3) (mx 1 0 0), 3, 39),
    (.tidset (gu 3) (mx 0 0x40 0), 4, 31), (.tidstep (gu 3) (mx 0 1 0), 3, 31), (.tidstepSet (gu 3) (mx 0 1 2 0 0x10001), 3, 0),
    (.lrzero (gu 3) (mx 8 0 0), 4, 39), (.lrset (gu 3) (mx 0 0 4 0 65), 5, 0), (.lradd (gu 3) (mx 0 1 8), 4, 23),
    (.lrscale (gu 3) (mx 0 1 0x40), 4, 23), (.lrmul (gu 3) (mx 0 1 2 1), 3, 17), (.lrmuld (gu 3) (mx 0 1 33), 4, 23),
    (.lrtrunc (gu 3) (mx 0 1 1), 3, 23), (.lrcomp (gu 3) (mx 0 33 0 0 1), 4, 31), (.lrapply (gu 3) (mx 61 0 0), 4, 39),
    (.lrapply (gu 3) (mx 0 61 0), 4, 31), (.lrrank (gu 3) (mx 0x40 0 0), 4, 39)] = true := by decide +kernel

/-- The memory, pump and sync slots' checks (R79 to R82, R193 to R211). -/
theorem test_wf_memory_pump_sync : refusedAs [(.nopLoad (gu 4) 1, 3, 0), (.ld (gu 4) (me 0x40 0 3), 4, 39), (.ld (gu 4) (me 0 0 3 0 7), 5, 28),
    (.ld (gu 4) (me 0 0 4), 5, 24), (.lda (gu 4) (me 0 0 3), 5, 28), (.lds (gu 4) (me 0 0 3 0 2), 5, 28), (.vld (gu 4) (me 0 0 4), 5, 24),
    (.vld (gu 4) (me 0x80 0 8), 4, 39), (.tlds (gu 4) (me 0 0 10), 5, 0), (.tlds (gu 4) (me 0 0 9 1), 5, 24), (.vgath (gu 4) (me 0 0 7), 5, 24),
    (.vgath (gu 4) (me 0 0 2 0x400000), 4, 16), (.capld (gu 4) (me 16 0 4), 4, 39), (.lrlds (gu 4) (me 8 0 0), 4, 39),
    (.lrlds (gu 4) (me 0 0 1), 5, 24), (.stl (gu 5) (me 0 0 3), 5, 28), (.sts (gu 5) (me 0 0 3 0x80000), 3, 19), (.vsts (gu 5) (me 0 0 13), 5, 24),
    (.atom (gu 5) (me 63 0 3 0x900000), 4, 39), (.atom (gu 5) (me 0 0 3 0xA00000), 5, 24), (.atom (gu 5) (me 0 0 3 0xB00000), 5, 20),
    (.atoms (gu 5) (me 0 0 3 0x8000), 3, 15), (.atoms (gu 5) (me 0 0 1), 5, 24), (.pcopy (gu 6) (pc 0 1 0 1), 3, 27),
    (.pcopy (gu 6) (pc 0 1 0 0 1), 3, 23), (.pcopy (gu 6) (pc 0 1 0 0 0 2), 3, 1), (.pfill (gu 6) (pc 0 1 0 0), 3, 39),
    (.pgath (gu 6) (pc 0 0 1 0), 3, 33), (.pscat (gu 6) (pc 0 0 0 0 0 1), 3, 0), (.pdecl (gu 6) (pc 0 1 0 0), 3, 39),
    (.pflushx (gu 6) (pc 0 0 0 1), 3, 27), (.kvattn (gu 6) (pc 0 0 0 0 0 0x40), 3, 6), (.kvscore (gu 6) (pc 0 0 0 0 1), 3, 23),
    (.kvseal (gu 6) (pc 0 0 1 0), 3, 33), (.kvstat (gu 6) (pc 0 0 0 0 0 0x50), 5, 4), (.kvstat (gu 6) (pc 0 0 0 0 0 0x14), 5, 2),
    (.kvstat (gu 6) (pc 0 0 0 0 0 2), 3, 1), (.colar (gu 6) (pc 0 0 0 1), 3, 27), (.colstat (gu 6) (pc 0 1 0 0), 3, 39),
    (.stmget (gu 6) (pc 0 0 0 0 0 2), 3, 1), (.stmstat (gu 6) (pc 0 0 0 1), 3, 27), (.wjopen (gu 6) (pc 1 0 0 0), 3, 43),
    (.wjopen (gu 6) (pc 0 0 0 0 0 4), 3, 2), (.wjwrite (gu 6) (pc 0 0 0 0 0 1), 3, 0), (.wjstat (gu 6) (pc 0 0 1 0), 3, 33),
    (.br (gu 7) 8, 3, 3), (.fence (gu 7) 0x20000, 3, 17), (.cbset (gu 7) 1, 3, 0), (.cbwait (gu 7) 0x80, 3, 7), (.cbadvProduce (gu 7) 0x100, 3, 8),
    (.sigwait (gu 7) 0, 5, 28), (.sigwait (gu 7) 0x1A000000, 5, 25), (.sigadd (gu 7) 0x2010000000, 3, 37), (.jobraise (gu 7) 0x70000000, 5, 28),
    (.jobpost (gu 7) 0x10000001, 3, 0), (.jobwait (gu 7) 0x90000000, 3, 31), (.bar (gu 7) 1, 3, 0), (.launch (gu 7) 1, 3, 0),
    (.launchNb (gu 7) 0x30, 3, 5), (.evread (gu 7) 0x8000, 3, 15), (.evread (gu 7) 0x2000, 4, 7), (.evwait (gu 7) 0x10, 3, 4),
    (.chk (gu 7) 0x60000000, 5, 29), (.chk (gu 7) 1, 3, 0), (.rplw (gu 7) 2, 3, 0), (.tickwait (gu 7) 4, 3, 0)] = true := by decide +kernel

/-! One-step checks. `runs s i p`: the operation is admitted and answers a next state that `p` holds of; so each line is
also a state and operands that meet what an obligation assumes of that operation. -/

/-- Every check of a list. -/
def every (bs : List Bool) : Bool := bs.all id

/-- Whether an operation is admitted. -/
def adm (s : State) (i : Instr) : Bool :=
  match s.encStop i, s.discarded i, runCheck i s with
  | .ok _, false, .ok _ => true
  | _, _, _ => false

theorem adm_admits {s : State} {i : Instr} (h : adm s i = true) : s.Admits i := by
  unfold adm at h; unfold State.Admits State.Legal
  split at h
  · rename_i a b c; exact ⟨a, b, c⟩
  · cases h

/-- Whether an answer is a next state that `p` holds of. -/
def next (o : Out) (p : State → Bool) : Bool :=
  match o with
  | .next u => p u
  | _ => false

def runs (s : State) (i : Instr) (p : State → Bool) : Bool := adm s i && next (exec i s) p

theorem runs_admits {s : State} {i : Instr} {p : State → Bool} (h : runs s i p = true) : s.Admits i :=
  adm_admits (by unfold runs at h; simp at h; exact h.1)

/-- An object table entry with every right: kind, MAP, physical base, length (R354). -/
def objEntry (kind map base len : Nat) : Nat :=
  1 + map * 2 ^ 82 + kind * 2 ^ 84 + 255 * 2 ^ 88 + base * 2 ^ 96 + len * 2 ^ 160

/-- A task on context 0 of tile 0 in region 1: objects 1 to 7 of address space 0 are a global, the own scratchpad, a
signal object, a code object, a capability store, a mailbox range and another global, their entries in the tile's
translation cache (R356); a1 to a7 hold their capabilities. -/
def w0 : State :=
  let es := [(1, objEntry kGLOBAL 0 0x20000000 0x10000), (2, objEntry kSCRATCH 0 (4 * 2 ^ 54 + 2 ^ 31) 0x200000),
    (3, objEntry kSIGNAL 0 0x22000000 0x1000), (4, objEntry kCODE 0 0x10000000 0x10000),
    (5, objEntry kCAPSTORE 0 0x21000000 0x1000), (6, objEntry kMAILBOX 0 (2 * 2 ^ 54 + 0x10000) 0x2000),
    (7, objEntry kGLOBAL 0 0x23000000 0x10000)]
  let asids := [(0, BitVec.ofNat 256 (1 + 1024 * 2 ^ 172 + 0x100000 * 2 ^ 192))]
  let parts := [(0, BitVec.ofNat 256 (1 + (2 ^ 64 - 1) * 2 ^ 192))]
  let tab : Tables := { asids := asids, partitions := parts, services := [(0, BitVec.ofNat 512 (0x78000000 + 4 * 2 ^ 64))] }
  let gang : Gang := { inst := 1, members := [.on 0 0] }
  let cp : Command := { regions := [(1, BitVec.ofNat 2048 ((2 ^ 64 - 1) * 2 ^ 192))], gangs := [(1, gang)], insts := [(1, {})] }
  let s : State := { State.reset with tab := tab, cp := cp }
  let s := s.modTile 0 fun x => { x with tlbObjs := es.map fun e => { asid := 0, obj := e.1, entry := BitVec.ofNat 256 e.2 } }
  (((es.foldl (fun s e => s.putA e.1 (mkCap 255 ((e.2 / 2 ^ 84) % 16) e.1 0 4 0 (2 ^ 21 - 1) true)) s).modIsland 0
    fun y => { y with state := .on }).modMe fun x => { x with phase := .running, task := some { inst := 1, gang := 1, region := 1 } })

/-- R99, R100, R98: wrap, borrow, the high half of a signed and an unsigned product, shifts taken modulo 64, the division
corners. -/
theorem test_integer :
    let s := ((((w0.putS 1 0xFFFFFFFFFFFFFFFF).putS 2 2).putS 3 0x8000000000000000).putS 4 65)
    let is := fun (i : Instr) (v : Word) => runs s i fun u => u.rs 9 == v && u.me.latches.ls == v.zeroExtend 128
    let g := gu 0
    every [
    is (.add g (sr 9 1 2)) 1, is (.add g (si 9 1 0xFFFFFFFF 1)) 0xFFFFFFFE, is (.add g (si 9 2 0xFFFFFFFF)) 1,
    is (.sub g (sr 9 2 1)) 3, is (.mul g (sr 9 1 1)) 1, is (.mulh g (sr 9 1 1)) 0,
    is (.mulh g (sr 9 1 1 1)) 0xFFFFFFFFFFFFFFFE, is (.and g (sr 9 1 4)) 65, is (.or g (sr 9 2 4)) 67,
    is (.xor g (sr 9 1 1)) 0, is (.andn g (sr 9 1 2)) 0xFFFFFFFFFFFFFFFD, is (.shl g (sr 9 2 4)) 4,
    is (.shr g (sr 9 3 4)) 0x4000000000000000, is (.sra g (sr 9 3 4)) 0xC000000000000000,
    is (.min g (sr 9 1 2)) 0xFFFFFFFFFFFFFFFF, is (.min g (sr 9 1 2 1)) 2, is (.max g (sr 9 1 2)) 2,
    is (.clz g (sr 9 2 0)) 62, is (.clz g (sr 9 0 0)) 64, is (.popc g (sr 9 4 0)) 2,
    is (.div g (sr 9 1 0)) 0xFFFFFFFFFFFFFFFF, is (.rem g (sr 9 4 0)) 65, is (.div g (sr 9 3 1)) 0x8000000000000000,
    is (.rem g (sr 9 3 1)) 0, is (.div g (si 9 4 0xFFFFFFFE)) 0xFFFFFFFFFFFFFFE0, is (.rem g (si 9 4 0xFFFFFFFE)) 1,
    is (.div g (sr 9 1 2 1)) 0x7FFFFFFFFFFFFFFF, is (.rem g (sr 9 1 4 1)) 15] = true := by decide +kernel

/-- R96: s0 keeps reading zero, p0 all ones. -/
theorem test_s0_p0 : every [
    runs (w0.putS 1 5) (.add (gu 0) (sr 0 1 1)) (fun u => u.rs 0 == 0 && u.me.latches.ls == 10),
    runs w0 (.cmp (gu 0) (sr 0 0 0 1)) (fun u => u.rp 0 == BitVec.allOnes 64)] = true := by decide +kernel

/-- R101 to R103. -/
theorem test_move_compare_predicate :
    let s := (((w0.putS 1 0xFFFFFFFF00000001).putS 2 3).putP 1 0xF0).putB 1 0xABC0
    let isS := fun (i : Instr) (v : Word) => runs s i fun u => u.rs 9 == v
    let isP := fun (i : Instr) (v : Mask) => runs s i fun u => u.rp 9 == v
    let T := BitVec.allOnes 64
    let g := gu 0
    every [
    isS (.li g (si 9 0 0x80000000)) 0xFFFFFFFF80000000, isS (.li g (si 9 0 0x80000000 1)) 0x80000000,
    runs s (.lih g (si 1 0 0x12345678)) (fun u => u.rs 1 == 0x1234567800000001),
    isS (.mov g (sr 9 1 0)) 0xFFFFFFFF00000001, isP (.mov g (sr 9 2 0 1)) 3, isS (.mov g (sr 9 1 0 2)) 0xF0,
    isP (.mov g (sr 9 1 0 3)) 0xF0, isS (.mov g (sr 9 1 0 4)) 0xABC0, isS (.sel g (sr 9 1 2 1)) 3,
    isS (.sel g (sr 9 1 2 0)) 0xFFFFFFFF00000001, isP (.cmp g (sr 9 1 2 0)) 0, isP (.cmp g (sr 9 1 2 1)) T,
    isP (.cmp g (sr 9 1 2 2)) T, isP (.cmp g (sr 9 1 2 3)) 0, isP (.cmp g (sr 9 1 2 4)) 0,
    isP (.cmp g (sr 9 1 2 5)) T, isP (.cmp g (sr 9 1 2 6)) T, isP (.cmp g (sr 9 1 2 7)) 0,
    isP (.cmp g (sr 9 1 2 8)) 0, isP (.cmp g (si 9 2 0x9FFFFFFF)) 0, isP (.cmp g (si 9 2 0x7FFFFFFF)) T,
    isP (.pand g (sr 9 1 0)) 0xF0, isP (.por g (sr 9 1 0)) T, isP (.pxor g (sr 9 1 0)) 0xFFFFFFFFFFFFFF0F,
    isP (.pandn g (sr 9 0 1)) 0xFFFFFFFFFFFFFF0F, isP (.pset g (si 9 0 3)) 7, isP (.pset g (si 9 0 0xFFFFFFFF)) 0,
    isP (.pset g (si 9 0 64)) T, isP (.pset g (si 9 0 5 1)) 0x500000005, isP (.pset g (si 9 2 0 2)) 7,
    isP (.pset g (si 9 1 0 2)) 0, isS (.pcnt g (sr 9 1 0)) 4, isS (.pcnt g (sr 9 1 0 1)) 4,
    isS (.pcnt g (sr 9 3 0 1)) 64] = true := by decide +kernel

/-- R104 to R106; the ANARROW example of 04 (exponent 4, base 0x10005, length 196,607), an exponent above 48, and an empty
request. -/
theorem test_capability :
    let c := mkCap 255 kGLOBAL 1 0x100041 4 0 0x100000 true
    let s := ((w0.putA 3 c).putA 8 (mkCap 3 kGLOBAL 1 7 50 5 9 true)).putS 1 0xFFFFFFFFFFFFFFFF
    let is := fun (i : Instr) (d : Cap) => runs s i fun u => u.ra 4 == d
    let g := gu 0
    every [
    is (.anarrow g (si 4 3 0x300000)) (mkCap 255 kGLOBAL 1 0x100041 4 0x10005 196607 true),
    is (.anarrow g (si 4 3 0)) (mkCap 255 kGLOBAL 1 0x100041 4 0x10005 0 true),
    is (.anarrow g (sr 4 8 1)) (mkCap 3 kGLOBAL 1 7 50 5 0 true),
    is (.aadd g (si 4 3 0xFFFFFFFF)) (c.withOffset 0x100040), is (.aadd g (sr 4 3 1)) (c.withOffset 0x100040),
    is (.aset g (sr 4 3 1)) (c.withOffset 0xFFFFFFFFFFFF),
    is (.adrop g (si 4 3 0x0F)) (mkCap 0xF0 kGLOBAL 1 0x100041 4 0 0x100000 true), is (.amov g (sr 4 3 0)) c,
    ((List.range 7).all fun f => runs s (.aget g (sr 9 3 0 (BitVec.ofNat 28 f))) fun u =>
      u.rs 9 == [0x100041, 0, 0x1000000, 255, 0, 1, 1].getD f 0),
    runs s (.achk g (sr 9 3 0 1)) (fun u => u.rp 9 == BitVec.allOnes 64),
    runs s (.achk g (sr 9 3 1 1)) (fun u => u.rp 9 == 0)] = true := by decide +kernel

/-- Whether an operation takes the system trap of a code and subcode: the fault record of R350 in the log of w0's
partition, and a context that no longer runs. -/
def traps (s : State) (i : Instr) (code sub : Nat) : Bool :=
  next (exec i s) fun u => u.rdNat 0x7800000A 2 == code && u.rdNat 0x7800000C 2 == sub && u.me.phase != .running

/-- R25, R107, R109: LOOP 8 times with its end 3 bundles on; END of SR form; a count of zero; LDELTA, LBREAK, LIDX on and off
the stack; the subcode 0x13F8 of 03 with six levels in use. -/
theorem test_loop :
    let s := (w0.modMe fun x => { x with pc := 0x1000 }).putS 1 0x100000003
    let l : Level := { start := 0x40, stop := 0x80, count := 8, index := 3 }
    let s2 := s.modMe fun x => { x with loops := [l, { l with count := 2 }] }
    let g := gu 0
    every [runs s (.loop g (si 0 0 0x80003)) fun u => u.me.loops == [{ start := 0x1040, stop := 0x10C0, count := 8, index := 0 }],
      runs s (.loop g (sr 0 2 0 3)) fun u => u.me.loops == [] && u.me.target == some 0x1100,
      traps s (.loop g (sr 0 1 0 3)) 0x0102 0x17F8,
      traps (s.modMe fun x => { x with loops := List.replicate 6 l }) (.loop g (si 0 0 0x80003)) 0x0102 0x13F8,
      runs s (.ldelta g (si 5 2 0xFFFFFFC0)) fun u => FMap.get 0 u.me.delta 37 == 0xFFFFFFC0 && u.me.delta.length == 1,
      runs s2 (.lbreak g (sr 0 0 0 1)) fun u => (u.me.loops.map fun x => x.count) == [8, 4],
      runs s2 (.lbreak g (sr 0 0 0 2)) fun u => u.me.loops == s2.me.loops,
      runs s2 (.lidx g (sr 9 0 0 0)) fun u => u.rs 9 == 3, runs s2 (.lidx g (sr 9 0 0 9)) fun u => u.rs 9 == 2,
      runs s2 (.lidx g (sr 9 0 0 2)) fun u => u.rs 9 == 0] = true := by decide +kernel

/-- R27, R108: two levels end at the bundle; the inner is done, the outer loops back and its deltas are added. -/
theorem test_loop_end :
    let l : Level := { start := 0x40, stop := 0x1000, count := 3, index := 1 }
    let d := [(3, 0xFFFFFFFF#32)]
    let s := (w0.modMe fun x => { x with pc := 0x1000, delta := d, loops := [l, { l with start := 0x80, index := 2 }] }).loopEnd
    let t := ((w0.putA 3 (mkCap 255 kSIGNAL 3 0 4 0 9 true)).modMe fun x => { x with pc := 0x1000, delta := d, loops := [l] }).loopEnd
    every [s.2.2, s.2.1 == 0x40, s.1.me.loops == [{ l with index := 2 }], (s.1.ra 3).offset == 2 ^ 48 - 1, t.2.2, (t.1.ra 3).offset == 2 ^ 48 - 1,
      (endLoops 0x1000 [{ l with index := 2 }, l]).1 == [{ l with index := 2 }], (endLoops 0x1040 [l]).2 == none] = true := by
  decide +kernel

/-- R110, R111 to R117, R125, R15. -/
theorem test_view_system_registers :
    let s := (((w0.putS 1 0x1F100).putS 2 64).putS 3 0xFFFFFFFFFFFFFFFF).modMe fun x => { x with views :=
      { x.views with ranks := [(1, 3)] } }
    let p := s.modMe fun x => { x with sys := { x.sys with sup := true } }
    let g := gu 0
    let sys := fun (i : Instr) (f : SysRegs → Bool) => runs p i fun u => f u.me.sys
    every [runs s (.view g (sr 0 1 0)) fun u => u.me.views.v == 0x1F100, runs s (.view g (sr 1 1 0)) fun u => u.me.views.t == 0x1F100,
      runs s (.view g (si 2 0 0x1FF00)) fun u => u.me.views.c == 0x1FF00,
      runs s (.view g (sr 3 1 2)) fun u => u.me.views.k == 0x1F100 && u.me.views.kCap == 64 && u.me.views.ranks == [],
      traps s (.view g (si 2 0 0x20000)) 0x0102 0x17F8, traps s (.view g (sr 3 1 0)) 0x0102 0x17F8,
      runs s (.srr g (sr 9 0 0)) fun u => u.rs 9 == 0xFF, runs s (.srr g (sr 9 7 0)) fun u => u.rs 9 == 0x2000,
      runs s (.srr g (sr 9 10 0)) fun u => u.rs 9 == 0xFFFFFFFF00000000, runs p (.srr g (sr 9 16 0)) fun u => u.rs 9 == 0,
      sys (.srw g (sr 5 3 0)) fun y => y.asid == 4095, sys (.srw g (sr 8 3 0)) fun y => y.nflag == 63,
      sys (.srw g (si 9 0 7)) fun y => y.qclamp == 7, sys (.srw g (si 10 0 7)) fun y => y.ufmax == 0 && y.clampmax == 7,
      sys (.srw g (si 11 0 0x3F000000)) fun y => y.tol == 0x3F000000, sys (.srw g (si 12 0 2)) fun y => !y.tolAbs,
      sys (.srw g (sr 13 1 0)) fun y => !y.utvecEn && y.utvec == 0x7C4, sys (.srw g (sr 14 3 0)) fun y => y.inh && y.info == 0xFFFF && y.slot == 7,
      sys (.srw g (sr 15 1 0)) fun y => y.utepc == 0x7C4, sys (.srw g (sr 16 1 0)) fun y => y.sepc == 0x7C4,
      sys (.srPrivWrite g (si 6 0 0)) fun y => !y.sup, sys (.srPrivWrite g (sr 6 3 0)) fun y => y.sup,
      sys (.srWinWrite g (si 7 0 0x2000)) fun y => !y.winErr && y.winSize == 32, sys (.srWinWrite g (si 7 0 0x2001)) fun y => y.winErr && y.winBase == 0,
      runs (p.modMe fun x => { x with task := none }) (.srWinWrite g (si 7 0 0x1001)) fun u => u.me.sys.winSize == 16 && u.me.sys.winBase == 1,
      runs { s with now := 5 * 65536 + 9 } (.rdtime g (sr 9 0 0 0)) fun u => u.rs 9 == 5,
      runs { s with now := 5 * 65536 + 9 } (.rdtime g (sr 9 0 0 1)) fun u => u.rs 9 == 9,
      adm s (.rdtime g (sr 9 0 0 2)), runs s (.feat g (si 9 0 0x81)) fun u => u.rp 9 == BitVec.allOnes 64,
      runs s (.feat g (si 9 0 0x100)) fun u => u.rp 9 == 0,
      runs (s.modTile 0 fun x => { x with feat := 1 }) (.feat g (si 9 0 3)) fun u => u.rp 9 == 0] = true := by decide +kernel

/-- R116, R122: the privileged forms with SUP 0 and with SUP 1. -/
theorem test_privilege :
    let g := gu 0
    let p := w0.modMe fun x => { x with sys := { x.sys with sup := true, sepc := 5 } }
    let is := [.srr g (sr 9 16 0), .srw g (si 5 0 0), .srw g (si 16 0 0), .srPrivWrite g (si 6 0 1), .srWinWrite g (si 7 0 0), .eret g (sr 0 0 0)]
    every [is.all fun i => traps w0 i 0x0104 0, is.all fun i => adm p i,
      runs p (.eret g (sr 0 0 0)) fun u => !u.me.sys.sup && u.me.target == some 0x140] = true := by decide +kernel

/-- R118, R121, R119, R212. -/
theorem test_branch_trap_return :
    let s := (((w0.modMe fun x => { x with pc := 0x1000, sys := { x.sys with utvecEn := true, utvec := 0x80, utepc := 3 } }).putS 1
      0xABCD000000001040).putS 2 0x20).putB 3 0x5580
    let v := s.modMe fun x => { x with region := some {}, commitQ := [{ held := true, op := .sigAdd 0 1 [] }] }
    let inh := s.modMe fun x => { x with sys := { x.sys with inh := true } }
    let g := gu 0
    every [runs s (.pbr g (si 2 0 0xFFFFFFFF)) fun u => u.rb 2 == 0xFC0, runs s (.pbr g (sr 2 1 0)) fun u => u.rb 2 == 0x1040,
      traps s (.pbr g (sr 2 2 0)) 0x0102 0x17F8, runs v (.trap g (si 0 0 127)) fun u => u.me.region == none && (u.me.commitQ.all fun e => !e.held) &&
        u.me.redirect == some 0x2000 && u.me.sys.utepc == 0x41 && u.me.sys.inh && u.me.sys.cause == 127 && u.me.sys.info == 0 && u.me.sys.slot == 0,
      traps inh (.trap g (si 0 0 5)) 0x0111 5, traps w0 (.trap g (si 0 0 5)) 0x0111 5,
      runs inh (.utret g (sr 0 0 0)) fun u => !u.me.sys.inh && u.me.target == some 0xC0, traps s (.utret g (sr 0 0 0)) 0x0102 0x17F8,
      runs s (.br (gu 7) 3) fun u => u.me.target == some 0x5580, runs s (.brl (gu 7) 3) fun u => u.me.target == some 0x5580 && u.rb 7 == 0x1040] = true := by
  decide +kernel

/-- R32, R36, R37, R73, R123, R124. -/
theorem test_yield_end_header :
    let s := w0.modMe fun x => { x with region := some {}, bundleNo := 5, pc := 0x40, loops := [{}], commitQ := [{ held := true, op := .sigAdd 0 1 [] }] }
    let q := s.modMe fun x => { x with preempt := some {} }
    let d := w0.modMe fun x => { x with preempt := some { delivered := some 0 } }
    let free := fun u : State => u.me.region == none && (u.me.commitQ.all fun e => !e.held)
    let g := gu 0
    every [runs s (.yield g (sr 0 0 0)) fun u => free u && u.me.yieldNext, runs q (.yield g (sr 0 0 0)) fun u => free u && !u.me.yieldNext,
      runs s (.yield g (sr 0 0 0 1)) fun u => free u && u.me.preempt.isSome, runs s (.endTask g (sr 0 0 0)) fun u => free u && u.me.phase == .ending && u.me.loops == [],
      next (exec .regionBegin s) fun u => u.me.region == some { pc := 0x40, bundle := 5, loops := [{}], offs := [] } && (u.me.commitQ.all fun e => !e.held),
      next (exec .regionCommit s) free, next (exec .preemptionPoint d) fun u => u.me.phase == .landed, next (exec .preemptionPoint q) fun u => u == q,
      [.nopScalar (gu 0) 0, .nopVector (gu 2) 0, .nopMatrix (gu 3) 0, .nopLoad (gu 4) 0, .nopStore (gu 5) 0, .nopPump (gu 6) 0, .nopSync (gu 7) 0].all
        fun i => runs w0 i fun u => u == w0] = true := by decide +kernel

/-- R72, R84, R85: a discarded operation; the subcodes 0x0459, 0x0AE4 of 03; a run-time check at issue. -/
theorem test_discard_and_issue_traps :
    let never := fun n : BitVec 3 => ({ slot := n, pn := true, pred := 0, dup := false } : Guard)
    every [next (exec (.add (never 0) (sr 9 1 1)) (w0.putS 1 5)) fun u => u == w0.putS 1 5, (w0.discarded (.add (never 0) (sr 9 1 1))),
      next (exec (.ld (never 4) (me 5 3 3)) w0) fun u => u == w0, traps w0 (.vadd (gu 1) (vv 4 1 2 0 12)) 0x0102 0x0459,
      traps w0 (.vadd (never 1) (vv 4 1 2 0 12)) 0x0102 0x0459, traps w0 (.ld (gu 4) (me 5 1 3 0 7)) 0x0102 0x0AE4,
      traps (w0.putA 1 {}) (.ld (gu 4) (me 5 1 3)) 0x0105 4, !w0.discarded (.vadd (never 1) (vv 4 1 2 0 8))] = true := by decide +kernel

/-- R350, R351: the record's fields, with and without a step; a record that fits, and one that finds the log full. -/
theorem test_fault_log :
    let s := w0.modMe fun x => { x with pc := 0x1240, task := some { region := 1, node := 7, member := 3, step := some 9 } }
    let r := s.faultRecord 0x123 0 0 2 { code := 0x0103, sub := 4, slot := 4, obj := 0x12345, off := 0x40 } 0x1240
    let n := w0.faultRecord 0x123 0 0 2 { code := 0x0103 } 0
    let full := w0.setService 0 (BitVec.ofNat 512 (0x78000000 + 1 * 2 ^ 64 + 2 * 2 ^ 128))
    every [bitsOf r 63 0 == 0x123, bitsOf r 95 80 == 0x103, bitsOf r 111 96 == 4, bitsOf r 159 112 == 0x1240, bitsOf r 179 160 == 0x12345,
      bitsOf r 239 192 == 0x40, bitsOf r 242 240 == 4, bitsOf r 248 246 == 2, bitsOf r 287 272 == 7, bitsOf r 312 304 == 3, bitsOf r 351 320 == 9,
      bitsOf n 351 320 == 0xFFFFFFFF, (w0.logRecord 0 r).rdNat 0x78000000 64 == r.toNat, bitsOf ((w0.logRecord 0 r).service 0) 159 128 == 1,
      (full.logRecord 0 r).core.mem == full.core.mem, bitsOf ((full.logRecord 0 r).service 0) 191 160 == 1] = true := by decide +kernel

/-- R36, R348, R349: the disposition of a trap: the task ends; a page waits; the task migrates; with a region open it aborts. -/
theorem test_trap_dispositions :
    let q : List CommitEntry := [{ held := true, op := .sigAdd 0 1 [] }, { stands := true, op := .sigAdd 8 1 [] }, { op := .sigAdd 16 1 [] }]
    let open' := w0.modMe fun x => { x with pc := 0x80, region := some { pc := 0x40, offs := [(1, 0x20)] }, loops := [{}], commitQ := q }
    let t := open'.takeTrap { code := 0x0103, slot := 4 }
    let p := open'.takeTrap { code := 0x0108, obj := 1, off := 0x1000 }
    let m := (w0.modTile 0 fun x => { x with feat := 1 }).takeTrap { code := 0x010B, sub := 7 }
    let a := open'.abortRegion 0 0
    every [t.me.loops == [], t.me.commitQ.length == 1, t.me.phase == .draining 2, p.me.phase == .page 0 1 0x1000, p.me.region == none,
      m.me.phase == .landed, m.me.preempt == some { kind := .migrate }, (m.me.task.map fun k => k.feat) == some 0x81, a.me.pc == 0x40, a.me.loops == [],
      (a.ra 1).offset == 0x20, (a.ra 2).offset == 0, a.me.commitQ.length == 2, a.me.region == none, w0.abortRegion 0 0 == w0,
      (w0.takeTrap { code := 0x010E }).me.phase == .idle] = true := by decide +kernel

/-- R119: a vectored user trap; one that SR.UTVEC or INH turns into a system trap; the saved address after a branch. -/
theorem test_user_trap :
    let s := w0.modMe fun x => { x with pc := 0x80, sys := { x.sys with utvecEn := true, utvec := 2 } }
    let tr : Trap := { code := 0x010F, sub := 7, slot := 3 }
    let u := s.takeUserTrap 128 7 tr
    let n := (u.modMe fun x => { x with target := some 0x400 }).me.nextFetch 0xC0
    every [u.me.sys.cause == 128, u.me.sys.info == 7, u.me.sys.slot == 3, u.me.sys.utepc == 3, u.me.redirect == some 0x80, n.pc == 0x80, n.sys.utepc == 0x10,
      w0.takeUserTrap 128 7 tr == w0.takeTrap tr, (s.modMe fun x => { x with sys := { x.sys with inh := true } }).takeUserTrap 128 7 tr ==
        (s.modMe fun x => { x with sys := { x.sys with inh := true } }).takeTrap tr, (w0.me.nextFetch 0xC0).pc == 0xC0] = true := by decide +kernel

/-! Vector slots. -/

/-- 32-bit elements laid out as bytes, and element `e` of view `n` as a 32-bit number. -/
def w32 (vs : List Nat) : List Byte := vs.flatMap (leBytes 4)
def vel (u : State) (n e : Nat) : Nat := leNat (u.rdWin (256 * n + 4 * e) 4)
/-- The first `k` elements of view `n`. -/
def velts (u : State) (n k : Nat) : List Nat := (List.range k).map (vel u n)
/-- View 1 holds 2, −1 and 0x80000000, view 2 holds 3, 3, −1 and 5; p1 has lanes 0 to 2 active. -/
def wv : State := ((w0.wrWin 256 (w32 [2, 0xFFFFFFFF, 0x80000000])).wrWin 512 (w32 [3, 3, 0xFFFFFFFF, 5])).putP 1 7
/-- Slot 1 under p1. -/
def g1 : Guard := { slot := 1, pn := false, pred := 1, dup := false }
def i32 : ElemFmt := .int true 32
def u32 : ElemFmt := .int false 32

/-- Every vector operation admitted, with each kind of source and of destination. -/
theorem test_vector_admitted :
    let s := w0.setTid 5 { valid := true, owner := 0, desc := 0x151 }
    every [([.vadd g1 (vv 4 1 2 0 8), .vsub g1 (vv 0x47 0x40 0x81 0 2), .vmul g1 (vv 4 0xC1 2 0 5 0x40), .vfma g1 (vv 63 63 63 0xC3 8 0x480), .vmin g1 (vv 4 1 2 0 6),
      .vmax g1 (vv 4 1 2 0 7), .vabs g1 (vv 4 1 0 0 0 0x80), .vneg g1 (vv 4 1 0 0 3), .vand g1 (vv 4 1 2 0 8), .vor g1 (vv 4 1 2 0 1), .vxor g1 (vv 4 1 2 0 4),
      .vshl g1 (vv 4 1 2 0 2), .vshr g1 (vv 4 1 2 0 5), .vcmp g1 (vv 9 1 2 0 8 0x5C0), .vsel g1 (vv 4 1 2 15 8), .vcvt g1 (vv 4 1 9 7 8 5), .vcvt g1 (vv 4 1 6 1 0),
      .vquant g1 (vv 4 1 0xC1 7 8 5), .vdeq g1 (vv 4 1 0xC1 7 8 5), .vexp2 g1 (vv 4 1 0 0 6), .vlog2 g1 (vv 4 1 0 0 7), .vrcp g1 (vv 4 1 0 0 8), .vrsq g1 (vv 4 1 0 0 8),
      .vsumr g1 (vv 4 1 2 0 8), .vmaxr g1 (vv 4 1 0 0 5 0x40), .vdot g1 (vv 4 1 2 3 0), .vshuf g1 (vv 4 1 2 3 0), .vbcast g1 (vv 4 1 0 0 0 255),
      .vslide g1 (vv 4 1 2 0 5 0x240), .viota g1 (vv 4 1 0 0 5 255), .vcompr g1 (vv 4 1 0 63 8), .vpart g1 (vv 62 1 0 7 5 63), .vtopk g1 (vv 0x46 1 2 0x46 8 0x7F),
      .vmovs (gu 1) (vv 63 1 0 0 8 63), .vmovs (gu 1) (vv 9 1 3 0 8 0x400), .vins g1 (vv 4 63 0 0 8 63)] : List Instr).all (adm s)] = true := by decide +kernel

/-- R128, R129: one VADD.w with three active lanes: the results, the lane that stays, the flags, the latch. -/
theorem test_vector_vadd : runs (wv.wrWin 1036 [9]) (.vadd g1 (vv 4 1 2 0 2 0x80))
    (fun u => velts u 4 4 == [5, 2, 0x80000000, 9] && u.me.sys.nflag == flagSAT && u.me.latches.lva.take 8 == [5, 0, 0, 0, 2, 0, 0, 0]) = true := by
  decide +kernel

/-- The same of unit B's operand file and latch: constant one plus constant one. -/
theorem test_vector_operand_file : runs w0 (.vadd { g1 with slot := 2, pred := 0 } (vv 0x42 0xC1 0xC1 0 2))
    (fun u => FMap.getRun 0 u.me.ofB 512 8 == [2, 0, 0, 0, 2, 0, 0, 0] && u.me.ofA == [] && u.me.latches.lvb.length == 256 && (u.tile 0).space == []) = true := by
  decide +kernel

/-- R132: elements modulo 2^w and saturating. -/
theorem test_integer_elements :
    let m : Nat := 0xFFFFFFFF
    let h : Nat := 0x80000000
    every [arithElem .add i32 .rne false h m 0 == (0x7FFFFFFF, 0), arithElem .add i32 .rne true h m 0 == (h, flagSAT), arithElem .add u32 .rne true m 3 0 == (m, flagSAT),
      arithElem .sub i32 .rne false 2 3 0 == (m, 0), arithElem .sub u32 .rne true 2 3 0 == (0, flagSAT), arithElem .mul i32 .rne false m 3 0 == (0xFFFFFFFD, 0),
      arithElem .mulHi i32 .rne false m 3 0 == (m, 0), arithElem .mulHi u32 .rne false m 3 0 == (2, 0), arithElem .fma i32 .rne true h 1 m == (h, flagSAT),
      minMaxElem false i32 2 m == (m, 0), minMaxElem true u32 2 m == (m, 0), signElem false i32 false h == (h, 0), signElem false i32 true h == (0x7FFFFFFF, flagSAT),
      signElem true u32 true 1 == (0, flagSAT), vshrElem true 32 h 33 == 0xC0000000, vshrElem false 32 h 33 == 0x40000000] = true := by decide +kernel

/-- R133, R47: the largest finite number doubled, a signalling NaN, one and two NaN operands, signs. -/
theorem test_float_elements :
    let t : ElemFmt := .fp fp32
    let one : Nat := 0x3F800000
    let big : Nat := 0x7F7FFFFF
    let sn : Nat := 0x7F800001
    let qn : Nat := 0x7FC00000
    every [arithElem .add t .rne false one one 0 == (0x40000000, 0), arithElem .add t .rne false big big 0 == (0x7F800000, flagOVF ||| flagINX),
      arithElem .add t .rtz false big big 0 == (big, flagOVF ||| flagINX), arithElem .add t .rne false one sn 0 == (qn, flagINV),
      arithElem .sub t .rne false one one 0 == (0, 0), arithElem .mul t .rne false one 0x80000001 0 == (0x80000001, 0),
      arithElem .fma t .rne false one one 0xBF800000 == (0, 0), minMaxElem false t one qn == (one, 0), minMaxElem true t sn qn == (qn, flagINV),
      minMaxElem false t 0 0x80000000 == (0x80000000, 0), signElem true t false one == (0xBF800000, 0), signElem false t false sn == (qn, flagINV)] = true := by
  decide +kernel

/-- R134, R135: the conditions on I32 and U32, ANY and ALL on I16. -/
theorem test_vector_compare :
    let A := leNat (w32 [2, 0xFFFFFFFF, 0x80000000])
    let B := leNat (w32 [3, 3, 0xFFFFFFFF])
    let c := fun (t : ElemFmt) (code : Nat) => (vcmpMask 7 t code false A B).1
    every [([0, 1, 2, 3, 4, 5, 6, 7].map (c i32)) == [0, 7, 7, 7, 0, 0, 0, 7], c u32 2 == 5, c u32 5 == 2, c (.int true 16) 0 == 0,
      (vcmpMask 7 (.int true 16) 0 true A B).1 == 1,
      runs wv (.vcmp g1 (vv 9 1 2 0 5 0x80)) fun u => u.rp 9 == 5 && u.me.latches.lva.take 2 == [5, 0]] = true := by decide +kernel

/-- The 4-bit format of R45: every row of its decoding and encoding tables. -/
theorem test_narrow_tables :
    let f := narrowFmt 0x151
    let enc := fun (m : RMode) (x : Nat) => convertElem (.fp fp32) (.narrow f) m x
    every [((List.range 16).map fun c => (convertElem (.narrow f) (.fp fp32) .rne c).1) == [0, 0x3F000000, 0x3F800000, 0x3FC00000, 0x40000000, 0x40400000,
        0x40800000, 0x40C00000, 0, 0xBF000000, 0xBF800000, 0xBFC00000, 0xC0000000, 0xC0400000, 0xC0800000, 0xC0C00000],
      ([0x40200000, 0x40A00000, 0x40E00000, 0x3F400000, 0xBE800000, 0xBFA00000, 0x7FC00000].map fun x => ((enc .rne x).1, (enc .rne x).2.1)) ==
        [(4, flagINX), (6, flagINX), (7, flagSAT ||| flagINX), (2, flagINX), (0, flagUNF ||| flagINX), (10, flagINX), (0, flagINV)],
      ([0x40200000, 0x40A00000, 0x40E00000, 0x3F400000, 0xBE800000, 0xBFA00000].map fun x => (enc .rtz x).1) == [4, 6, 7, 1, 0, 10]] = true := by decide +kernel

/-- R136 to R139: PART at its limit and past it on a 4-bit side; where the elements of a narrower and a wider side lie. -/
theorem test_vector_parts :
    let s := w0.setTid 5 { valid := true, owner := 0, desc := 0x151 }
    every [adm s (.vcvt g1 (vv 4 1 9 7 8 5)), (next (exec (.vcvt g1 (vv 4 1 9 8 8 5)) (s.putP 1 0)) fun u => u.rdNat 0x7800000A 2 == 0x0102),
      traps s (.vcvt g1 (vv 4 1 9 0 8 6)) 0x010A 6, partOffset 32 4 7 447 == none, partOffset 32 4 7 448 == some 0, partOffset 32 4 7 511 == some 63,
      partOffset 4 32 7 5 == some 5, groupIndex (vv 4 1 0 7 8 5) 0 == 0, ([0, 5].all fun d => [partOffset 16 16 0 d] == [some d])] = true := by decide +kernel

/-- R140 to R144: exact points of the functions; sums, the greatest element with its index, products; no active lane. -/
theorem test_vector_functions_reductions :
    let t : ElemFmt := .fp fp32
    let A : Nat := 2 + 0xFFFFFFFF * 2 ^ 32 + 0x80000000 * 2 ^ 64
    let F : Nat := 0x40400000 + 0x41000000 * 2 ^ 32
    every [fnElem fnExp2 t 0x40400000 == (0x41000000, 0), fnElem fnLog2 t 0x41000000 == (0x40400000, 0), fnElem fnRcp t 0x41000000 == (0x3E000000, 0),
      fnElem fnRsq t 0x41800000 == (0x3E800000, 0), (fnElem fnRcp t 0).1 == 0x7F800000, (fnElem fnLog2 t 0).1 == 0xFF800000,
      sumElems (vv 4 1 2 0 2) 7 A 3 == (0x80000004, 0), sumElems (vv 4 1 2 0 2 0x80) 6 A 0 == (0x80000000, flagSAT), sumElems (vv 4 1 2 0 8) 3 F 0 == (0x41300000, 0),
      maxElems (vv 4 1 0 0 2) 7 A == (2, 0, 0), maxElems (vv 4 1 0 0 5 0x40) 7 A == (0xFFFFFFFF, 1, 0), maxElems (vv 4 1 0 0 2) 0 A == (0x80000000, 0xFFFFFFFF, 0),
      dotElems (vv 4 1 2 3 2) 3 A A 1 == (6, 0), dotElems (vv 4 1 2 3 8) 3 F F 0 == (0x42920000, 0)] = true := by decide +kernel

/-- The examples of VPART and VTOPK of 05 (R147, R148). -/
theorem test_vector_lists :
    let p := partition 0xFF 3 (leNat (w32 [2, 0, 2, 1, 3, 0, 2, 1]))
    let k : List Cand := [0x40400000, 0x40A00000, 0x40A00000, 0x3F800000, 0x40000000, 0x40A00000, 0x3F000000, 0x40000000].zip [64, 65, 66, 67, 68, 69, 70, 71]
    let r := rankCands (.fp fp32) (k ++ [(0x40A00000, 10), (0x40800000, 3), (0x40000000, 7), (0x40000000, 12), (0xFF800000, 0xFFFFFFFF)])
    every [p.1 == [1, 5, 3, 7, 0, 2, 6], p.2 == [0, 2, 4],
      r.take 5 == [(0x40A00000, 10), (0x40A00000, 65), (0x40A00000, 66), (0x40A00000, 69), (0x40800000, 3)]] = true := by decide +kernel

/-- R145, R146, R149, R150. -/
theorem test_vector_permutations :
    let s := (wv.putS 3 66).putP 4 0xF
    let g4 : Guard := { g1 with pred := 4 }
    every [runs s (.vslide g4 (vv 4 2 1 0 5 0x201)) fun u => velts u 4 4 == [0, 3, 3, 0xFFFFFFFF], runs s (.vmovs g1 (vv 9 1 0 0 2 1)) fun u => u.rs 9 == 0xFFFFFFFFFFFFFFFF,
      runs s (.vmovs g1 (vv 9 1 3 0 5 0x400)) fun u => u.rs 9 == 0x80000000,
      runs s (.vcompr { g1 with pn := true } (vv 4 2 0 7 5)) fun u => velts u 4 2 == [5, 0] && u.rs 7 == 61] = true := by decide +kernel

/-- R310, R65, R129: a marked operation writes the shadow view and leaves latch and flags; QCLAMP counts and saturates. -/
theorem test_vector_outputs :
    let s := wv.modMe fun x => { x with task := some { region := 1, dup := true, shV := some 0x4000 }, sys := { x.sys with qclamp := 0xFFFFFFFE } }
    let m := s.vdone { g1 with dup := true } 4 7 flagSAT 3
    let u := s.vdone g1 4 7 flagSAT 3
    every [m.rdWin 0x4400 2 == [7, 0], m.rdWin 0x400 1 == [0], m.me.latches == s.me.latches, m.me.sys == s.me.sys, u.rdWin 0x400 1 == [7],
      u.me.sys.qclamp == 0xFFFFFFFF, u.me.sys.nflag == flagSAT, (s.vdone g1 0x47 7 0 0).me.ofA == [(1792, 7)]] = true := by decide +kernel

/-! Matrix slot. -/

/-- Entry 3: a local 4-bit tensor of one block row and two block columns behind a2, scales of 1; view 5 holds its descriptor. The K
view holds four columns and k0, k1 have rank 2 and 0. -/
def wm : State :=
  let d := 0x151 + 1 * 2 ^ 64 + 2 * 2 ^ 80 + 2 ^ 96 + 2 * 2 ^ 104 + 512 * 2 ^ 128 + 4096 * 2 ^ 192
  let s := w0.setTid 3 { valid := true, owner := 0, desc := BitVec.ofNat 512 d, cap := w0.ra 2, kb := 0, nb := 1 }
  (s.wrWin 1280 (leBytes 64 d)).modMe fun x => { x with views := { x.views with c := 8192, k := 32768, kCap := 4, ranks := [(0, 2)] } }

/-- Every dense matrix operation admitted, at boundary operands. -/
theorem test_matrix_admitted :
    every [([.mzero (gu 3) (mx 27 0 0 0 0x8000), .manchor (gu 3) (mx 2 1 0 0 2), .mma (gu 3) (mx 2 1 0 3), .mmat (gu 3) (mx 2 1 62), .mmaw (gu 3) (mx 2 1 0 3 0x8003),
      .mread (gu 3) (mx 7 2 0xC1 0 2), .mread (gu 3) (mx 7 2 5 3 0xC3), .mstat (gu 3) (mx 15 2 0), .mstat (gu 3) (mx 63 2 0 0 1), .mclr (gu 3) (mx 2 0 0 0 2),
      .tidset (gu 3) (mx 0 5 0 63), .tidstep (gu 3) (mx 0 0 0 3 0xFFFF), .tidstepSet (gu 3) (mx 0 1 2 3 0x10000)] : List Instr).all (adm wm)] = true := by
  decide +kernel

/-- R156, R161, R163: the block at the captured cursor is readable; the cursor wraps, but not under HOLD; an invalid entry; a block that
cannot be read leaves the cursor advanced. -/
theorem test_matrix_step :
    let d := wm.tid 3
    let bad := wm.setTid 3 { d with cap := {} }
    let readable := fun (s : State) (d : Tid) => match s.rdBlock d d.kb d.nb with
      | .ok r => r.2.1.length == 1024
      | _ => false
    every [readable wm d, !readable bad (bad.tid 3), d.valid, !(wm.tid 4).valid, (wm.me.dstEnv (gu 3)).base .c % 4096 == 0, d.advance.nb == 0, d.advance.kb == 0,
      { d with nb := 0 }.advance.nb == 1, { d with desc := d.desc ||| 1 <<< 101 }.advance.nb == 0, traps wm (.mma (gu 3) (mx 2 1 0 4)) 0x010A 4,
      traps bad (.mma (gu 3) (mx 2 1 0 3)) 0x0105 3] = true := by decide +kernel

/-- What the one operation that waits in tile 0's matrix queue for its completion does there. -/
def lateIs (u : State) (p : State → Bool) : Bool :=
  match (u.tile 0).lateQ with
  | [w] => p (u.lateEffect 0 w)
  | _ => false

/-- R53, R54: the worked step of 06 (−39 with one product lost at anchor −2), the bounds, the special products. -/
theorem test_step_element :
    every [stepElem false (-2) 0 [.fin false 3 (-2), .fin false 3 (-1), .fin false 1 (-4), .fin true 12 0] == (-39, false, 1),
      stepElem false 0 (2 ^ 63 - 1) [.fin false 1 0] == (2 ^ 63 - 1, true, 0), stepElem true 0 (2 ^ 63 - 1) [.fin false 1 0] == (2 ^ 63, false, 0),
      stepElem false 0 (-2 ^ 63) [.fin true 1 0] == (-2 ^ 63, true, 0), stepElem false 0 5 [.inf false] == (2 ^ 63 - 1, true, 0),
      stepElem true 0 5 [.inf true, .inf false] == (-2 ^ 127, true, 0), stepElem false 0 5 [.nan false] == (-2 ^ 63, true, 0),
      stepElem false 1 0 [.fin false 1 0, .fin false 3 0] == (2, false, 1)] = true := by decide +kernel

/-- R164 to R168: MZERO, MANCHOR's exact and its inexact re-anchoring, MSTAT on both sides of a threshold, MCLR's codes. -/
theorem test_accumulator :
    let s := (wm.setAcc 16384 { anchor := 0xFFFE, ovf := false, ufc := 1 }).putS 1 7
    let w := s.modMe fun x => { x with sys := { x.sys with ufmax := 0 } }
    every [runs wm (.mzero (gu 3) (mx 2 0 0 0 0xFFFE)) fun u => u.acc 16384 == { anchor := 0xFFFE, ovf := false, ufc := 0 },
      runs s (.manchor (gu 3) (mx 2 1 0)) fun u => u.acc 16384 == { anchor := 7, ovf := false, ufc := 1 },
      reanchor false false (-2) (-1) [2, -4] == some ([1, -2], false, 0), reanchor false false (-2) (-1) [3] == none,
      reanchor false false 0 (-1) [2 ^ 62] == none, reanchor false true (-2) 0 [1, -39, 2] == some ([0, -10, 0], false, 2),
      runs s (.mstat (gu 3) (mx 9 2 0)) fun u => lateIs u fun v => v.rp 9 == 0, runs w (.mstat (gu 3) (mx 9 2 0)) fun u => lateIs u fun v => v.rp 9 == BitVec.allOnes 64,
      runs s (.mstat (gu 3) (mx 9 2 0 0 1)) fun u => u.rs 9 == 0x0000FFFE00000001, runs s (.mclr (gu 3) (mx 2 0 0 0 1)) fun u => (u.acc 16384).ufc == 1,
      runs s (.mclr (gu 3) (mx 2 0 0 0 2)) fun u => (u.acc 16384).ufc == 0] = true := by decide +kernel

/-- R154, R158: TIDSET's entry and each of its refusals; TIDSTEP backwards past 0; TIDSTEP.set. -/
theorem test_tensor_entries :
    let v := BitVec.ofNat 512 (leNat (wm.rdWin 1280 64))
    let r := fun (v : BitVec 512) (c : Cap) (sup : Bool) => match tidChecks v c sup with | .ok _ => (0, 0) | .error (.trap t) => (t.code.toNat, t.sub.toNat) | _ => (1, 1)
    every [runs wm (.tidset (gu 3) (mx 0 5 0 7)) fun u => !(u.tid 7).valid && lateIs u fun x => (x.tid 7).valid && (x.tid 7).owner == 0 && (x.tid 7).desc == v && (x.tid 7).kb == 0 && (x.tid 7).nb == 0,
      r v (w0.ra 2) false == (0, 0), r (v ^^^ 0x20000) (w0.ra 2) false == (0x0102, 7 * 512 + 63 * 8 + 3), r (v ||| 0x18 <<< 98) (w0.ra 2) false == (0x0102, 0x07FB),
      r (v ||| 0x6 <<< 98) (w0.ra 2) false == (0x0102, 5 * 512 + 63 * 8 + 3), r (v ||| 1 <<< 272 ||| 2 <<< 272) (w0.ra 2) false == (0x0102, 11 * 512 + 63 * 8 + 3),
      r (0x151 ||| 1 <<< 64 ||| 1 <<< 80) {} false == (0x0104, 3), r (0x151 ||| 1 <<< 64 ||| 1 <<< 80) {} true == (0, 0), r v {} false == (0x0105, 3),
      r v (w0.ra 1) false == (0x0104, 3), runs wm (.tidstep (gu 3) (mx 0 0 0 3 0x00FE)) fun u => (u.tid 3).kb == 0 && (u.tid 3).nb == 1,
      runs ((wm.putS 1 0).putS 2 1) (.tidstepSet (gu 3) (mx 0 1 2 3 0x10000)) fun u => (u.tid 3).nb == 1] = true := by decide +kernel

/-- R175 to R182: every low-rank operation admitted; a result that fits and one that raises LRANK with the rank needed and its destination. -/
theorem test_low_rank :
    let k64 := wm.modMe fun x => { x with views := { x.views with k := 0, kCap := 64, ranks := [] } }
    let full := wm.modMe fun x => { x with views := { x.views with ranks := [(0, 2), (1, 3)] } }
    every [([.lrzero (gu 3) (mx 7 0 0), .lrset (gu 3) (mx 0 0 4 0 2), .lradd (gu 3) (mx 2 0 1), .lrscale (gu 3) (mx 2 0 1), .lrmul (gu 3) (mx 2 0 1),
        .lrmuld (gu 3) (mx 2 0 32), .lrtrunc (gu 3) (mx 1 0 0), .lrcomp (gu 3) (mx 1 32 0 0 1), .lrcomp (gu 3) (mx 1 0 0), .lrapply (gu 3) (mx 2 60 1),
        .lrrank (gu 3) (mx 9 0 0)] : List Instr).all (adm wm), adm k64 (.lrdense (gu 3) (mx 0 0 0)), runs wm (.lrzero (gu 3) (mx 0 0 0)) fun u => u.me.rank 0 == 0,
      runs wm (.lrset (gu 3) (mx 1 0 4 0 4)) fun u => u.me.rank 1 == 4, traps wm (.lrset (gu 3) (mx 1 0 4 0 5)) 0x010F (5 * 256 + 1),
      runs wm (.lradd (gu 3) (mx 2 0 0)) fun u => u.me.rank 2 == 4, traps full (.lradd (gu 3) (mx 2 0 1)) 0x010F (5 * 256 + 2),
      lrAdd (.factored [[1]] [[2]]) (.factored [[3]] [[4]]) == .factored [[1], [3]] [[2], [4]], (lrMul (.factored [] []) (.factored [[1]] [[2]])).rank == 0,
      traps wm (.lrcomp (gu 3) (mx 1 0 0)) 0x0102 (11 * 512 + 63 * 8 + 3), runs wm (.lrrank (gu 3) (mx 9 0 0)) fun u => u.rs 9 == 2,
      runs wm (.lrapply (gu 3) (mx 2 0 1)) fun u => u.me.latches.lm.length == 4096] = true := by decide +kernel

/-- R185 to R187: the truncation worked by hand in 07. -/
theorem test_truncation :
    let e := fun k : Nat => (List.range 128).map fun i => if i = k then 0x3F800000 else 0
    let z := List.replicate 126 0
    truncate { tol := 0, absolute := false, open_ := 0 } (.factored [e 0, e 0] [e 0, e 1]) =
      some (.factored [0xBFB504F3 :: 0 :: z] [0xBF3504F3 :: 0xBF3504F3 :: z]) := by decide +kernel

/-! Memory, pump and sync slots. -/

/-- Bytes 1 to 16 at the start of the object of a1 and of the own scratchpad, s1 = 0x1122334455667788, s2 = 5, lanes 0 and 2 in p1; a region
that holds a full store buffer, and one that holds 32 other entries. -/
def wmem : State :=
  let bs := (List.range 16).map fun k => BitVec.ofNat 8 (k + 1)
  ((((w0.wrBytes 0x20000000 bs).wrBytes (4 * 2 ^ 54) bs).putS 1 0x1122334455667788).putS 2 5).putP 1 5
def opened (q : List CommitEntry) (s : State) : State := s.modMe fun x => { x with region := some {}, commitQ := q }
def fullBuffer : State := opened [{ held := true, op := .store (List.replicate 65536 (0, 0)) [] }] wmem
def fullQueue : State := opened (List.replicate 32 { held := true, op := .sigAdd 0 1 [] }) wmem
/-- A lane-wise guard of a memory slot. -/
def gl (n : BitVec 3) : Guard := { slot := n, pn := false, pred := 1, dup := false }

/-- R193, R196 to R200, R190: each load; sizes; negative offsets; the lanes; the header of an image. -/
theorem test_loads :
    let s := wmem.putA 1 ((wmem.ra 1).withOffset 8)
    let k := (wmem.wrBytes (4 * 2 ^ 54 + 0x1000) [1]).modMe fun x => { x with views := { x.views with k := 32768, kCap := 1, ranks := [(0, 9)] } }
    let c := { bits := BitVec.ofNat 128 (leNat ((List.range 16).map fun k => BitVec.ofNat 8 (k + 1))), tag := true : Cap }
    let m := (wmem.wrBytes 0x21000000 ((List.range 16).map fun k => BitVec.ofNat 8 (k + 1))).wrTag 0x21000000 true
    every [runs s (.ld (gu 4) (me 9 1 3)) fun u => u.rs 9 == 0x100F0E0D0C0B0A09 && u.me.latches.ll == [9, 10, 11, 12, 13, 14, 15, 16],
      runs s (.ld (gu 4) (me 9 1 0 0xFFFFFF)) fun u => u.rs 9 == 8, runs s (.lda (gu 4) (me 9 1 2 0xFFFFF8 6)) fun u => u.rs 9 == 0x04030201,
      runs wmem (.lds (gu 4) (me 9 2 1 2)) fun u => u.rs 9 == 0x0403, traps s (.ld (gu 4) (me 9 1 0 0xFFFFF7)) 0x0103 4,
      runs wmem (.vld (gl 4) (me 7 1 5)) fun u => u.rdWin 1792 12 == [1, 2, 3, 4, 0, 0, 0, 0, 9, 10, 11, 12],
      runs wmem (.vlds (gl 4) (me 7 2 5)) fun u => u.rdWin 1792 9 == [1, 2, 3, 4, 0, 0, 0, 0, 9], runs wmem (.tlds (gu 4) (me 1 2 10 4)) fun u => u.rdWin 1024 2 == [1, 2],
      (runs m (.capld (gu 4) (me 9 5 4)) fun u => u.ra 9 == c), runs k (.lrlds (gu 4) (me 0 2 0 0x1000)) fun u => u.me.rank 0 == 1,
      traps (k.wrBytes (4 * 2 ^ 54 + 0x1000) [2]) (.lrlds (gu 4) (me 0 2 0 0x1000)) 0x0102 (11 * 512 + 63 * 8 + 4)] = true := by decide +kernel

/-- R199: VGATH by the indices 3, 0xFFFFFFFF (skipped) and 1 in lanes 0 to 2; a failing element leaves those below it in place. -/
theorem test_gather :
    let s := (wmem.wrWin 512 (w32 [3, 0xFFFFFFFF, 1, 0x10000])).putP 1 7
    every [runs s (.vgath (gl 4) (me 7 1 2 0x020000)) fun u => velts u 7 3 == [0x100F0E0D, 0, 0x08070605],
      traps (s.putP 1 15) (.vgath (gl 4) (me 7 1 2 0x020000)) 0x0103 4, (s.gatherElems (gl 4) (me 7 1 2 0x020000)) == [(0, 12), (2, 4)],
      laneRuns 5 256 == [(0, 4), (8, 4)], laneRuns (BitVec.allOnes 64) 512 == [(0, 512)], laneRuns 0 4096 == []] = true := by decide +kernel

/-- R230, R354: tag, kind, rights, bounds at their limits at issue; no entry, another kind, no right, a length at the port. -/
theorem test_translation :
    let c := mkCap 3 kGLOBAL 1 0x100 0 0x100 0x10 true
    let code := fun (c : Cap) (ks rs : List Nat) (eo len : Nat) => match capCheck 4 c ks rs [] eo len with | .ok _ => 0 | .error (.trap t) => t.code.toNat | _ => 1
    let port := fun (obj kind : Nat) (rs : List Nat) (eo len : Nat) => match wmem.loadRun 4 (mkCap 255 kind obj 0 4 0 (2 ^ 21 - 1) true) rs 0 eo len with
      | .ok r => r.2.length
      | .error (.trap t) => t.code.toNat
      | _ => 1
    every [code c [kGLOBAL] [rR, rW] 0x100 0x10 == 0, code c [kGLOBAL] [rR] 0x100 0x11 == 0x103, code c [kGLOBAL] [rR] 0xFF 1 == 0x103, code c [kGLOBAL] [rX] 0x100 1 == 0x104,
      code c [kSIGNAL] [rR] 0x100 1 == 0x104, code { c with tag := false } [kSIGNAL] [rX] 0 1 == 0x105, code (mkCap 3 kGLOBAL 1 0 49 0 9 true) [kGLOBAL] [rR] 0 1 == 0x103,
      port 1 kGLOBAL [rR] 0xFFFF 1 == 1, port 1 kGLOBAL [rR] 0xFFFF 2 == 0x103, port 99 kGLOBAL [rR] 0 1 == 0x103, port 1 kSIGNAL [rR] 0 1 == 0x104,
      (wmem.wr8 5 7).rd8 5 == 7, ((wmem.wr8 5 7).wr8 5 0).core.mem == wmem.core.mem, Memory.wf wmem.core.mem,
      forward [{ op := .store [(5, 1), (5, 2)] [] }, { op := .store [(6, 3)] [] }] 5 9 == 2] = true := by decide +kernel

/-- R196 to R202, R33, R34: what each store leaves in the commit stage, held in a region; REGION_OVERFLOW; a scatter that fails. -/
theorem test_global_stores :
    let q := fun (s : State) (i : Instr) (p : CommitEntry → Bool) => runs s i fun u => (u.me.commitQ.length == 1 && u.me.commitQ.all p) && u.core.mem == s.core.mem
    let o := opened [] wmem
    let v := ((wmem.wrWin 512 (w32 [3, 0xFFFFFFFF, 1, 0x10000])).wrWin 256 (w32 [9, 8, 7])).putP 1 7
    every [q wmem (.st (gu 5) (me 1 1 1 2)) fun e => e.op == .store [(0x20000002, 0x88), (0x20000003, 0x77)] [] && !e.held,
      q o (.stl (gu 5) (me 1 1 0 0 4)) fun e => e.op == .store [(0x20000000, 0x88)] [] && e.held && e.scope == 4,
      q v (.vst (gl 5) (me 1 1 5)) fun e => e.op.storeBytes == 12, q v (.vscat (gl 5) (me 1 1 2 0x020000)) fun e => e.op ==
        .store [(0x2000000C, 9), (0x2000000D, 0), (0x2000000E, 0), (0x2000000F, 0), (0x20000004, 7), (0x20000005, 0), (0x20000006, 0), (0x20000007, 0)] [],
      q wmem (.capst (gu 5) (me 3 5 4)) fun e => e.op == .capStore 0x21000000 (w0.ra 3) [], q wmem (.atom (gu 5) (me 1 1 2 0x900000)) fun e =>
        e.op == .atomic 0x20000000 9 2 0x55667788 5 1 [], traps fullBuffer (.st (gu 5) (me 1 1 0)) 0x0102 (8 * 512 + 63 * 8 + 5), adm fullQueue (.st (gu 5) (me 1 1 0)),
      traps (v.putP 1 15) (.vscat (gl 5) (me 1 1 2 0x020000)) 0x0103 5, next (exec (.vscat (gl 5) (me 1 1 2 0x020000)) (v.putP 1 15)) fun u =>
        u.me.commitQ.length == 1 && u.me.commitQ.all fun e => e.stands && e.op.storeBytes == 8] = true := by decide +kernel

/-- R193, R196 to R198, R201 to R203, R190: each scratchpad store; HE; the old value of ATOMS. -/
theorem test_scratch_stores :
    let s := wmem.modMe fun x => x.setHandle 2 { base := 0, ssize := 1, count := 2, expect := 4, state := [(0, .filling)], left := [(0, 4)] }
    let r := fun (i : Instr) (a n : Nat) (v : Nat) => runs s i fun u => u.rdNat (4 * 2 ^ 54 + a) n == v
    let k := wmem.modMe fun x => { x with views := { x.views with k := 32768, kCap := 4, ranks := [] } }
    every [r (.sts (gu 5) (me 1 2 2 4)) 4 4 0x55667788, runs (s.putA 2 ((s.ra 2).withOffset 8)) (.sts (gu 5) (me 1 2 1 0x07FFFE)) fun u => u.rdNat (4 * 2 ^ 54 + 6) 2 == 0x7788, runs s (.sts (gu 5) (me 1 2 2 0x900000)) fun u =>
        (u.me.handle 2).st 0 == .filled && (u.me.handle 2).lf 0 == 0, traps s (.sts (gu 5) (me 1 2 0 0x040000)) 0x0103 5,
      r (.vsts (gl 5) (me 1 2 5 0x20)) 0x20 4 0, adm s (.tsts (gu 5) (me 1 2 10 1)), runs k (.lrsts (gu 5) (me 0 2 0 0x40)) fun u => u.rd8 (4 * 2 ^ 54 + 0x40) == 0,
      runs s (.atoms (gu 5) (me 9 2 2 0x000004)) fun u => u.rs 9 == 0x08070605 && u.rdNat (4 * 2 ^ 54 + 4) 4 == 0x08070605,
      runs (s.putS 9 1) (.atoms (gu 5) (me 9 2 2 0x000004)) fun u => u.rs 9 == 0x08070605 && u.rdNat (4 * 2 ^ 54 + 4) 4 == 0x08070606,
      traps (opened [] s) (.sts (gu 5) (me 1 2 2 0x900000)) 0x010D 2] = true := by decide +kernel

/-- R202: every atomic operation on 32 bits, at signed and unsigned extremes; the floating add. -/
theorem test_atomics :
    let a := fun op => atomicNew op 32 0xFFFFFFFF 1 7
    every [((List.range 10).map a) == [0, 1, 0xFFFFFFFF, 0xFFFFFFFE, 0xFFFFFFFF, 1, 1, 0xFFFFFFFF, 1, 0xFFFFFFFF], atomicNew 9 32 1 1 7 == 7,
      atomicNew 10 32 0x3F800000 0x3F800000 0 == 0x40000000, atomicNew 10 32 0x7F800001 0x3F800000 0 == 0x7FC00000] = true := by decide +kernel

/-- R204, R205, R246 to R249, R274, R291, R297, R384: every pump operation admitted; where it goes; LIMIT, CB_CONFIG, REGION_OVERFLOW. -/
theorem test_pump :
    let arena := objEntry kARENA 2 0x50000000 0x1000000
    let tl := fun x : Tile => { x with tlbObjs := x.tlbObjs ++ [{ asid := 0, obj := 8, entry := BitVec.ofNat 256 arena }] }
    let s := (((w0.modTile 0 tl).putA 8 (mkCap 255 kARENA 8 0 4 0 (2 ^ 21 - 1) true)).putS 1 64).modMe fun x =>
      { x.setHandle 1 { ssize := 1, count := 4, expect := 64 } with task := x.task.map fun k => { k with step := some 0 } }
    let t := s.setTid 3 { valid := true, owner := 0, desc := BitVec.ofNat 512 (0x151 + 2 ^ 64 + 2 ^ 80) }
    let sup := t.modMe fun x => { x with sys := { x.sys with sup := true } }
    every [([.pcopy (gu 6) (pc 1 2 1 0), .pfill (gu 6) (pc 1 3 1 0 0 2), .pgath (gu 6) (pc 5 0 0 0), .pscat (gu 6) (pc 5 0 0 0), .pdecl (gu 6) (pc 1 0 1 0),
        .pflushx (gu 6) (pc 1 0 1 0), .kvappend (gu 6) (pc 8 2 0 0), .kvattn (gu 6) (pc 8 2 1 1 1), .kvscore (gu 6) (pc 8 2 1 1), .kvseal (gu 6) (pc 8 0 0 0),
        .kvcompact (gu 6) (pc 5 0 0 0), .kvfork (gu 6) (pc 8 8 0 0), .kvforkNew (gu 6) (pc 8 1 0 0 0 1), .kvfree (gu 6) (pc 8 3 0 0 0 2), .kvpin (gu 6) (pc 8 0 1 0),
        .kvwin (gu 6) (pc 8 0 1 0), .kvstat (gu 6) (pc 8 2 0 0), .colar (gu 6) (pc 5 0 0 0), .colrs (gu 6) (pc 5 3 0 0 0 2), .colag (gu 6) (pc 5 0 0 0),
        .colbc (gu 6) (pc 5 0 0 0), .colstat (gu 6) (pc 2 0 1 0), .stmget (gu 6) (pc 2 0 1 0), .stmstat (gu 6) (pc 2 0 1 0)] : List Instr).map (adm s) ==
        List.replicate 24 true,
      ([.wjopen (gu 6) (pc 0 0 0 0 0 0x300), .wjwrite (gu 6) (pc 2 0 0 1), .wjcommit (gu 6) (pc 0 3 0 0 0 2), .wjabort (gu 6) (pc 0 0 0 0), .wjstat (gu 6) (pc 2 0 0 0)] : List Instr).map
        (adm sup) == List.replicate 5 true,
      runs s (.pcopy (gu 6) (pc 2 1 1 0 1 1)) fun u => u.core.cmds.length == 1 && u.me.commitQ == [], runs s (.pcopy (gu 6) (pc 1 2 1 0)) fun u =>
        u.core.cmds == [] && u.me.commitQ.length == 1, runs s (.kvstat (gu 6) (pc 8 2 0 0)) fun u => u.core.cmds.length == 1,
      traps (s.putS 1 0x100000000) (.pcopy (gu 6) (pc 1 2 1 0)) 0x0102 (11 * 512 + 63 * 8 + 6), adm (s.putS 1 0xFFFF) (.pcopy (gu 6) (pc 1 2 1 0)),
      traps s (.pcopy (gu 6) (pc 1 2 1 0 1 1)) 0x010D 1, traps (opened [] s) (.pfill (gu 6) (pc 2 0 1 0 1 1)) 0x010D 1, traps s (.pfill (gu 6) (pc 2 0 1 0 2 1)) 0x010D 2,
      traps (opened fullQueue.me.commitQ s) (.pcopy (gu 6) (pc 1 2 1 0)) 0x0102 (8 * 512 + 63 * 8 + 6)] = true := by decide +kernel

/-! The sync slot. -/

def sy (n a c low : Nat) : SyncBody := BitVec.ofNat 47 (n * 2 ^ 43 + a * 2 ^ 37 + c * 2 ^ 31 + low)
/-- Handle 1 as in the example of 01: 4 slots of 2 KiB, EXPECT 2,048. -/
def ring : Handle := { base := 0x1000, ssize := 8, count := 4, expect := 2048 }
def wh (h : Handle) : State := w0.modMe fun x => x.setHandle 1 h
def sleeps (s : State) (i : Instr) : Bool := runs s i fun u => u.me.phase == .sleeping

/-- R29, R30: the example of 01: slots 0 and 1 armed, a copy of 3 KiB across the boundary, CBWAIT 1 returns and CBWAIT 2 sleeps; the wrap of
DRAIN; a delivery that is too large, or out of the ring, sets OVERRUN. -/
theorem test_handle_states :
    let h := (ring.advance true 2).getD {}
    let f := (h.charge 0x1000 2048).charge 0x1800 1024
    let c := (f.advance false 1).getD {}
    every [f.st 0 == .filled, f.st 1 == .filling && f.lf 1 == 1024 && !f.overrun, f.fill == 2, (runs (wh f) (.cbwait (gu 7) (sy 1 0 0 1)) fun u => u == wh f),
      sleeps (wh f) (.cbwait (gu 7) (sy 1 0 0 2)), c.st 0 == .free && c.drain == 1, f.advance false 2 == none, h.advance true 3 == none, ring.advance true 5 == none,
      ((ring.advance true 4).getD {}).fill == 0, (f.charge 0x1800 1025).overrun && (f.charge 0x1800 1025).st 1 == .filled, (ring.charge 0x2FFF 2).overrun, (ring.charge 0xFFF 1).overrun,
      ((ring.deliver 3 0).overrun)] = true := by decide +kernel

/-- R27, R28, R215, R216, R33: CBSET with each field at its bounds, a busy handle, CBSPACE, CBADV in and out of a region. -/
theorem test_handle_instructions :
    let set := fun (b c : Word) => (w0.putS 1 b).putS 2 c
    let i : Instr := .cbset (gu 7) (sy 1 1 2 0)
    let f := ({ ring with state := [(0, .filled), (1, .filling)] } : Handle)
    let busy := (wh ring).addCmd { id := 9, tile := 0, ctx := 0, body := { areg0 := 0, areg1 := 0, s0 := 0, s1 := 0, handle := 1, cls := 0, aux := 1 }, opc := 1 }
    let bad := fun (b c : Word) => traps (set b c) i 0x010D 1
    every [runs (set 0x1000 0x0000080000040008) i fun u => u.me.handle 1 == ring, runs (set 0 0x0000010000400001) i fun u => (u.me.handle 1).count == 64,
      runs (set 0x1F0000 0x0001000000010100) i fun u => (u.me.handle 1).ssize == 256, bad 0x1F0100 0x0001000000010100, bad 0x80 0x0000010000400001, bad 0 0x0000010100400001,
      bad 0 0x0000010000410001, bad 0 0x0000010000000001, bad 0 0x0000000000400001, bad 0 0x0000010000400000, bad 0 0x0000010000400200, traps w0 (.cbwait (gu 7) (sy 1 0 0 0)) 0x010D 1,
      traps (wh ring) (.cbspace (gu 7) (sy 1 0 0 5)) 0x010D 1, traps (wh { ring with overrun := true }) (.cbwait (gu 7) (sy 1 0 0 0)) 0x010D 1, sleeps (wh f) (.cbwait (gu 7) (sy 1 0 0 2)),
      (runs (wh f) (.cbspace (gu 7) (sy 1 0 0 0)) fun u => u == wh f), sleeps (wh f) (.cbspace (gu 7) (sy 1 0 0 1)), (runs (wh ring) (.cbspace (gu 7) (sy 1 0 0 4)) fun u => u == wh ring),
      (runs (wh ring) (.cbadvProduce (gu 7) (sy 1 0 0 2)) fun u => (u.me.handle 1).fill == 2), traps (wh f) (.cbadvProduce (gu 7) (sy 1 0 0 1)) 0x010D 1,
      (runs (wh f) (.cbadvConsume (gu 7) (sy 1 0 0 0x81)) fun u => (u.me.handle 1).drain == 1), traps (wh f) (.cbadvConsume (gu 7) (sy 1 0 0 0x82)) 0x010D 1,
      (runs (opened [] (wh ring)) (.cbadvProduce (gu 7) (sy 1 0 0 2)) fun u => u.me.handle 1 == ring && u.me.commitQ.length == 1), (runs (opened [] (wh ring)) (.cbadvConsume (gu 7) (sy 1 0 0 0x80))
        fun u => u.me.commitQ == []), runs ((busy.putS 1 0).putS 2 0x0000010000400001) i fun u => u.me.handle 1 == ring && (u.tile 0).syncQ.length == 1] = true := by decide +kernel

/-- A signal word and a job control block at the start of the object of a3. -/
def wsig (v : Nat) (j : Nat := 0) : State := ((((w0.wrBytes 0x22000000 (leBytes 8 v)).wrBytes 0x22000020 (leBytes 32 j)).putS 1 5).putS 2 0xFFFFFFFFFFFFFF).putA 4 ((w0.ra 3).withOffset 32)

/-- R8 to R10: STATUS 7 (early service) gives way, another stays; VALUE is clamped at both ends. R219: the block. -/
theorem test_signal_words :
    let m := fun (w : Word) (d : Int) (st : Nat) => (signalMerge w d st).toNat
    let j := fun (raised posted mask : Nat) => BitVec.ofNat 256 (raised + posted * 2 ^ 64 + mask * 2 ^ 128)
    every [m 5 (-7) 0 == 0, m 5 2 7 == 7 + 7 * 2 ^ 56, m (5 + 7 * 2 ^ 56) 0 3 == 5 + 3 * 2 ^ 56 + 2 ^ 63, m (5 + 3 * 2 ^ 56 + 2 ^ 63) 1 4 == 6 + 3 * 2 ^ 56 + 2 ^ 63,
      m 0xFFFFFFFFFFFFFF 1 0 == 0xFFFFFFFFFFFFFF, m (7 * 2 ^ 56) 0 0 == 7 * 2 ^ 56, jobRaise (j 1 0 0) 63 2 == some (j 3 0 0), jobRaise (j (2 ^ 64 - 1) 0 0) 0 1 == none,
      jobRaise (j 1 0 2) 1 2 == none, jobPost (j 2 0 0) 0 1 == some (j 2 1 1), jobPost (j 2 1 1) 3 1 == some (j 2 2 (9 + 2 ^ 64)), jobPost (j 2 0 0) 63 5 == some (j 2 5 (2 ^ 63 + 2 ^ 64 + 2 ^ 65)),
      jobPost (j 2 2 (2 ^ 64)) 1 0 == none, jobPost (j 5 0 1) 0 0 == none, jobRaise (j 2 2 (2 ^ 64)) 1 0 == none] = true := by decide +kernel

/-- R217 to R219, R234: SIGWAIT with each condition, ERR, and an own update that has not performed; the updates in the commit stage. -/
theorem test_signals_jobs :
    let w := fun c : Nat => (.sigwait (gu 7) (sy 3 9 1 (2 ^ 28 + c * 2 ^ 25)) : Instr)
    let own := fun s : State => s.modMe fun x => { x with bundleNo := 2, commitQ := [{ bundle := 1, op := .sigAdd 0x22000000 1 [] }] }
    let ownJ := fun s : State => s.modMe fun x => { x with bundleNo := 2, commitQ := [{ bundle := 1, op := .jobPost 0x22000020 0 1 [] }] }
    let q := fun (i : Instr) (op : CommitOp) => runs (wsig 0) i fun u => u.me.commitQ.length == 1 && u.me.commitQ.all fun e => e.op == op && e.scope == 4
    every [(runs (wsig 5) (w 0) fun u => u.rs 9 == 5), sleeps (wsig 4) (w 0), (runs (wsig 4) (w 1) fun u => u.rs 9 == 4), sleeps (wsig 5) (w 1), (runs (wsig 5) (w 2) fun u => u.rs 9 == 5),
      sleeps (wsig 6) (w 2), (runs (wsig 6) (w 3) fun u => u.rs 9 == 6), sleeps (wsig 4) (w 3), sleeps (wsig 5) (w 4), (runs (wsig (6 + 2 ^ 57 + 2 ^ 63)) (w 4) fun u => u.rs 9 == 6 + 2 ^ 57 + 2 ^ 63),
      (runs (wsig (2 ^ 63 + 2 ^ 56)) (w 3) fun u => u.rs 9 == 2 ^ 63 + 2 ^ 56), sleeps (own (wsig 5)) (w 0), q (.sigadd (gu 7) (sy 3 0 2 (4 * 2 ^ 28))) (.sigAdd 0x22000000 0xFFFFFFFFFFFFFF []),
      q (.jobraise (gu 7) (sy 4 1 2 (4 * 2 ^ 28))) (.jobRaise 0x22000020 5 0xFFFFFFFFFFFFFF []), q (.jobpost (gu 7) (sy 4 1 2 (4 * 2 ^ 28))) (.jobPost 0x22000020 5 0xFFFFFFFFFFFFFF []),
      traps (wsig 0) (.jobpost (gu 7) (sy 4 2 2 (2 ^ 28))) 0x0102 (11 * 512 + 63 * 8 + 7), traps (wsig 0) (.jobwait (gu 7) (sy 15 0 0 (2 ^ 28))) 0x0105 7,
      sleeps (wsig 0) (.jobwait (gu 7) (sy 4 0 0 (2 ^ 28))), (runs (wsig 0 (2 ^ 192)) (.jobwait (gu 7) (sy 4 0 0 (2 ^ 28))) fun u => u == wsig 0 (2 ^ 192)),
      sleeps (ownJ (wsig 0 (2 ^ 192))) (.jobwait (gu 7) (sy 4 0 0 (2 ^ 28)))] = true := by decide +kernel

/-- R213, R220, R221: a fence; BAR of a gang of one and of two; LAUNCH and LAUNCH.nb with and without an entry. -/
theorem test_fence_barrier_launch :
    let m := FMap.get {} w0.cp.gangs 1
    let g := fun y : Gang => ({ w0 with cp := { w0.cp with gangs := [(1, y)] } } : State)
    let res := { w0 with cp := { w0.cp with regions := [(1, BitVec.ofNat 2048 ((2 ^ 64 - 1) * 2 ^ 192 + 2 ^ 67 + 2 ^ 160))] } }
    let done := fun s : State => runs s (.bar (gu 7) 0) fun u => u.me.barGen == 1 && u.me.phase == .running
    every [(runs w0 (.fence (gu 7) 0x10000) fun u => u == w0), (runs w0 (.fence (gu 7) 0x1FFFF) fun u => u.me.fences == [(0xFFFF, true, 0)]), done w0,
      done (g { m with members := [.on 0 0, .on 1 0], barGens := [(1, 1)] }), done (g { m with members := [.on 0 0, .ended] }), sleeps (g { m with members := [.on 0 0, .on 1 0] }) (.bar (gu 7) 0),
      sleeps (g { m with rplw := true }) (.bar (gu 7) 0), (runs res (.launch (gu 7) (sy 1 0 0 0)) fun u => u.me.commitQ.length == 1 && u.cp == res.cp),
      (runs w0 (.launchNb (gu 7) (sy 1 0 0 0x19)) fun u => (if w0.plPool == 0 then u.rp 9 == 0 && u.me.commitQ == [] else u.rp 9 == BitVec.allOnes 64 && u.cp.plPoolUsed == 1)),
      (runs { w0 with cp := { w0.cp with plPoolUsed := w0.plPool } } (.launchNb (gu 7) (sy 1 0 0 0x19)) fun u => u.rp 9 == 0 && u.me.commitQ == []),
      (res.regionPlres 1 != 0 && runs res (.launchNb (gu 7) (sy 1 0 0 0x19)) fun u => u.rp 9 == BitVec.allOnes 64 && FMap.get 0 u.cp.plUsed 1 == 1)] = true := by decide +kernel

/-- R222 to R224, R276: EVREAD with a record, with drops, with neither; EVWAIT at its time; CHK; RPLW; TICKWAIT. -/
theorem test_events_checks_ticks :
    let r : EventRec := { time := 0x1122, source := 7, code := 2, payload := 5 }
    let e := w0.modMe fun x => { x with events := [r] }
    let d := w0.modMe fun x => { x with drops := 3, firstDrop := 0x99 }
    let at5 := ({ w0 with now := 5 * 65536 } : State).putS 1 5
    let ne := w0.wrWin 300 [1]
    let ck : Instr := .chk (gu 7) (BitVec.ofNat 47 (1 * 2 ^ 31))
    let tk := fun f : Task → Task => w0.modMe fun x => { x with task := x.task.map f }
    let ta := tk fun k => { k with arm := some 0 }
    let tw := ta.modMe fun x => { x with tickTarget := some 7 }
    let ev : Instr := .evread (gu 7) (BitVec.ofNat 47 (4 * 2 ^ 7 + 9))
    every [(runs e ev fun u => u.rdWin 1024 8 == leBytes 8 0x1122 && u.me.events == [] && u.rp 9 == BitVec.allOnes 64 && u.rdWin 1032 5 == [7, 0, 2, 0, 5]),
      (runs d ev fun u => u.rdWin 1024 13 == [0x99, 0, 0, 0, 0, 0, 0, 0, 0, 0, 1, 0, 3] && u.me.drops == 0 && u.rp 9 == BitVec.allOnes 64),
      (runs w0 ev fun u => u.rp 9 == 0), (runs e (.evwait (gu 7) (sy 0 1 0 9)) fun u => u.rp 9 == BitVec.allOnes 64 && u.me.events.length == 1),
      (runs at5 (.evwait (gu 7) (sy 0 1 0 9)) fun u => u.rp 9 == 0 && u.me.phase == .running), sleeps (at5.putS 1 6) (.evwait (gu 7) (sy 0 1 0 9)), sleeps at5 (.evwait (gu 7) (sy 0 0 0 9)),
      (runs w0 ck fun u => u == w0), traps ne ck 0x0110 44, (next (exec ck (ne.modMe fun x => { x with sys := { x.sys with utvecEn := true, utvec := 2 } })) fun u => u.me.phase == .running && u != ne),
      (runs (tk fun k => { k with wide := some 0 }) (.rplw (gu 7) 0) fun u => (u.gang 1).rplw), (runs ta (.tickwait (gu 7) 0) fun u => u.me.phase == .sleeping),
      (runs tw (.tickwait (gu 7) 0) fun u => (u.me.task.bind fun k => k.step) == some 7 && u.me.tickTarget.isNone)] = true := by decide +kernel

/-! Events: the commit stage and the tiles. -/

/-- A bundle of one operation at the start of the CODE object, where context 0 of tile 0 fetches. -/
def placed (s : State) (n : Nat) (w : Nat) (hdr : Nat := 0) : State :=
  (s.modMe fun x => { x with task := x.task.map fun k => { k with code := 4 } }).wrBytes 0x10000000
    (leBytes 64 (0x01000000 + hdr + 2 ^ n + w * 2 ^ (32 + 60 * n)))

/-- One entry in the commit stage of context 0 of tile 0. -/
def cm (op : CommitOp) : State := w0.modMe fun x => { x with commitQ := [{ op := op }] }
/-- What a departure leads to. -/
def dep (s : State) (p : State → Bool) : Bool := (s.departing 0 0).isSome && next (exec (.commitStageDeparture 0 0) s) p

/-- R34, R202, R215, R219, R221: each entry as it leaves; order, a held entry, an own atomic that has not performed; JOB_ORDER; the stall. -/
theorem test_commit_stage :
    let q := fun s : State => s.me.commitQ.length
    let blk := ((cm (.jobRaise 0x22000020 63 2 [])).wrBytes 0x22000020 (leBytes 32 1))
    let cmd : PumpCmd := { id := 5, opc := 1, body := { areg0 := 0, areg1 := 0, s0 := 0, s1 := 0, handle := 0, cls := 0, aux := 0 } }
    let wait := cm (.launchWait { asid := 0, obj := 1, off := 0 } 1)
    let hold := w0.modMe fun x => ({ x with commitQ := [{ held := true, op := .sigAdd 0 1 [] }, { op := .cbadv true 1 2 }] } : Ctx).setHandle 1 ring
    every [dep (cm (.store [(0x20000000, 9), (0x20000001, 0)] [])) fun u => u.rd8 0x20000000 == 9 && u.rd8 0x20000001 == 0 && q u == 0,
      dep (cm (.capStore 0x21000000 (w0.ra 3) [])) fun u => u.rdBytes 0x21000000 16 == leBytes 16 (w0.ra 3).bits.toNat && u.rdTag 0x21000000,
      dep (cm (.atomic 0x20000000 0 2 1 0 9 [])) fun u => u.core.homeQ.length == 1 && q u == 0,
      dep ((cm (.sigAdd 0x22000000 0xFFFFFFFFFFFFFF [])).wrBytes 0x22000000 [5]) fun u => u.rdNat 0x22000000 8 == 4,
      dep blk fun u => u.rdNat 0x22000020 32 == 3, dep (blk.wrBytes 0x22000038 [1]) fun u => u.me.phase != .running && u.rdNat 0x7800000A 2 == 0x10C,
      dep ((cm (.jobPost 0x22000020 0 1 [])).wrBytes 0x22000020 (leBytes 32 1)) fun u => u.rdNat 0x22000020 32 == 1 + 2 ^ 64 + 2 ^ 128 + 2 ^ 192,
      dep ((cm (.jobPost 0x22000020 0 1 [])).wrBytes 0x22000030 [1]) fun u => u.rdNat 0x7800000A 2 == 0x10C,
      dep (cm (.pump cmd)) fun u => u.core.cmds == [cmd], dep ((cm (.cbadv true 1 2)).modMe fun x => x.setHandle 1 ring) fun u => (u.me.handle 1).fill == 2,
      hold.departing 0 0 == none, w0.departing 0 0 == none, next (exec (.commitStageDeparture 0 0) w0) fun u => u == w0,
      dep wait fun u => u.me.launchStall && q u == 1, ({ cm (.sigAdd 0 1 []) with core := { (cm (.sigAdd 0 1 [])).core with homeQ := [{}] } } : State).departing 0 0 == none] = true := by decide +kernel

/-- R6, R12, R19, R202, R203, R214, R348, R356, R365, R366. -/
theorem test_tile_events :
    let o : InFlight := { eng := .load, bundle := 3 }
    let fl := w0.modTile 0 fun x => { x with inflight := [{ eng := .vectorA }, o, { eng := .load }] }
    let h : HomeAtomic := { slice := 5, pa := 0x20000140, op := 0, size := 2, v := 3, rd := 9 }
    let at' := ({ w0 with core := { w0.core with homeQ := [{ slice := 4 }, h] } } : State).wrBytes 0x20000140 [0xFE, 0xFF, 0xFF, 0xFF]
    let sl := w0.modMe fun x => { x with phase := .sleeping }
    let slept := placed (sl.modMe fun x => x.setHandle 1 ring) 7 (5 * 2 ^ 52 + 2 ^ 43 + 1)
    let r : EventRec := { time := 1, source := 3, code := 0x200, payload := 7 }
    let full := w0.modMe fun x => { x with events := List.replicate 16 r }
    let post := fun (s : State) (r : EventRec) (p : State → Bool) => next (exec (.eventRecordPost (.context 0 0) r) s) p
    let tr : TrapReport := { code := 0x010C, subcode := 0, slot := 7, obj := 0, offset := 0, pc := 0, bundle := 0 }
    let asids := [(0, BitVec.ofNat 256 (1 + 1024 * 2 ^ 172 + 0x100000 * 2 ^ 192))]
    let cold := (({ w0 with tab := { w0.tab with asids := asids } } : State).modTile 0 fun x => { x with tlbObjs := [] }).wrBytes (0x100000 + 32) (leBytes 32 (objEntry kGLOBAL 0 0x20000000 0x10000))
    let storm := w0.modMe fun x => { x with replayRun := 7 }
    let busy := w0.modTile 0 fun x => { x with inflight := [{ eng := .load, replayRun := 7 }] }
    let st := w0.modIsland 0 fun y => { y with stormUntil := some 9 }
    every [next (exec (.engineOperationComplete 0 .load) fl) fun u => (u.tile 0).inflight == [{ eng := .vectorA }, { eng := .load }],
      next (exec (.engineOperationComplete 0 .matrix) fl) fun u => u == fl, next (exec (.atomicHomePerform 5) at') fun u => u.rdNat 0x20000140 4 == 1 && u.rs 9 == 0xFFFFFFFE && u.core.homeQ.length == 1,
      next (exec (.systemTrap 0 0 tr) w0) fun u => u.rdNat 0x7800000A 2 == 0x10C, next (exec (.systemTrap 0 0 { tr with code := 0x0110 }) w0) fun u => u.rdNat 0x7800000A 2 == 0x110,
      next (exec (.systemTrap 0 0 { tr with code := 0x0101 }) w0) fun u => u == w0, post w0 r fun u => u.me.events == [r], post w0 { r with source := 0xFFFF } fun u => u == w0,
      post full r fun u => u.me.events.length == 16 && u.me.drops == 1, next (exec (.translationWalk 0 0 1 0) cold) fun u => u.lookObj 0 0 1 == some (BitVec.ofNat 256 (objEntry kGLOBAL 0 0x20000000 0x10000)),
      next (exec (.timingErrorReplay { tile := 0, ctx := 0 }) w0) fun u => (u.tile 0).replays == 1 && (u.island 0).stormUntil == none, next (exec (.timingErrorReplay { tile := 0, ctx := 0 }) storm) fun u => (u.island 0).stormUntil == some 1000000,
      next (exec (.timingErrorReplay { tile := 0, ctx := 0, engine := some .load }) busy) fun u => (u.island 0).stormUntil == some 1000000, next (exec (.timingErrorReplay { tile := 0, ctx := 0, engine := some .store }) busy) fun u => u == busy,
      next (exec (.stormPeriodEnd 0) { st with now := 9 * 65536 }) fun u => (u.island 0).stormUntil == none, next (exec (.stormPeriodEnd 0) { st with now := 9 * 65536 - 1 }) fun u => (u.island 0).stormUntil == some 9,
      next (exec (.waitRelease 0 0) slept) fun u => u.me.phase == .sleeping, slept.waitOver 0 0 == false,
      next (exec (.waitRelease 0 0) (slept.modMe fun x => x.setHandle 1 { ring with state := [(0, .filled)] })) fun u => u.me.phase == .running] = true := by decide +kernel

/-! Pre-emption, the wide variant, regeneration. -/

/-- An object of address space 0 in its table in memory. -/
def obj (s : State) (n e : Nat) : State := s.wrBytes (0x100000 + 32 * n) (leBytes 32 e)
/-- w0 with two save slots of 20 KiB at 0x60000000, and context 1 of tile 0 free. -/
def ws : State := { w0 with tab := { w0.tab with
  services := [(0, BitVec.ofNat 512 (0x78000000 + 4 * 2 ^ 64 + 0x60000000 * 2 ^ 192 + 2 * 2 ^ 288 + 5 * 2 ^ 304))] } }
/-- With two kernels in the KDESC object 9; the second is the wide variant of the first. -/
def wk : State :=
  let s := { ws with cp := { ws.cp with images := [{ kdesc := 9 }] } }
  (((obj s 9 (objEntry kGLOBAL 0 0x24000000 0x1000)).wrBytes 0x24000000 [2]).wrBytes 0x24000040 (leBytes 64 (2 ^ 64 + 2 ^ 96))).wrBytes 0x24000080
    (leBytes 64 (2 ^ 64 + 2 ^ 82 + 0xFFFF * 2 ^ 96))

/-- R36 to R39, R360, R361, R363, R364. -/
theorem test_preemption :
    let ask := ws.modMe fun x => { x with preempt := some {} }
    let asked := fun d => (w0.modMe fun x => { x with pc := 0x80, preempt := some { delivered := some d }, region := some { pc := 0x40 } })
    let at' := fun (n : Nat) (s : State) => ({ s with now := n * 65536 } : State)
    let land := (ws.putS 1 7).modMe fun x => { x with phase := .landed, pc := 0x1240 }
    let v : Saved := { ctx := { w0.me with pc := 0x300, sys := { winSize := 1 } }, tile := 0, ctxNo := 0, slot := 1, addr := 0x60005000 }
    let kept := ({ ws with cp := { ws.cp with saves := [(7, v)], usedSlots := [(0, 1)] } } : State).modQueue 3 fun x => { x with ready := [.saved 7], held := some {} }
    let back := (((kept.setCtx 0 0 {}).wrBytes 0x60005048 [5]).wrBytes 0x60006280 (leBytes 8 0x340))
    let gone := (placed w0 7 (19 * 2 ^ 52)).modTile 0 fun x => { x with feat := 0xF7 }
    every [next (exec (.preemptionRequestDelivery 0 0) (at' 9 ask)) fun u => u.me.preempt == some { delivered := some 9 },
      next (exec (.preemptionRequestDelivery 0 0) (at' 9 { ask with cp := { ask.cp with usedSlots := [(0, 0), (0, 1)] } })) fun u => u.me.preempt == some {},
      next (exec (.forcedPreemption 0 0) (at' 100005 (asked 5))) fun u => u.me.phase == .landed && u.me.region == none && u.me.pc == 0x40,
      next (exec (.forcedPreemption 0 0) (at' 100004 (asked 5))) fun u => u.me.phase == .running, land.saveReady 0 0 && land.freeSlot 0 == some 0,
      next (exec (.contextSave 0 0) land) fun u => u.me.phase == .idle && u.me.task.isNone && (u.save land.nextId).slot == 0 && (u.save land.nextId).ctx.pc == 0x1240 &&
        (u.save land.nextId).ctx.regs.s == land.me.regs.s && u.cp.usedSlots == [(0, 0)],
      next (exec (.contextSave 0 0) { land with cp := { land.cp with usedSlots := [(0, 0), (0, 1)] } }) fun u => u.me.phase == .landed,
      next (exec (.contextResume 3 0 0) back) fun u => u.me.phase == .running && u.me.pc == 0x340 && u.rs 9 == 5 && u.save 7 == {} && u.cp.usedSlots == [],
      next (exec (.contextResume 3 0 0) (back.modQueue 3 fun x => { x with held := none })) fun u => u.me.phase == .idle,
      next (exec (.featureMigration 0 0 3) gone) fun u => u.me.phase == .landed && u.me.preempt == some { kind := .migrate } && u.rdNat 0x7800000A 2 == 0x10B,
      next (exec (.featureMigration 0 0 1) gone) fun u => u.me.phase == .running] = true := by decide +kernel

/-- R224, R298, R319, R359. -/
theorem test_wide_and_regeneration :
    let node := BitVec.ofNat 1024 (1 + 64 * 2 ^ 128 + 9 * 2 ^ 160)
    let g : Gang := { inst := 1, node := node, region := 1, members := [.ended], rplw := true, reserved := [(0, 0, 1)] }
    let gs := fun (s : State) (g : Gang) => ({ s with cp := { s.cp with gangs := [(1, g)] } } : State).setCtx 0 0 {}
    let r : Regen := { asid := 0, obj := 10, start := 0 }
    let paged := obj ({ w0 with cp := { w0.cp with regens := [r] } } : State) 10 (objEntry kGLOBAL 1 0x200000 0x400000)
    let start := fun (s : State) (p : State → Bool) => next (exec (.regenerationStart 0 10 0) s) p
    let asid := BitVec.ofNat 256 (1 + 0x300000 * 2 ^ 96 + 2 * 2 ^ 160 + 1024 * 2 ^ 172 + 0x100000 * 2 ^ 192)
    let regs := (({ paged with tab := { paged.tab with asids := [(0, asid)] } } : State).wrBytes 0x200000 (leBytes 16 (2 ^ 52))).wrBytes 0x300020 (leBytes 32 (1 + 99 * 2 ^ 140))
    every [(wk.kernel 0 9 64 false).isSome && (wk.kernel 0 9 128 true).isSome && (wk.kernel 0 9 128 false).isNone, (wk.wideKernel g).isSome,
      next (exec (.wideVariantLaunch 1) (gs (wk.modIsland 0 fun y => { y with state := .on }) g)) fun u => (u.gang 1).wide && (u.gang 1).members == [.on 0 1] && (u.ctx 0 1).phase == .running && (u.ctx 0 1).sys.winSize == 1,
      next (exec (.wideVariantLaunch 1) (gs ws g)) fun u => (u.gang 1).wide && (u.gang 1).status == 2,
      next (exec (.wideVariantLaunch 1) (gs wk { g with members := [.on 0 0] })) fun u => !(u.gang 1).wide, next (exec (.wideVariantLaunch 1) (gs wk { g with rplw := false })) fun u => !(u.gang 1).wide,
      start (paged.wrBytes 0x200000 (leBytes 16 (8 + 0x26000000 * 2 ^ 64))) fun u => u.cp.regens == [], start paged fun u => u.cp.regens == [],
      regs.cpPage 0 10 5 == .absent 0 0x200000 0x200000 1, (regs.regenEntry 0 1).isSome, start regs fun u => u.cp.regens == []] = true := by decide +kernel

/-! The pump's commands, the arenas. -/

/-- A state with one posted command of context 0 of tile 0. -/
def pump (m : PumpCmd) (s : State := w0) : State := s.addCmd { m with id := 9 }
/-- A descriptor of one head of 32 elements in shard 0 of package 0 (R244). -/
def kvD : BitVec 512 := BitVec.ofNat 512 (2 ^ 241)
/-- The arena of object 8 with one sequence at offset 0, of one unsealed block. -/
def arena (q : Seq := { desc := kvD, table := [{ block := 1 }] }) (s : State := w0) : State :=
  let tl := fun x : Tile => { x with tlbObjs := x.tlbObjs ++ [{ asid := 0, obj := 8, entry := BitVec.ofNat 256 (objEntry kARENA 2 0x50000000 0x10000) }] }
  (((s.modTile 0 tl).putA 8 (mkCap 255 kARENA 8 0 4 0 (2 ^ 21 - 1) true)).modArena 0x50000000 fun _ => { seqs := [(0, q)], blocks := [(1, { refs := 1 })], nextBlock := 2 })

/-- R204, R207, R208, R210: parts of a copy, the last one; a handle; PDECL; completion with and without a signal, and with a trap. -/
theorem test_pump_events :
    let body : PumpBody := { areg0 := 2, areg1 := 1, s0 := 1, s1 := 0, handle := 1, cls := 0, aux := 0 }
    let src := [1, 2, 3, 4, 5, 6]
    let c : PumpCmd := { opc := 1, body := body, cap0 := (w0.ra 1).withOffset 4, s0 := 6, source := src, place := .started }
    let he : PumpCmd := { c with cap0 := w0.ra 2, body := { body with aux := 1 } }
    let hs := (pump he).modMe fun x => x.setHandle 1 { ssize := 1, count := 1, expect := 6, state := [(0, .filling)], left := [(0, 6)] }
    let deliver := fun (s : State) (n : Nat) (p : State → Bool) => next (exec (.pumpDelivery 9 n) s) p
    let is := fun (u : State) (k : Nat) (b : Bool) => match u.cmd 9 with | some w => w.moved == k && w.finished == b | none => false
    let over' := fun (s : State) (p : State → Bool) => next (exec (.pumpCommandComplete 9) s) p
    let sig := ((pump { c with finished := true, signal := some (w0.ra 3), status := 2 }).wrBytes 0x22000000 [5])
    every [deliver (pump c) 4 fun u => u.rdNat 0x20000004 4 == 0x04030201 && u.rdNat 0x20000008 4 == 0 && is u 4 false,
      deliver (pump { c with moved := 4 }) 9 fun u => u.rdNat 0x20000008 4 == 0x0605 && is u 6 true, deliver hs 6 fun u => (u.me.handle 1).st 0 == .filled && is u 6 true && u.rd8 (4 * 2 ^ 54 + 5) == 6,
      deliver hs 5 fun u => (u.me.handle 1).lf 0 == 1, deliver (pump { c with opc := 5, place := .queued }) 1 fun u => u.core.mem == w0.core.mem && is u 0 true,
      over' (pump c) fun u => u.core.cmds.length == 1, over' (pump { c with finished := true }) fun u => u.core.cmds == [],
      over' sig fun u => u.core.cmds == [] && u.rdNat 0x22000000 8 == 4 + 2 * 2 ^ 56 + 2 ^ 63, over' (pump { c with finished := true, fault := some (0x103, 6, 1, 4) }) fun u =>
        u.rdNat 0x7800000A 2 == 0x103 && u.rdNat 0x78000018 6 == 4 && u.me.phase != .running] = true := by decide +kernel

/-- R246, R247, R251, R252, R254 to R256, R239: resolution with each outcome. -/
theorem test_kv_events :
    let body : PumpBody := { areg0 := 8, areg1 := 2, s0 := 1, s1 := 0, handle := 1, cls := 0, aux := 0 }
    let m := fun op => ({ opc := op, body := body, cap0 := mkCap 255 kARENA 8 0 4 0 (2 ^ 21 - 1) true, cap1 := w0.ra 2, s0 := 7 } : PumpCmd)
    let k := 0x50000000
    let res := fun (s : State) (p : State → Bool) => next (exec (.kvCommandResolve 9) s) p
    let ended := fun (u : State) (st err : Nat) => (match u.cmd 9 with | some w => w.finished && w.status == st | none => false) && kvLastErr (u.seq k 0).desc == err
    let far := kvD ||| BitVec.ofNat 512 (5 * 2 ^ 339)
    let job : Job := { cmd := 9, arena := k, seqOff := 0, compact := true }
    let eng := (pump { m 11 with place := .resolved } (arena)).setJobs 2 [{ job with built := true }]
    let live := arena { desc := kvD ||| 1, table := [{ block := 1 }] }
    let lv := live.modBlock k 1 fun b => { b with toks := [[]], pos := [0] }
    every [res (pump (m 7) (arena)) fun u => ended u 0 0 && kvLen (u.seq k 0).desc == 1 && (u.block k 1).pos == [7] && (u.block k 1).toks.length == 1, res (pump (m 7) (arena {})) fun u => ended u 2 1,
      res (pump (m 13) (arena {})) fun u => ended u 2 1, res (pump (m 7) (arena { desc := far, table := [{ block := 1 }] })) fun u => ended u 6 5,
      res (pump (m 7) (arena { desc := kvD ||| 0xFFFFFFFF })) fun u => ended u 2 2, res (pump (m 13) lv) fun u => ended u 0 0 && (u.seq k 0).desc == 0 && (u.seq k 0).table == [],
      res (pump (m 13) (arena { desc := kvD, sealing := true })) fun u => (u.seq k 0).waiting == [9], res (pump (m 7) (arena { desc := kvD, sealing := true, table := [{ block := 1 }] })) fun u => ended u 0 0,
      res (pump (m 10) (arena)) fun u => ended u 0 0, ((arena { desc := setBits kvD 184 8 3 }).failKv (m 7) k 0 5).seq k 0 == { desc := setBits kvD 184 8 3 },
      (eng.installCompact { job with built := true }).2 == none, next (exec (.compactionInstall 2) eng) fun _ => true, next (exec (.compactionInstall 2) (eng.setJobs 2 [job])) fun u => u.jobsOf 2 == [job],
      next (exec (.compactionJob 2) (eng.setJobs 2 [job])) fun u => u.jobsOf 2 == [{ job with built := true }]] = true := by decide +kernel

/-- R239, R241, R416: a spilled block is read back; the sizes of the spec's example; addresses of the three ranges. -/
theorem test_spill_readback :
    let spilled := fun b : Bool => obj ((arena).modBlock 0x50000000 1 fun x => { x with sealed := true, spilled := b, lastRead := 9 }) 8
      (objEntry kARENA 2 0x50000000 0x10000)
    let d := BitVec.ofNat 512 (7 * 2 ^ 168 + 3 * 2 ^ 172 + 2 ^ 241)
    every [next (exec (.spillReadback 0 8 1) (spilled true)) fun u => !(u.block 0x50000000 1).spilled && (u.block 0x50000000 1).lastRead == 0,
      next (exec (.spillReadback 0 8 1) (spilled false)) fun u => (u.block 0x50000000 1).lastRead == 9, kvBlockSize d 16 == 65792, kvBlockSize d 256 == 1049600,
      lpddrChannel (2 ^ 31) (2 ^ 30 - 1) == (0, 2 ^ 30 - 1), lpddrChannel (2 ^ 31) (2 ^ 30 + 256 * 32 + 5) == (0, 2 ^ 30 + 256 + 5),
      lpddrChannel (2 ^ 31) (2 ^ 30 + 256 * 33) == (1, 256), lpddrChannel (2 ^ 31) (33 * 2 ^ 30 + 256 * 31) == (1, 2 ^ 30 + 256)] = true := by decide +kernel

/-! Streams and collectives. -/

/-- A stream descriptor: sender 7, one 64-byte unit, period 1 µs, window 5 µs, hold limit 100 ns, arm 2, two ring slots. -/
def stD (policy : Nat := 0) : BitVec 512 := BitVec.ofNat 512 (policy + 8 + 2 ^ 224 + 7 * 2 ^ 240 + 1000 * 2 ^ 256 + 5000 * 2 ^ 320 + 100 * 2 ^ 352 + 2 * 2 ^ 384 + 2 * 2 ^ 400)
/-- Stream 4 of arm 2, whose ticks come every 10 µs from the first one on. -/
def strm (x : Stream := { desc := stD }) (a : Arm := { armed := true, period := 10000, firstStep := 1, nextTick := 1 }) (s : State := w0) : State :=
  (s.modStream 4 fun _ => x).modArm 2 fun _ => a
def atNs (n : Nat) (s : State) : State := { s with now := n * 65536 }
/-- A token message. -/
def msg (stamp k sender z n : Nat) : List Byte := leBytes 8 stamp ++ leBytes 2 k ++ leBytes 2 sender ++ leBytes 4 z ++ List.replicate n 0xAB

/-- R268, R269: filed, stray, bad header, too late at the window's two sides, duplicate, overflow; a closed range. -/
theorem test_stream_arrival :
    let arrive := fun (s : State) (m : List Byte) (p : State → Bool) => next (exec (.streamTokenArrival m) s) p
    let cnt := fun (s : State) (m : List Byte) (f : StreamCounts → BitVec 32) => arrive s m fun u => f (u.stream 4).counts == 1 && (u.stream 4).ring == (s.stream 4).ring
    let t : Token := { n := 9, stamp := 9000 }
    let s := atNs 9000 strm
    every [arrive s (msg 9400 4 7 0 64) fun u => (u.stream 4).ring.length == 1 && (u.stream 4).ring.all fun t => t.n == 9 && t.stamp == 9400 && !t.backfill && t.bytes == List.replicate 64 0xAB,
      arrive s (msg 9500 4 7 0 64) fun u => (u.stream 4).ring.all fun t => t.n == 10, arrive s (msg 9000 5 7 0 64) fun u => u.eng.stray == 1, arrive s (msg 9000 1024 7 0 64) fun u => u.eng.stray == 1,
      cnt s (msg 9000 4 8 0 64) (·.badHdr), cnt s (msg 9000 4 7 1 64) (·.badHdr), cnt s (msg 9000 4 7 0 63) (·.badHdr), cnt s (msg 3999 4 7 0 64) (·.tooLate), arrive s (msg 4000 4 7 0 64) fun u => (u.stream 4).ring.length == 1,
      cnt (atNs 9000 (strm { desc := stD, ring := [t] })) (msg 9400 4 7 0 64) (·.dup), cnt (atNs 9000 (strm { desc := stD, ring := [{ n := 1 }, t] })) (msg 8000 4 7 0 64) (·.overflow),
      cnt (atNs 9000 (strm { desc := stD, closed := [1] })) (msg 8000 4 7 0 64) (·.lateDrop), (stIndex stD 499 == 0 && stIndex stD 500 == 1 && stepOf stD { period := 10000 } 10 == 1 && stepOf stD { period := 10000 } 11 == 2),
      stepRange stD { period := 10000 } 1 == (1, 10)] = true := by decide +kernel

/-- R270 to R275: a tick at its time and before it; the wake lead; the end of a step under EACH and FIRST; STMGET with a fixed delivery, an
open HOLD step, and at the hold limit. -/
theorem test_stream_steps :
    let on := fun (f : Arm → Arm) => strm { desc := stD } (f { armed := true, period := 10000, firstStep := 1, nextTick := 1 })
    let cur := on fun a => { a with cur := some 1 }
    let get : PumpCmd := { opc := 22, body := { areg0 := 2, areg1 := 0, s0 := 1, s1 := 0, handle := 1, cls := 0, aux := 0x90 }, cap0 := w0.ra 2, s0 := 4, step := some 1, arm := some 2 }
    let toks := (List.range 10).map fun (k : Nat) => ({ n := k + 1, stamp := BitVec.ofNat 64 (1000 * (k + 1)), bytes := List.replicate 64 1 } : Token)
    let v : Delivery := { step := 1, firstN := 1, nown := 2, own := [none, toks.head?] }
    let fixed' := pump get (strm { desc := stD 1, deliveries := [v] })
    let hold := fun n => pump get (atNs n (strm { desc := stD 1, ring := toks.drop 9 }))
    let part := pump get (strm { desc := stD, ring := toks.drop 9 })
    let res := fun (s : State) (p : State → Bool) => next (exec (.stmgetResolve 9) s) p
    let exp := fun (s : State) (p : State → Bool) => next (exec (.holdLimitExpiry 9) s) p
    let got := fun (u : State) (m : Mask) => (u.rp 9 == m && match u.cmd 9 with | some w => w.finished | none => false)
    every [next (exec (.tick 2) (atNs 9999 strm)) fun u => (u.arm 2).nextTick == 1, next (exec (.tick 2) (atNs 10000 strm)) fun u => (u.arm 2).nextTick == 2 && (u.stream 4).counts.missed == 1,
      next (exec (.tick 2) (on fun a => { a with armed := false })) fun u => (u.arm 2).nextTick == 1, next (exec (.tickWakeLead 2) strm) fun u => u == strm,
      next (exec (.stepEnd 2) cur) fun u => (u.arm 2).cur.isNone && (u.stream 4).closed == [1], next (exec (.stepEnd 2) (on fun a => { a with cur := some 1, curInst := some 3 })) fun u => (u.arm 2).cur == some 1,
      next (exec (.stepEnd 2) (atNs 20000 (on fun a => { a with cur := some 1, first := true }))) fun u => (u.arm 2).cur.isNone,
      next (exec (.stepEnd 2) (atNs 19999 (on fun a => { a with cur := some 1, first := true }))) fun u => (u.arm 2).cur == some 1,
      res fixed' fun u => got u 2 && u.rd8 (4 * 2 ^ 54 + 640) == 1, res (hold 0) fun u => match u.cmd 9 with | some w => w.place == .stream && !w.finished | none => false,
      exp (hold 10099) fun u => match u.cmd 9 with | some w => !w.finished | none => false, exp (hold 10100) fun u => got u 512 && (u.stream 4).counts.heldOut == 1, res part fun u => got u 512 && (u.stream 4).closed == [1],
      exp (atNs 10100 fixed') fun u => got u 2] = true := by decide +kernel

/-- A collective group: packages 0 and 1, its control block in object 11, of 24 KiB; two elements of INT32 added (R280, R292). -/
def colG (lim : Nat := 0) : BitVec 256 := BitVec.ofNat 256 (1 + 6 * 2 ^ 64 + 11 * 2 ^ 108 + 3 * 2 ^ 128 + 4 * 2 ^ 192 + lim * 2 ^ 224)
def colB (seq : Nat := 4) : List Byte := leBytes 64 ((w0.ra 1).bits.toNat + ((w0.ra 1).withOffset 64).bits.toNat * 2 ^ 128 + 2 * 2 ^ 256 + seq * 2 ^ 288 + 5 * 2 ^ 336)
/-- Group 5, with the links of version 3 up between packages 0 and 1 and none at version 4. -/
def col (x : Group) (ms : List PumpCmd := []) : State :=
  let s := (obj w0 11 (objEntry kGLOBAL 0 0x28000000 0x6000)).modGroup 5 fun _ => x
  { s with core := { s.core with cmds := ms }, net := { s.net with straits := [(2, { peerPkg := 1 })], sets := [{ version := 3, edges := [(0, 1, 2)] }, { version := 4, edges := [] }] } }
def coll : Coll := { seq := 4, cmd := 9, kind := 17, desc := colB, state := 1, pmask := 3, accepted := true, staged := leBytes 8 (5 + 6 * 2 ^ 32), dst := w0.ra 1, acceptedAt := 100 * 65536000 }
def collRun : Coll := { coll with state := 2, nchunk := 1, version := 3, lat := true, roots := [0], edges := [[(0, 1, 2)]] }

/-- R281, R283, R286 to R290, R293 to R295. -/
theorem test_collectives :
    let m : PumpCmd := { id := 9, opc := 17, desc := colB, descTags := [true, true], cap0 := w0.ra 5, place := .collective }
    let wait := col { entry := colG, waiting := [9] } [m]
    let acc := fun (s : State) (p : Coll → Bool) => next (exec (.collectiveAccept { group := 5 }) s) fun u => (u.group 5).colls.any p
    let is := fun (st err : Nat) (c : Coll) => c.state == st && c.err == err && c.cmd == 9
    let peer := { pkg := 1, seq := 4, time := 90 }
    let one := fun (c : Coll) => col { entry := colG 7, colls := [c] } [{ m with place := .accepted }]
    let met := fun (c : Coll) => col { entry := colG 7, colls := [c], peers := [peer] } [{ m with place := .accepted }]
    let agree := fun (v : Nat) (same : Bool) (p : Coll → Bool) => next (exec (.versionAgreement 5 [[], [v]] same) (met coll)) fun u => (u.group 5).colls.any p
    let ev := fun (i : Instr) (c : Coll) (p : Coll → Bool) => next (exec i (one c)) fun u => (u.group 5).colls.any p
    let given := some [[], leBytes 8 (1 + 0xFFFFFFFF * 2 ^ 32)]
    let late := fun n => ({ one coll with now := n } : State)
    every [acc wait fun c => is 1 0 c && c.staged.length == 8 && c.accepted, next (exec (.collectiveAccept { group := 5 }) wait) fun u => bitsOf (u.group 5).entry 223 192 == 5,
      acc (col { entry := colG, waiting := [9] } [{ m with desc := colB 5 }]) fun c => is 4 2 c, acc (col { entry := colG &&& ~~~1, waiting := [9] } [m]) fun c => is 4 1 c,
      next (exec (.collectiveAccept { group := 5 }) (col { entry := colG })) fun u => u == col { entry := colG }, next (exec (.collectiveAccept { group := 5, peer := some peer }) (one coll)) fun u => (u.group 5).peers == [peer], ev (.versionAgreement 5 [[], [3]] true) coll fun c => is 1 0 c,
      agree 3 true fun c => is 2 0 c && c.tacc == 100000 && c.nchunk == 1 && c.edges == [[(0, 1, 2)]] && c.roots == [0], agree 3 false fun c => is 4 3 c, agree 4 true fun c => is 4 4 c, agree 9 true fun c => is 1 0 c,
      ev (.chunkReduced 5 0 given) collRun fun c => is 2 0 c && c.written == [0] && c.reduced == [0],
      next (exec (.chunkReduced 5 0 given) (one collRun)) fun u => u.rdNat 0x20000000 8 == 6 + 5 * 2 ^ 32, ev (.chunkReduced 5 0 given) { collRun with dst := {} } fun c => is 4 6 c,
      ev (.chunkReduced 5 1 given) collRun fun c => c.written == [], ev (.chunkReduced 5 0 none) collRun fun c => is 4 6 c, ev (.chunkBroadcastComplete 5 0) { collRun with written := [0] } fun c => is 3 0 c && c.bcast == [0],
      ev (.chunkBroadcastComplete 5 0) { collRun with written := [0], nchunk := 2 } fun c => is 2 0 c && c.bcast == [0], ev (.collectiveRecovery 5 4 [[], [4]] []) { collRun with broken := [(0, 1, 2)] } fun c => is 4 4 c,
      ev (.collectiveRecovery 5 4 [[], [4]] []) collRun (· == collRun), ev (.chunkReduced 5 0 given) { collRun with broken := [(0, 1, 2)] } fun c => c.written == [],
      next (exec (.collectiveRecovery 5 4 [[], [4]] [0]) { one { collRun with written := [0], bcast := [0], broken := [(0, 1, 2)] } with net := { (one coll).net with sets := [{ version := 4, edges := [(0, 1, 3)] }] } }) fun u =>
        (u.group 5).colls.any fun c => is 2 0 c && c.written == [] && c.edges == [[(0, 1, 3)]] && c.version == 4 && c.redos == 1,
      next (exec (.collectiveTimeout { group := 5 }) (late (107 * 65536000))) fun u => (u.group 5).colls.any fun c => is 4 5 c, next (exec (.collectiveTimeout { group := 5, peer := some (1, 4) }) (one coll)) fun u => (u.group 5).colls.any fun c => is 4 5 c, next (exec (.collectiveTimeout { group := 5 }) (late (107 * 65536000 - 1))) fun u => (u.group 5).colls.any fun c => is 1 0 c] = true := by decide +kernel

/-- R284, R286, R287: combining; the trees of three packages in a ring. -/
theorem test_combining :
    let d := fun (ty op : Nat) => BitVec.ofNat 512 (ty * 2 ^ 352 + op * 2 ^ 356)
    let ring := [(0, 1, 0), (0, 2, 0), (1, 2, 0)]
    every [reduceElem (d 0 0) [2 ^ 31 - 1, 1] == (2 ^ 31, false), reduceElem (d 0 1) [-3, 5] == (2 ^ 32 - 3, false), reduceElem (d 0 2) [-3, 5] == (5, false),
      (toWire (d 2 0) 0x3F800000) == (1, false), (toWire (d 2 0) 0x3F000000) == (0, false), reduceElem (d 2 0) [1, 2] == (0x40400000, false), reduceElem (d 2 0) [1, wireNan] == (0x7FC00000, false),
      reduceElem (d 2 0) [wirePinf, wireNinf] == (0x7FC00000, false), reduceElem (d 2 0) [wirePinf, 5] == (0x7F800000, false), edgeTrees [0, 1, 2] ring == [(0, [(0, 1, 0), (1, 2, 0)])],
      latencyTree [0, 1, 2] ring == some (0, [(0, 1, 0), (0, 2, 0)]), latencyTree [0, 1, 3] ring == none, edgeTrees [4] [] == [(4, [])]] = true := by decide +kernel

/-! Links, time, Ethernet and RDMA. -/

/-- w0 with complex 0 of the firmware active and complex 1 standby. -/
def wf (s : State := w0) : State := { s with sec := { s.sec with complexes := [(0, { role := .active }), (1, { role := .standby })] } }
def strait (x : Strait) (s : State := wf) : State := s.modStrait 3 fun _ => x

/-- R266, R282, R415, R417 to R422. -/
theorem test_straits_time :
    let go := fun (i : Instr) (s : State) (p : State → Bool) => next (exec i s) p
    let st := fun (i : Instr) (x : Strait) (p : Strait → Bool) => next (exec i (strait x)) fun u => p (u.strait 3)
    let up : Strait := { state := 2, stopped := [1] }
    let tr : Strait := { state := 1, identity := some (5, 6), agreed := true }
    let sv := fun (x : Servo) => ({ wf with net := { wf.net with servo := x } } : State)
    let c : LinkChange := { version := 7, pkg := 1, port := 0, peerPkg := 2, peerPort := 3, state := 2 }
    let seen := { strait up with net := { (strait up).net with changes := [c] } }
    every [go (.straitPeerDetect 3) wf fun u => (u.strait 3).state == 1 && u.net.applied == 1 && u.net.outbox.contains (.identity 3), go (.straitTrainRequest { port := 3 }) wf fun u => (u.strait 3).state == 1,
      go (.straitTrainRequest { port := 3, pkg := some 9 }) (wf.wrBytes 0x20000000 [5]) fun u => u.net.pkg == 9 && u.rd8 (9 * 2 ^ 58 + 0x20000000) == 5 && u.rd8 0x20000000 == 0,
      st (.identityFlit 3 5 6 [(1, 0)]) { state := 1 } fun x => x.identity == some (5, 6) && x.agreed && x.state == 1, st (.identityFlit 3 5 6 [(2, 0)]) { state := 1, lastUp := some (5, 6) } fun x => !x.agreed && x.state == 1,
      st (.identityFlit 3 5 7 [(1, 0)]) { state := 1, lastUp := some (5, 6) } fun x => x.state == 0, st (.straitUp 3) tr fun x => x.state == 2 && x.lastUp == some (5, 6),
      st (.straitUp 3) { tr with agreed := false } fun x => x.state == 1, st (.straitDown 3) up fun x => x.state == 0, st (.straitDownRequest 3) up fun x => x.state == 0,
      st (.flitCrcRetry 3 true) { up with crcRun := 15 } fun x => x.state == 0, st (.flitCrcRetry 3 true) { up with crcRun := 14 } fun x => x.state == 2 && x.crcRun == 15,
      st (.flitCrcRetry 3 false) { up with crcRun := 15 } fun x => x.crcRun == 1, st (.virtualLaneStopGo 3 0 63) up fun x => x.stopped.contains 0, st (.virtualLaneStopGo 3 0 64) up fun x => x.stopped == [1],
      st (.virtualLaneStopGo 3 1 97) up fun x => x.stopped == [], st (.virtualLaneStopGo 3 1 96) up fun x => x.stopped == [1], go (.linkChangeFlood 3 (.change c)) (strait up) fun u => u.seen c && u.net.applied == 7,
      go (.linkChangeFlood 3 (.change c)) seen fun u => u.net.outbox == [], go (.linkChangeFlood 3 (.table 5 [c])) (strait up) fun u => u.net.sets.map (·.version) == [7] && u.net.outbox == [], go (.ptpSync 40 true 9) (sv { inRun := 15 }) fun u => u.net.servo.locked && u.net.servo.grandmaster == 9,
      go (.ptpSync (-41) true 9) (sv { inRun := 15 }) fun u => !u.net.servo.locked, go (.ptpSync 41 true 9) (sv { locked := true, ever := true, outRun := 2 }) fun u => u.net.servo.locked,
      go (.ptpSync 41 true 9) (sv { locked := true, ever := true, outRun := 3 }) fun u => !u.net.servo.locked, go (.ptpSync 0 false 9) (sv { locked := true }) fun u => !u.net.servo.locked,
      go (.announceTimeout 9) (sv { locked := true, grandmaster := 9 }) fun u => u.net.servo.locked && u.net.servo.active == 1, go (.announceTimeout 8) (sv { locked := true, grandmaster := 9 }) fun u => !u.net.servo.locked,
      go (.ptpConfig 127 1 2) wf fun u => u.net.servo.domain == 127 && u.net.servo.delay == 1 && u.net.servo.transport == 2, go (.ptpConfig 128 1 2) wf fun u => u.net == wf.net && u.sec.fw.mirrorDue == 0, go (.ptpConfig 127 1 2) wf fun u => u.sec.fw.mirrorDue == 1] = true := by decide +kernel

/-- R412 to R414. -/
theorem test_ethernet_rdma :
    let go := fun (i : Instr) (s : State) (p : State → Bool) => next (exec i s) p
    let ex := obj (obj wf 1 (objEntry kGLOBAL 0 0x20000000 0x10000)) 12 (objEntry kGLOBAL 0 0x20000000 0x10000 + 2 ^ 80)
    let qp := fun (x : QueuePair) => ({ ex with net := { ex.net with qps := [(4, x)], ports := [(0, { vlans := [5] })] } } : State)
    let mem := qp { role := 1 }
    let cut := fun (t : Nat) (x : QueuePair) => atNs t (qp x)
    let is := fun (o : Output) (u : State) => u.net.outbox == [o]
    every [go (.ethernetFrameReceive 0 none .other 0 64) mem fun u => u == mem, go (.ethernetFrameReceive 0 (some 6) .roce 0 64) mem fun u => u == mem, go (.ethernetFrameReceive 0 (some 5) .roce 0 0) mem fun u => u.core == mem.core,
      go (.congestionNotification 4) (cut 60000 { rate := 100000, lastCut := some 10000 }) fun u => (u.qp 4).rate == 50000 && (u.qp 4).lastCut == some 60000,
      go (.congestionNotification 4) (cut 59999 { rate := 100000, lastCut := some 10000 }) fun u => (u.qp 4).rate == 100000, go (.rateRecovery 4) (cut 60000 { rate := 98000, quietSince := 10000 }) fun u => (u.qp 4).rate == 100000,
      go (.rateRecovery 4) (cut 60000 { rate := 50000, quietSince := 10000 }) fun u => (u.qp 4).rate == 55000, go (.rateRecovery 4) (cut 59999 { rate := 50000, quietSince := 10000 }) fun u => (u.qp 4).rate == 50000,
      go (.rdmaWrite 4 1 8 [1, 2]) mem fun u => u.rdNat 0x20000008 2 == 0x0201 && is (.ack 4) u, go (.rdmaWriteWithImmediate 4 1 0xFFFF [1, 2] 9) mem (is (.nak 4)), go (.rdmaWrite 4 1 0xFFFF [1, 2]) mem (is (.nak 4)),
      go (.rdmaWrite 4096 1 8 [1]) mem (is (.nak 4096)), go (.rdmaWrite 4 1 8 [1]) (qp { role := 2 }) (is (.nak 4)), go (.rdmaWrite 4 3 8 [1]) mem (is (.nak 4)), go (.rdmaRead 4 1 8 2) mem (is (.nak 4)),
      go (.rdmaRead 4 12 8 64) mem fun u => u.net.outbox.length == 1 && u.net.outbox != [.nak 4], go (.autoNegotiation 1 800) mem fun u => (FMap.get ({} : EthPort) u.net.ports 1).rate == 800,
      go (.portRateSet 1 200) mem fun u => (FMap.get ({} : EthPort) u.net.ports 1).rate == 200, go (.autoNegotiation 1 100) mem fun u => u == mem, go (.vlanConfig 1 [4095]) mem fun u => (FMap.get ({} : EthPort) u.net.ports 1).vlans == [4095],
      go (.vlanConfig 1 [4096]) mem fun u => u.net == mem.net, go (.vlanConfig 1 (List.replicate 65 1)) mem fun u => u.net == mem.net, go (.queuePairBinding 4 4095 3) mem fun u => (u.qp 4).asid == 4095 && (u.qp 4).role == 3,
      go (.queuePairBinding 4 4096 3) mem fun u => u.net == mem.net, go (.queuePairBinding 4 0 0) mem fun u => u.net == mem.net] = true := by decide +kernel

/-! Firmware, boot, live update, takeover, the loader and the management tables. -/

/-- R390, R393, R394, R396 to R400, R406, R422, R423. -/
theorem test_firmware_events :
    let go := fun (i : Instr) (s : State) (p : State → Bool) => next (exec i s) p
    let fw := fun (f : Firmware → Firmware) => ({ wf with sec := { wf.sec with fw := f wf.sec.fw } } : State)
    let run := fun n => (fw fun f => { f with svnMin := 4 }).setComplex 0 { role := .active, svn := n }
    let upd := fun n => atNs n (fw fun f => { f with update := some { slot := 1, since := 5 }, liveUpd := 65535 })
    let down := { wf with pow := { wf.pow with down := true } }
    let r : EventRec := { time := 1, source := 3, code := 4, payload := 5 }
    every [wf.fwActive && wf.roleOf .active == some 0 && wf.roleOf .standby == some 1, go .powerOnReset wf fun u => u == wf, go .lpddr6TrainingDone wf fun u => u.sec.trained, go .firmwareTakeover wf fun _ => true,
      go .firmwareTakeover (fw fun f => { f with hold := some [] }) fun u => u.sec.fw.hold.isNone, go .mirrorEntry (fw fun f => { f with mirrorSeq := 2 ^ 64 - 1, mirrorDue := 3 }) fun u => u.sec.fw.mirrorSeq == 0 && u.sec.fw.mirrorDue == 2,
      go .mirrorEntry wf fun u => u == wf, bitsOf ((fw fun f => { f with mirrorSeq := 6 }).tableHeader 5) 127 0 == 5 + 2 ^ 32 + 9 * 2 ^ 48 + 6 * 2 ^ 64,
      go (.update 2) wf fun u => u.sec.complexes == wf.sec.complexes && u.sec.fw.update == none, go (.load 0 1 0) wf fun u => u.cp == wf.cp, (wf.verifyImage 0 1 0).isNone,
      go (.confirm 7) (run 9) fun u => u.sec.fw.svnMin == 9, go (.confirm 7) (run 3) fun u => u.sec.fw.svnMin == 4,
      go .heat { wf with pow := { wf.pow with heat := [(3, 80)] } } fun u => u.net.outbox == [.response "HEAT" ([0, 0, 0, 80] ++ List.replicate 60 0)],
      go .telemetry { wf with sec := { wf.sec with telemetry := List.replicate 33 r } } fun u => u.net.outbox.length == 2 && u.sec.telemetry == [] && u.sec.telemetrySeq == 2, go .versions wf fun u => u.net.outbox.length == 1,
      go .roleSwap (upd 10000004) fun u => (u.complex 1).role == .active && (u.complex 0).role == .standby && (u.complex 0).slot == 1 && u.sec.fw.liveUpd == 0, go .roleSwap (upd 10000005) fun u => u == upd 10000005,
      go .fwUpdateFail (upd 10000004) fun u => u == upd 10000004, go .fwUpdateFail (upd 10000005) fun _ => true, go .heat down fun u => u == down, go .versions w0 fun u => u == w0, go .mirrorEntry w0 fun u => u == w0, go .telemetry w0 fun u => u == w0] = true := by decide +kernel

/-- R394: ATTEST answers. -/
theorem test_attest : next (exec (.attest 7) wf) (fun u => u.net.outbox.length == 1) = true := by decide +kernel

/-- A package without power whose NOR flash holds in slots A and B images of one body byte, with security versions 9 and 10. -/
def flashed : State :=
  let img := fun svn : Nat => leBytes 64 (0x4D495746 + 2 ^ 32 + svn * 2 ^ 64 + 2 ^ 96)
  { wf with sec := { wf.sec with nor := FMap.setRun 0 (FMap.setRun 0 [] 0 (img 9)) (2 ^ 25) (img 10) }, pow := { wf.pow with down := true } }

/-- R392, R393: where the digest and the signature of a slot check and its SVN is not below the floor, it is a candidate. -/
theorem test_candidates (h1 : ∀ k < 2, sha3 (flashed.flash k).pubkey = Config.rootDigest) (h2 : ∀ k m s, Config.mlDsaVerify k m s = true)
    (h3 : Config.svnMinFused ≤ 9) :
    flashed.candidate 0 = true ∧ flashed.candidate 1 = true ∧ flashed.romPick = some 1 ∧ w0.candidate 0 = false := by
  have e : ∀ k < 2, fiSvn (flashed.flash k).header = 9 + k := by decide +kernel
  have c : ∀ k < 2, flashed.candidate k = true := by
    intro k hk
    have a : flashed.svnFloor ≤ 9 + k := by
      have : flashed.sec.fw.svnMin = 0 := by decide +kernel
      unfold State.svnFloor; omega
    have b : ∀ k < 2, (fiMagic (flashed.flash k).header == 0x4D495746 && fiVmaj (flashed.flash k).header == 1 && bitsOf (flashed.flash k).header 511 128 == 0 &&
      bitsOf (flashed.flash k).header 95 80 == 0 && bitsOf (flashed.flash k).header 63 48 == 0 && decide (1 ≤ fiBodyLen (flashed.flash k).header) &&
      decide (fiBodyLen (flashed.flash k).header ≤ 2 ^ 24)) = true := by decide +kernel
    unfold State.candidate
    simp only [h1 k hk, h2, e k hk, b k hk, beq_self_eq_true, Bool.and_self, decide_eq_true a]
  refine ⟨c 0 (by decide), c 1 (by decide), ?_, by decide +kernel⟩
  unfold State.romPick
  rw [c 0 (by decide), c 1 (by decide), e 0 (by decide), e 1 (by decide)]
  rfl

/-- R268, R280, R328, R344, R351, R352, R369, R391, R395, R401. -/
theorem test_management_tables :
    let go := fun (i : Instr) (s : State) (p : State → Bool) => next (exec i s) p
    let same := fun u s : State => u.core == s.core && u.cp == s.cp && u.tab == s.tab && u.eng == s.eng && u.net == s.net && u.pow == s.pow
    let free := wf.setCtx 0 0 {}
    let busy := free.modQueue 3 fun x => { x with entry := 1 }
    let q := BitVec.ofNat 512 (1 + 5 * 2 ^ 2 + 16 * 2 ^ 64 + 0x201000 * 2 ^ 72 + 9 * 2 ^ 148 + 4 * 2 ^ 164 + 2 ^ 511)
    let stm := strm { desc := stD } {} wf
    let pe := BitVec.ofNat 256 (1 + 2 ^ 192)
    let none' := { free with tab := { free.tab with partitions := [] }, pow := { free.pow with islands := [] } }
    every [go (.queueTableWrite 3 q) wf fun u => (u.queue 3).entry == q &&& ~~~(1#512 <<< 511), go (.queueTableWrite 8191 q) wf fun u => qState (u.queue 8191).entry == 1,
      go (.queueTableWrite 8192 q) wf fun u => same u wf, go (.queueTableWrite 3 q) busy fun u => same u busy, go (.queueTableWrite 3 (q ||| 2)) wf fun u => same u wf,
      go (.queueTableWrite 3 q) w0 fun u => u == w0, go (.asidTableWrite 4095 (BitVec.allOnes 256)) wf fun u => (u.asidEntry 4095).toNat == 1 + (2 ^ 160 - 1) * 2 ^ 96,
      !free.partHasTask 0 && wf.partHasTask 0, go (.serviceEntryWrite 0 (BitVec.allOnes 512)) free fun u => bitsOf (u.service 0) 68 0 == 2 ^ 69 - 1 && bitsOf (u.service 0) 511 320 == 0,
      go (.serviceEntryWrite 0 5) wf fun u => same u wf, go (.powerEntryWrite 0 5) wf fun u => same u wf, go (.powerEntryWrite 0 (BitVec.allOnes 256)) free fun u => bitsOf (u.powerEntry 0) 47 16 == 2 ^ 32 - 1,
      go (.groupEntryWrite 255 (colG 7)) wf fun u => (u.group 255).entry.getLsbD 0 && (u.group 255).pmask == 3 && bitsOf (u.group 255).entry 255 224 == 7, go (.streamDescriptorWrite 4 (stD 1)) stm fun u => (u.stream 4).desc == stD 1,
      go (.streamDescriptorWrite 4 (stD 1)) (strm { desc := stD } { armed := true } wf) fun u => (u.stream 4).desc == stD, go (.streamDescriptorWrite 1024 stD) wf fun u => same u wf,
      go (.ownerKeyWrite 7 (some [1]) 0) wf fun u => FMap.get [] u.sec.fw.keys 7 == [1], go (.ownerKeyWrite 7 none 0) wf fun u => u.sec.fw.keys == [], go (.partitionEntryWrite 2 pe 0) none' fun u => u.partition 2 == pe,
      go (.partitionEntryWrite 8 pe 0) none' fun u => same u none', go (.partitionEntryWrite 2 pe 0) wf fun u => same u wf, wf.partitionRefused 2 pe, wf.islandsOf 0 == List.range 64, wf.islandsOf 1 == [],
      go (.lotterySeedWrite 0) wf fun u => u.cp.lottery == 1, go (.lotterySeedWrite 9) wf fun u => u.cp.lottery == 9] = true := by decide +kernel

/-- The SHA3-512 digest of no bytes and of "abc", as FIPS 202's test vectors have them. -/
def emptyDigest : Nat :=
  0x26CD1D2886857501E3D3B6959D1900F558C53A2C40E9E3114CF9F5F13A12B215A6805C47C1DCD1E05958E24F1682C9976E755A18DC67B5C8C59A3AA2CC739FA6
theorem test_sha3 : every [sha3 [] == BitVec.ofNat 512 emptyDigest, sha3 [0x61, 0x62, 0x63] ==
    0xF053EC4E27F89265A5D508F44C0B34574093E34776C57E1AC9F32A19E916E1102E71D240025D4F880DF744748221F6086E096B4B92CD93568A16571A0B8551B7#512] = true := by decide +kernel

/-- R314 to R317, R395: an image of an empty CODE and an empty KDESC segment in object 20, key slot 0 enabled; with the
digests and signatures that check, it verifies and its segments have room. -/
def sgs : List SegEntry := [BitVec.ofNat 512 emptyDigest ++ BitVec.ofNat 512 (1 + 512 * 2 ^ 64 + 64 * 2 ^ 192),
  BitVec.ofNat 512 emptyDigest ++ BitVec.ofNat 512 (4 + 512 * 2 ^ 64 + 64 * 2 ^ 192 + 2 ^ 480),
  BitVec.ofNat 1024 (6 + 512 * 2 ^ 64 + 9344 * 2 ^ 128 + 9344 * 2 ^ 192 + 0xFFFFFFFF * 2 ^ 480)]
def wimg : State :=
  let s := obj (obj (obj wf 20 (objEntry kGLOBAL 0 0x2A000000 0x10000)) 21 (objEntry kGLOBAL 0 0x2B000000 0x1000)) 22 (objEntry kGLOBAL 0 0x2C000000 0x1000)
  let s := s.wrBytes 0x2A000000 (leBytes 64 (0x4C45504F + 2 ^ 32 + 3 * 2 ^ 48 + 0x10000 * 2 ^ 64) ++ sgs.flatMap fun e => leBytes 128 e.toNat)
  { s with sec := { s.sec with fw := { s.sec.fw with keys := [(0, [1])] } } }

def sg (k : Nat) : SegEntry := sgs.getD k 0
theorem img_entries : ((List.range 3).mapM fun k => (wimg.imgBytes 0 20 0 (64 + 128 * k) 128).map fun b => BitVec.ofNat 1024 (leNat b)) = some sgs := by
  decide +kernel

theorem seg_room : every [(wimg.segRoom 0 21 (sg 0)).isSome, (wimg.segRoom 0 22 (sg 1)).isSome, wimg.fwActive] = true := by decide +kernel

theorem img_facts : every [wimg.sec.fw.keys == [(0, [1])], wimg.imgBytes 0 20 0 (sgOff (sg 0)) (sgLen (sg 0)) == some [], wimg.imgBytes 0 20 0 (sgOff (sg 1)) (sgLen (sg 1)) == some [],
    (wimg.imgBytes 0 20 0 (sgOff (sg 2) + 4672 * sgSig (sg 0)) 4627).isSome, (wimg.imgBytes 0 20 0 (sgOff (sg 2) + 4672 * sgSig (sg 1)) 4627).isSome,
    sha3 [] == BitVec.ofNat 512 (sgDigest (sg 0)), sha3 [] == BitVec.ofNat 512 (sgDigest (sg 1)), decide (4672 * sgSig (sg 0) + 4672 ≤ sgLen (sg 2)),
    decide (4672 * sgSig (sg 1) + 4672 ≤ sgLen (sg 2)), (wimg.imgBytes 0 20 0 0 64).isSome,
    imgHeader (BitVec.ofNat 512 (leNat ((wimg.imgBytes 0 20 0 0 64).getD []))) == some (3, 0x10000), sgs.find? (fun e => sgType e == 6) == some (sg 2),
    sgs.filter (fun e => sgType e != 6) == [sg 0, sg 1], sgs.all (sgOk 0x10000) && sgTableOk sgs, wimg.fwActive] = true := by decide +kernel

theorem signed_by (s : State) (h : s.sec.fw.keys = [(0, [1])]) (h2 : ∀ k m x, Config.mlDsaVerify k m x = true) (m x : List Byte) : s.signedBy m x = some 0 := by
  unfold State.signedBy
  rw [h]
  simp only [h2, Bool.and_true]
  rfl

theorem segment_ok (s : State) (h : s.sec.fw.keys = [(0, [1])]) (h2 : ∀ k m x, Config.mlDsaVerify k m x = true) (z e : SegEntry)
    (a : s.imgBytes 0 20 0 (sgOff e) (sgLen e) = some []) (b : (s.imgBytes 0 20 0 (sgOff z + 4672 * sgSig e) 4627).isSome = true)
    (c : sha3 [] = BitVec.ofNat 512 (sgDigest e)) (d : 4672 * sgSig e + 4672 ≤ sgLen z) : s.checkSegment 0 20 0 z e = some 0 := by
  obtain ⟨x, hx⟩ := Option.isSome_iff_exists.1 b
  unfold State.checkSegment
  simp only [a, hx, Option.bind_eq_bind, Option.bind_some]
  rw [if_pos ⟨c, d⟩]
  exact signed_by s h h2 _ _

theorem test_load (h2 : ∀ k m x, Config.mlDsaVerify k m x = true) :
    (wimg.verifyImage 0 20 0).isSome = true ∧ every [(wimg.segRoom 0 21 (sg 0)).isSome, (wimg.segRoom 0 22 (sg 1)).isSome, wimg.fwActive] = true := by
  have f := img_facts
  simp only [every, List.all_cons, List.all_nil, id, Bool.and_eq_true, beq_iff_eq, decide_eq_true_eq] at f
  obtain ⟨k, a0, a1, b0, b1, c0, c1, d0, d1, e0, e1, e3, e4, e5, -, -⟩ := f
  refine ⟨?_, seg_room⟩
  obtain ⟨x, hx⟩ := Option.isSome_iff_exists.1 e0
  rw [hx, Option.getD_some] at e1
  unfold State.verifyImage
  rw [hx]
  have e2 := img_entries
  have e6 : (sgs.all (sgOk 0x10000) && sgTableOk sgs) = true := by rw [e5.1, e5.2]; rfl
  simp only [Option.bind_eq_bind, Option.bind_some, e1, e2, e3, e4, e6]
  simp [segment_ok wimg k h2 (sg 2) (sg 0) a0 b0 c0 d0, segment_ok wimg k h2 (sg 2) (sg 1) a1 b1 c1 d1]

/-! Queues and packets. -/

/-- A packet of a kind (R332), with the signal at the start of object 3 or without. -/
def pkt (kind body : Nat) (sig : Bool := false) : BitVec 1024 := BitVec.ofNat 1024 (kind + 2 ^ 40 + 2 ^ 63 + body + if sig then 2 ^ 8 + 3 * 2 ^ 128 else 0)
/-- A packet's field at a byte. -/
def fld (lo v : Nat) : Nat := v * 2 ^ (8 * lo)
/-- Queue 3: ACTIVE, PRIV, region 1, a ring of four slots at 0 and its notify pair at 0x1000; the objects 1 (global), 3 (signal), 9 (kernels)
and 13 (a graph of a kernel and a graph-end node after it, with its counters) in the table of address space 0. -/
def wq (ps : List (BitVec 1024) := []) (s : State := wk) : State :=
  let s := obj (obj (obj (wf s) 1 (objEntry kGLOBAL 0 0x20000000 0x10000)) 3 (objEntry kSIGNAL 0 0x22000000 0x1000)) 13 (objEntry kGLOBAL 0 0x2D000000 0x1000)
  let s := ((s.wrBytes 0x2D000000 (leBytes 32 (2 + 2 ^ 32 + 0x800 * 2 ^ 128 + 13 * 2 ^ 192 + 0x400 * 2 ^ 240))).wrBytes 0x2D000040 (leBytes 24 (1 + 2 ^ 64 + 64 * 2 ^ 128 + 9 * 2 ^ 160))).wrBytes
    0x2D0000C0 (leBytes 8 (5 + 2 ^ 16))
  ((s.wrBytes 0x2D000406 [1]).wrBytes 0x2D000804 [1]).modQueue 3 fun _ =>
    { entry := BitVec.ofNat 512 (1 + 2 * 2 ^ 64 + 0x1000 * 2 ^ 72 + 2 ^ 144 + 2 ^ 164), packets := ps }
def qs (u : State) : List (BitVec 1024) := (u.queue 3).packets
def errs (u : State) : Nat := qErrcnt (u.queue 3).entry
/-- Whether a packet's step retires it, with STATUS st in its signal word (5 before); -/
def retires (i : Instr) (s : State) (e : Nat) (p : State → Bool := fun _ => true) : Bool := next (exec i s) fun u => qs u == [] && errs u == e && p u
/-- whether it waits. -/
def stays (i : Instr) (s : State) : Bool := next (exec i s) fun u => qs u == qs s && errs u == 0

/-- R329 to R331: a kick with a valid and with an invalid slot, TAIL beyond the ring, a refused header, a queue that is not ACTIVE; the order
of pending kicks. -/
theorem test_kicks :
    let mail := fun (s : State) (off n v : Nat) => s.wrBytes (2 * 2 ^ 54 + off) (leBytes n v)
    let one := mail (mail wq 0x1000 8 1) 0 8 (5 + 2 ^ 40 + 2 ^ 63)
    let kick := fun (s : State) (p : State → Bool) => next (exec (.notifyKick 3) s) p
    let pend := fun (ps : List Nat) (last : Nat) => ({ wq with cp := { wq.cp with pending := ps, lastServiced := last, slotFreed := true } } : State)
    every [kick one fun u => qs u == [pkt 5 0] && qHead (u.queue 3).entry == 1 && u.rdNat (2 * 2 ^ 54) 8 == 5 + 2 ^ 40 && u.rdNat (2 * 2 ^ 54 + 0x1008) 8 == 1,
      kick (mail (mail wq 0x1000 8 4) 0 8 0) fun u => qs u == [] && qHead (u.queue 3).entry == 0, kick (mail wq 0x1000 8 5) fun u => qState (u.queue 3).entry == 2 && qs u == [],
      kick (mail (mail wq 0x1000 8 1) 0 8 (13 + 2 ^ 40 + 2 ^ 63)) fun u => qs u == [] && qErrcnt (u.queue 3).entry == 1 && qHead (u.queue 3).entry == 1,
      kick (one.modQueue 3 fun x => { x with entry := setBits x.entry 0 2 2 }) fun u => qs u == [], kick { one with cp := { one.cp with pending := [3] } } fun u => qs u == [],
      nextPending 5 [3, 9, 7] == some 7, nextPending 9 [3, 9, 7] == some 3, nextPending 3 [3] == some 3, nextPending 3 [] == none, next (exec .pendingKickService (pend [] 5)) fun u => u == pend [] 5, kick (one.modQueue 3 fun x => { x with copying := some 9 }) fun u => u.cp.pending == [3] && qs u == [],
      next (exec .pendingKickService { one with cp := { one.cp with pending := [3] } }) fun u => u.cp.pending == [3] && qs u == [],
      next (exec .pendingKickService { one with cp := { one.cp with pending := [3], slotFreed := true } }) fun u => u.cp.pending == [] && u.cp.lastServiced == 3 && qs u == [pkt 5 0],
      next (exec .pendingKickService (pend [4] 0)) fun u => u.cp.pending == [] && u.cp.lastServiced == 4] = true := by decide +kernel

/-- R332, R333: each packet that the command processor serves: accepted, refused, waiting. -/
theorem test_packets :
    let sig := fun (s : State) (v : Nat) => s.wrBytes 0x22000000 (leBytes 8 v)
    let w := fun (u : State) (v : Nat) => u.rdNat 0x22000000 8 == v
    let lg := pkt 1 (fld 32 13)
    let live := fun (s : State) => ({ s with cp := { s.cp with insts := [(1, { graph := { obj := 13 }, queue := 3 })] } } : State)
    let none' := fun (s : State) => ({ s with cp := { s.cp with insts := [] } } : State)
    let cp := pkt 4 (fld 32 1 + fld 36 64 + fld 44 1 + fld 48 4096)
    let busy := (wq [cp]).modQueue 3 fun x => { x with copyCmd := some 9, busy := true }
    let cond := fun c v => pkt 3 (fld 32 c + fld 24 v) true
    let flush := fun o n => pkt 9 (fld 32 o + fld 36 n)
    every [retires (.launchGraph 3) (wq [lg]) 0 fun u => (u.queue 3).ready == [.node wq.nextId 0] && (u.inst wq.nextId).waiting == [1] && (u.inst wq.nextId).graph == { obj := 13 },
      stays (.launchGraph 3) (live (wq [lg])), retires (.launchGraph 3) (wq [pkt 1 (fld 32 1)]) 1, retires (.launchGraph 3) (wq [pkt 1 (fld 32 13 + fld 36 1)]) 1,
      retires (.launchGraph 3) (wq [pkt 1 (fld 32 13) true]) 0 fun u => (u.inst wq.nextId).signal == some 0x22000000, stays (.launchGraph 3) (wq [pkt 5 0]),
      retires (.signalWrite 3) (wq [pkt 2 (fld 24 77) true]) 0 (w · 77), stays (.signalAdd 3) (wq [pkt 2 (fld 24 77) true]), retires (.signalAdd 3) (sig (wq [pkt 2 (fld 24 (2 ^ 56 - 1) + fld 32 1) true]) 5) 0 (w · 4),
      retires (.signalWrite 3) (wq [pkt 2 (fld 24 77)]) 1, retires (.signalWrite 3) (wq [pkt 2 (fld 32 2) true]) 1, retires (.signalAdd 3) (wq [pkt 2 (fld 32 1)]) 1, retires (.wait 3) (sig (wq [cond 0 5]) 5) 0 (w · 5),
      stays (.wait 3) (sig (wq [cond 0 5]) 4), retires (.wait 3) (sig (wq [cond 3 5]) 5) 0, retires (.wait 3) (sig (wq [cond 4 0]) (2 ^ 63 + 2 ^ 56)) 0, retires (.wait 3) (wq [cond 5 0]) 1,
      next (exec (.wait 3) (sig (wq [cond 0 5]) (2 ^ 63 + 2 ^ 56))) fun u => qState (u.queue 3).entry == 2 && (qs u).length == 1,
      next (exec (.copy 3) (wq [cp])) fun u => (u.queue 3).copyCmd == some wq.nextId && (u.core.cmds.all fun m => m.opc == 1 && m.tile == 0 && m.s0 == 4096) && u.core.cmds.length == 1,
      stays (.copy 3) (busy.addCmd { id := 9 }), retires (.copy 3) busy 0, retires (.copy 3) (wq [pkt 4 (fld 32 1 + fld 44 1 + fld 48 (2 ^ 32))]) 1, retires (.copy 3) (wq [pkt 4 (fld 32 3 + fld 44 1 + fld 48 4)]) 1,
      retires (.barrier 3) (none' (wq [pkt 5 0 true])) 0 fun u => (u.rdNat 0x22000000 8 == 0), stays (.barrier 3) (live (wq [pkt 5 0])), retires (.barrier 3) (wq [pkt 5 (fld 127 1)]) 1,
      retires (.flushExport 3) ((wq [flush 1 2]).wrBytes 0x20000000 [7]) 0 fun u => FMap.get 0 u.core.exported 0x20000000 == 7, retires (.flushExport 3) (wq [flush 3 2]) 1] = true := by decide +kernel

/-- R267, R337, R346, R357, R390, R404, R410, R411: each packet that firmware serves: done, refused, turned away. -/
theorem test_firmware_packets :
    let locked := fun (s : State) => ({ s with net := { s.net with servo := { ever := true } } } : State)
    let arm := fun (x : Nat) => pkt 7 (fld 24 2 + fld 28 1000 + fld 44 0 + fld 52 13 + x)
    let armed := fun (s : State) => s.modArm 2 fun _ => { armed := true, period := 1000, queue := 3 }
    let inv := fun (scope obj' len : Nat) => pkt 10 (fld 24 scope + fld 28 obj' + fld 40 len)
    let tl := fun (u : State) (k : Nat) => (u.tile 0).tlbObjs.length == k
    let user := fun (s : State) => s.modQueue 3 fun x => { x with entry := setBits x.entry 144 1 0 }
    let blk := fun (s : State) (v : Nat) => s.wrBytes 0x20000000 (leBytes 256 v)
    let reg := fun (op r : Nat) => pkt 11 (fld 24 r + fld 26 op + fld 40 1)
    let good := 0x3FF * 2 ^ 64 + 2 ^ 192
    let lease := fun (r step dur : Nat) => pkt 6 (fld 24 r + fld 26 step + fld 28 dur)
    let cls := fun (s : State) => ({ s with cp := { s.cp with regions := [(1, BitVec.ofNat 2048 ((2 ^ 64 - 1) * 2 ^ 192 + 2 ^ 64 + 2 ^ 48))] } } : State)
    let stm := pkt 12 (fld 24 0 + fld 36 1)
    let go := fun (i : Instr) (s : State) (p : State → Bool) => next (exec i s) p
    every [retires (.timedArm 3) (atNs 5500 (locked (wq [arm 0]))) 0 fun u => (u.arm 2).armed && (u.arm 2).nextTick == 6 && (u.arm 2).firstStep == 6 && (u.arm 2).period == 1000,
      retires (.timedArm 3) (atNs 6000 (locked (wq [arm (fld 36 500 + fld 26 1 + fld 64 3)]))) 0 fun u => (u.arm 2).nextTick == 6 && (u.arm 2).stepEn, retires (.timedArm 3) (wq [arm 0]) 1,
      retires (.timedArm 3) (locked (wq [arm (fld 28 1)])) 1, retires (.timedArm 3) (armed (locked (wq [arm 0]))) 1, retires (.timedArm 3) (locked (wq [arm (fld 56 8)])) 1, retires (.timedArm 3) (locked (wq [pkt 7 (fld 24 2 + fld 28 1000 + fld 52 99)])) 1,
      firstTick 1000 500 499 == 0 && firstTick 1000 500 500 == 1 && firstTick 1000 0 0 == 1, retires (.timedDisarm 3) (armed (wq [pkt 8 (fld 24 2)])) 0 fun u => !(u.arm 2).armed, retires (.timedDisarm 3) (wq [pkt 8 (fld 24 2)]) 0,
      retires (.timedDisarm 3) (armed (wq [pkt 8 (fld 24 2 + fld 25 1)])) 1 fun u => (u.arm 2).armed, retires (.invalidate 3) (wq [inv 0 0 0]) 0 (tl · 0), retires (.invalidate 3) (wq [inv 2 1 0]) 0 (tl · 6),
      retires (.invalidate 3) (wq [inv 3 1 1]) 0 (tl · 6), retires (.invalidate 3) (wq [inv 3 1 0]) 1 (tl · 7), retires (.invalidate 3) (wq [inv 4 0 0]) 1, retires (.invalidate 3) (user (wq [inv 0 0 0])) 1,
      retires (.regionCreate 3) (blk (wq [reg 0 2]) good) 0 fun u => u.regionBlock 2 == BitVec.ofNat 2048 good, retires (.regionCreate 3) (blk (wq [reg 0 2]) (good + 5 * 2 ^ 24 + 2 ^ 700)) 0 fun u => u.regionBlock 2 == BitVec.ofNat 2048 good,
      retires (.regionCreate 3) (blk (wq [reg 0 1]) good) 1, retires (.regionCreate 3) (blk (wq [reg 0 2]) (good - 2 ^ 64)) 1, retires (.regionCreate 3) (wq [reg 3 2]) 1, stays (.regionCreate 3) (wq [reg 1 2]),
      retires (.regionAlter 3) (blk (wq [reg 1 1]) (good + 3 * 2 ^ 576)) 0 fun u => u.regionBlock 1 == BitVec.ofNat 2048 good, retires (.regionAlter 3) (blk (wq [reg 1 2]) good) 1, retires (.regionDestroy 3) (wq [reg 2 1]) 1,
      retires (.regionDestroy 3) (({ wq [reg 2 2] with cp := { (wq [reg 2 2]).cp with regions := [(2, BitVec.ofNat 2048 good)] } } : State)) 0 fun u => u.regionBlock 2 == 0,
      retires (.lease 3 2000) (cls (wq [lease 1 2 20000])) 0 fun u => u.pow.leases.length == 1 && (u.pow.leases.all fun l => l.ends == 20000000) && (u.island 0).leased == some 2400,
      retires (.lease 3 2801) (cls (wq [lease 1 2 1])) 0 fun u => u.pow.leases == [], retires (.lease 3 2000) (wq [lease 1 2 1]) 0 fun u => u.pow.leases == [], retires (.lease 3 2000) (cls (wq [lease 1 4 1])) 0 fun u => u.pow.leases == [],
      retires (.lease 3 2000) (cls (wq [lease 1 2 0])) 1, retires (.lease 3 2000) (cls (wq [lease 1 2 20001])) 1, retires (.statement 3) (wq [stm]) 0 fun u => u.pow == wq.pow, retires (.statement 3) (user (wq [stm])) 1,
      retires (.statement 3) (locked (wq [pkt 12 (fld 24 8 + fld 36 1)])) 1, retires (.statement 3) (locked (wq [pkt 12 (fld 36 3)])) 1, go (.statement 3) (locked (wq [stm])) fun _ => true,
      stays (.statement 3) { wq [stm] with sec := {} }] = true := by decide +kernel

/-! Graphs. -/

/-- The header of the graph in object 13. -/
def gh : BitVec 512 := BitVec.ofNat 512 (2 + 2 ^ 32 + 0x800 * 2 ^ 128 + 13 * 2 ^ 192 + 0x400 * 2 ^ 240)
/-- Instance 7 of it, launched by queue 3; the kernel has one placement, of tile 0. -/
def wg (f : Inst → Inst := id) (ready : List ReadyItem := [.node 7 0]) : State :=
  let s := obj (wq) 14 (objEntry kGLOBAL 0 0x2E000000 0x1000)
  let s := (s.wrBytes 0x24000040 (leBytes 64 (2 ^ 64 + 0xFFFF * 2 ^ 96 + 2 ^ 288))).wrBytes 0x2E000040 [1]
  let cp := { s.cp with images := [{ kdesc := 9, const := some 14 }], insts := [(1, {}), (7, f { queue := 3, graph := { obj := 13 }, header := gh, region := 1, waiting := [1], hasEnd := true })] }
  let s := ({ s with cp := cp, nextId := 20, sec := { s.sec with trained := true } } : State).modQueue 3 fun x => { x with ready := ready }
  s.modIsland 0 fun y => { y with state := .on }

/-- R237, R339 to R345: dispatch of a kernel, of a graph-end node, of a node that fails; a held node; completion and its edges; the end of an
instance. The lottery's example of 18: from x = 1 the value 0x40822041, remainder 761 of 1,000 among 100, 300 and 600 tickets. -/
theorem test_graphs :
    let go := fun (i : Instr) (s : State) (p : State → Bool) => next (exec i s) p
    let other := fun (x : Queue) => (wg).modQueue 5 fun _ => x
    let bad := (wg).wrBytes 0x2D000041 [0x10]
    let gang := fun (g : Gang) (s : State) => ({ s with cp := { s.cp with gangs := (7, g) :: s.cp.gangs } } : State)
    let node := ((wg).graphNode { obj := 13 } 0).getD 0
    let ended : Gang := { inst := 7, node := node, nodeIdx := some 0, region := 1, queue := 3, members := [.ended] }
    let done := gang ended (wg id [])
    let held := ({ done with sec := { done.sec with fw := { done.sec.fw with hold := some [] } } } : State)
    let over' := wg (fun x => { x with endReleased := true, signal := some 0x22000000, status := 3 }) []
    let tk := fun q => if q = 3 then 100 else if q = 7 then 300 else if q = 12 then 600 else 0
    every [(go .nodeDispatch (wg) fun u => (u.ctx 0 1).phase == .running && (u.gang 20).members == [.on 0 1] && (u.queue 3).ready == [] && (u.ctx 0 1).sys.winSize == 1),
      (go .nodeDispatch (wg id [.node 7 1]) fun u => (u.inst 7).endReleased && (u.gang 20).status == 0 && (u.gang 20).finished), (go .nodeDispatch bad fun u => (u.gang 20).status == 2 && (u.gang 20).finished),
      (go .nodeDispatch (((wg).modIsland 0 fun y => { y with state := .retain }).modIsland 1 fun y => { y with state := .on }) fun u => (u.queue 3).held.isSome && (u.gang 20) == {}), (go .nodeDispatch (wg id []) fun u => u == wg id []),
      (go .nodeDispatch ((wg).modQueue 3 fun x => { x with held := some { tiles := [0], win := 1 } }) fun u => (u.ctx 0 1).phase == .running && (u.queue 3).held.isNone),
      (go .nodeDispatch (other { entry := BitVec.ofNat 512 (1 + 2 ^ 164), ready := [.node 7 1] }) fun u => u.nextId == 21 || u.nextId == 22), lotteryStep 1 == 0x40822041, (0x40822041 : Nat) % 1000 == 761,
      walkTickets tk 761 0 [3, 7, 12] == some 12, walkTickets tk 99 0 [3, 7, 12] == some 3, walkTickets tk 100 0 [3, 7, 12] == some 7, walkTickets tk 400 0 [3, 7, 12] == some 12,
      done.counter (done.inst 7) 1 == some 1, done.counter (done.inst 7) 0 == some 0, (go (.nodeComplete 7) done fun u => u.gang 7 == {} && (u.queue 3).ready == [.node 7 1] && (u.inst 7).waiting == [] && (u.inst 7).status == 0),
      (go (.nodeComplete 7) (done.wrBytes 0x2D000804 [2]) fun u => (u.queue 3).ready == [] && u.counter (u.inst 7) 1 == some 1), (go (.nodeComplete 7) (done.wrBytes 0x2D000804 [0]) fun u => (u.inst 7).status == 2),
      (go (.nodeComplete 7) (gang { ended with members := [.on 0 0] } (wg)) fun u => (u.gang 7).members == [.on 0 0]), (go (.nodeComplete 7) held fun u => u.cp == held.cp && u.sec.fw.hold == some [(0, 0x5000, .gangDone 7)]),
      (go (.nodeComplete 7) (gang { ended with wide := true, node := setBits (setBits node 340 1 1) 320 20 3 } (wg (fun x => { x with discarded := true }) [])) fun u =>
        u.rdNat 0x22000000 8 == signalMerge 0 (-1) 7 && (u.inst 7).status == 7), (go (.instanceEnd 7) (over'.wrBytes 0x22000000 [5]) fun u => u.inst 7 == {} && u.rdNat 0x22000000 8 == 4 + 3 * 2 ^ 56 + 2 ^ 63),
      (go (.instanceEnd 7) done fun u => u.inst 7 != {}), (go (.instanceEnd 7) { over' with sec := held.sec } fun u => u.inst 7 != {} && u.sec.fw.hold == some [(0, 0x5000, .instEnd 7)])] = true := by decide +kernel

/-- R345: the example of 18: heat 10, 40 and 5, the signatures (32, 32, 0), (0, 32, 32) and (32, 0, 32) cost 1,600, 1,440 and 480. -/
theorem test_placement_costs :
    let s := { w0 with pow := { w0.pow with heat := [(0, 10), (1, 40), (2, 5)] } }
    let p := fun (n a b c : Nat) => ({ num := n, sig := BitVec.ofNat 512 (a + b * 2 ^ 8 + c * 2 ^ 16) } : Placement)
    every [([p 0 32 32 0, p 1 0 32 32, p 2 32 0 32].map (s.placeCost 0)) == [1600, 1440, 480], (s.cheapest 0 [p 0 32 32 0, p 1 0 32 32, p 2 32 0 32]).map Placement.num == some 2,
      (s.cheapest 0 [p 1 1 0 0, p 2 1 0 0]).map Placement.num == some 1] = true := by decide +kernel

/-- R347: teardown of an active queue, and its drained end. -/
theorem test_teardown :
    let go := fun (i : Instr) (s : State) (p : State → Bool) => next (exec i s) p
    let s := ((wg).modQueue 3 fun x => { x with packets := [pkt 5 0, pkt 5 0], busy := true }).modArm 2 fun _ => { armed := true, queue := 3, period := 1000 }
    let st := fun (n : Nat) (s : State) => s.modQueue 3 fun x => { x with entry := setBits x.entry 0 2 n }
    let none' := ({ wq [pkt 5 0] with cp := { (wq [pkt 5 0]).cp with insts := [] } } : State)
    every [(go (.queueTeardown 3) s fun u => qState (u.queue 3).entry == 3 && qs u == [pkt 5 0] && (u.inst 7).discarded && !(u.arm 2).armed && (u.queue 3).ready == []), (go (.queueTeardown 3) (st 2 s) fun u => qState (u.queue 3).entry == 3),
      (go (.queueTeardown 3) (st 0 s) fun u => (qs u).length == 2), (go (.queueDrained 3) (st 3 none') fun u => qState (u.queue 3).entry == 0 && (u.queue 3).held.isNone), (go (.queueDrained 3) (st 3 s) fun u => qState (u.queue 3).entry == 3),
      (go (.queueDrained 3) none' fun u => qState (u.queue 3).entry == 1)] = true := by decide +kernel

/-! Islands, cisterns, wells, clocks and energy. -/

def isl (f : Island → Island) (s : State := ws) : State := s.modIsland 0 f
/-- Context 0 of tile 0 sleeps in EVWAIT until 50 µs, in a window of 4 KiB; the island is IDLE since 5 ns. -/
def sleeper : State :=
  let s := placed ((ws.putS 1 50000).modMe fun x => { x with phase := .sleeping, sys := { x.sys with winSize := 1 } }) 7 (0x10 * 2 ^ 52 + 2 ^ 37)
  isl (fun y => { y with state := .idle, idleSince := some 5 }) s

/-- R367, R368, R370 to R374, R396. -/
theorem test_islands :
    let go := fun (i : Instr) (s : State) (p : State → Bool) => next (exec i s) p
    let empty' := ws.setCtx 0 0 {}
    let pw := { sleeper with tab := { sleeper.tab with powers := [(0, BitVec.ofNat 256 (2 ^ 16 * 50 + 2 ^ 32 * 10))] } }
    let idle := isl (fun y => { y with state := .idle, idleSince := some 5 }) { empty' with tab := pw.tab }
    let ret := isl (fun y => { y with state := .retain, idleSince := some 5 }) { empty' with tab := pw.tab }
    let wake := fun (f : Island → Island) (s : State) => isl (fun y => f { y with state := .retain, selfTest := .passed, wakeReq := some 9 }) s
    let two := (wake id ws).modIsland 1 fun y => { y with state := .off, selfTest := .passed, wakeReq := some 8 }
    let rec' := ws.modMe fun x => { x with rec0 := resumeRecord 0 20000 0 1 0 0 0 }
    let waking := fun (off : Bool) => (isl fun y => { y with state := .waking, fromOff := off, wakeReq := some 1 }).modTile 3 fun x => { x with tids := [(4, { valid := true })] }
    let bad := [(3, 1, 4), (3, 3, 7), (8, 1, 0)]
    every [go (.islandIdle 0) (isl (fun y => { y with cycles := 256 * 65536000 }) empty') fun u => (u.island 0).state == .idle && (u.island 0).idleSince == some 0,
      go (.islandIdle 0) (isl (fun y => { y with cycles := 256 * 65536000 - 1 }) empty') fun u => (u.island 0).state == .on, !ws.islandQuiet 0, go (.islandIdle 0) ws fun u => u == ws, go (.islandIdleExit 0) idle fun u => u == idle, go (.islandIdleExit 0) (isl (fun y => { y with state := .idle }) ws) fun u => (u.island 0).state == .on,
      go (.islandPark 0) (atNs 50005 idle) fun u => (u.island 0).state == .retain, go (.islandPark 0) (atNs 50004 idle) fun u => (u.island 0).state == .idle, (atNs 50005 pw).parkable 0 0,
      pw.parkTriggers 0 0 == some (50000, 0), go (.islandPark 0) (atNs 50005 pw) fun u => (u.island 0).state == .retain && u.me.task.isNone && recWakeAt u.me.rec0 == 50000 && u.me.rec0 == u.me.rec1 && u.me.rec0.getLsbD 0,
      go (.islandOff 0) (atNs 10000005 ret) fun u => (u.island 0).state == .off, go (.islandOff 0) (atNs 10000004 ret) fun u => (u.island 0).state == .retain, two.nextWake == some 1, (wake (fun y => { y with wakeTimed := true }) two).nextWake == some 0,
      ws.nextWake == none, go (.islandWake 1) two fun u => (u.island 1).state == .waking && (u.island 1).fromOff, go (.islandWake 0) two fun u => u == two,
      go (.islandWake 1) { two with pow := { two.pow with wakesBegun := List.replicate 8 0 } } fun u => (u.island 1).state == .off, go (.islandWakeComplete 0 bad) (waking false) fun u => (u.island 0).state == .on && (u.island 0).wakeReq.isNone &&
        !(FMap.get {} (u.tile 3).tids 4).valid && FMap.get 0 (u.well 3).wear 7 == BitVec.allOnes 32, go (.islandWakeComplete 0 []) (waking true) fun u => (u.island 0).state == .on, go (.islandWakeComplete 0 []) ws fun u => u == ws,
      go (.resumeTrigger 0 0) (atNs 10000 (isl (fun y => { y with state := .retain }) rec')) fun u => (u.island 0).wakeReq.isSome, go (.resumeTrigger 0 0) (atNs 9999 (isl (fun y => { y with state := .retain }) rec')) fun u => (u.island 0).wakeReq.isNone,
      ((ws.askWake true 0) == ws), go (.driverWakeRequest 1) (wf ret) fun u => (u.island 0).wakeReq == some 0, go (.driverWakeRequest 1) ret fun u => u == ret, go (.islandSelfTestDone 0 true) ws fun u => (u.island 0).selfTest == .passed,
      go (.islandSelfTestDone 0 true) (isl fun y => { y with selfTest := .failed }) fun u => (u.island 0).selfTest == .failed, go (.islandSelfTestDone 64 true) ws fun u => u == ws] = true := by decide +kernel

/-- R375, R378, R382. -/
theorem test_slices_wells :
    let go := fun (i : Instr) (s : State) (p : State → Bool) => next (exec i s) p
    let bare := ({ wf with tab := { wf.tab with asids := [] } } : State)
    let none0 : WellErrors := { single := [], double := [], crc := [] }
    let sl := fun x => bare.modSlice 5 fun y => { y with state := x }
    let well := fun (w : Well) => w0.modWell 3 fun _ => w
    let com := fun (w : Well) => well { w with journal := { state := .committed } }
    every [go (.cisternRetain 5) (atNs 50000 bare) fun u => (u.slice 5).state == .retain, go (.cisternRetain 5) (atNs 49999 bare) fun u => (u.slice 5).state == .active, go (.cisternRetain 5) (sl .off) fun u => (u.slice 5).state == .off, go (.cisternWake 5) (sl .retain) fun u => (u.slice 5).state == .retain, go (.cisternWake 5) ((sl .retain).touchSlice 5) fun u => (u.slice 5).state == .active, go (.cisternWake 5) bare fun u => u == bare,
      go (.cisternOffRequest 5) bare fun u => (u.slice 5).state == .off, go (.cisternOffRequest 5) w0 fun u => u == w0, !bare.sliceNeeded 5 && (bare.spillSlice 5).isSome,
      go (.wellScrub 3 { page := 2, arisen := none0 }) (well { eccDouble := [1024] }) fun u => (u.well 3).badPages == [2], go (.wellScrub 3 { page := 2, arisen := none0 }) (well { eccDouble := [1536], crcBad := [2] }) fun u => (u.well 3).badPages == [2],
      go (.wellScrub 3 { page := 2, arisen := none0 }) (well { eccSingle := [1535, 1536] }) fun u => (u.well 3).eccSingle == [1536] && (u.well 3).badPages == [], go (.wellScrub 3 { page := 2, arisen := { none0 with crc := [2] } }) w0 fun u => (u.well 3).badPages == [2], go (.wellScrub 3 { page := 12288, arisen := none0 }) w0 fun u => u == w0, go (.wellScrub 3 { page := 2, arisen := none0 }) (well { badPages := [2], crcBad := [2] }) fun u => (u.well 3).badPages == [2],
      go (.journalApply 3) w0 fun u => u == w0, go (.journalApply 3) (com { verifyFailed := true }) fun u => (u.well 3).journal.state == .committed] = true := by decide +kernel

/-- R278, R402 to R409, R376. -/
theorem test_energy :
    let go := fun (i : Instr) (s : State) (p : State → Bool) => next (exec i s) p
    let timed := fun (s : State) => ({ s with tab := { s.tab with partitions := [(0, BitVec.ofNat 256 (3 + (2 ^ 64 - 1) * 2 ^ 192))] } } : State)
    let win := fun (ceiling n cyc : Nat) => timed (isl (fun y => { y with state := .on, ceiling := ceiling, shareBundles := n, cycles := cyc * 65536000 }) w0)
    let ls := fun (l : Lease) (s : State) => ({ isl (fun y => { y with leased := some 2400, clock := 2400 }) s with pow := { (isl (fun y => { y with leased := some 2400, clock := 2400 }) s).pow with leases := [l] } } : State)
    let l : Lease := { region := 1, step := 2, ends := 1000 }
    let met := w0.modRail 2 fun r => { r with energy := 5 }
    let tk0 := w0.modRail 0 fun r => { r with energy := 2500000 }
    let tick := atNs 1000000 ({ tk0 with pow := { tk0.pow with residue := [(0, 600000)] } } : State)
    let heat := fun (n : Int) => n :: List.replicate 63 0
    let down := ({ w0 with pow := { w0.pow with down := true } } : State)
    let tw := w0.modWell 3 fun w => { w with badPages := [4] }
    let clk := fun (s : State) (n : Nat) => (s.island 0).clock == n
    every [go (.clockShareWindow 0) (win 2400 32768 8192) fun u => (u.island 0).ceiling == 2200 && (u.island 0).shareBundles == 0, go (.clockShareWindow 0) (win 2400 32767 8192) fun u => (u.island 0).ceiling == 2400,
      go (.clockShareWindow 0) (win 2200 29491 8192) fun u => (u.island 0).ceiling == 2400, go (.clockShareWindow 0) (win 2200 29492 8192) fun u => (u.island 0).ceiling == 2200, go (.clockShareWindow 0) (win 2400 40000 8191) fun u => (u.island 0).ceiling == 2400,
      clk (w0.setClock 0 2400) 2000 && ((w0.setClock 0 2400).island 0).nextClock == some 2400 && ((w0.setClock 0 2400).rail 0).settling, clk (w0.setClock 0 1800) 1800, go (.railSettled 0) (w0.setClock 0 2400) fun u => clk u 2400 && !(u.rail 0).settling,
      go (.railSettled 0) w0 fun u => u == w0, go (.leaseExpiry 0) (atNs 1000 (ls l w0)) fun u => u.pow.leases == [] && (u.island 0).leased.isNone && clk u 2000, go (.leaseExpiry 0) (atNs 999 (ls l w0)) fun u => u.pow.leases == [l],
      go (.leaseExpiry 0) (atNs 999 (ls { l with dropAt := some 999 } w0)) fun u => u.pow.leases == [], go (.leaseExpiry 1) (ls l w0) fun u => u.pow.leases == [l], (ls l wf).mayRevoke l 2801 && !(ls l wf).mayRevoke l 2800,
      go (.leaseRevoke 0 2801) (ls l wf) fun _ => true, go (.leaseRevoke 0 2800) (ls l wf) fun u => u.pow.leases == [l], go (.meterIntegration [1, 2, 3] 9 []) met fun u => (u.rail 2).energy == 8 && u.pow.inputEnergy == 9,
      go (.meterIntegration [] 0 [3]) w0 fun u => (u.chain 7).degraded, go (.meterIntegration [1] 9 []) down fun u => u == down, splitPj 100 [1, 1, 1] == [34, 33, 33], splitPj 7 [0, 3, 0] == [0, 7, 0], splitPj 7 [0, 0] == [0, 0],
      idleShares 1000 [6 * 2 ^ 30, 0] == [1000000000, 0], go .accountingTick (atNs 999999 w0) fun u => u == atNs 999999 w0, !tick.pow.down && decide (1000000 * (tick.pow.tick + 1) ≤ tick.ns), (tick.addCounter 0 0 2500000).counterOf 0 0 == 3 && FMap.get 0 (tick.addCounter 0 0 2500000).pow.residue 0 == 100000, splitPj 157000000000 [800000, 400000] == [104666666667, 52333333333],
      go (.heatRefresh (heat 70)) (isl (fun y => { y with state := .on }) w0) fun u => clk u 1800 && (u.island 0).hot && FMap.get 0 u.pow.heat 0 == 70, go (.heatRefresh (heat 64)) (isl (fun y => { y with state := .on }) w0) fun u => clk u 2000,
      go (.heatRefresh (heat 100)) w0 fun u => u.pow.down, go (.heatRefresh (heat 70)) down fun u => u == down, go (.brownOut {}) tw fun u => u.pow.down && (u.well 3).badPages == [4] && u.me.task.isNone, go (.brownOut {}) down fun u => u == down, go (.brownOut { flips := [(3, 1, 4)] }) down fun u => u.pow.flips == [(3, 1, 4)]] = true := by decide +kernel

/-! Steps. -/

/-- ADD s9, s1, s2 in slot 0, and VADD of INT32 views 1 and 2 into view 3 in slot 1, alone at the start of the code,
their tile's issue the next move. -/
def addStep : State := { placed ((w0.putS 1 5).putS 2 7) 0 (2 ^ 52 + 9 * 2 ^ 40 + 2 ^ 34 + 2 * 2 ^ 28) with agenda := [.issue 0 0] }
def vaddStep : State := { placed wv 1 (2 ^ 52 + 3 * 2 ^ 39 + 2 ^ 31 + 2 * 2 ^ 23 + 2 * 2 ^ 11) with agenda := [.issue 0 0] }

/-- What the second clause of StepRuns assumes of a state, a slot and an operation; slot 0 or 1. -/
def stepsAs (s : State) (n : Nat) (i : Instr) : Bool :=
  let a : State := State.elapse { s with agenda := [] } 0
  let b := a.modCtx 0 0 fun x => { x with checked := true }
  !a.pow.down && (a.island 0).state == .on && ((List.range 4).all fun k => !(a.ctx 0 k).yieldNext && (k == 0 || !(a.ctx 0 k).issues)) &&
  (match a.look 0 0, b.fetch 0 0 with
  | .ready _ v [(m, j)] _, .ok (s0, w, d) =>
    let s1 := (s0.at 0 0).modMe fun x => { x with captured := none }
    let s2 := if n = 0 then s1 else s1.capture
    v == w && m == n && decide (j = i) && (b.ctx 0 0).issues && !b.codeWaits 0 0 && !illegalBundle w && !(decodeHeader w).rb &&
      !(decodeHeader w).rc && !(decodeHeader w).pp && (match decodeBundle w d with
      | [(k, .ok j)] => k == n && decide (j = i)
      | _ => false) && !commitsFirst i && !onlyWaits i && s1.me.checked && (match s2.encStop i, s2.runStop i with
      | .ok _, .ok _ => true
      | _, _ => false) && !s1.bundleHeld 0 0 (if n = 0 then some i else none) [(n, s2.foot i)] w
  | _, _ => false)

/-- R18, R21, R68, R69: a bundle of one operation. -/
theorem test_step_runs :
    every [stepsAs addStep 0 (.add (gu 0) (sr 9 1 2)), next (step addStep) fun u => u.rs 9 == 12 && u.me.pc == 64 && (u.tile 0).q == 1 && u.agenda == [],
      next (step vaddStep) fun u => velts u 3 2 == [5, 2] && u.me.pc == 64, stepsAs vaddStep 1 (.vadd (gu 1) (vv 3 1 2 0 2)),
      next (step (State.reset.withFetchWord 512 (0x01000001 + (0x12 * 2 ^ 52 + 2 ^ 46 + 9 * 2 ^ 40 + 77) * 2 ^ 32))) fun u => u.rs 9 == 77,
      next (step { w0 with agenda := [.happen 65536 (.islandSelfTestDone 0 true)] }) fun u => u.now == 65536] = true := by decide +kernel

/-- R18's order: with contexts 0 and 2 ready, 2 issues where the pointer stands at 1, 0 where it stands at 3. -/
theorem test_round_robin :
    let two := fun (q : Nat) => (addStep.setCtx 0 2 addStep.me).modTile 0 fun x => { x with q := q }
    every [next (step (two 1)) fun u => (u.ctx 0 2).pc == 64 && (u.ctx 0 0).pc == 0 && (u.tile 0).q == 3,
      next (step (two 3)) fun u => (u.ctx 0 0).pc == 64 && (u.ctx 0 2).pc == 0 && (u.tile 0).q == 1] = true := by decide +kernel

/-! Witnesses: plain extents, held regions and what else the statements about memory, synchronisation and queues assume. -/

/-- Where an access lands, where its extent is plain. -/
def plainAt (s : State) (c : Cap) (rs : List Nat) (eo len : Nat) : Option Nat :=
  match s.lookObj s.myTile s.me.sys.asid c.obj with
  | some e =>
    let pa := extentPa s.myTile (bitsOf e 159 96) eo
    if bitsOf e 87 84 = c.kind ∧ hasRights (e.extractLsb' 88 8) rs = true ∧ eo + len ≤ bitsOf e 207 160 ∧ bitsOf e 83 82 = 0 ∧
        e.getLsbD 81 = false ∧ ∀ k < len, paExists (pa + k) = true ∧ paSpace (pa + k) ≠ 3 then some pa else none
  | none => none

theorem plainAt_plain {s : State} {c : Cap} {rs : List Nat} {eo len pa : Nat} (h : plainAt s c rs eo len = some pa) :
    s.Plain c rs eo len pa := by
  unfold plainAt at h
  split at h
  · rename_i e he
    dsimp only at h
    split at h
    · rename_i hc
      cases h
      exact ⟨e, he, hc.1, hc.2.1, hc.2.2.1, hc.2.2.2.1, hc.2.2.2.2.1, rfl, hc.2.2.2.2.2⟩
    · cases h
  · cases h

/-- The accesses of test_loads, test_gather, test_global_stores and test_scratch_stores are to plain extents; an open region with room and one without. -/
theorem test_plain_extents :
    let s := wmem
    let at' := fun (j : Nat) (rs : List Nat) (eo len : Nat) => plainAt s (s.ra j) rs eo len
    let room := opened [] wmem
    every [at' 1 [rR] 8 8 == some 0x20000008, at' 1 [rR] 0xFFF8 8 == some 0x2000FFF8, at' 1 [rR] 0xFFF9 8 == none, at' 2 [rR] 2 2 == some (4 * 2 ^ 54 + 2),
      at' 5 [rR, rC] 0 16 == some 0x21000000, at' 2 [rR] 0x1000 64 == some (4 * 2 ^ 54 + 0x1000), at' 2 [rR] 0x1040 1024 == some (4 * 2 ^ 54 + 0x1040),
      (laneRuns 5 32).all fun r => (at' 1 [rR] r.1 r.2).isSome && (at' 2 [rW] r.1 r.2).isSome, (List.range 16).all fun i => (at' 2 [rR] (64 * 4 * i) 64).isSome && (at' 2 [rW] (64 * i) 64).isSome,
      at' 1 [rR] 12 4 == some 0x2000000C, at' 1 [rW] 0 1 == some 0x20000000, at' 5 [rW, rC] 0 16 == some 0x21000000, at' 1 [rA] 0 4 == some 0x20000000,
      at' 2 [rW] 4 4 == some (4 * 2 ^ 54 + 4), at' 2 [rA] 4 4 == some (4 * 2 ^ 54 + 4), at' 2 [rW] 0x40 64 == some (4 * 2 ^ 54 + 0x40), at' 3 [rW] 0x20 8 == some 0x22000020,
      room.me.region.isSome && room.fits (.store [(0x20000000, 1)] []), !fullBuffer.fits (.store [(0x20000000, 1)] []), !fullQueue.fits (.sigAdd 0 1 []),
      (wmem.tile 0).syncQ == [], wmem.me.region.isNone] = true := by decide +kernel

/-- R330: with 64 packets unretired the copy waits; once one has retired it goes on. -/
theorem test_copy_waits :
    let one := (wq.wrBytes (2 * 2 ^ 54 + 0x1000) (leBytes 8 1)).wrBytes (2 * 2 ^ 54) (leBytes 8 (5 + 2 ^ 40 + 2 ^ 63))
    let old := List.replicate 64 (pkt 5 0)
    let full := one.modQueue 3 fun x => { x with packets := old }
    let waits := full.modQueue 3 fun x => { x with copying := some 1 }
    every [next (exec (.notifyKick 3) full) fun u => qs u == old && (u.queue 3).copying == some 1,
      next (exec (.barrier 3) waits) fun u => (qs u).length == 64 && (u.queue 3).copying == none && qHead (u.queue 3).entry == 1] = true := by decide +kernel

/-- R346: a tick's node that heads its queue is tried first; R357: an INVALIDATE waits for an access translated before; R382, R390: an apply that
runs, at each of its steps; R375: a move whose access meets a slice that is not ACTIVE is put off and wakes the slice. -/
theorem test_waits :
    let tick := wg id [.node 7 0]
    let ahead := { tick with cp := { tick.cp with ahead := [(3, .node 7 0)] } }
    let inv := wq [pkt 10 0]
    let out := inv.modMe fun x => { x with commitQ := [{ op := .store [(0x20000000, 1)] [], bundle := 4 }] }
    let busy := out.modQueue 3 fun x => { x with busy := true, awaits := out.translated }
    let app := fun (w : Well) (s : State) => let t := s.modWell 3 fun _ => w; !t.pow.down && t.fwActive && w.applying && !t.wjMid 3
    every [(ahead.pruneAhead.tryQueue 3).2 && ((ahead.queue 3).held.isSome || ahead.eligible 3) && (ahead.queue 3).ready.head? == some (.node 7 0),
      next (exec .nodeDispatch ahead) fun u => (u.ctx 0 1).phase == .running, out.translated != [], next (exec (.invalidate 3) out) fun u =>
        (u.queue 3).busy && (u.queue 3).awaits == out.translated && qs u == qs out, stays (.invalidate 3) busy,
      next (exec (.invalidate 3) (busy.modMe fun x => { x with commitQ := [] })) fun u => qs u == [],
      app { journal := { state := .committed } } wf, app { applyStep := 1 } wf, app { applyStep := 2 } wf, app { applyStep := 3 } wf] = true := by decide +kernel

/-- R375, DEDUCED: notes/assumptions/50.md. -/
theorem test_blocked :
    let s := obj (wf) 1 (objEntry kGLOBAL 0 0x20000000 0x10000)
    let s := { s with net := { s.net with qps := [(4, { role := 1 })] }, agenda := [.happen 0 (.rdmaWrite 4 1 8 [7])] }
    let r := s.modSlice (homeSlice 0x20000008) fun x => { x with state := .retain }
    every [next (step s) fun u => u.rd8 0x20000008 == 7, next (step r) fun u =>
      u.rd8 0x20000008 == 0 && (u.slice (homeSlice 0x20000008)).waking && u.net.outbox == [] && !u.pow.blocked] = true := by decide +kernel

end Sys2Proof.Tests
end

/-! PROOF. The steps of the matrix slot: the checks of MMA, MMAW and MMAT that pass, the cursor at issue and the block it
names (R156, R160 to R163). -/

namespace Sys2Proof.Machine.MatrixSteps
open Sys2Proof

/-! The checks of a step. -/

theorem needTid_of_valid {s : State} {n : Nat} (slot : Nat) (h : (s.tid n).valid = true) : s.needTid slot n = .ok () := by
  simp [State.needTid, require, h]

theorem needTid_of_invalid {s : State} {n : Nat} (slot : Nat) (h : (s.tid n).valid = false) :
    s.needTid slot n = .error (.trap { code := trapTID_INVALID, sub := BitVec.ofNat 16 n, slot := slot }) := by
  simp [State.needTid, require, h]

/-- A C base that is a multiple of 4 KiB gives the operand's window offset (R160). -/
theorem cOffset_of_aligned {env : ViewEnv} (r : BitVec 8) (h : env.base .c % 4096 = 0) :
    cOffset env r = .ok (env.start .c (ropIndex r)) := by
  simp [cOffset, require, h, bind, Except.bind]

/-- With its activation entry valid under A8, a step goes on behind that check (R161). -/
theorem activationCheck_bind {α : Type} {s : State} {x : MatrixBody} (e : Except Stop α)
    (h : x.aux.getLsbD 15 = true → (s.tid (bitsOf x.aux 5 0)).valid = true) :
    (if x.aux.getLsbD 15 = true then (s.needTid 3 (bitsOf x.aux 5 0) >>= fun _ => e) else e) = e := by
  split
  · next hA8 => rw [needTid_of_valid 3 (h hA8)]; rfl
  · rfl

/-! The cursor. -/

/-- A tensor entry with its cursor elsewhere. -/
def atCursor (d : Tid) (kb nb : Nat) : Tid := { d with kb := kb, nb := nb }

/-- An advance moves the cursor and nothing else of the entry (R156). -/
theorem advance_eq_atCursor (d : Tid) : d.advance = atCursor d d.advance.kb d.advance.nb := by
  unfold Tid.advance
  split <;> split <;> rfl

theorem rdTensorBytes_atCursor (d : Tid) (k c : Nat) (as : List Nat) (s : State) :
    s.rdTensorBytes (atCursor d k c) as = s.rdTensorBytes d as := by
  induction as generalizing s with
  | nil => rfl
  | cons a as ih =>
    simp only [State.rdTensorBytes, ih]
    rfl

/-- The block that a read finds lies where the read's own position says, wherever the entry's cursor stands (R162). -/
theorem rdBlock_atCursor (s : State) (d : Tid) (k c kb nb : Nat) : s.rdBlock (atCursor d k c) kb nb = s.rdBlock d kb nb := by
  simp only [State.rdBlock, rdTensorBytes_atCursor]
  rfl

/-- The state in which a step with a valid entry executes: the cursor advanced unless held or marked (R156, R163). -/
def cursorIssued (g : Guard) (x : MatrixBody) (s : State) : State :=
  if x.aux.getLsbD 16 = true ∨ g.dup = true then s else s.setTid x.tid.toNat (s.tid x.tid.toNat).advance

@[simp] theorem cursorIssued_me (g : Guard) (x : MatrixBody) (s : State) : (cursorIssued g x s).me = s.me := by
  unfold cursorIssued
  split <;> rfl

theorem setTid_tid_same (s : State) (n : Nat) (d : Tid) : (s.setTid n d).tid n = d := by
  simp [State.tid, State.setTid]

theorem setTid_tid_other (s : State) {m n : Nat} (d : Tid) (h : m ≠ n) : (s.setTid n d).tid m = s.tid m := by
  simp [State.tid, State.setTid, FMap.get_set_other _ _ _ _ h]

/-- At issue no entry changes but in its cursor. -/
theorem cursorIssued_tid (g : Guard) (x : MatrixBody) (s : State) (m : Nat) :
    ∃ k c, (cursorIssued g x s).tid m = atCursor (s.tid m) k c := by
  unfold cursorIssued
  split
  · exact ⟨(s.tid m).kb, (s.tid m).nb, rfl⟩
  · by_cases hm : m = x.tid.toNat
    · subst hm
      exact ⟨_, _, by rw [setTid_tid_same, advance_eq_atCursor]⟩
    · exact ⟨(s.tid m).kb, (s.tid m).nb, by rw [setTid_tid_other s _ hm]; rfl⟩

theorem cursorIssued_valid (g : Guard) (x : MatrixBody) (s : State) (m : Nat) :
    ((cursorIssued g x s).tid m).valid = (s.tid m).valid := by
  obtain ⟨k, c, h⟩ := cursorIssued_tid g x s m
  rw [h]
  rfl

/-! MMA and MMAW (R161). -/

/-- What a step of MMA or MMAW needs besides its admission: its entry valid, the activation entry too under A8, and the
C base a multiple of 4 KiB. -/
structure Ready (g : Guard) (x : MatrixBody) (s : State) : Prop where
  valid : (s.tid x.tid.toNat).valid = true
  act : x.aux.getLsbD 15 = true → (s.tid (bitsOf x.aux 5 0)).valid = true
  aligned : (s.me.dstEnv g).base .c % 4096 = 0

theorem Ready.cursorIssued {g : Guard} {x : MatrixBody} {s : State} (h : Ready g x s) :
    Ready g x (cursorIssued g x s) where
  valid := by rw [cursorIssued_valid, h.valid]
  act hA8 := by rw [cursorIssued_valid, h.act hA8]
  aligned := by rw [cursorIssued_me, h.aligned]

/-- With its checks passed, a step is the read of its block and what is accumulated of it. -/
theorem mmaRun_of_ready {g : Guard} {x : MatrixBody} {s : State} (wide : Bool) (kb nb : Nat) (h : Ready g x s) :
    mmaRun g x wide s kb nb = (s.rdBlock (s.tid x.tid.toNat) kb nb).map fun r =>
      r.1.accumulate g x wide ((s.me.dstEnv g).start .c (ropIndex x.dst))
        (r.2.1.map (decodeNarrow (s.tid x.tid.toNat).fmt)) r.2.2 := by
  simp only [mmaRun, activationCheck_bind _ h.act]
  rw [needTid_of_valid 3 h.valid, cOffset_of_aligned x.dst h.aligned]
  rfl

/-- With a valid entry the step runs behind the cursor's advance, on the block at the cursor as captured, and a trap of
the block's read leaves the advance (R163). -/
theorem mmaEff_of_ready {g : Guard} {x : MatrixBody} {s : State} (wide : Bool) (h : Ready g x s) :
    mmaEff g x wide s = keeping (cursorIssued g x s)
      (((cursorIssued g x s).rdBlock (s.tid x.tid.toNat) (s.tid x.tid.toNat).kb (s.tid x.tid.toNat).nb).map fun r =>
        r.1.accumulate g x wide ((s.me.dstEnv g).start .c (ropIndex x.dst))
          (r.2.1.map (decodeNarrow (s.tid x.tid.toNat).fmt)) r.2.2) := by
  have hissue : mmaEff g x wide s = keeping (cursorIssued g x s)
      (mmaRun g x wide (cursorIssued g x s) (s.tid x.tid.toNat).kb (s.tid x.tid.toNat).nb) := by
    simp [mmaEff, cursorIssued, h.valid]
  obtain ⟨k, c, htid⟩ := cursorIssued_tid g x s x.tid.toNat
  rw [hissue, mmaRun_of_ready wide _ _ h.cursorIssued, htid, rdBlock_atCursor, cursorIssued_me]
  rfl

theorem mmaEff_of_block {g : Guard} {x : MatrixBody} {s s1 : State} {cs : List Nat} {sc : List Fp} (wide : Bool)
    (h : Ready g x s) (hb : (cursorIssued g x s).rdBlock (s.tid x.tid.toNat) (s.tid x.tid.toNat).kb (s.tid x.tid.toNat).nb =
      .ok (s1, cs, sc)) :
    mmaEff g x wide s = .ok (s1.accumulate g x wide ((s.me.dstEnv g).start .c (ropIndex x.dst))
      (cs.map (decodeNarrow (s.tid x.tid.toNat).fmt)) sc) := by
  rw [mmaEff_of_ready wide h, hb]
  rfl

theorem mmaEff_of_block_trap {g : Guard} {x : MatrixBody} {s : State} {tr : Trap} (wide : Bool) (h : Ready g x s)
    (hb : (cursorIssued g x s).rdBlock (s.tid x.tid.toNat) (s.tid x.tid.toNat).kb (s.tid x.tid.toNat).nb =
      .error (.trap tr)) :
    mmaEff g x wide s = .ok ((cursorIssued g x s).takeTrap tr) := by
  rw [mmaEff_of_ready wide h, hb]
  rfl

/-- An invalid entry traps with its number, and its cursor stays (R151). -/
theorem mmaEff_of_invalid {g : Guard} {x : MatrixBody} {s : State} (wide : Bool)
    (h : (s.tid x.tid.toNat).valid = false) :
    mmaEff g x wide s = .ok (s.takeTrap
      { code := trapTID_INVALID, sub := BitVec.ofNat 16 x.tid.toNat, slot := 3 }) := by
  simp [mmaEff, mmaRun, h, needTid_of_invalid 3 h, bind, Except.bind, keeping]

/-! MMAT (R161). -/

theorem mmatEff_of_aligned {g : Guard} {x : MatrixBody} {s : State}
    (hact : x.aux.getLsbD 15 = true → (s.tid (bitsOf x.aux 5 0)).valid = true)
    (hal : (s.me.dstEnv g).base .c % 4096 = 0) :
    mmatEff g x s = .ok (s.accumulate g x false ((s.me.dstEnv g).start .c (ropIndex x.dst))
      ((elems 16 1024 (leNat (s.rdWin (s.me.viewEnv.start .t (ropIndex x.srcB)) 2048))).map (decodeFp bf16))
      (List.replicate 1024 (.fin false 1 0))) := by
  simp only [mmatEff, activationCheck_bind _ hact]
  rw [cOffset_of_aligned x.dst hal]
  rfl

/-! From the effect to the instruction. -/

section
variable {g : Guard} {x : MatrixBody} {s t : State}

theorem exec_mma_of_eff (h : s.Admits (.mma g x)) (he : mmaEff g x false s = .ok t) : exec (.mma g x) s = .next t := by
  rw [exec_mma]
  exact atIssue_next h he rfl rfl rfl

theorem exec_mmaw_of_eff (h : s.Admits (.mmaw g x)) (he : mmaEff g x true s = .ok t) : exec (.mmaw g x) s = .next t := by
  rw [exec_mmaw]
  exact atIssue_next h he rfl rfl rfl

theorem exec_mmat_of_eff (h : s.Admits (.mmat g x)) (he : mmatEff g x s = .ok t) : exec (.mmat g x) s = .next t := by
  rw [exec_mmat]
  exact atIssue_next h he rfl rfl rfl

end

/-- Settles O25. The step runs in the state behind the cursor's advance, whose entries differ from those captured in
their cursors alone, so that the block read is the one captured. -/
theorem matrixSteps : Obligations.MatrixSteps := by
  unfold Obligations.MatrixSteps
  intro g x s n d off s0 actOk aligned wOf
  refine ⟨fun h hv ha hal => ⟨fun s1 cs sc hb => ?_, fun tr hb => ?_⟩, fun h hv ha hal s1 cs sc hb => ?_, fun h hv => ?_,
    fun h ha hal => ?_⟩
  · exact exec_mma_of_eff h (mmaEff_of_block false ⟨hv, ha, hal⟩ hb)
  · exact exec_mma_of_eff h (mmaEff_of_block_trap false ⟨hv, ha, hal⟩ hb)
  · exact exec_mmaw_of_eff h (mmaEff_of_block true ⟨hv, ha, hal⟩ hb)
  · exact exec_mma_of_eff h (mmaEff_of_invalid false hv)
  · exact exec_mmat_of_eff h (mmatEff_of_aligned ha hal)

end Sys2Proof.Machine.MatrixSteps

/-! PROOF. What an accumulator element becomes in a step, and that a written accumulator tile reads back (R53 to R56). -/

namespace Sys2Proof.Machine.Accumulators
open Sys2Proof

/-! Bytes and packed elements. -/

theorem length_leBytes (n v : Nat) : (leBytes n v).length = n := by
  induction n generalizing v with
  | zero => rfl
  | succ n ih => simp [leBytes, ih]

/-- The low n bytes of a number hold it modulo 2^(8 n). -/
theorem leNat_leBytes (n v : Nat) : leNat (leBytes n v) = v % 256 ^ n := by
  induction n generalizing v with
  | zero => simp [leBytes, leNat, Nat.mod_one]
  | succ n ih => simp [leBytes, leNat, ih, Nat.pow_succ', Nat.mod_mul]

/-- Packed elements that fill n bytes lose nothing as bytes. -/
theorem leNat_leBytes_packElems {w n : Nat} {codes : List Nat} (h : w * codes.length = 8 * n) :
    leNat (leBytes n (packElems w codes)) = packElems w codes := by
  have hlt := packElems_lt w codes
  rw [h, Nat.pow_mul] at hlt
  rw [leNat_leBytes, Nat.mod_eq_of_lt hlt]

/-- Elements unpack to the codes that were packed, each cut to the width. -/
theorem elems_packElems (w : Nat) (codes : List Nat) :
    elems w codes.length (packElems w codes) = codes.map (· % 2 ^ w) := by
  refine List.ext_getElem (by simp [elems]) fun e h _ => ?_
  have he : e < codes.length := by simpa [elems] using h
  have key := elemAt_packElems w codes e
  simp only [elemAt] at key
  simp [elems, key, he]

/-! Runs of a map, and the window. -/

theorem getRun_eq_map {α : Type} (d : α) (m : FMap α) (k n : Nat) :
    FMap.getRun d m k n = (List.range n).map fun i => FMap.get d m (k + i) := by
  induction n generalizing k with
  | zero => rfl
  | succ n ih =>
    simp [FMap.getRun, ih, List.range_succ_eq_map, Function.comp_def, Nat.add_assoc, Nat.add_comm 1]

section
variable {α : Type} [DecidableEq α]

theorem getRun_setRun_same (d : α) (m : FMap α) (k : Nat) (vs : List α) :
    FMap.getRun d (FMap.setRun d m k vs) k vs.length = vs := by
  refine List.ext_getElem (by simp [getRun_eq_map]) fun i _ hi => ?_
  simp [getRun_eq_map, FMap.get_setRun_mem d vs m k i hi]

theorem getRun_setRun_disjoint (d : α) (m : FMap α) {k j n : Nat} {vs : List α}
    (h : j + n ≤ k ∨ k + vs.length ≤ j) :
    FMap.getRun d (FMap.setRun d m k vs) j n = FMap.getRun d m j n := by
  simp only [getRun_eq_map]
  refine List.map_congr_left fun i hi => FMap.get_setRun_other d vs m ?_
  have := List.mem_range.mp hi
  omega

end

/-- A window write as the bytes of the issuing tile that a read then sees. -/
theorem rdWin_wrWin (s : State) (a b n : Nat) (bs : List Byte) :
    (s.wrWin a bs).rdWin b n = FMap.getRun 0 (FMap.setRun 0 (s.tile s.myTile).space (s.me.winAt a) bs) (s.me.winAt b) n := by
  simp [State.rdWin, State.wrWin]

/-- Window bytes read back where they were written. -/
theorem rdWin_wrWin_same (s : State) (off : Nat) (bs : List Byte) : (s.wrWin off bs).rdWin off bs.length = bs := by
  rw [rdWin_wrWin, getRun_setRun_same]

/-- Window bytes apart from those written read as before. -/
theorem rdWin_wrWin_disjoint (s : State) {a b n : Nat} {bs : List Byte} (h : b + n ≤ a ∨ a + bs.length ≤ b) :
    (s.wrWin a bs).rdWin b n = s.rdWin b n := by
  rw [rdWin_wrWin, getRun_setRun_disjoint]
  · rfl
  · simp only [Ctx.winAt]; omega

/-! Accumulator tiles. -/

/-- The 4,096 bytes of 512 elements written at a window offset. -/
theorem rdWin_wrWin_leBytes (s : State) (off N : Nat) : (s.wrWin off (leBytes 4096 N)).rdWin off 4096 = leBytes 4096 N := by
  simpa only [length_leBytes] using rdWin_wrWin_same s off (leBytes 4096 N)

/-- The 512 elements that 4,096 bytes hold after their codes were packed. -/
theorem elems_leNat_leBytes_packElems {codes : List Nat} (h : codes.length = 512) :
    elems 64 512 (leNat (leBytes 4096 (packElems 64 codes))) = codes.map (· % 2 ^ 64) := by
  rw [leNat_leBytes_packElems (by omega), ← h, elems_packElems]

/-- Two's complement: a number within the bounds of a width is what its code in that width stands for. -/
theorem intOfBits_emod {k : Nat} {v : Int} (hlo : -2 ^ k ≤ v) (hhi : v < 2 ^ k) :
    intOfBits true (k + 1) (v % 2 ^ (k + 1)).toNat = v := by
  have hpow : (2 : Int) ^ (k + 1) = 2 * 2 ^ k := Int.pow_succ' 2 k
  have hcast : ((2 ^ k : Nat) : Int) = 2 ^ k := Int.natCast_pow 2 k
  have hcast' : ((2 ^ (k + 1) : Nat) : Int) = 2 * 2 ^ k := (Int.natCast_pow 2 (k + 1)).trans hpow
  simp only [intOfBits, Nat.add_sub_cancel, Bool.true_and, decide_eq_true_eq, hcast', hpow]
  rcases Int.lt_or_le v 0 with hv | hv
  · have hm : v % (2 * 2 ^ k) = v + 2 * 2 ^ k := by
      rw [← Int.add_emod_right, Int.emod_eq_of_lt (by omega) (by omega)]
    rw [hm, if_pos (by omega)]
    omega
  · rw [Int.emod_eq_of_lt hv (by omega), if_neg (by omega)]
    omega

/-- A 64-bit element from the low 64 bits of its 128-bit code. -/
theorem intOfBits_low {v : Int} (hlo : -2 ^ 63 ≤ v) (hhi : v < 2 ^ 63) :
    intOfBits true 64 ((v % 2 ^ 128).toNat % 2 ^ 64) = v := by
  have h : (v % 2 ^ 128).toNat % 2 ^ 64 = (v % 2 ^ 64).toNat := by omega
  rw [h]
  exact intOfBits_emod (k := 63) hlo hhi

/-- A wide element from the two halves of its 128-bit code. -/
theorem intOfBits_halves {v : Int} (hlo : -2 ^ 127 ≤ v) (hhi : v < 2 ^ 127) :
    intOfBits true 128 ((v % 2 ^ 128).toNat % 2 ^ 64 + 2 ^ 64 * ((v % 2 ^ 128).toNat / 2 ^ 64 % 2 ^ 64)) = v := by
  have h : (v % 2 ^ 128).toNat % 2 ^ 64 + 2 ^ 64 * ((v % 2 ^ 128).toNat / 2 ^ 64 % 2 ^ 64) = (v % 2 ^ 128).toNat := by
    omega
  rw [h]
  exact intOfBits_emod (k := 127) hlo hhi

/-- 64-bit elements read back (R53). -/
theorem rdAccum_wrAccum_narrow (s : State) (off : Nat) {vs : List Int} (hlen : vs.length = 512)
    (hv : ∀ v ∈ vs, -2 ^ 63 ≤ v ∧ v < 2 ^ 63) : (s.wrAccum false off vs).rdAccum false off = vs := by
  simp only [State.wrAccum, State.rdAccum, Bool.false_eq_true, if_false, rdWin_wrWin_leBytes]
  rw [elems_leNat_leBytes_packElems (by simpa using hlen), List.map_map, List.map_map]
  exact (List.map_congr_left fun v h => intOfBits_low (hv v h).1 (hv v h).2).trans (List.map_id vs)

/-- Wide elements read back: the low halves stand below the high ones, which do not touch them (R56). -/
theorem rdAccum_wrAccum_wide (s : State) (off : Nat) {vs : List Int} (hlen : vs.length = 512)
    (hv : ∀ v ∈ vs, -2 ^ 127 ≤ v ∧ v < 2 ^ 127) : (s.wrAccum true off vs).rdAccum true off = vs := by
  simp only [State.wrAccum, State.rdAccum, if_true, rdWin_wrWin_leBytes]
  rw [rdWin_wrWin_disjoint _ (.inl (Nat.le_refl _)), rdWin_wrWin_leBytes]
  rw [elems_leNat_leBytes_packElems (by simpa using hlen), elems_leNat_leBytes_packElems (by simpa using hlen)]
  simp only [List.map_map, List.zip_map', List.map_map]
  exact (List.map_congr_left fun v h => intOfBits_halves (hv v h).1 (hv v h).2).trans (List.map_id vs)

/-! One element of a step. -/

/-- The old value with each product rounded to the anchor's grid, not yet saturated (R54). -/
def gridSum (anchor I : Int) (ps : List Fp) : Int := I + (ps.map fun p => p.dy.roundToGrid anchor).sum

/-- The non-zero products that round to 0 (R55). -/
def vanished (anchor : Int) (ps : List Fp) : Nat :=
  (ps.filter fun p => p.dy.m != 0 && p.dy.roundToGrid anchor == 0).length

theorem accMin_le_accMax (wide : Bool) : accMin wide ≤ accMax wide := by cases wide <;> decide

/-- With finite products alone an element takes their grid sum, saturated with OVF, and counts those that vanished. -/
theorem stepElem_of_finite (wide : Bool) (anchor I : Int) {ps : List Fp}
    (h : ∀ p ∈ ps, p.isNan = false ∧ p.isInf = false) :
    stepElem wide anchor I ps =
      if accMax wide < gridSum anchor I ps then (accMax wide, true, vanished anchor ps)
      else if gridSum anchor I ps < accMin wide then (accMin wide, true, vanished anchor ps)
      else (gridSum anchor I ps, false, vanished anchor ps) := by
  have hspecial : ps.filter (fun p => p.isNan || p.isInf) = [] :=
    List.filter_eq_nil_iff.mpr fun p hp => by simp [h p hp]
  have hsum : ((ps.map fun p => (p.dy.m, p.dy.roundToGrid anchor)).map Prod.snd).foldl (· + ·) I = gridSum anchor I ps := by
    rw [List.map_map, gridSum, List.sum_eq_foldl, ← List.foldl_assoc (op := (· + · : Int → Int → Int)), Int.add_zero]
    rfl
  have hgone : ((ps.map fun p => (p.dy.m, p.dy.roundToGrid anchor)).filter fun (m, r) => m != 0 && r == 0).length =
      vanished anchor ps := by
    rw [List.filter_map, List.length_map]
    rfl
  simp only [stepElem, hspecial, List.isEmpty_nil, if_true]
  rw [hsum, hgone]

/-- A special product decides the element: the upper bound when every one is +infinity, else the lower (R53). -/
theorem stepElem_of_special (wide : Bool) (anchor I : Int) {ps : List Fp}
    (h : ∃ p ∈ ps, (p.isNan || p.isInf) = true) :
    stepElem wide anchor I ps =
      if (ps.filter fun p => p.isNan || p.isInf).all fun p => p.isInf && !p.sign then (accMax wide, true, 0)
      else (accMin wide, true, 0) := by
  have hspecial : (ps.filter fun p => p.isNan || p.isInf).isEmpty = false := by
    obtain ⟨p, hp, hsp⟩ := h
    exact List.isEmpty_eq_false_iff.mpr (List.ne_nil_of_mem (List.mem_filter.mpr ⟨hp, hsp⟩))
  simp only [stepElem, hspecial, Bool.false_eq_true, if_false]

/-- With +infinity alone among the special products, the upper bound. -/
theorem stepElem_of_posInf (wide : Bool) (anchor I : Int) {ps : List Fp} (hinf : ∃ p ∈ ps, p.isInf = true)
    (hpos : ∀ p ∈ ps, p.isNan = false ∧ (p.isInf = true → p.sign = false)) :
    stepElem wide anchor I ps = (accMax wide, true, 0) := by
  obtain ⟨q, hq, hqi⟩ := hinf
  rw [stepElem_of_special wide anchor I ⟨q, hq, by simp [hqi]⟩, if_pos]
  refine List.all_eq_true.mpr fun p hp => ?_
  obtain ⟨hmem, hsp⟩ := List.mem_filter.mp hp
  obtain ⟨hnan, hsign⟩ := hpos p hmem
  have hpi : p.isInf = true := by simpa [hnan] using hsp
  simp [hpi, hsign hpi]

/-- With a NaN or a −infinity among the products, the lower bound. -/
theorem stepElem_of_nan_or_negInf (wide : Bool) (anchor I : Int) {ps : List Fp}
    (h : ∃ p ∈ ps, p.isNan = true ∨ p.isInf = true ∧ p.sign = true) :
    stepElem wide anchor I ps = (accMin wide, true, 0) := by
  obtain ⟨q, hq, hbad⟩ := h
  have hsp : (q.isNan || q.isInf) = true := by rcases hbad with hn | ⟨hi, -⟩ <;> simp [*]
  have hfail : (q.isInf && !q.sign) = false := by
    rcases hbad with hn | ⟨-, hs⟩
    · cases q <;> simp_all [Fp.isNan, Fp.isInf]
    · simp [hs]
  rw [stepElem_of_special wide anchor I ⟨q, hq, hsp⟩, if_neg]
  intro hall
  have := List.all_eq_true.mp hall q (List.mem_filter.mpr ⟨hq, hsp⟩)
  rw [hfail] at this
  cases this

/-- The bounds as the statement writes them. -/
theorem accMax_eq (wide : Bool) : (if wide then 2 ^ 127 - 1 else 2 ^ 63 - 1 : Int) = accMax wide := by
  cases wide <;> rfl

theorem accMin_eq (wide : Bool) : (if wide then -2 ^ 127 else -2 ^ 63 : Int) = accMin wide := by
  cases wide <;> rfl

/-- Settles O26. A finite step is the saturated grid sum, a special product decides the bound, and a tile's bytes are
the packed two's-complement codes of its elements. -/
theorem accumulatorElements : Obligations.AccumulatorElements := by
  unfold Obligations.AccumulatorElements
  refine ⟨fun wide anchor I ps => ?_, fun s wide off vs hlen hv => ?_⟩
  · simp only [accMax_eq, accMin_eq]
    refine ⟨fun hfin => ?_, stepElem_of_posInf wide anchor I, stepElem_of_nan_or_negInf wide anchor I⟩
    rw [stepElem_of_finite wide anchor I hfin]
    refine ⟨fun hlo hhi => ?_, fun hhi => if_pos hhi, fun hlo => ?_⟩
    · exact (if_neg (Int.not_lt.mpr hhi)).trans (if_neg (Int.not_lt.mpr hlo))
    · exact (if_neg (Int.not_lt.mpr (Int.le_trans (Int.le_of_lt hlo) (accMin_le_accMax wide)))).trans (if_pos hlo)
  · cases wide with
    | false => exact rdAccum_wrAccum_narrow s off hlen (by simpa using hv)
    | true => exact rdAccum_wrAccum_wide s off hlen (by simpa using hv)

end Sys2Proof.Machine.Accumulators

/-! PROOF. The encoder and the decoder of slot words are inverse to each other (R71, R76 to R83): a body and the fields
that it packs, an operation and the fields of its slot word, a slot word and its fields. -/

namespace Sys2Proof.Laws.Encoding
open Sys2Proof Sys2Proof.Machine

/-- Every step of the table meets the family's statement: the lemma of each constructor, in the order of the table. -/
theorem readBack_of_slotFields (i : Instr) : Statement i :=
  Instr.casesOn (motive := Statement) i
    nopScalar add sub mul mulh div rem and or xor andn shl shr sra min max clz popc li lih mov sel cmp pand por pxor
    pandn pset pcnt aadd aset aget anarrow adrop amov achk loop ldelta lbreak lidx view srr srw srWinWrite
    srPrivWrite rdtime pbr trap utret eret yield endTask feat nopVector vadd vsub vmul vfma vmin vmax vabs vneg vand
    vor vxor vshl vshr vcmp vsel vcvt vquant vdeq vexp2 vlog2 vrcp vrsq vsumr vmaxr vdot vshuf vbcast vslide viota
    vcompr vpart vtopk vmovs vins nopMatrix mzero manchor mma mmat mmaw mread mstat mclr tidset tidstep tidstepSet
    lrzero lrset lradd lrscale lrmul lrmuld lrtrunc lrdense lrcomp lrapply lrrank nopLoad ld lda lds vld vlds tlds
    vgath capld lrlds nopStore st stl sts vst vsts tsts vscat capst atom atoms lrsts nopPump pcopy pfill pgath pscat
    pdecl pflushx kvappend kvattn kvscore kvseal kvcompact kvfork kvforkNew kvfree kvpin kvwin kvstat colar colrs
    colag colbc colstat stmget stmstat wjopen wjwrite wjcommit wjabort wjstat nopSync br brl fence cbset cbwait
    cbspace cbadvProduce cbadvConsume sigwait sigadd jobraise jobpost jobwait bar launch launchNb evread evwait chk
    rplw tickwait regionBegin regionCommit preemptionPoint commitStageDeparture engineOperationComplete waitRelease
    systemTrap eventRecordPost timingErrorReplay stormPeriodEnd preemptionRequestDelivery forcedPreemption
    contextSave contextResume featureMigration pumpDelivery pumpCommandComplete atomicHomePerform wideVariantLaunch
    kvCommandResolve compactionJob compactionInstall spillReadback streamTokenArrival tick tickWakeLead
    holdLimitExpiry stmgetResolve stepEnd clockShareWindow collectiveAccept versionAgreement chunkReduced
    chunkBroadcastComplete collectiveRecovery collectiveTimeout straitPeerDetect identityFlit straitUp straitDown
    flitCrcRetry virtualLaneStopGo linkChangeFlood ptpSync announceTimeout ethernetFrameReceive
    congestionNotification rateRecovery rdmaWrite rdmaWriteWithImmediate rdmaRead notifyKick pendingKickService
    launchGraph signalWrite signalAdd wait copy barrier lease timedArm timedDisarm flushExport invalidate
    regionCreate regionAlter regionDestroy statement nodeDispatch nodeComplete instanceEnd queueTeardown
    queueDrained regenerationStart translationWalk islandIdle islandIdleExit islandPark islandOff islandWake
    islandWakeComplete resumeTrigger driverWakeRequest cisternRetain cisternWake cisternOffRequest railSettled
    brownOut powerOnReset islandSelfTestDone lpddr6TrainingDone wellScrub journalApply accountingTick
    meterIntegration leaseExpiry leaseRevoke heatRefresh firmwareTakeover mirrorEntry update roleSwap fwUpdateFail
    load attest confirm heat telemetry versions queueTableWrite asidTableWrite serviceEntryWrite powerEntryWrite
    groupEntryWrite streamDescriptorWrite ownerKeyWrite partitionEntryWrite lotterySeedWrite vlanConfig portRateSet
    ptpConfig straitTrainRequest straitDownRequest autoNegotiation queuePairBinding

end Sys2Proof.Laws.Encoding

namespace Sys2Proof.Machine.SlotWords
open Sys2Proof BitVec

/-! Body bits are the body that they hold, packed again: no bit is dropped. -/

theorem ofBool_getLsbD {w : Nat} (x : BitVec w) (k : Nat) : ofBool (x.getLsbD k) = x.extractLsb' k 1 := by
  ext j hj
  obtain rfl : j = 0 := by omega
  simp

@[simp] theorem packScalar_unpackScalar (x : BitVec 47) : packScalar (unpackScalar x) = x := by
  cases hform : x.getLsbD 46
  case false =>
    have hbit : 0#1 = x.extractLsb' 46 1 := by rw [← ofBool_getLsbD, hform]; rfl
    simp (disch := rfl) only [unpackScalar, hform, Bool.false_eq_true, if_false, packScalar, hbit,
      extractLsb'_append_extractLsb'_eq_extractLsb', extractLsb'_eq_self]
  case true =>
    have hbit : 1#1 = x.extractLsb' 46 1 := by rw [← ofBool_getLsbD, hform]; rfl
    simp (disch := rfl) only [unpackScalar, hform, if_true, packScalar, hbit,
      extractLsb'_append_extractLsb'_eq_extractLsb', extractLsb'_eq_self]

@[simp] theorem packVector_unpackVector (x : BitVec 47) : packVector (unpackVector x) = x := by
  simp (disch := rfl) only [packVector, unpackVector,
    extractLsb'_append_extractLsb'_eq_extractLsb', extractLsb'_eq_self]

@[simp] theorem packMatrix_unpackMatrix (x : BitVec 47) : packMatrix (unpackMatrix x) = x := by
  simp (disch := rfl) only [packMatrix, unpackMatrix,
    extractLsb'_append_extractLsb'_eq_extractLsb', extractLsb'_eq_self]

@[simp] theorem packMem_unpackMem (x : BitVec 47) : packMem (unpackMem x) = x := by
  simp (disch := rfl) only [packMem, unpackMem,
    extractLsb'_append_extractLsb'_eq_extractLsb', extractLsb'_eq_self]

@[simp] theorem packPump_unpackPump (x : BitVec 47) : packPump (unpackPump x) = x := by
  simp (disch := rfl) only [packPump, unpackPump,
    extractLsb'_append_extractLsb'_eq_extractLsb', extractLsb'_eq_self]

/-! What an opcode map answers has the opcode and the body bits that the map was given. -/

theorem slotFields_of_body {i : Instr} {cls : SlotClass} {opc : BitVec 8} {g : Guard} {body x : BitVec 47}
    (h : slotFields i = some ⟨cls, opc, g, body⟩) (hb : body = x) : slotFields i = some ⟨cls, opc, g, x⟩ :=
  hb ▸ h

/-- What fields read back as is encoded with those fields: each cell of an opcode map holds the operation of its
opcode, whose body packs to the bits that the cell unpacked. -/
theorem slotFields_of_readBack {f : SlotFields} {i : Instr} (h : f.readBack = some i) : slotFields i = some f := by
  obtain ⟨cls, opc, g, x⟩ := f
  dsimp only [SlotFields.readBack] at h
  generalize hn : opc.toNat = n at h
  obtain rfl : opc = BitVec.ofNat 8 n := by simp [← hn]
  cases cls
  all_goals
    dsimp only [decodeScalar, decodeVector, decodeMatrix, decodeLoad, decodeStore, decodePump, decodeSync] at h
    repeat' split at h
    all_goals cases h
    all_goals exact slotFields_of_body rfl (by simp)

/-! A slot word and the fields that a slot reads in it (R71). -/

/-- The fields that slot `n` reads in a slot word. -/
def fieldsAt (n : Nat) (dup : Bool) (x : SlotWord) : SlotFields :=
  { cls := slotClass n, opc := x.extractLsb' 52 8, g := decodeGuard n dup x, body := x.extractLsb' 0 47 }

theorem decodeSlot_eq_ok_iff {n : Nat} {dup : Bool} {x : SlotWord} {i : Instr} :
    decodeSlot n dup x = .ok i ↔ (fieldsAt n dup x).readBack = some i := by
  show (match (fieldsAt n dup x).readBack with
    | some j => Except.ok j
    | none => Except.error (DecodeError.unassignedOpcode _)) = .ok i ↔ _
  cases (fieldsAt n dup x).readBack <;> simp

/-- A slot word is its own fields, packed. -/
theorem packSlot_fieldsAt (n : Nat) (dup : Bool) (x : SlotWord) :
    packSlot (fieldsAt n dup x).opc (fieldsAt n dup x).g (fieldsAt n dup x).body = x := by
  simp (disch := rfl) only [packSlot, fieldsAt, decodeGuard, ofBool_getLsbD,
    extractLsb'_append_extractLsb'_eq_extractLsb', extractLsb'_eq_self]

/-- Packed fields are read back in a slot that serves their class. -/
theorem fieldsAt_packSlot (f : SlotFields) (hc : slotClass f.g.slot.toNat = f.cls) :
    fieldsAt f.g.slot.toNat f.g.dup (packSlot f.opc f.g f.body) = f := by
  obtain ⟨cls, opc, ⟨slot, pn, pred, dup⟩, body⟩ := f
  have hpn : (packSlot opc ⟨slot, pn, pred, dup⟩ body).getLsbD 51 = pn := by
    simp only [packSlot, getLsbD_append]
    simp
  simp only [fieldsAt, decodeGuard, hpn, hc, ofNat_toNat, setWidth_eq]
  simp (disch := omega) only [packSlot, extract_hi', extract_lo, extract_all, Nat.sub_self, Nat.reduceSub]

/-! What being well formed and the encoder say of an operation's fields. -/

theorem slotMatches_and_rowMatches {i : Instr} (h : wellFormed i = true) :
    slotMatches i = true ∧ rowMatches i = true := by
  simp only [wellFormed, Bool.and_eq_true] at h
  exact h.1

theorem slotClass_of_slotMatches {i : Instr} {f : SlotFields} (hf : slotFields i = some f) (h : slotMatches i = true) :
    slotClass f.g.slot.toNat = f.cls := by
  simpa [slotMatches, hf] using h

theorem encode_of_slotFields {i : Instr} {f : SlotFields} (hf : slotFields i = some f) :
    encode i = some (packSlot f.opc f.g f.body) := by
  simp [encode, hf]

/-! The two obligations. -/

/-- Settles O56. The decoder is evaluated on each of the spec's words; the cell of opcode 255 of the sync class is
empty. -/
theorem decodedWords : Obligations.DecodedWords := by
  unfold Obligations.DecodedWords
  exact ⟨rfl, rfl, rfl, rfl, rfl, rfl, rfl, rfl, rfl, rfl, rfl⟩

/-- Settles O59. Both directions go over the fields of the word: an operation's fields read back as the operation
(`readBack_of_slotFields`), and what fields read back as has those fields (`slotFields_of_readBack`). -/
theorem decodeEncode : Obligations.DecodeEncode := by
  unfold Obligations.DecodeEncode
  refine ⟨fun i f hf hwf => ?_, fun n dup x i _ hdec => ?_⟩
  · obtain ⟨hslot, hrow⟩ := slotMatches_and_rowMatches hwf
    refine ⟨_, encode_of_slotFields hf, decodeSlot_eq_ok_iff.mpr ?_⟩
    rw [fieldsAt_packSlot f (slotClass_of_slotMatches hf hslot)]
    exact Laws.Encoding.readBack_of_slotFields i f hf hrow
  · have hf := slotFields_of_readBack (decodeSlot_eq_ok_iff.mp hdec)
    rw [encode_of_slotFields hf, packSlot_fieldsAt]

end Sys2Proof.Machine.SlotWords

/-! PROOF. What an admitted scalar operation answers, and the results of the integer, move, compare and predicate rows
(R99 to R103). -/

namespace Sys2Proof.Machine.ScalarResults
open Sys2Proof

/-! From the effect to the instruction. -/

/-- An admitted operation whose effect in the frame of `atIssue` succeeds answers that effect. -/
theorem exec_eq_next {i : Instr} {g : Guard} {check : State → Except Stop Unit} {eff : State → Except Stop State}
    {s t : State} (h : s.Admits i) (hx : exec i s = atIssue i g check eff s) (he : eff s = .ok t)
    (hg : (slotFields i).map SlotFields.g = some g := by rfl) (hl : laneWise i = false := by rfl)
    (hc : runCheck i s = check s := by rfl) : exec i s = .next t :=
  hx.trans (atIssue_next h he hg hl hc)

/-- The checks at issue of an admitted operation have passed. -/
theorem runCheck_of_admits {i : Instr} {s : State} (h : s.Admits i) : runCheck i s = .ok () := by
  obtain ⟨-, -, hcheck⟩ := h
  exact hcheck

section
variable {i : Instr} {g : Guard} {x : ScalarBody} {s : State}

/-- An operation of R99 answers its function's value, written in any equal way. -/
theorem exec_scalarBin {f : Word → Word → Word} {v : Word} (h : s.Admits i) (hx : exec i s = scalarBin i g x f s)
    (hv : f (s.rs (sbRs1 x)) (s.opB x) = v) (hg : (slotFields i).map SlotFields.g = some g := by rfl)
    (hl : laneWise i = false := by rfl) (hc : runCheck i s = .ok () := by rfl) :
    exec i s = .next (s.scalarS (sbRd x) v) :=
  exec_eq_next h hx (by rw [hv]) hg hl hc

/-- An operation of R103 on two predicates answers its function's value. -/
theorem exec_predBin {f : Mask → Mask → Mask} (h : s.Admits i) (hx : exec i s = predBin i g x f s)
    (hg : (slotFields i).map SlotFields.g = some g := by rfl) (hl : laneWise i = false := by rfl)
    (hc : runCheck i s = .ok () := by rfl) :
    exec i s = .next (s.scalarP (sbRd x) (f (s.rp (sbRs1 x).toNat) (s.rp (sbRs2 x).toNat))) :=
  exec_eq_next h hx rfl hg hl hc

end

/-! Integer values (R99, R100). -/

theorem sub_eq_ofInt (a b : Word) : a - b = BitVec.ofInt 64 (a.toNat - b.toNat) := by
  apply BitVec.eq_of_toNat_eq
  simp only [BitVec.toNat_sub, BitVec.toNat_ofInt]
  omega

theorem mulHigh_unsigned (a b : Word) :
    mulHigh true a b = (BitVec.ofNat 128 (a.toNat * b.toNat)).extractLsb' 64 64 := by
  apply BitVec.eq_of_toNat_eq
  simp only [mulHigh, if_true, BitVec.extractLsb'_toNat, BitVec.toNat_ofNat, Nat.shiftRight_eq_div_pow]
  omega

theorem mulHigh_signed (a b : Word) :
    mulHigh false a b = (BitVec.ofInt 128 (a.toInt * b.toInt)).extractLsb' 64 64 := by
  apply BitVec.eq_of_toNat_eq
  simp only [mulHigh, Bool.false_eq_true, if_false, BitVec.extractLsb'_toNat, BitVec.toNat_ofInt,
    Nat.shiftRight_eq_div_pow]
  omega

/-- The high half of the product, cut from the 128-bit product. -/
theorem mulHigh_eq (u : Bool) (a b : Word) :
    mulHigh u a b = if u then (BitVec.ofNat 128 (a.toNat * b.toNat)).extractLsb' 64 64
      else (BitVec.ofInt 128 (a.toInt * b.toInt)).extractLsb' 64 64 := by
  cases u
  · exact mulHigh_signed a b
  · exact mulHigh_unsigned a b

theorem shiftLeft_eq_ofNat (a : Word) (n : Nat) : a <<< n = BitVec.ofNat 64 (a.toNat * 2 ^ n) := by
  apply BitVec.eq_of_toNat_eq
  simp [Nat.shiftLeft_eq]

theorem ushiftRight_eq_ofNat (a : Word) (n : Nat) : a >>> n = BitVec.ofNat 64 (a.toNat / 2 ^ n) := by
  simp [← BitVec.toNat_ushiftRight, ← Nat.shiftRight_eq_div_pow]

theorem sshiftRight_eq_ofInt (a : Word) (n : Nat) : a.sshiftRight n = BitVec.ofInt 64 (a.toInt / 2 ^ n) := by
  simp [BitVec.sshiftRight, Int.shiftRight_eq_div_pow]

theorem minW_eq (u : Bool) (a b : Word) :
    minW u a b = if (if u then decide (a.toNat ≤ b.toNat) else decide (a.toInt ≤ b.toInt)) then a else b := by
  cases u
  · simp only [minW, BitVec.slt, Bool.false_eq_true, if_false, decide_eq_true_eq, ← Int.not_lt, ite_not]
  · simp only [minW, BitVec.ult, if_true, decide_eq_true_eq, ← Nat.not_lt, ite_not]

/-- The model picks b where a is less, the rule also where they are equal, and then a and b are one word. -/
theorem maxW_eq (u : Bool) (a b : Word) :
    maxW u a b = if (if u then decide (a.toNat ≤ b.toNat) else decide (a.toInt ≤ b.toInt)) then b else a := by
  by_cases h : a = b
  · simp [maxW, h]
  · cases u
    · have hne := mt BitVec.eq_of_toInt_eq h
      simp [maxW, BitVec.slt, Int.le_iff_lt_or_eq, hne]
    · have hne := mt BitVec.eq_of_toNat_eq h
      simp [maxW, BitVec.ult, Nat.le_iff_lt_or_eq, hne]

theorem leadingZeros_le (a : Word) (n : Nat) : leadingZeros a n ≤ n := by
  induction n with
  | zero => exact Nat.le_refl 0
  | succ n ih => rw [leadingZeros]; split <;> omega

/-- The bits that are counted are 0, and the one below them, if there is one, is 1. -/
theorem getLsbD_of_leadingZeros (a : Word) (n : Nat) :
    (∀ k, n - leadingZeros a n ≤ k → k < n → a.getLsbD k = false) ∧
      (leadingZeros a n < n → a.getLsbD (n - 1 - leadingZeros a n) = true) := by
  induction n with
  | zero => exact ⟨fun k _ hk => absurd hk (Nat.not_lt_zero k), fun h => absurd h (Nat.not_lt_zero _)⟩
  | succ n ih =>
    obtain ⟨hzero, hone⟩ := ih
    rw [leadingZeros]
    split
    · next htop => exact ⟨fun k h hk => by omega, fun _ => htop⟩
    · next htop =>
      refine ⟨fun k h hk => ?_, fun h => ?_⟩
      · rcases Nat.lt_succ_iff_lt_or_eq.mp hk with hlt | rfl
        · exact hzero k (by omega) hlt
        · simpa using htop
      · have := hone (by omega)
        rwa [show n + 1 - 1 - (1 + leadingZeros a n) = n - 1 - leadingZeros a n by omega]

theorem popCount_eq_countP (a : Word) (n : Nat) : popCount a n = (List.range n).countP fun k => a.getLsbD k := by
  induction n with
  | zero => rfl
  | succ n ih => simp [popCount, ih, List.range_succ, List.countP_append, Nat.add_comm]

theorem popCount_le (a : Word) (n : Nat) : popCount a n ≤ n := by
  rw [popCount_eq_countP]
  simpa using List.countP_le_length (p := fun k => a.getLsbD k) (l := List.range n)

/-- Settles O1. Each operation answers its function of R99, and the function's word is the row's number modulo 2^64. -/
theorem integerResults : Obligations.IntegerResults := by
  unfold Obligations.IntegerResults
  intro g x s a b out
  refine ⟨fun h => exec_scalarBin h (exec_add s g x) (BitVec.add_def ..),
    fun h => exec_scalarBin h (exec_sub s g x) (sub_eq_ofInt a b),
    fun h => exec_scalarBin h (exec_mul s g x) rfl,
    fun h => exec_scalarBin h (exec_mulh s g x) (mulHigh_eq (sbU x) a b),
    fun h => exec_scalarBin h (exec_and s g x) rfl,
    fun h => exec_scalarBin h (exec_or s g x) rfl,
    fun h => exec_scalarBin h (exec_xor s g x) rfl,
    fun h => exec_scalarBin h (exec_andn s g x) rfl,
    fun h => exec_scalarBin h (exec_shl s g x) (shiftLeft_eq_ofNat a _),
    fun h => exec_scalarBin h (exec_shr s g x) (ushiftRight_eq_ofNat a _),
    fun h => exec_scalarBin h (exec_sra s g x) (sshiftRight_eq_ofInt a _),
    fun h => exec_scalarBin h (exec_min s g x) (minW_eq (sbU x) a b),
    fun h => exec_scalarBin h (exec_max s g x) (maxW_eq (sbU x) a b),
    fun h => ⟨leadingZeros a 64, leadingZeros_le a 64, exec_scalarBin h (exec_clz s g x) rfl,
      getLsbD_of_leadingZeros a 64⟩,
    fun h => exec_scalarBin h (exec_popc s g x) ?_⟩
  rw [popCount_eq_countP]

/-- The quotient that does not fit 64 bits is the dividend (R100). -/
theorem ofInt_tdiv_of_overflow {a b : Word} (ha : a.toInt = -2 ^ 63) (hb : b.toInt = -1) :
    BitVec.ofInt 64 (a.toInt.tdiv b.toInt) = a := by
  rw [← BitVec.ofInt_toInt (x := a), ha, hb]
  decide

theorem divQ_zero (u : Bool) (a : Word) : divQ u a 0 = BitVec.allOnes 64 := rfl

theorem divQ_unsigned {a b : Word} (hb : b ≠ 0) : divQ true a b = BitVec.ofNat 64 (a.toNat / b.toNat) := if_neg hb

theorem divQ_signed {a b : Word} (hb : b ≠ 0) : divQ false a b = BitVec.ofInt 64 (a.toInt.tdiv b.toInt) := if_neg hb

theorem divR_zero (u : Bool) (a : Word) : divR u a 0 = a := rfl

theorem divR_unsigned {a b : Word} (hb : b ≠ 0) : divR true a b = BitVec.ofNat 64 (a.toNat % b.toNat) := if_neg hb

theorem divR_signed {a b : Word} (hb : b ≠ 0) :
    divR false a b = BitVec.ofInt 64 (a.toInt - a.toInt.tdiv b.toInt * b.toInt) := by
  rw [Int.mul_comm]
  exact if_neg hb

theorem divR_overflow {a b : Word} (hb0 : b ≠ 0) (ha : a.toInt = -2 ^ 63) (hb : b.toInt = -1) : divR false a b = 0 := by
  rw [divR_signed hb0, ha, hb]
  decide

/-- Settles O2, by the quotient and the remainder in each case of R100. -/
theorem divideResults : Obligations.DivideResults := by
  unfold Obligations.DivideResults
  intro g x s a b out
  refine ⟨fun h => ?_, fun h => ?_⟩
  · have hdiv := fun v => exec_scalarBin (v := v) h (exec_div s g x)
    refine ⟨fun hb => hdiv _ ?_, fun hb hu => hdiv _ ?_, fun hb hu hmin hone => hdiv _ ?_, fun hb hu => hdiv _ ?_⟩
    · show divQ (sbU x) a b = _
      rw [hb, divQ_zero]
    · rw [hu, divQ_unsigned hb]
    · rw [hu, divQ_signed hb, ofInt_tdiv_of_overflow hmin hone]
    · rw [hu, divQ_signed hb]
  · have hrem := fun v => exec_scalarBin (v := v) h (exec_rem s g x)
    refine ⟨fun hb => hrem _ ?_, fun hb hu => hrem _ ?_, fun hb hu hmin hone => hrem _ ?_, fun hb hu => hrem _ ?_⟩
    · show divR (sbU x) a b = _
      rw [hb, divR_zero]
    · rw [hu, divR_unsigned hb]
    · rw [hu, divR_overflow hb hmin hone]
    · rw [hu, divR_signed hb]

/-! Moves, select, compare (R101, R102). -/

theorem toNat_append_eq_add {m n : Nat} (x : BitVec m) (y : BitVec n) :
    (x ++ y).toNat = x.toNat * 2 ^ n + y.toNat := by
  rw [BitVec.toNat_append, ← Nat.shiftLeft_add_eq_or_of_lt y.isLt, Nat.shiftLeft_eq]

/-- The immediate above the low half of the register (LIH). -/
theorem append_low_eq_ofNat (v : BitVec 32) (r : Word) :
    v ++ r.extractLsb' 0 32 = BitVec.ofNat 64 (v.toNat * 2 ^ 32 + r.toNat % 2 ^ 32) := by
  apply BitVec.eq_of_toNat_eq
  have hv := v.isLt
  rw [toNat_append_eq_add, BitVec.extractLsb'_toNat, Nat.shiftRight_zero, BitVec.toNat_ofNat]
  omega

theorem bne_eq_decide_ne (a b : Word) : (a != b) = decide (a ≠ b) := decide_not.symm

theorem not_slt (a b : Word) : (!a.slt b) = decide (b.toInt ≤ a.toInt) := by
  simp [BitVec.slt, ← decide_not]

theorem not_ult (a b : Word) : (!a.ult b) = decide (b.toNat ≤ a.toNat) := by
  simp [BitVec.ult, ← decide_not]

/-- CMP writes all 64 bits with the truth value of its condition. -/
theorem exec_cmp_of_cond {g : Guard} {x : ScalarBody} {s : State} {n : Nat} {c : Bool} (h : s.Admits (.cmp g x))
    (hn : cmpCode x = n) (hc : cmpCond n (s.rs (sbRs1 x)) (s.cmpB x) = c) :
    exec (.cmp g x) s = .next (s.scalarP (sbRd x) (if c then BitVec.allOnes 64 else 0)) := by
  subst hn hc
  exact exec_eq_next h (exec_cmp s g x) rfl

/-- Settles O3. MOV and CMP go over their modes and condition codes. -/
theorem moveSelectCompare : Obligations.MoveSelectCompare := by
  unfold Obligations.MoveSelectCompare
  intro g x s outS outP mode a b all
  refine ⟨fun h => exec_eq_next h (exec_li s g x) rfl, fun h => exec_eq_next h (exec_lih s g x) ?_, fun h => ?_,
    fun h => exec_eq_next h (exec_sel s g x) rfl, fun h => ?_⟩
  · rw [append_low_eq_ofNat]
  · have hmov : exec (.mov g x) s = .next (movEff x s) := exec_eq_next h (exec_mov s g x) rfl
    simp only [hmov, movEff, mode, outS, outP, a]
    refine ⟨?_, ?_, ?_, ?_, ?_⟩ <;> (intro hm; simp only [hm])
  · refine ⟨fun hc => exec_cmp_of_cond h hc rfl, fun hc => exec_cmp_of_cond h hc (bne_eq_decide_ne a b),
      fun hc => exec_cmp_of_cond h hc rfl, fun hc => exec_cmp_of_cond h hc (not_slt a b),
      fun hc => exec_cmp_of_cond h hc rfl, fun hc => exec_cmp_of_cond h hc (not_ult a b),
      fun hc => exec_cmp_of_cond h hc (not_slt b a), fun hc => exec_cmp_of_cond h hc rfl,
      fun hc => exec_cmp_of_cond h hc (not_ult b a), fun hc => exec_cmp_of_cond h hc rfl, ?_⟩
    rintro rd rs1 aux2 imm rfl
    exact BitVec.toInt_signExtend_of_le (by decide)

/-! Predicates (R103). -/

/-- The lanes below n are set (PSET.n and PSET.ns). -/
theorem getLsbD_tailMask (n : Int) {k : Nat} (hk : k < 64) : (tailMask n).getLsbD k = decide ((k : Int) < n) := by
  unfold tailMask
  split
  · simp only [BitVec.ofNat_eq_ofNat, BitVec.getLsbD_zero, Bool.false_eq, decide_eq_false_iff_not]
    omega
  · split
    · simp only [BitVec.getLsbD_allOnes, decide_eq_decide]
      omega
    · simp only [BitVec.getLsbD_ofNat, Nat.testBit_two_pow_sub_one, hk, decide_true, Bool.true_and, decide_eq_decide]
      omega

/-- Both halves of the lanes are the immediate (PSET with AUX2 = 1). -/
theorem getLsbD_append_self (v : BitVec 32) {k : Nat} (hk : k < 64) : (v ++ v).getLsbD k = v.getLsbD (k % 32) := by
  rw [BitVec.getLsbD_append]
  split
  · rw [Nat.mod_eq_of_lt ‹_›]
  · rw [show k % 32 = k - 32 by omega]

/-- The search from bit k up finds the lowest set bit, or 64 where there is none. -/
theorem lowestSet_spec (a : Mask) (n k : Nat) (h : k + n = 64) :
    lowestSet a n k ≤ 64 ∧ (∀ j, k ≤ j → j < lowestSet a n k → a.getLsbD j = false) ∧
      (lowestSet a n k < 64 → a.getLsbD (lowestSet a n k) = true) := by
  induction n generalizing k with
  | zero =>
    refine ⟨Nat.le_refl _, fun j hk hj => ?_, fun h => absurd h (Nat.lt_irrefl _)⟩
    rw [lowestSet] at hj
    omega
  | succ n ih =>
    rw [lowestSet]
    split
    · next hset => exact ⟨by omega, fun j hj hlt => by omega, fun _ => hset⟩
    · next hclear =>
      obtain ⟨hle, hzero, hone⟩ := ih (k + 1) (by omega)
      refine ⟨hle, fun j hj hlt => ?_, hone⟩
      rcases Nat.eq_or_lt_of_le hj with rfl | hnext
      · simpa using hclear
      · exact hzero j hnext hlt

/-- PCNT counts the set bits, or under its AUX bit finds the lowest one. -/
theorem exec_pcnt_of_count {g : Guard} {x : ScalarBody} {s : State} {n : Nat} (h : s.Admits (.pcnt g x))
    (hn : (if (sbAux x).getLsbD 0 then lowestSet (s.rp (sbRs1 x).toNat) 64 0
      else popCount (s.rp (sbRs1 x).toNat) 64) = n) :
    exec (.pcnt g x) s = .next (s.scalarS (sbRd x) (BitVec.ofNat 64 n)) := by
  subst hn
  exact exec_eq_next h (exec_pcnt s g x) rfl

/-- Settles O4, by what a lane of each mask is and what the two counts find. -/
theorem predicateResults : Obligations.PredicateResults := by
  unfold Obligations.PredicateResults
  intro g x s outS outP p q
  refine ⟨fun h => exec_predBin h (exec_pand s g x), fun h => exec_predBin h (exec_por s g x),
    fun h => exec_predBin h (exec_pxor s g x), fun h => exec_predBin h (exec_pandn s g x), fun h => ?_, fun h => ?_⟩
  · refine ⟨psetVal x s, exec_eq_next h (exec_pset s g x) rfl, fun hm k hk => ?_, fun hm k hk => ?_, fun hm k hk => ?_⟩ <;>
      simp only [psetVal, hm]
    · exact getLsbD_tailMask _ hk
    · exact getLsbD_append_self _ hk
    · exact getLsbD_tailMask _ hk
  · cases hm : (sbAux x).getLsbD 0 with
    | false =>
      exact ⟨popCount p 64, popCount_le p 64, exec_pcnt_of_count h (if_neg (by rw [hm]; decide)),
        fun _ => popCount_eq_countP p 64, nofun⟩
    | true =>
      obtain ⟨hle, hzero, hone⟩ := lowestSet_spec p 64 0 rfl
      exact ⟨lowestSet p 64 0, hle, exec_pcnt_of_count h (if_pos hm), nofun,
        fun _ => ⟨fun k => hzero k (Nat.zero_le k), hone⟩⟩

end Sys2Proof.Machine.ScalarResults

/-! PROOF. The fields of a capability, and the results of the capability rows (R104 to R106, R227). -/

namespace Sys2Proof.Machine.CapabilityResults
open Sys2Proof Sys2Proof.Machine.ScalarResults

/-! A capability put together reads back field by field (R227). -/

theorem bitsOf_lt {w : Nat} (x : BitVec w) (hi lo : Nat) : bitsOf x hi lo < 2 ^ (hi + 1 - lo) :=
  Nat.mod_lt _ (Nat.two_pow_pos _)

section
variable (r k o off e b l : Nat) (t : Bool)

theorem toNat_bits_mkCap : (mkCap r k o off e b l t).bits.toNat =
    (((((r % 2 ^ 8 * 2 ^ 4 + k % 2 ^ 4) * 2 ^ 20 + o % 2 ^ 20) * 2 ^ 48 + off % 2 ^ 48) * 2 ^ 6 + e % 2 ^ 6) * 2 ^ 21 +
      b % 2 ^ 21) * 2 ^ 21 + l % 2 ^ 21 := by
  simp only [mkCap, toNat_append_eq_add, BitVec.toNat_ofNat]

@[simp] theorem mkCap_tag : (mkCap r k o off e b l t).tag = t := rfl

@[simp] theorem mkCap_rights : (mkCap r k o off e b l t).rights = BitVec.ofNat 8 r := by
  apply BitVec.eq_of_toNat_eq
  rw [Cap.rights, BitVec.extractLsb'_toNat, Nat.shiftRight_eq_div_pow, toNat_bits_mkCap, BitVec.toNat_ofNat]
  omega

@[simp] theorem mkCap_kind : (mkCap r k o off e b l t).kind = k % 2 ^ 4 := by
  rw [Cap.kind, bitsOf, toNat_bits_mkCap]
  omega

@[simp] theorem mkCap_obj : (mkCap r k o off e b l t).obj = o % 2 ^ 20 := by
  rw [Cap.obj, bitsOf, toNat_bits_mkCap]
  omega

@[simp] theorem mkCap_offset : (mkCap r k o off e b l t).offset = off % 2 ^ 48 := by
  rw [Cap.offset, bitsOf, toNat_bits_mkCap]
  omega

@[simp] theorem mkCap_exp : (mkCap r k o off e b l t).exp = e % 2 ^ 6 := by
  rw [Cap.exp, bitsOf, toNat_bits_mkCap]
  omega

@[simp] theorem mkCap_baseM : (mkCap r k o off e b l t).baseM = b % 2 ^ 21 := by
  rw [Cap.baseM, bitsOf, toNat_bits_mkCap]
  omega

@[simp] theorem mkCap_lenM : (mkCap r k o off e b l t).lenM = l % 2 ^ 21 := by
  rw [Cap.lenM, bitsOf, toNat_bits_mkCap]
  omega

end

section
variable (c : Cap)

theorem kind_mod : c.kind % 2 ^ 4 = c.kind := Nat.mod_eq_of_lt (bitsOf_lt _ 119 116)
theorem obj_mod : c.obj % 2 ^ 20 = c.obj := Nat.mod_eq_of_lt (bitsOf_lt _ 115 96)
theorem offset_mod : c.offset % 2 ^ 48 = c.offset := Nat.mod_eq_of_lt (bitsOf_lt _ 95 48)
theorem exp_mod : c.exp % 2 ^ 6 = c.exp := Nat.mod_eq_of_lt (bitsOf_lt _ 47 42)
theorem baseM_mod : c.baseM % 2 ^ 21 = c.baseM := Nat.mod_eq_of_lt (bitsOf_lt _ 41 21)
theorem lenM_mod : c.lenM % 2 ^ 21 = c.lenM := Nat.mod_eq_of_lt (bitsOf_lt _ 20 0)

end

/-! Derived capabilities (R104, R105). -/

/-- A capability derived with the source's other fields has them: tag, kind, object and window are the source's. -/
theorem mkCap_keeps (c : Cap) (r off : Nat) :
    let d := mkCap r c.kind c.obj off c.exp c.baseM c.lenM c.tag
    d.tag = c.tag ∧ d.kind = c.kind ∧ d.obj = c.obj ∧ d.exp = c.exp ∧ d.baseM = c.baseM ∧ d.lenM = c.lenM := by
  simp only [mkCap_tag, mkCap_kind, mkCap_obj, mkCap_exp, mkCap_baseM, mkCap_lenM, kind_mod, obj_mod, exp_mod,
    baseM_mod, lenM_mod, and_self]

@[simp] theorem withOffset_rights (c : Cap) (off : Nat) : (c.withOffset off).rights = c.rights := by
  simp [Cap.withOffset]

theorem withOffset_offset (c : Cap) (n : Nat) : (c.withOffset (n % 2 ^ 48)).offset = n % 2 ^ 48 := by
  rw [Cap.withOffset, mkCap_offset, Nat.mod_mod]

@[simp] theorem adrop_rights (c : Cap) (m : BitVec 8) : (adrop c m).rights = c.rights &&& ~~~m := by
  simp only [adrop, mkCap_rights, BitVec.ofNat_toNat, BitVec.setWidth_eq]

@[simp] theorem adrop_offset (c : Cap) (m : BitVec 8) : (adrop c m).offset = c.offset := by
  rw [adrop, mkCap_offset, offset_mod]

/-- What ACHK asks of a capability. -/
theorem achk_iff (c : Cap) (len : Word) (m : BitVec 8) :
    achk c len m = true ↔ c.tag = true ∧ c.rights &&& m = m ∧ c.ws ≤ c.offset ∧ c.offset + len.toNat ≤ c.we := by
  simp only [achk, Bool.and_eq_true, beq_iff_eq, decide_eq_true_eq, and_assoc]

/-- AGET answers the field that its mode names, as a 64-bit number. -/
theorem exec_aget_of_field {g : Guard} {x : ScalarBody} {s : State} {v : Nat} (h : s.Admits (.aget g x))
    (hv : agetField (s.ra (sbRs1 x).toNat) (bitsOf (sbAux x) 2 0) = BitVec.ofNat 64 v) :
    exec (.aget g x) s = .next (s.scalarS (sbRd x) (BitVec.ofNat 64 v)) :=
  exec_eq_next h (exec_aget s g x) (by rw [hv])

/-- Settles O5. A derived capability is put together from the source's fields, which read back (`mkCap_keeps`). -/
theorem capabilityResults : Obligations.CapabilityResults := by
  unfold Obligations.CapabilityResults
  intro g x s outS outA c n same
  refine ⟨fun h => ?_, fun h => ?_, fun h => ?_, fun h => ?_, fun h => ?_, fun h => ?_⟩
  · exact ⟨c.withOffset ((c.offset + n) % 2 ^ 48), exec_eq_next h (exec_aadd s g x) rfl, mkCap_keeps c _ _,
      withOffset_rights c _, withOffset_offset c _⟩
  · exact ⟨c.withOffset (n % 2 ^ 48), exec_eq_next h (exec_aset s g x) rfl, mkCap_keeps c _ _,
      withOffset_rights c _, withOffset_offset c _⟩
  · exact ⟨adrop c _, exec_eq_next h (exec_adrop s g x) rfl, mkCap_keeps c _ _, adrop_offset c _, adrop_rights c _⟩
  · exact exec_eq_next h (exec_amov s g x) rfl
  · refine ⟨_, exec_aget_of_field h rfl, ?_⟩
    refine ⟨?_, ?_, ?_, ?_, ?_, ?_, ?_⟩ <;> (intro hm; simp only [hm]) <;> rfl
  · rw [exec_eq_next h (exec_achk s g x) rfl]
    simp only [allBits, achk_iff, c]

/-! ANARROW (R106). -/

theorem narrowFits_iff {lo hi e : Nat} : narrowFits lo hi e = true ↔
    (narrowAt lo hi e).1 < 2 ^ 21 ∧ (narrowAt lo hi e).2 - (narrowAt lo hi e).1 < 2 ^ 21 := by
  simp only [narrowFits, Bool.and_eq_true, Bool.or_eq_true, decide_eq_true_eq]
  omega

/-- The lower mantissa is rounded up. -/
theorem le_narrowAt_mul (lo hi e : Nat) : lo ≤ (narrowAt lo hi e).1 * 2 ^ e := by
  have hpos : 0 < 2 ^ e := Nat.two_pow_pos e
  have hdiv := Nat.div_add_mod' (lo + 2 ^ e - 1) (2 ^ e)
  have hmod := Nat.mod_lt (lo + 2 ^ e - 1) hpos
  simp only [narrowAt]
  omega

/-- The upper mantissa is rounded down. -/
theorem narrowAt_mul_le (lo hi e : Nat) : (narrowAt lo hi e).2 * 2 ^ e ≤ hi := Nat.div_mul_le_self hi (2 ^ e)

/-- The exponent at which the search of R106 ends. -/
def narrowExp (k lo hi : Nat) : Nat :=
  (((List.range 49).filter fun e => decide (k ≤ e)).find? (narrowFits lo hi)).getD 48

/-- Where the last exponent fits, the search ends at one that fits. -/
theorem narrowExp_spec (k : Nat) {lo hi : Nat} (hlast : narrowFits lo hi 48 = true) :
    narrowExp k lo hi ≤ 48 ∧ narrowFits lo hi (narrowExp k lo hi) = true := by
  unfold narrowExp
  cases hf : ((List.range 49).filter fun e => decide (k ≤ e)).find? (narrowFits lo hi) with
  | none => exact ⟨Nat.le_refl _, hlast⟩
  | some e =>
    have hmem := List.mem_range.mp (List.mem_filter.mp (List.mem_of_find?_eq_some hf)).1
    exact ⟨Nat.le_of_lt_succ hmem, List.find?_some hf⟩

/-- The last exponent fits: at it, offset, request and window start are below 2^21 units. -/
theorem narrowFits_last {c : Cap} {n : Nat} (he : c.exp ≤ 48) (hn : n < 2 ^ 64) :
    narrowFits (max c.offset c.ws) (min (c.offset + n) c.we) 48 = true := by
  have hoff : c.offset < 2 ^ 48 := bitsOf_lt _ 95 48
  have hbase : c.baseM < 2 ^ 21 := bitsOf_lt _ 41 21
  have hws : c.ws ≤ (2 ^ 21 - 1) * 2 ^ 48 :=
    Nat.mul_le_mul (Nat.le_sub_one_of_lt hbase) (Nat.pow_le_pow_right (by decide) he)
  rw [narrowFits_iff]
  simp only [narrowAt]
  omega

/-- The capability with the mantissas of the window [lo, hi) at exponent e. -/
def narrowed (c : Cap) (lo hi e : Nat) : Cap :=
  mkCap c.rights.toNat c.kind c.obj c.offset e (narrowAt lo hi e).1 ((narrowAt lo hi e).2 - (narrowAt lo hi e).1) c.tag

/-- A source exponent above 48 leaves exponent and base, with length 0. -/
theorem anarrow_of_gt {c : Cap} (n : Nat) (he : 48 < c.exp) :
    anarrow c n = mkCap c.rights.toNat c.kind c.obj c.offset c.exp c.baseM 0 c.tag := if_pos he

/-- Else the mantissas are those at the exponent found. -/
theorem anarrow_of_le {c : Cap} (n : Nat) (he : c.exp ≤ 48) :
    anarrow c n = narrowed c (max c.offset c.ws) (min (c.offset + n) c.we)
      (narrowExp c.exp (max c.offset c.ws) (min (c.offset + n) c.we)) := if_neg (Nat.not_lt.mpr he)

/-- A capability put together with the source's fields but for its window has them. -/
theorem mkCap_keeps_address (c : Cap) (e b l : Nat) :
    let d := mkCap c.rights.toNat c.kind c.obj c.offset e b l c.tag
    d.tag = c.tag ∧ d.rights = c.rights ∧ d.kind = c.kind ∧ d.obj = c.obj ∧ d.offset = c.offset := by
  simp only [mkCap_tag, mkCap_rights, mkCap_kind, mkCap_obj, mkCap_offset, BitVec.ofNat_toNat, BitVec.setWidth_eq,
    kind_mod, obj_mod, offset_mod, and_self]

theorem anarrow_keeps (c : Cap) (n : Nat) :
    (anarrow c n).tag = c.tag ∧ (anarrow c n).rights = c.rights ∧ (anarrow c n).kind = c.kind ∧
      (anarrow c n).obj = c.obj ∧ (anarrow c n).offset = c.offset := by
  rcases Nat.lt_or_ge 48 c.exp with he | he
  · rw [anarrow_of_gt n he]
    exact mkCap_keeps_address c _ _ _
  · rw [anarrow_of_le n he]
    exact mkCap_keeps_address c _ _ _

/-- Where the mantissas fit their fields and the length is not 0, the window lies within [lo, hi). -/
theorem narrowed_window {c : Cap} {lo hi e : Nat} (he : e ≤ 48) (hfits : narrowFits lo hi e = true)
    (hlen : (narrowed c lo hi e).lenM ≠ 0) : lo ≤ (narrowed c lo hi e).ws ∧ (narrowed c lo hi e).we ≤ hi := by
  obtain ⟨hbase, hdiff⟩ := narrowFits_iff.mp hfits
  have hexp : (narrowed c lo hi e).exp = e := (mkCap_exp ..).trans (Nat.mod_eq_of_lt (by omega))
  have hbaseM : (narrowed c lo hi e).baseM = (narrowAt lo hi e).1 := (mkCap_baseM ..).trans (Nat.mod_eq_of_lt hbase)
  have hlenM : (narrowed c lo hi e).lenM = (narrowAt lo hi e).2 - (narrowAt lo hi e).1 :=
    (mkCap_lenM ..).trans (Nat.mod_eq_of_lt hdiff)
  have htop : (narrowAt lo hi e).1 + ((narrowAt lo hi e).2 - (narrowAt lo hi e).1) = (narrowAt lo hi e).2 := by omega
  rw [Cap.ws, Cap.we, hexp, hbaseM, hlenM, htop]
  exact ⟨le_narrowAt_mul lo hi e, narrowAt_mul_le lo hi e⟩

/-- A window of length not 0 lies within the request and the source's window. -/
theorem anarrow_window {c : Cap} {n : Nat} (he : c.exp ≤ 48) (hn : n < 2 ^ 64) (hlen : (anarrow c n).lenM ≠ 0) :
    max c.offset c.ws ≤ (anarrow c n).ws ∧ (anarrow c n).we ≤ min (c.offset + n) c.we := by
  obtain ⟨he48, hfits⟩ := narrowExp_spec c.exp (narrowFits_last he hn)
  rw [anarrow_of_le n he] at hlen ⊢
  exact narrowed_window he48 hfits hlen

/-- Settles O6. The search ends at an exponent whose mantissas fit, since those at 48 always do (`narrowFits_last`). -/
theorem narrowedWindow : Obligations.NarrowedWindow := by
  unfold Obligations.NarrowedWindow
  intro g x s c n h
  have hn : n < 2 ^ 64 := by
    cases x with
    | sr rd rs1 rs2 aux => exact BitVec.isLt _
    | si rd rs1 aux2 imm => exact Nat.lt_of_lt_of_le imm.isLt (by decide)
  obtain ⟨htag, hrights, hkind, hobj, hoff⟩ := anarrow_keeps c n
  refine ⟨anarrow c n, exec_eq_next h (exec_anarrow s g x) rfl, htag, hrights, hkind, hobj, hoff, fun he => ?_,
    fun he hlen => anarrow_window he hn hlen⟩
  simp only [anarrow_of_gt n he, mkCap_lenM, mkCap_exp, mkCap_baseM, exp_mod, baseM_mod, Nat.zero_mod, and_self]

end Sys2Proof.Machine.CapabilityResults

/-! PROOF. What the write of a register and of the issuing context change (R96, R24). -/

namespace Sys2Proof.Machine.ScalarOutputs
open Sys2Proof

/-! The four register files: a read after a write, and the files that a write leaves alone. -/

section
variable (r : Regs) (n m : Nat) (v : Word) (c : Cap) (o : Off)

@[simp] theorem setS_zero : r.setS 0 v = r := rfl
@[simp] theorem getS_zero : r.getS 0 = 0 := rfl
@[simp] theorem setP_zero : r.setP 0 v = r := rfl
@[simp] theorem getP_zero : r.getP 0 = BitVec.allOnes 64 := rfl

theorem getS_setS_same {n : Nat} (h : n ≠ 0) : (r.setS n v).getS n = v := by
  simp [Regs.getS, Regs.setS, h]

theorem getP_setP_same {n : Nat} (h : n ≠ 0) : (r.setP n v).getP n = v := by
  simp [Regs.getP, Regs.setP, h]

@[simp] theorem getA_setA_same : (r.setA n c).getA n = c := FMap.get_set_same ..
@[simp] theorem getB_setB_same : (r.setB n o).getB n = o := FMap.get_set_same ..

theorem getS_setS_other {n m : Nat} (h : m ≠ n) : (r.setS n v).getS m = r.getS m := by
  simp only [Regs.getS, Regs.setS]
  split
  · rfl
  · split
    · rfl
    · exact FMap.get_set_other _ _ _ _ h

theorem getP_setP_other {n m : Nat} (h : m ≠ n) : (r.setP n v).getP m = r.getP m := by
  simp only [Regs.getP, Regs.setP]
  split
  · rfl
  · split
    · rfl
    · exact FMap.get_set_other _ _ _ _ h

theorem getA_setA_other {n m : Nat} (h : m ≠ n) : (r.setA n c).getA m = r.getA m := FMap.get_set_other _ _ _ _ h
theorem getB_setB_other {n m : Nat} (h : m ≠ n) : (r.setB n o).getB m = r.getB m := FMap.get_set_other _ _ _ _ h

/-- A write of an s-register leaves the other files. -/
theorem setS_frame : (r.setS n v).p = r.p ∧ (r.setS n v).a = r.a ∧ (r.setS n v).b = r.b := by
  unfold Regs.setS
  split <;> exact ⟨rfl, rfl, rfl⟩

/-- A write of a predicate leaves the other files. -/
theorem setP_frame : (r.setP n v).s = r.s ∧ (r.setP n v).a = r.a ∧ (r.setP n v).b = r.b := by
  unfold Regs.setP
  split <;> exact ⟨rfl, rfl, rfl⟩

end

/-- Settles O7. A scalar result is one change of the issuing context, by the definition of `State.scalarOut`. -/
theorem scalarOutputs : Obligations.ScalarOutputs := by
  unfold Obligations.ScalarOutputs
  refine ⟨fun r v => ⟨setS_zero r v, getS_zero r, setP_zero r v, getP_zero r⟩, fun r n m v c o => ?_,
    fun s rd v c o => ⟨rfl, rfl, rfl, rfl⟩, fun s x => ?_⟩
  · exact ⟨fun h => ⟨getS_setS_same r v h, getP_setP_same r v h⟩, getA_setA_same r n c, getB_setB_same r n o,
      fun h => ⟨getS_setS_other r v h, getP_setP_other r v h, getA_setA_other r c h, getB_setB_other r o h⟩,
      setS_frame r n v, setP_frame r n v, ⟨rfl, rfl, rfl⟩, ⟨rfl, rfl, rfl⟩⟩
  · exact ⟨State.setMe_me s x, fun t c h => State.setCtx_ctx_other s x h, fun a => rfl, fun t => rfl, rfl⟩

end Sys2Proof.Machine.ScalarOutputs

/-! PROOF. User traps, privilege, and the operations that send fetch elsewhere (R111, R112, R116, R118 to R122, R212). -/

namespace Sys2Proof.Machine.TrapsAndReturns
open Sys2Proof Sys2Proof.Machine.ScalarResults

/-! Privilege (R111, R112, R116, R122). -/

section
variable {i : Instr} {g : Guard} {check : State → Except Stop Unit} {eff : State → State} {s : State}

/-- An operation whose run-time check is that of SUP: without SUP it takes CAP_RIGHTS in the state before it, with SUP it
completes with its effect, of which `P` follows where it leaves SUP set. -/
theorem exec_of_supCheck {P : Prop} (hx : exec i s = atIssue i g check (fun s => .ok (eff s)) s)
    (hcheck : check s = require s.me.sys.sup (slotTrap trapCAP_RIGHTS 0 0 0)) (hlegal : s.Legal i)
    (hd : s.discarded i = false) (hP : (eff s).me.sys.sup = true → P)
    (hg : (slotFields i).map SlotFields.g = some g := by rfl) (hl : laneWise i = false := by rfl) :
    (s.me.sys.sup = false → exec i s = .next (s.takeTrap { code := 0x0104, sub := 0 })) ∧
      (s.me.sys.sup = true → ∃ t, exec i s = .next t ∧ (t.me.sys.sup = true → P)) := by
  have henc : s.encStop i = .ok () := hlegal
  have hcond := State.cond_of_not_discarded hg hl hd
  rw [hx, atIssue, henc, hcond, hcheck]
  refine ⟨fun hsup => ?_, fun hsup => ⟨eff s, ?_, hP⟩⟩ <;> rw [hsup] <;> rfl

end

/-- SR.SEPC is read under SUP only (R111). -/
theorem checkSrr_of_sepc {x : ScalarBody} {s : State} (h : (sbRs1 x).toNat = 16) :
    checkSrr x s = require s.me.sys.sup (slotTrap trapCAP_RIGHTS 0 0 0) := by
  rw [checkSrr, h]
  rfl

/-- SR.ASID, SR.PRIV, SR.WIN and SR.SEPC are written under SUP only (R111). -/
theorem checkSrw_of_privileged {x : ScalarBody} {s : State} (h : (sbRd x).toNat ∈ [5, 6, 7, 16]) :
    checkSrw x s = require s.me.sys.sup (slotTrap trapCAP_RIGHTS 0 0 0) := by
  have hsup : srWritable s.me.sys.sup (sbRd x).toNat = s.me.sys.sup := by
    simp only [List.mem_cons, List.not_mem_nil, or_false] at h
    rcases h with h | h | h | h <;> simp [srWritable, h]
  rw [checkSrw, hsup]

/-- Settles O10. Each of the operations makes one run-time check, that of SUP; ERET leaves SUP clear. -/
theorem privilegeTraps : Obligations.PrivilegeTraps := by
  unfold Obligations.PrivilegeTraps
  intro g x s i hi hlegal hd
  rcases hi with ⟨rfl, hn⟩ | ⟨rfl, hn⟩ | ⟨rfl, hn⟩ | ⟨rfl, hn⟩ | ⟨rfl, hn⟩ | rfl
  · exact exec_of_supCheck (exec_srr s g x) (checkSrr_of_sepc hn) hlegal hd fun _ => nofun
  · exact exec_of_supCheck (exec_srw s g x) (checkSrw_of_privileged (by simp [hn])) hlegal hd fun _ => nofun
  · exact exec_of_supCheck (exec_srw s g x) (checkSrw_of_privileged (by simp [hn])) hlegal hd fun _ => nofun
  · exact exec_of_supCheck (exec_srPrivWrite s g x) (checkSrw_of_privileged (by simp [hn])) hlegal hd fun _ => nofun
  · exact exec_of_supCheck (exec_srWinWrite s g x) (checkSrw_of_privileged (by simp [hn])) hlegal hd fun _ => nofun
  · refine exec_of_supCheck (exec_eret s g x) rfl hlegal hd fun hsup => ?_
    rw [State.modMe_me] at hsup
    cases hsup

/-! User traps (R119). -/

theorem vectored_iff (x : Ctx) : x.vectored = true ↔ x.sys.utvecEn = true ∧ x.sys.inh = false := by
  simp [Ctx.vectored]

/-- The region's entries are released where it commits. -/
theorem commitRegion_held (x : Ctx) : ∀ e ∈ x.commitRegion.commitQ, e.held = false := by
  intro e he
  obtain ⟨_, _, rfl⟩ := List.mem_map.mp he
  rfl

/-- Settles O17. The vectored trap is `Ctx.userTrap` of the issuing context; the bundle's end is `Ctx.nextFetch`. -/
theorem userTraps : Obligations.UserTraps := by
  unfold Obligations.UserTraps
  intro s cause info tr
  refine ⟨fun h => ?_, fun hen hinh => ?_, fun x next a h => ?_, fun x next h => ?_⟩
  · refine if_neg fun hv => ?_
    obtain ⟨hen, hinh⟩ := (vectored_iff s.me).mp hv
    simp [hen, hinh] at h
  · exact ⟨s.me.userTrap cause info tr.slot, if_pos ((vectored_iff s.me).mpr ⟨hen, hinh⟩), rfl, commitRegion_held s.me,
      rfl, rfl, rfl, rfl, rfl, rfl, rfl, rfl⟩
  · simp only [Ctx.nextFetch, h, and_self]
  · simp only [Ctx.nextFetch, h, and_self]

/-! Branches, traps and returns (R118, R119, R121, R122, R212). -/

/-- The target of the SI form lies IMM32 bundles from the bundle. -/
theorem pbrTarget_si (s : State) (rd rs1 : BitVec 6) (aux2 : BitVec 2) (imm : BitVec 32) :
    s.pbrTarget (.si rd rs1 aux2 imm) = s.me.pc + imm.signExtend 48 * 64 := by
  rw [State.pbrTarget, BitVec.shiftLeft_eq_mul_twoPow]
  rfl

/-- The register target of an admitted PBR is aligned. -/
theorem pbrTarget_sr {s : State} {rd rs1 rs2 : BitVec 6} {aux : BitVec 28}
    (hc : checkPbr (.sr rd rs1 rs2 aux) s = .ok ()) :
    (s.pbrTarget (.sr rd rs1 rs2 aux)).toNat = (s.rs rs1).toNat % 2 ^ 48 ∧
      (s.pbrTarget (.sr rd rs1 rs2 aux)).toNat % 64 = 0 := by
  have hal := require_ok hc
  simp only [sbIsSi, Bool.false_or, beq_iff_eq] at hal
  exact ⟨by simp [State.pbrTarget], hal⟩

/-- The cause of TRAP n is n (R119). -/
theorem trapCause_eq_ofNat (imm : BitVec 32) :
    (0#1 ++ imm.extractLsb' 0 7 : BitVec 8) = BitVec.ofNat 8 (imm.toNat % 128) := by
  apply BitVec.eq_of_toNat_eq
  rw [toNat_append_eq_add (m := 1) (n := 7), BitVec.extractLsb'_toNat, Nat.shiftRight_zero, BitVec.toNat_ofNat]
  simp only [BitVec.toNat_ofNat]
  omega

/-- The region's commit leaves the system registers. -/
theorem commitEarlier_sys (c : Ctx) : c.commitEarlier.sys = c.sys := by
  unfold Ctx.commitEarlier
  split
  · split <;> rfl
  · rfl

/-- Settles O11. Alignment, vectoring, INH and SUP are what the checks of an admitted operation have found. -/
theorem branchTrapReturn : Obligations.BranchTrapReturn := by
  unfold Obligations.BranchTrapReturn
  intro g x y s
  refine ⟨fun h => ?_, fun h => ?_, fun h => ?_, fun h => ?_, fun h => exec_eq_next h (exec_br s g y) rfl,
    fun h => exec_eq_next h (exec_brl s g y) rfl⟩
  · refine ⟨s.pbrTarget x, exec_eq_next h (exec_pbr s g x) rfl, ?_, ?_⟩
    · rintro rd rs1 aux2 imm rfl
      exact pbrTarget_si ..
    · rintro rd rs1 rs2 aux rfl
      exact pbrTarget_sr (runCheck_of_admits h)
  · obtain ⟨hen, hinh⟩ := (vectored_iff s.me).mp (require_ok (runCheck_of_admits h))
    refine ⟨hen, hinh, exec_eq_next h (exec_trap s g x) ?_⟩
    rw [trapCause_eq_ofNat]
    rfl
  · exact ⟨require_ok (runCheck_of_admits h), exec_eq_next h (exec_utret s g x) rfl⟩
  · refine ⟨require_ok (runCheck_of_admits h), exec_eq_next h (exec_eret s g x) ?_⟩
    simp only [commitEarlier_sys]

end Sys2Proof.Machine.TrapsAndReturns

/-! PROOF. What an admitted operation of the vector slots answers, and the element-wise rows (R72, R128, R131). -/

namespace Sys2Proof.Machine.VectorResults
open Sys2Proof

/-! From the effect to the instruction. -/

/-- An admitted operation that is governed lane by lane answers its effect. -/
theorem exec_eq_next_lanes {i : Instr} {eff : State → Except Stop State} {s t : State} (h : s.Admits i)
    (hx : exec i s = atIssueLanes i noCheck eff s) (he : eff s = .ok t) (hc : runCheck i s = .ok () := by rfl) :
    exec i s = .next t :=
  hx.trans (atIssueLanes_next h he hc)

section
variable {i : Instr} {g : Guard} {x : VectorBody} {s : State}

/-- An admitted operation that maps a function over the elements of its destination has that function's result. -/
theorem exec_mapElems {eff : State → Except Stop State} {w n : Nat} {f : Nat → Nat × Flags} (h : s.Admits i)
    (hx : exec i s = atIssueLanes i noCheck eff s)
    (he : eff s = .ok (s.vdone g x.vd (mapElems (s.lanes g) w n (s.vold g x.vd 0) f).1
      (mapElems (s.lanes g) w n (s.vold g x.vd 0) f).2 0)) (hc : runCheck i s = .ok () := by rfl) :
    ∃ N fl, exec i s = .next (s.vdone g x.vd N fl 0) ∧ s.VecResult g x.vd w n f N fl :=
  ⟨_, _, exec_eq_next_lanes h hx he hc, vecResult_mapElems ..⟩

/-- An admitted operation of the element-wise form has the result of its function of each element of its sources. -/
theorem exec_vecElem {f : Nat → Nat → Nat → Nat → Nat × Flags} (h : s.Admits i) (hx : exec i s = vecElem i g x f s)
    (hc : runCheck i s = .ok () := by rfl) :
    ∃ N fl, exec i s = .next (s.vdone g x.vd N fl 0) ∧
      s.VecResult g x.vd (vtype x).bits (vtype x).count
        (fun e => f e (elemAt (vtype x).bits (s.vsrc g x.va (vtype x)) e)
          (elemAt (vtype x).bits (s.vsrc g x.vb (vtype x)) e) (elemAt (vtype x).bits (s.vsrc g x.vc (vtype x)) e)) N fl :=
  hx ▸ vecElem_admitted h hc

/-- A result whose elements are cut to their width is the result of the function that does not cut them. -/
theorem vecResult_of_mod {r : BitVec 8} {w n N : Nat} {v : Nat → Nat} {c : Nat → Flags} {fl : Flags}
    (h : s.VecResult g r w n (fun e => (v e % 2 ^ w, c e)) N fl) : s.VecResult g r w n (fun e => (v e, c e)) N fl := by
  simpa only [State.VecResult, Nat.mod_mod] using h

end

/-- Settles O18. Each operation runs in the element-wise form with the function of its row; the model cuts the left
shift to the width before the write does. -/
theorem vectorElementwise : Obligations.VectorElementwise := by
  unfold Obligations.VectorElementwise
  intro g x s t w n A B C a b c res
  refine ⟨fun h => exec_vecElem h (exec_vadd s g x), fun h => exec_vecElem h (exec_vsub s g x),
    fun h => exec_vecElem h (exec_vmul s g x), fun h => exec_vecElem h (exec_vfma s g x),
    fun h => exec_vecElem h (exec_vmin s g x), fun h => exec_vecElem h (exec_vmax s g x),
    fun h => exec_vecElem h (exec_vabs s g x), fun h => exec_vecElem h (exec_vneg s g x),
    fun h => exec_vecElem h (exec_vand s g x), fun h => exec_vecElem h (exec_vor s g x),
    fun h => exec_vecElem h (exec_vxor s g x), fun h => ?_, fun h => exec_vecElem h (exec_vshr s g x)⟩
  obtain ⟨N, fl, hx, hres⟩ := exec_vecElem h (exec_vshl s g x)
  exact ⟨N, fl, hx, vecResult_of_mod hres⟩

/-! Compare and select (R134, R135). -/

/-- An element of what a function packs. -/
theorem elemAt_packElems_range (w : Nat) {n e : Nat} (f : Nat → Nat) (he : e < n) :
    elemAt w (packElems w ((List.range n).map f)) e = f e % 2 ^ w := by
  rw [elemAt_packElems, List.getD_eq_getElem?_getD, List.getElem?_map, List.getElem?_range he, Option.map_some,
    Option.getD_some]

/-- Packed truth values are the bits of their number. -/
theorem getLsbD_packElems_one (f : Nat → Bool) {n i : Nat} (hi : i < n) :
    (BitVec.ofNat n (packElems 1 ((List.range n).map fun e => (f e).toNat))).getLsbD i = f i := by
  have hbit := elemAt_packElems_range 1 (fun e => (f e).toNat) hi
  rw [elemAt, Nat.one_mul, Nat.pow_one] at hbit
  rw [BitVec.getLsbD_ofNat, Nat.testBit_eq_decide_div_mod_eq, hbit]
  cases f i <;> simp [hi]

/-- Whether lane i of VCMP meets its condition: all of its elements do, or under ANY one. -/
def laneMeets (t : ElemFmt) (code : Nat) (any : Bool) (A B i : Nat) : Prop :=
  let cond := fun k =>
    (vcmpCond t code (elemAt t.bits A (i * (32 / t.bits) + k)) (elemAt t.bits B (i * (32 / t.bits) + k))).1 = true
  if any = true then ∃ k < 32 / t.bits, cond k else ∀ k < 32 / t.bits, cond k

/-- Bit i of VCMP's mask: the lane is active and meets the condition. -/
theorem vcmpMask_getLsbD (m : Mask) (t : ElemFmt) (code : Nat) (any : Bool) (A B : Nat) {i : Nat} (hi : i < 64) :
    (vcmpMask m t code any A B).1.getLsbD i = true ↔ m.getLsbD i = true ∧ laneMeets t code any A B i := by
  simp only [vcmpMask, List.map_map, Function.comp_def, getLsbD_packElems_one _ hi]
  cases hm : m.getLsbD i with
  | false => simp
  | true => cases any <;> simp [laneMeets]

/-! Integers as exact values compare as integers (R134). -/

theorem dy_toFp (d : Dy) : d.toFp.dy = d := by
  obtain ⟨m, e⟩ := d
  simp only [Dy.toFp, Fp.dy, Dy.mk.injEq, and_true, decide_eq_true_eq]
  omega

/-- An integer as an exact value: what an element of an integer type decodes to. -/
def intFp (v : Int) : Fp := Dy.toFp { m := v, e := 0 }

/-- The difference of two exact values that are integers. -/
theorem sub_intFp (u v : Int) : ((intFp u).dy.sub (intFp v).dy).m = u - v := by
  simp [intFp, dy_toFp, Dy.sub, Dy.add, Dy.neg, Dy.atExp, Int.sub_eq_add_neg]

theorem less_intFp (u v : Int) : (intFp u).less (intFp v) = decide (u < v) := by
  have hlt : (intFp u).dy.lt (intFp v).dy = decide (u < v) := by
    rw [Dy.lt, sub_intFp, decide_eq_decide]
    omega
  by_cases hz : u.natAbs = 0 ∧ v.natAbs = 0
  · obtain ⟨hu, hv⟩ := hz
    rw [Int.natAbs_eq_zero.mp hu, Int.natAbs_eq_zero.mp hv]
    rfl
  · exact (if_neg hz).trans hlt

theorem eqv_intFp (u v : Int) : (intFp u).eqv (intFp v) = decide (u = v) := by
  have hsub : (intFp u).eqv (intFp v) = (u - v == 0) := congrArg (· == 0) (sub_intFp u v)
  rw [hsub, Bool.eq_iff_iff, beq_iff_eq, decide_eq_true_eq, Int.sub_eq_zero]

theorem ltv_intFp (u v : Int) : (intFp u).ltv (intFp v) = decide (u < v) := by
  rw [Fp.ltv, less_intFp, eqv_intFp, Bool.eq_iff_iff]
  simp only [Bool.and_eq_true, Bool.not_eq_true', decide_eq_true_eq, decide_eq_false_iff_not]
  omega

theorem not_eqv_intFp (u v : Int) : (!(intFp u).eqv (intFp v)) = decide (u ≠ v) := by
  rw [eqv_intFp, decide_not]

theorem ltv_or_eqv_intFp (u v : Int) : ((intFp u).ltv (intFp v) || (intFp u).eqv (intFp v)) = decide (u ≤ v) := by
  rw [ltv_intFp, eqv_intFp, ← Bool.decide_or, decide_eq_decide, Int.le_iff_lt_or_eq]

theorem eqv_intFp_comm (u v : Int) : (intFp u).eqv (intFp v) = (intFp v).eqv (intFp u) := by
  rw [eqv_intFp, eqv_intFp, decide_eq_decide, eq_comm]

/-- Settles O20. The mask's bits are those of its lanes; an integer element is never NaN, so that the conditions on
integers are those on their exact values and set no flag. -/
theorem vectorCompareSelect : Obligations.VectorCompareSelect := by
  unfold Obligations.VectorCompareSelect
  intro g x s t w n A B a b res
  refine ⟨fun h => ?_, fun h => ?_, fun sg k p q => ?_⟩
  · exact ⟨_, _, exec_eq_next_lanes h (exec_vcmp s g x) rfl, fun i hi => vcmpMask_getLsbD _ _ _ _ _ _ hi⟩
  · exact exec_mapElems h (exec_vsel s g x) rfl
  · intro u v r
    refine ⟨congrArg (·, 0) (eqv_intFp u v), congrArg (·, 0) (not_eqv_intFp u v), congrArg (·, 0) (ltv_intFp u v),
      congrArg (·, 0) (ltv_or_eqv_intFp u v), congrArg (·, 0) (ltv_intFp v u), congrArg (·, 0) ?_, rfl, rfl⟩
    exact (congrArg _ (eqv_intFp_comm u v)).trans (ltv_or_eqv_intFp v u)

end Sys2Proof.Machine.VectorResults

/-! PROOF. The defined functions and the reductions (R140 to R144). -/

namespace Sys2Proof.Machine.VectorReductions
open Sys2Proof Sys2Proof.Machine.VectorResults

/-- An admitted operation that replaces the low elements of its destination has a reduction's result (R141). -/
theorem exec_replaceLow {i : Instr} {g : Guard} {x : VectorBody} {s : State} {eff : State → Except Stop State}
    {vs : List Nat} {fl : Flags} (h : s.Admits i) (hx : exec i s = atIssueLanes i noCheck eff s)
    (he : eff s = .ok (s.vdone g x.vd (replaceLow (s.vold g x.vd 0) vs) fl 0))
    (hc : runCheck i s = .ok () := by rfl) :
    ∃ N, exec i s = .next (s.vdone g x.vd N fl 0) ∧ s.RedResult g x.vd vs N :=
  ⟨_, exec_eq_next_lanes h hx he hc, replaceLow_elem (s.vold g x.vd 0) vs⟩

/-- A total accumulated from an addend is the addend and the sum. -/
theorem foldl_add_eq_sum_add (l : List Int) (a : Int) : l.foldl (· + ·) a = l.sum + a := by
  induction l generalizing a with
  | nil => exact (Int.zero_add a).symm
  | cons y ys ih => rw [List.foldl_cons, ih, List.sum_cons]; omega

section
variable {x : VectorBody} {sg : Bool} {m : Mask} {k A B addend : Nat}

/-- VSUMR on an integer type is the exact sum, reduced once (R142). -/
theorem sumElems_int (hr : redType x = .int sg k) :
    sumElems x m A addend = reduceInt sg (vsat x) 32 (((activeIdx m (vtype x)).map fun e =>
      intOfBits sg (vtype x).bits (elemAt (vtype x).bits A e)).sum + intOfBits sg 32 addend) := by
  simp only [sumElems, hr, foldl_add_eq_sum_add]

/-- VDOT on an integer type is the exact sum of the products, reduced once (R144). -/
theorem dotElems_int (hr : redType x = .int sg k) :
    dotElems x m A B addend = reduceInt sg (vsat x) 32 (((activeIdx m (vtype x)).map fun e =>
      intOfBits sg (vtype x).bits (elemAt (vtype x).bits A e) *
        intOfBits sg (vtype x).bits (elemAt (vtype x).bits B e)).sum + intOfBits sg 32 addend) := by
  simp only [dotElems, hr, foldl_add_eq_sum_add]

/-- No active element, no number of one. -/
theorem activeIdx_eq_nil {t : ElemFmt} (h : ∀ e < t.count, activeElem m t.bits e = false) :
    activeIdx m t = [] :=
  List.filter_eq_nil_iff.mpr fun e he => by simp [h e (List.mem_range.mp he)]

/-- VMAXR without an active element (R143). -/
theorem maxElems_of_inactive (h : ∀ e < (vtype x).count, activeElem m (vtype x).bits e = false) :
    maxElems x m A = (leastOf (redType x), 0xFFFFFFFF, 0) := by
  rw [maxElems, activeIdx_eq_nil h]
  rfl

end

/-- Settles O22. The functions run in the element-wise form; a reduction writes its low elements over what stood there. -/
theorem vectorFunctionsReductions : Obligations.VectorFunctionsReductions := by
  unfold Obligations.VectorFunctionsReductions
  intro g x s t w n A B a b res
  refine ⟨fun h => exec_vecElem h (exec_vexp2 s g x), fun h => exec_vecElem h (exec_vlog2 s g x),
    fun h => exec_vecElem h (exec_vrcp s g x), fun h => exec_vecElem h (exec_vrsq s g x), ?_, ?_, ?_⟩
  · exact fun h => ⟨exec_replaceLow h (exec_vsumr s g x) rfl, fun _ _ hr => sumElems_int hr⟩
  · exact fun h => ⟨exec_replaceLow h (exec_vmaxr s g x) rfl, maxElems_of_inactive⟩
  · exact fun h => ⟨exec_replaceLow h (exec_vdot s g x) rfl, fun _ _ hr => dotElems_int hr⟩

end Sys2Proof.Machine.VectorReductions

/-! PROOF. Conversion and quantisation (R136 to R139). -/

namespace Sys2Proof.Machine.VectorConversions
open Sys2Proof Sys2Proof.Machine.VectorResults

/-! What the width-changing form writes. -/

section
variable {m : Mask} {ws wd part old d : Nat} {f : Nat → Coded}

/-- A destination element that takes part has the code of its offset where its lane is active; any other stays (R136). -/
theorem convElems_elem (hd : d < 2048 / wd) :
    elemAt wd (convElems m ws wd part old f).1 d = match partOffset ws wd part d with
      | some j => if activeElem m wd d then (f j).1 % 2 ^ wd else elemAt wd old d
      | none => elemAt wd old d := by
  have hold : elemAt wd old d % 2 ^ wd = elemAt wd old d := Nat.mod_eq_of_lt (elemAt_lt wd old d)
  simp only [convElems, List.map_map, elemAt_packElems_range wd _ hd, Function.comp_apply]
  cases partOffset ws wd part d with
  | none => exact hold
  | some j => cases activeElem m wd d <;> simp [hold]

/-- Where no code is clamped, none is counted. -/
theorem convElems_clamps (hf : ∀ j, (f j).2.2 = false) :
    (convElems m ws wd part old f).2.2 = 0 := by
  simp only [convElems, List.length_eq_zero_iff, List.filter_eq_nil_iff, List.mem_map, Bool.not_eq_true]
  rintro _ ⟨d, -, rfl⟩
  cases partOffset ws wd part d with
  | none => rfl
  | some j => cases activeElem m wd d <;> simp [hf]

end

/-- The elements before a part of the narrower side number PART times those of the wider destination (R136). -/
theorem partSource_eq (ws wd part j : Nat) :
    partSource ws wd part j = if ws ≥ wd then j else part * (2048 / wd) + j := by
  unfold partSource
  split
  · rfl
  · rw [Nat.max_eq_right (by omega)]

/-! The operations, with their checks passed. -/

section
variable {g : Guard} {x : VectorBody} {s : State}

/-- A check whose condition holds passes. -/
theorem require_true {b : Bool} (e : Stop) (h : b = true) : require b e = .ok () := by
  rw [require, if_pos h]

/-- A valid entry and a PART within the ratio of the widths pass the check of a narrow side (R136, R151). -/
theorem narrowChecks_ok {n ws wd part : Nat} (h : (s.tid n).valid = true ∧ part < max ws wd / min ws wd) :
    s.narrowChecks g n ws wd part = .ok () := by
  obtain ⟨hvalid, hpart⟩ := h
  rw [State.narrowChecks, MatrixSteps.needTid_of_valid _ hvalid]
  exact require_true _ (decide_eq_true hpart)

/-- The code that VCVT writes for offset j, from `st` to `dt` (R137). -/
def vcvtCode (g : Guard) (x : VectorBody) (s : State) (st dt : ElemFmt) (j : Nat) : Coded :=
  convertElem st dt (vrm x) (elemAt st.bits (s.vsrc g x.va st) (partSource st.bits dt.bits (vpartNo x) j))

/-- With its check on a narrow side passed, VCVT completes with the codes of its offsets (R137). -/
theorem vcvtEff_ok {st dt : ElemFmt} {C : Nat × Flags × Nat} (hst : s.etype x.type.toNat (bitsOf x.aux 5 0) = st)
    (hdt : s.etype (bitsOf x.vb 3 0) (bitsOf x.aux 5 0) = dt)
    (h : x.type.toNat = 9 ∨ bitsOf x.vb 3 0 = 9 → (s.tid (bitsOf x.aux 5 0)).valid = true ∧
      vpartNo x < max st.bits dt.bits / min st.bits dt.bits)
    (hC : convElems (s.lanes g) st.bits dt.bits (vpartNo x) (s.vold g x.vd 0) (vcvtCode g x s st dt) = C) :
    vcvtEff g x s = .ok (s.vdone g x.vd C.1 C.2.1 0) := by
  subst hst hdt hC
  unfold vcvtEff
  dsimp only
  split
  · next h9 => rw [narrowChecks_ok (h h9)]; rfl
  · rfl

/-- The exact product that VQUANT and VDEQ encode for offset j, from `st` (R138, R139). -/
def quantProd (g : Guard) (x : VectorBody) (s : State) (st dt : ElemFmt) (j : Nat) : Fp × Flags :=
  fpProd (st.decode (elemAt st.bits (s.vsrc g x.va st) (partSource st.bits dt.bits (vpartNo x) j)))
    (decodeFp fp32 (elemAt 32 (s.vsrc g x.vb (.fp fp32)) (groupIndex x j)))

/-- The code that VQUANT and VDEQ write for offset j; VQUANT counts its clamps (R138). -/
def quantCode (quant : Bool) (g : Guard) (x : VectorBody) (s : State) (st dt : ElemFmt) (j : Nat) : Coded :=
  let y := decodeFp fp32 (elemAt 32 (s.vsrc g x.vb (.fp fp32)) (groupIndex x j))
  let p := quantProd g x s st dt j
  let c := dt.encode (vrm x) p.1.sign p.1.withQ
  (c.1, p.2 ||| c.2.1, quant && (c.2.2 || y.isNan || y.isInf))

/-- With their checks passed, VQUANT and VDEQ complete with the codes of their offsets (R138, R139). -/
theorem quantEff_ok {quant : Bool} {st dt : ElemFmt} {C : Nat × Flags × Nat}
    (hst : (if quant then vtype x else .narrow (s.tid (bitsOf x.aux 5 0)).fmt) = st)
    (hdt : (if quant then .narrow (s.tid (bitsOf x.aux 5 0)).fmt else vtype x) = dt)
    (h : (s.tid (bitsOf x.aux 5 0)).valid = true ∧ vpartNo x < max st.bits dt.bits / min st.bits dt.bits)
    (hgroup : ∀ d < 2048 / dt.bits, ∀ j, partOffset st.bits dt.bits (vpartNo x) d = some j →
      activeElem (s.lanes g) dt.bits d = true → groupIndex x j < 64)
    (hC : convElems (s.lanes g) st.bits dt.bits (vpartNo x) (s.vold g x.vd 0) (quantCode quant g x s st dt) = C) :
    quantEff quant g x s = .ok (s.vdone g x.vd C.1 C.2.1 C.2.2) := by
  subst hst hdt hC
  unfold quantEff
  dsimp only
  rw [narrowChecks_ok h, require_true]
  · rfl
  · refine List.all_eq_true.mpr fun d hd => ?_
    split
    · next j hj => simpa [← Bool.not_eq_true, Decidable.imp_iff_not_or] using hgroup d (List.mem_range.mp hd) j hj
    · rfl

end

/-- Settles O21. The checks behind issue pass by the hypotheses, and the code of each offset is the converted element or
the encoded product; VDEQ's codes count no clamp. -/
theorem vectorConvertQuantise : Obligations.VectorConvertQuantise := by
  unfold Obligations.VectorConvertQuantise
  intro g x s id part old okFor
  refine ⟨?_, ?_, ?_⟩
  · intro st dt ws wd f h hok
    simp only [f, ← partSource_eq]
    exact ⟨_, _, exec_eq_next_lanes h (exec_vcvt s g x) (vcvtEff_ok rfl rfl hok rfl), fun d hd => convElems_elem hd⟩
  · intro st dt ws wd p f h hok hgroup
    simp only [f, p, ← partSource_eq]
    exact ⟨_, _, _, exec_eq_next_lanes h (exec_vquant s g x) (quantEff_ok rfl rfl hok hgroup rfl),
      fun d hd => convElems_elem hd⟩
  · intro st dt ws wd p f h hok hgroup
    simp only [f, p, ← partSource_eq]
    have heff := quantEff_ok (quant := false) rfl rfl hok hgroup rfl
    rw [convElems_clamps fun _ => rfl] at heff
    exact ⟨_, _, exec_eq_next_lanes h (exec_vdeq s g x) heff, fun d hd => convElems_elem hd⟩

end Sys2Proof.Machine.VectorConversions

/-! PROOF. The tensor entries: TIDSET and its turn in the matrix queue, the moves of a cursor (R154, R156, R158). -/

namespace Sys2Proof.Machine.TensorEntries
open Sys2Proof Sys2Proof.Machine.MatrixSteps Sys2Proof.Machine.ScalarResults

/-! TIDSET at issue (R154). -/

section
variable {b : MatrixBody} {s : State} {v : BitVec 512} {c : Cap}

theorem tidsetEff_eq (hv : BitVec.ofNat 512 (leNat (s.rdWin (s.me.viewEnv.start .v (ropIndex b.srcA)) 64)) = v)
    (hc : s.ra (bitsOf v 107 104) = c) :
    tidsetEff b s = (tidChecks v c s.me.sys.sup).map fun _ => s.pushLate (.entry b.tid.toNat v c) := by
  subst hv hc
  rfl

end

/-! TIDSET at its turn: the entry of its tile (R19, R154). -/

section
variable {w : LateOp} {n : Nat} {v : BitVec 512} {c : Cap}

theorem lateEffect_of_entry (s : State) (t : Nat) (hw : w.eff = .entry n v c) :
    s.lateEffect t w = s.modTile t fun x =>
      { x with tids := FMap.set {} x.tids n (tidEntry v c w.ctx (FMap.get {} x.tids n)) } := by
  rw [State.lateEffect, hw]

/-- The entry that was set. -/
theorem lateEffect_entry_same (s : State) (t : Nat) (hw : w.eff = .entry n v c) :
    FMap.get {} ((s.lateEffect t w).tile t).tids n = tidEntry v c w.ctx (FMap.get {} (s.tile t).tids n) := by
  rw [lateEffect_of_entry s t hw, State.modTile_tile, FMap.get_set_same]

/-- The tile's other entries stay. -/
theorem lateEffect_entry_other (s : State) (t : Nat) {m : Nat} (hw : w.eff = .entry n v c) (hm : m ≠ n) :
    FMap.get {} ((s.lateEffect t w).tile t).tids m = FMap.get {} (s.tile t).tids m := by
  rw [lateEffect_of_entry s t hw, State.modTile_tile, FMap.get_set_other _ _ _ _ hm]

/-- Every other tile stays. -/
theorem lateEffect_entry_tile_other (s : State) {t i : Nat} (hw : w.eff = .entry n v c) (hi : i ≠ t) :
    (s.lateEffect t w).tile i = s.tile i := by
  rw [lateEffect_of_entry s t hw, State.modTile_tile_other _ _ hi]

end

/-! The cursor stays within the block counts (R156). -/

/-- The index that follows `k` in a count of `n`, round to 0. -/
theorem succ_mod_lt {k n : Nat} (h : k < n) : (if n = 0 then 0 else (k + 1) % n) < n := by
  have hn : n ≠ 0 := Nat.ne_zero_of_lt h
  rw [if_neg hn]
  exact Nat.mod_lt _ (Nat.pos_of_ne_zero hn)

/-- Either index goes on within its count, or starts again as the other goes round. -/
theorem advance_in_blocks {d : Tid} (hk : d.kb < d.kblk) (hn : d.nb < d.nblk) :
    d.advance.kb < d.kblk ∧ d.advance.nb < d.nblk := by
  unfold Tid.advance
  split <;> split
  · exact ⟨succ_mod_lt hk, Nat.zero_lt_of_lt hn⟩
  · next hlast => exact ⟨hk, Nat.lt_of_le_of_ne hn hlast⟩
  · exact ⟨Nat.zero_lt_of_lt hk, succ_mod_lt hn⟩
  · next hlast => exact ⟨Nat.lt_of_le_of_ne hk hlast, hn⟩

/-- Settles O28. TIDSET leaves its checks' answer, or its entry for its turn in the queue; a cursor is written through
`State.setTid`. -/
theorem tensorEntries : Obligations.TensorEntries := by
  unfold Obligations.TensorEntries
  refine ⟨fun g x s => ?_, fun s t w n v c hw => ?_, fun s n d => ?_, fun d hk hn => ?_⟩
  · intro n d v c
    refine ⟨fun h => ⟨fun hok => ?_, fun tr htr => ?_⟩, fun h => exec_eq_next h (exec_tidstep s g x) rfl,
      fun h => exec_eq_next h (exec_tidstepSet s g x) rfl⟩
    · exact exec_eq_next h (exec_tidset s g x) (by rw [tidsetEff_eq rfl rfl, hok]; rfl)
    · rw [exec_tidset]
      exact atIssue_trap h (by rw [tidsetEff_eq rfl rfl, htr]; rfl) rfl rfl rfl
  · intro u old d
    have hd : d = tidEntry v c w.ctx old := lateEffect_entry_same s t hw
    have hu : u = _ := lateEffect_of_entry s t hw
    rw [hd]
    refine ⟨rfl, rfl, rfl, rfl, rfl, rfl, fun m hm => lateEffect_entry_other s t hw hm, fun i k => ?_,
      fun i hi => lateEffect_entry_tile_other s hw hi, fun a => ?_⟩
    · rw [hu, State.modTile_ctx]
    · rw [hu, State.modTile_rd8]
  · exact ⟨setTid_tid_same s n d, fun m hm => setTid_tid_other s d hm, rfl, fun a => rfl⟩
  · obtain ⟨hkb, hnb⟩ := advance_in_blocks hk hn
    rw [advance_eq_atCursor] at hkb hnb ⊢
    exact ⟨hkb, hnb, rfl, rfl, rfl, rfl⟩

end Sys2Proof.Machine.TensorEntries

/-! PROOF. The instructions on an accumulator: clearing, re-anchoring, testing and reading it (R160, R164 to R168). -/

namespace Sys2Proof.Machine.AccumulatorForms
open Sys2Proof Sys2Proof.Machine.MatrixSteps Sys2Proof.Machine.ScalarResults

/-! Effects with a C base that is a multiple of 4 KiB (R160). -/

section
variable {g : Guard} {x : MatrixBody} {s : State}

theorem mzeroEff_of_aligned (hal : (s.me.dstEnv g).base .c % 4096 = 0) :
    mzeroEff g x s = .ok (((s.wrAccum (x.aux.getLsbD 16) ((s.me.dstEnv g).start .c (ropIndex x.dst))
      (List.replicate 512 0)).setAcc ((s.me.dstEnv g).start .c (ropIndex x.dst))
      { anchor := x.aux.extractLsb' 0 16, ovf := false, ufc := 0 }).latchAccum g
        ((s.me.dstEnv g).start .c (ropIndex x.dst))) := by
  rw [mzeroEff, cOffset_of_aligned x.dst hal]
  rfl

/-- The re-anchoring that MANCHOR asks of the accumulator at `off` (R165). -/
def manchorTry (x : MatrixBody) (s : State) (off : Nat) : Option (List Int × Bool × Nat) :=
  reanchor (x.aux.getLsbD 0) (x.aux.getLsbD 1) (s.acc off).anchor.toInt
    ((s.rs (x.srcA.extractLsb' 0 6)).extractLsb' 0 16).toInt (s.rdAccum (x.aux.getLsbD 0) off)

/-- A re-anchoring that is possible is written, with its anchor and counts (R165). -/
theorem manchorEff_of_some {off ufc : Nat} {vs : List Int} {ovf : Bool} (hal : (s.me.dstEnv g).base .c % 4096 = 0)
    (hoff : (s.me.dstEnv g).start .c (ropIndex x.dst) = off) (h : manchorTry x s off = some (vs, ovf, ufc)) :
    manchorEff g x s = .ok (((s.wrAccum (x.aux.getLsbD 0) off vs).setAcc off
      { anchor := (s.rs (x.srcA.extractLsb' 0 6)).extractLsb' 0 16, ovf := (s.acc off).ovf || ovf,
        ufc := addUfc (s.acc off).ufc ufc }).latchAccum g off) := by
  subst hoff
  rw [manchorTry] at h
  rw [manchorEff, cOffset_of_aligned x.dst hal]
  simp only [bind, Except.bind, h]

/-- Where none is possible OVF sets (R165). -/
theorem manchorEff_of_none {off : Nat} (hal : (s.me.dstEnv g).base .c % 4096 = 0)
    (hoff : (s.me.dstEnv g).start .c (ropIndex x.dst) = off) (h : manchorTry x s off = none) :
    manchorEff g x s = .ok ((s.setAcc off { s.acc off with ovf := true }).latchAccum g off) := by
  subst hoff
  rw [manchorTry] at h
  rw [manchorEff, cOffset_of_aligned x.dst hal]
  simp only [bind, Except.bind, h]

/-- MANCHOR has an effect in either case. -/
theorem manchorEff_completes (hal : (s.me.dstEnv g).base .c % 4096 = 0) : ∃ t, manchorEff g x s = .ok t := by
  cases h : manchorTry x s ((s.me.dstEnv g).start .c (ropIndex x.dst)) with
  | none => exact ⟨_, manchorEff_of_none hal rfl h⟩
  | some r => exact ⟨_, manchorEff_of_some hal rfl h⟩

/-- MSTAT's packed state (R166). -/
def statWord (a : Acc) : Word := BitVec.ofBool a.ovf ++ 0#15 ++ a.anchor ++ a.ufc

theorem mstatEff_of_aligned (hal : s.me.viewEnv.base .c % 4096 = 0) :
    mstatEff x s = .ok (
      let a := s.acc (s.me.viewEnv.start .c (ropIndex x.srcA))
      if bitsOf x.aux 1 0 = 0 then s.pushLate (.test (bitsOf x.dst 3 0) a.ovf a.ufc)
      else (s.putS (bitsOf x.dst 5 0) (statWord a)).latchLmWord (statWord a)) := by
  rw [mstatEff, cOffset_of_aligned x.srcA hal]
  simp only [bind, Except.bind]
  split <;> rfl

theorem mclrEff_of_aligned (hal : s.me.viewEnv.base .c % 4096 = 0) :
    mclrEff x s = .ok (
      let off := s.me.viewEnv.start .c (ropIndex x.dst)
      let a := s.acc off
      s.setAcc off { a with
        ovf := a.ovf && bitsOf x.aux 1 0 == 2, ufc := if bitsOf x.aux 1 0 = 1 then a.ufc else 0 }) := by
  rw [mclrEff, cOffset_of_aligned x.dst hal]
  rfl

end

/-! Exact re-anchoring (R165). -/

/-- `rescale` finds the integer that stands for the same number at the other anchor. -/
theorem rescale_eq_some {u v ao an : Int} (h : v * 2 ^ (an - ao).toNat = u * 2 ^ (ao - an).toNat) :
    rescale u ao an = some v := by
  unfold rescale
  split
  · next hle =>
    rw [show (an - ao).toNat = 0 by omega, Int.pow_zero, Int.mul_one] at h
    rw [h]
  · next hlt =>
    rw [show (ao - an).toNat = 0 by omega, Int.pow_zero, Int.mul_one] at h
    have hk : (2 : Int) ^ (an - ao).toNat ≠ 0 := Int.pow_ne_zero (by decide)
    rw [← h, if_pos (Int.mul_emod_left v _), Int.mul_ediv_cancel v hk]

/-- The elements `vs` stand for the numbers that `us` stood for, each within its bounds, after the anchor went from `ao`
to `an`. -/
def Reanchored (wide : Bool) (ao an : Int) (us vs : List Int) : Prop :=
  ∀ (k : Nat) (v u : Int), vs[k]? = some v → us[k]? = some u →
    accMin wide ≤ v ∧ v ≤ accMax wide ∧ v * 2 ^ (an - ao).toNat = u * 2 ^ (ao - an).toNat

/-- An exact re-anchoring is found where there is one. -/
theorem reanchor_exact {wide : Bool} {ao an : Int} {us vs : List Int} (hlen : vs.length = us.length)
    (h : Reanchored wide ao an us vs) : reanchor wide false ao an us = some (vs, false, 0) := by
  have hmap : us.map (fun I => rescale I ao an) = vs.map some := by
    refine List.ext_getElem (by rw [List.length_map, List.length_map, hlen]) fun k hu hv => ?_
    rw [List.length_map] at hu hv
    obtain ⟨-, -, heq⟩ := h k _ _ (List.getElem?_eq_getElem hv) (List.getElem?_eq_getElem hu)
    rw [List.getElem_map, List.getElem_map, rescale_eq_some heq]
  have hbounds : ∀ v ∈ vs, accMin wide ≤ v ∧ v ≤ accMax wide := by
    intro v hv
    obtain ⟨k, hk, rfl⟩ := List.getElem_of_mem hv
    obtain ⟨hlo, hhi, -⟩ := h k _ _ (List.getElem?_eq_getElem hk) (List.getElem?_eq_getElem (hlen ▸ hk))
    exact ⟨hlo, hhi⟩
  simp only [reanchor, Bool.false_eq_true, if_false, hmap]
  have hall : (vs.map some).all (fun r => match r with
      | some v => decide (accMin wide ≤ v ∧ v ≤ accMax wide)
      | none => false) = true := by
    rw [List.all_map, List.all_eq_true]
    exact fun v hv => decide_eq_true (hbounds v hv)
  have hvalues : (vs.map some).map (fun r => r.getD 0) = vs := by
    rw [List.map_map]
    exact List.map_id vs
  exact (if_pos hall).trans (congrArg (fun l => some (l, false, 0)) hvalues)

/-- Nothing counted leaves UFC. -/
theorem addUfc_zero (u : BitVec 32) : addUfc u 0 = u := by
  rw [addUfc, Nat.add_zero, Nat.min_eq_left (by omega), BitVec.ofNat_toNat, BitVec.setWidth_eq]

/-- A bit that is kept at one code alone. -/
theorem and_beq_eq_ite (b : Bool) (n k : Nat) : (b && n == k) = if n = k then b else false := by
  split
  · next h => rw [beq_iff_eq.mpr h, Bool.and_true]
  · next h => rw [beq_eq_false_iff_ne.mpr h, Bool.and_false]

/-! MSTAT's packed state and its test (R166). -/

theorem statWord_toNat (a : Acc) :
    (statWord a).toNat = a.ufc.toNat + a.anchor.toNat * 2 ^ 32 + a.ovf.toNat * 2 ^ 63 := by
  simp only [statWord, toNat_append_eq_add, BitVec.toNat_ofBool, BitVec.toNat_ofNat]
  omega

/-- The test's value in all bits of a predicate. -/
theorem allBits_calFails (y : SysRegs) (ovf : Bool) (ufc : BitVec 32) :
    allBits (y.calFails ovf ufc) =
      if ovf = true ∨ y.ufmax.toNat < ufc.toNat ∨ y.clampmax.toNat < y.qclamp.toNat then BitVec.allOnes 64 else 0 := by
  simp only [allBits, SysRegs.calFails, BitVec.ult, Bool.or_eq_true, decide_eq_true_eq, or_assoc]

/-- At its turn the test goes to its predicate, and to lm where no later operation of the queue latches. -/
theorem lateEffect_of_test {s : State} {t p : Nat} {w : LateOp} {ovf : Bool} {ufc : BitVec 32}
    (hw : w.eff = .test p ovf ufc) :
    s.lateEffect t w = s.putTest t w.ctx p (allBits ((s.ctx t w.ctx).sys.calFails ovf ufc)) := by
  rw [State.lateEffect, hw]

theorem putTest_regs (s : State) (t c p : Nat) (v : Mask) :
    ((s.putTest t c p v).ctx t c).regs = (s.ctx t c).regs.setP p v := by
  simp only [State.putTest, State.modCtx_ctx]
  split <;> rfl

theorem putTest_sys (s : State) (t c p : Nat) (v : Mask) : ((s.putTest t c p v).ctx t c).sys = (s.ctx t c).sys := by
  simp only [State.putTest, State.modCtx_ctx]
  split <;> rfl

/-- A test that no later operation of the queue outdoes stands in the matrix latch (R425). -/
theorem putTest_latches {s : State} {t c : Nat} (p : Nat) (v : Mask)
    (h : ∀ o ∈ (s.tile t).inflight, o.ctx = c → o.eng = .matrix → ∀ r ∈ o.writes, ¬(r.space = 3 ∧ r.lo = 3)) :
    ((s.putTest t c p v).ctx t c).latches = { (s.ctx t c).latches with lm := leBytes 8 v.toNat } := by
  simp only [State.putTest, State.modCtx_ctx]
  rw [if_neg]
  simp only [List.any_eq_true, Bool.and_eq_true, beq_iff_eq]
  rintro ⟨o, ho, ⟨hctx, heng⟩, r, hr, hlm⟩
  exact h o ho hctx heng r hr hlm

/-! MREAD (R168). -/

/-- Element `e`, an integer `I`, as MREAD writes it: the exact product with its scale, rounded once. -/
def mreadElem (g : Guard) (x : MatrixBody) (s : State) (e : Nat) (I : Int) : Coded :=
  let scale := decodeFp fp32 (elemAt 32 (s.vsrc g x.srcB (.fp fp32)) (if x.aux.getLsbD 6 then e % 32 else 0))
  let p := fpProd (Dy.toFp { m := I, e := (s.acc (s.me.viewEnv.start .c (ropIndex x.srcA))).anchor.toInt }) scale
  let c := (s.mreadType x).encode (rmode (bitsOf x.aux 5 3)) p.1.sign p.1.withQ
  (c.1, p.2 ||| c.2.1, false)

/-- The elements that MREAD writes. -/
def mreadElems (g : Guard) (x : MatrixBody) (s : State) : List Coded :=
  (s.rdAccum (x.aux.getLsbD 7) (s.me.viewEnv.start .c (ropIndex x.srcA))).mapIdx (mreadElem g x s)

/-- Where MREAD writes. -/
def mreadStart (g : Guard) (x : MatrixBody) (s : State) : Nat :=
  (s.me.dstEnv g).start (if bitsOf x.aux 2 0 = 2 then .v else .t) (ropIndex x.dst)

/-- The state with MREAD's result `N` written. -/
def mreadWritten (g : Guard) (x : MatrixBody) (s : State) (N : Nat) : State :=
  s.wrWin (mreadStart g x s) (leBytes (64 * (s.mreadType x).bits) N)

/-- With a valid entry for a narrow type, MREAD writes its elements, latches and adds their flags. -/
theorem mreadEff_of_aligned {g : Guard} {x : MatrixBody} {s : State} (hal : s.me.viewEnv.base .c % 4096 = 0)
    (hv : bitsOf x.aux 2 0 = 3 → (s.tid x.tid.toNat).valid = true) :
    mreadEff g x s = .ok (
      let s1 := mreadWritten g x s (packElems (s.mreadType x).bits ((mreadElems g x s).map Prod.fst))
      (if g.dup then s1 else s1.latchLm (s1.rdWin (mreadStart g x s) (if bitsOf x.aux 2 0 = 2 then 2048 else 1024))).addFlags
        g (orFlags ((mreadElems g x s).map fun r => r.2.1)) 0) := by
  unfold mreadEff
  dsimp only
  rw [cOffset_of_aligned x.srcA hal]
  split
  · next h3 => rw [needTid_of_valid 3 (hv h3)]; rfl
  · rfl

/-- An element of MREAD's packed result. -/
theorem mreadElems_elem {g : Guard} {x : MatrixBody} {s : State} {e : Nat} {I : Int} (w : Nat)
    (h : (s.rdAccum (x.aux.getLsbD 7) (s.me.viewEnv.start .c (ropIndex x.srcA)))[e]? = some I) :
    elemAt w (packElems w ((mreadElems g x s).map Prod.fst)) e = (mreadElem g x s e I).1 % 2 ^ w := by
  rw [elemAt_packElems, List.getD_eq_getElem?_getD, List.getElem?_map, mreadElems, List.getElem?_mapIdx, h]
  rfl

/-- Settles O27. Each form's checks behind issue pass by the alignment of the C base; MANCHOR
finds the exact re-anchoring that is given (`reanchor_exact`). -/
theorem accumulatorInstructions : Obligations.AccumulatorInstructions := by
  unfold Obligations.AccumulatorInstructions
  intro g x s dst own src dstOk ownOk
  refine ⟨fun h hal => exec_eq_next h (exec_mzero s g x) (mzeroEff_of_aligned hal), ?_, ?_, ?_, ?_, ?_⟩
  · intro wide an a h hal
    obtain ⟨t, ht⟩ := manchorEff_completes (x := x) hal
    refine ⟨⟨t, exec_eq_next h (exec_manchor s g x) ht⟩, fun hrnd vs hlen hvs => ?_, fun hnone => ?_⟩
    · have htry : manchorTry x s dst = some (vs, false, 0) := by
        rw [manchorTry, hrnd]
        exact reanchor_exact hlen hvs
      refine exec_eq_next h (exec_manchor s g x) ((manchorEff_of_some hal rfl htry).trans ?_)
      rw [Bool.or_false, addUfc_zero]
    · exact exec_eq_next h (exec_manchor s g x) (manchorEff_of_none hal rfl hnone)
  · intro a h hal
    refine ⟨fun h0 => ?_, fun h0 => ⟨statWord a, ?_, statWord_toNat a⟩⟩
    · exact exec_eq_next h (exec_mstat s g x) ((mstatEff_of_aligned hal).trans (congrArg _ (if_pos h0)))
    · exact exec_eq_next h (exec_mstat s g x) ((mstatEff_of_aligned hal).trans (congrArg _ (if_neg h0)))
  · intro t w p ovf ufc hw u y v
    have hu : u = s.putTest t w.ctx p v :=
      (lateEffect_of_test hw).trans (congrArg _ (allBits_calFails y ovf ufc))
    rw [hu]
    exact ⟨putTest_regs .., putTest_sys .., fun _ => rfl, putTest_latches p v⟩
  · intro a h hal
    refine exec_eq_next h (exec_mclr s g x) ((mclrEff_of_aligned hal).trans ?_)
    exact congrArg (fun o => Except.ok (s.setAcc own { a with
      ovf := o, ufc := if bitsOf x.aux 1 0 = 1 then a.ufc else 0 })) (and_beq_eq_ite a.ovf _ 2)
  · intro dt t wide at0 scale prod h hal hv
    exact ⟨_, _, exec_eq_next h (exec_mread s g x) (mreadEff_of_aligned hal hv), fun e I hI => mreadElems_elem _ hI⟩

end Sys2Proof.Machine.AccumulatorForms

/-! PROOF. The low-rank instructions: a result against the capacity, the procedures that may give none, and LRAPPLY's
frame (R169 to R189). -/

namespace Sys2Proof.Machine.LowRankForms
open Sys2Proof Sys2Proof.Machine.MatrixSteps Sys2Proof.Machine.ScalarResults

/-! A result and the capacity (R175). -/

/-- The K registers can hold an operator: it is dense, or its rank is within the capacity. -/
def Fits (s : State) (o : LrOp) : Prop := o.rank = 255 ∨ o.rank ≤ s.me.views.kCap

section
variable {s : State} {o : LrOp}

/-- The model's test for a rank above the capacity finds what does not fit. -/
theorem tooBig_iff : (o.rank != 255 && decide (s.me.views.kCap < o.rank)) = true ↔ ¬ Fits s o := by
  simp [Fits]

theorem lrFit_of_fits (d : BitVec 8) (at_ : Bool) (h : Fits s o) : s.lrFit d at_ o = .ok (s.lrDone d o) := by
  have hbig := Bool.eq_false_iff.mpr fun hb => tooBig_iff.mp hb h
  simp only [State.lrFit, hbig, Bool.not_false, if_true]

/-- Above the capacity, a result without AT raises LRANK with the rank needed. -/
theorem lrFit_of_not_fits (d : BitVec 8) (h : ¬ Fits s o) : s.lrFit d false o = .ok (s.lrank d o.rank) := by
  have hbig := tooBig_iff.mpr h
  simp only [State.lrFit, hbig, Bool.not_true, Bool.false_eq_true, if_false]

end

/-! From the effect to the instruction. -/

section
variable {i : Instr} {g : Guard} {check : State → Except Stop Unit} {eff : State → Except Stop State} {s : State}
  {d : BitVec 8}

/-- An admitted operation whose effect stops at the LIMIT check takes that trap (R86). -/
theorem exec_eq_limit (h : s.Admits i) (hx : exec i s = atIssue i g check eff s) (he : eff s = .error (limitTrap 3))
    (hg : (slotFields i).map SlotFields.g = some g := by rfl) (hl : laneWise i = false := by rfl)
    (hc : runCheck i s = check s := by rfl) :
    exec i s = .next (s.takeTrap { code := trapILLEGAL_OP, sub := illegalSubcode 11 63 3, slot := 3 }) :=
  hx.trans (atIssue_trap h he hg hl hc)

/-- An admitted operation whose result may exceed the capacity writes it where it fits, and raises LRANK where it does
not and AT is clear (R175). -/
theorem exec_of_lrFit {at_ : Bool} {o : LrOp} (h : s.Admits i) (hx : exec i s = atIssue i g check eff s)
    (he : eff s = s.lrFit d at_ o) (hg : (slotFields i).map SlotFields.g = some g := by rfl)
    (hl : laneWise i = false := by rfl) (hc : runCheck i s = check s := by rfl) :
    (Fits s o → exec i s = .next (s.lrDone d o)) ∧
      (¬ Fits s o → at_ = false → exec i s = .next (s.lrank d o.rank)) := by
  refine ⟨fun hfit => exec_eq_next h hx (he.trans (lrFit_of_fits d at_ hfit)) hg hl hc, ?_⟩
  rintro hfit rfl
  exact exec_eq_next h hx (he.trans (lrFit_of_not_fits d hfit)) hg hl hc

/-- An admitted operation that writes what its procedure gives: the operator where it fits, LRANK where it does not, and
LIMIT where there is none (R175, R189). -/
theorem exec_of_procedure {p : Option LrOp} (h : s.Admits i) (hx : exec i s = atIssue i g check eff s)
    (he : eff s = (orLimit p >>= s.lrFit d false)) (hg : (slotFields i).map SlotFields.g = some g := by rfl)
    (hl : laneWise i = false := by rfl) (hc : runCheck i s = check s := by rfl) :
    (∀ o, p = some o → Fits s o → exec i s = .next (s.lrDone d o)) ∧
      (∀ o, p = some o → ¬ Fits s o → exec i s = .next (s.lrank d o.rank)) ∧
      (p = none → exec i s = .next (s.takeTrap { code := trapILLEGAL_OP, sub := illegalSubcode 11 63 3, slot := 3 })) := by
  refine ⟨?_, ?_, ?_⟩
  · rintro o rfl hfit
    exact (exec_of_lrFit h hx he hg hl hc).1 hfit
  · rintro o rfl hfit
    exact (exec_of_lrFit h hx he hg hl hc).2 hfit rfl
  · rintro rfl
    exact exec_eq_limit h hx he hg hl hc

end

/-! What the operations compute (R177 to R181, R188). -/

@[simp] theorem length_chunk {α : Type} (k n : Nat) (xs : List α) : (chunk k n xs).length = n := by
  induction n generalizing xs with
  | zero => rfl
  | succ n ih => rw [chunk, List.length_cons, ih]

/-- LRSET reads as many columns as its field says (R177). -/
theorem length_lrsetCols (s : State) (b : MatrixBody) (r : BitVec 8) : (s.lrsetCols b r).length = bitsOf b.aux 6 0 := by
  unfold State.lrsetCols
  split <;> exact length_chunk ..

theorem lrMul_rank_of_zero {a b : LrOp} (h : a.rank = 0 ∨ b.rank = 0) : (lrMul a b).rank = 0 := by
  rw [lrMul.eq_def, if_pos h]
  rfl

theorem lrDense_rank (a : LrOp) : (lrDense a).rank = 255 := by
  cases a <;> rfl

/-- LRDENSE's check at issue has found a capacity of 64 (R181). -/
theorem kCap_of_checkLrdense {s : State} (h : checkLrdense s = .ok ()) : s.me.views.kCap = 64 := by
  unfold checkLrdense at h
  cases hlr : checkLr s with
  | error e => rw [hlr] at h; cases h
  | ok =>
    rw [hlr] at h
    exact beq_iff_eq.mp (require_ok h)

section
variable {s : State} {b : MatrixBody}

/-- LRCOMP of a T view (R188). -/
theorem lrcomp_of_tile (h : b.aux.getLsbD 0 = true) : s.lrcomp b = orLimit (compress s.lrTol (s.rdBf b.srcA)) := by
  rw [State.lrcomp, if_pos h]

/-- LRCOMP of a dense operator (R188). -/
theorem lrcomp_of_dense {rows : List (List Nat)} (hk : b.aux.getLsbD 0 = false) (hA : s.rdK b.srcA = .dense rows) :
    s.lrcomp b = orLimit (compress s.lrTol rows) := by
  simp only [State.lrcomp, hk, hA, Bool.false_eq_true, if_false]

/-- LRCOMP of an operator of rank 0 gives rank 0 (R188). -/
theorem lrcomp_of_rank_zero {v : List (List Nat)} (hk : b.aux.getLsbD 0 = false) (hA : s.rdK b.srcA = .factored [] v) :
    s.lrcomp b = .ok (.factored [] []) := by
  simp only [State.lrcomp, hk, hA, Bool.false_eq_true, if_false]

/-- LRCOMP of a factored operator of another rank gives none (R188). -/
theorem lrcomp_of_factored {u : List Nat} {us v : List (List Nat)} (hk : b.aux.getLsbD 0 = false)
    (hA : s.rdK b.srcA = .factored (u :: us) v) : s.lrcomp b = .error (limitTrap 3) := by
  simp only [State.lrcomp, hk, hA, Bool.false_eq_true, if_false]

end

/-! LRAPPLY (R182). -/

/-- The issuing context's registers and views and all of memory are as before. -/
def KeepsRegsViewsMem (s t : State) : Prop :=
  t.me.regs = s.me.regs ∧ t.me.views = s.me.views ∧ ∀ a, t.rd8 a = s.rd8 a

theorem KeepsRegsViewsMem.trans {s t u : State} (hst : KeepsRegsViewsMem s t) (htu : KeepsRegsViewsMem t u) :
    KeepsRegsViewsMem s u := by
  obtain ⟨hregs, hviews, hmem⟩ := hst
  obtain ⟨hregs', hviews', hmem'⟩ := htu
  exact ⟨hregs'.trans hregs, hviews'.trans hviews, fun a => (hmem' a).trans (hmem a)⟩

/-- A window write keeps them. -/
theorem keeps_wrWin (s : State) (off : Nat) (bs : List Byte) : KeepsRegsViewsMem s (s.wrWin off bs) :=
  ⟨rfl, rfl, fun _ => rfl⟩

/-- So does a change of the issuing context that touches neither registers nor views. -/
theorem keeps_modMe (s : State) {f : Ctx → Ctx} (hregs : ∀ x, (f x).regs = x.regs) (hviews : ∀ x, (f x).views = x.views) :
    KeepsRegsViewsMem s (s.modMe f) := by
  refine ⟨?_, ?_, fun _ => rfl⟩ <;> rw [State.modMe_me]
  · exact hregs s.me
  · exact hviews s.me

theorem keeps_latchLm (s : State) (bs : List Byte) : KeepsRegsViewsMem s (s.latchLm bs) :=
  keeps_modMe s (fun _ => rfl) fun _ => rfl

/-- A C tile's update writes the window and the accumulator's fields (R160, R182). -/
theorem keeps_applyTile (s : State) (off : Nat) (ys : List Nat) : KeepsRegsViewsMem s (s.applyTile off ys) :=
  (keeps_wrWin s off _).trans (keeps_modMe _ (fun _ => rfl) fun _ => rfl)

theorem keeps_foldl {α : Type} {f : State → α → State} (hf : ∀ s x, KeepsRegsViewsMem s (f s x)) (xs : List α)
    (s : State) : KeepsRegsViewsMem s (xs.foldl f s) := by
  induction xs generalizing s with
  | nil => exact ⟨rfl, rfl, fun _ => rfl⟩
  | cons x xs ih => exact (hf s x).trans (ih (f s x))

/-- With an aligned C base LRAPPLY completes: of rank 0 it only latches, and else it updates its four C tiles (R182). -/
theorem lrapplyEff_of_aligned {b : MatrixBody} {s : State} (hal : s.me.viewEnv.base .c % 4096 = 0) :
    ∃ t, lrapplyEff b s = .ok t ∧ KeepsRegsViewsMem s t ∧ ∀ v, s.rdK b.srcB = .factored [] v →
      t = s.latchLm (s.rdWin (s.me.viewEnv.start .c (ropIndex b.dst)) 4096) := by
  rw [lrapplyEff, cOffset_of_aligned b.dst hal]
  cases hB : s.rdK b.srcB with
  | dense rows => exact ⟨_, rfl, (keeps_foldl (fun s _ => keeps_applyTile s ..) _ s).trans (keeps_latchLm ..), nofun⟩
  | factored u v =>
    cases u with
    | nil => exact ⟨_, rfl, keeps_latchLm .., fun _ _ => rfl⟩
    | cons c u =>
      exact ⟨_, rfl, (keeps_foldl (fun s _ => keeps_applyTile s ..) _ s).trans (keeps_latchLm ..), nofun⟩

/-- Settles O29. A result that may exceed the capacity is settled by `exec_of_lrFit`, one of a procedure by
`exec_of_procedure`; the others are written as computed. -/
theorem lowRankInstructions : Obligations.LowRankInstructions := by
  unfold Obligations.LowRankInstructions
  intro g x s A B fits rank limit
  refine ⟨fun h => exec_eq_next h (exec_lrzero s g x) rfl, fun h => exec_eq_next h (exec_lrscale s g x) rfl,
    fun h => ⟨exec_eq_next h (exec_lrmul s g x) rfl, lrMul_rank_of_zero⟩,
    fun h => exec_eq_next h (exec_lrmuld s g x) rfl, fun h => ?_, fun h => ?_, fun h => ?_,
    fun h => exec_of_procedure h (exec_lrtrunc s g x) rfl, fun h => ⟨?_, fun hk => ⟨?_, ?_⟩⟩, fun h hal => ?_,
    fun h => exec_eq_next h (exec_lrrank s g x) rfl⟩
  · exact ⟨kCap_of_checkLrdense (runCheck_of_admits h), exec_eq_next h (exec_lrdense s g x) rfl, lrDense_rank A⟩
  · exact ⟨length_lrsetCols s x x.srcA, exec_of_lrFit h (exec_lrset s g x) rfl⟩
  · obtain ⟨hfit, hbig⟩ := exec_of_lrFit h (exec_lradd s g x) rfl
    refine ⟨hfit, hbig, ?_⟩
    intro ua va ub vb hA hB
    rw [hA, hB, lrAdd]
  · rintro rows (⟨ht, rfl⟩ | ⟨hk, hA⟩)
    · exact exec_of_procedure h (exec_lrcomp s g x) (congrArg (· >>= s.lrFit x.dst false) (lrcomp_of_tile ht))
    · exact exec_of_procedure h (exec_lrcomp s g x) (congrArg (· >>= s.lrFit x.dst false) (lrcomp_of_dense hk hA))
  · intro v hA
    obtain ⟨hfit, -⟩ := exec_of_lrFit (d := x.dst) (at_ := false) (o := .factored [] []) h (exec_lrcomp s g x)
      (congrArg (· >>= s.lrFit x.dst false) (lrcomp_of_rank_zero hk hA))
    exact hfit (.inr (Nat.zero_le _))
  · intro u us v hA
    exact exec_eq_limit h (exec_lrcomp s g x)
      (congrArg (· >>= s.lrFit x.dst false) (lrcomp_of_factored hk hA))
  · obtain ⟨t, ht, ⟨hregs, hviews, hmem⟩, hzero⟩ := lrapplyEff_of_aligned (b := x) hal
    exact ⟨t, exec_eq_next h (exec_lrapply s g x) ht, hzero, hregs, hviews, hmem⟩

end Sys2Proof.Machine.LowRankForms

/-! PROOF. LRLDS of an image of rank 0 whose header is the last 64 bytes of its scratchpad (R190). -/

namespace Sys2Proof.Machine.LoadsAtTheEnd
open Sys2Proof

/-- `LRLDS k0, [a1]` in slot 4. -/
def lastGuard : Guard := { slot := 4, pn := false, pred := 0, dup := false }
def lastBody : MemBody := { data := 0, areg := 1, cls := 0, scope := 0, size := 0, off24 := 0 }

/-- The entry of the tile's own scratchpad: valid, MAP 0, kind SCRATCH, right R, LOCAL, all of its 2 MiB (R353, R354). -/
def scratchEntry : BitVec 256 :=
  BitVec.ofNat 256 (1 + kSCRATCH * 2 ^ 84 + 2 ^ 88 + (4 * 2 ^ 54 + 2 ^ 31) * 2 ^ 96 + scratchBytes * 2 ^ 160)

/-- The part right after reset, but for a K capacity of 1, the scratchpad as object 2 in the tile's translation cache, and
a1 over it with its offset at the last 64 bytes; like every byte that nothing has written, the header there is 0. -/
def lastHeader : State :=
  ((State.reset.modTile 0 fun x => { x with tlbObjs := [{ asid := 0, obj := 2, entry := scratchEntry }] }).putA 1
    (mkCap 1 kSCRATCH 2 (scratchBytes - 64) 1 0 (2 ^ 20) true)).modMe fun x => { x with views := { x.views with kCap := 1 } }

theorem lastHeader_admits : lastHeader.Admits (.lrlds lastGuard lastBody) := by
  refine ⟨?_, ?_, ?_⟩ <;> rfl

/-- The header is a plain extent. -/
theorem header_plain :
    lastHeader.Plain (lastHeader.ra 1) [rR] (scratchBytes - 64) 64 (4 * 2 ^ 54 + scratchBytes - 64) :=
  ⟨scratchEntry, rfl, by decide +kernel⟩

/-- So is the image of rank 0 behind it: no byte, at the object's end. -/
theorem emptyImage_plain : lastHeader.Plain (lastHeader.ra 1) [rR] scratchBytes 0 (4 * 2 ^ 54 + scratchBytes) :=
  ⟨scratchEntry, rfl, by decide +kernel⟩

/-- The fault of an outcome. -/
def faultOf : Out → Option Fault
  | .fault f => some f
  | _ => none

/-- The translation of the image's 0 bytes looks at the first byte behind the scratchpad, which does not exist. -/
theorem emptyImage_faults :
    faultOf (exec (.lrlds lastGuard lastBody) lastHeader) = some (.reservedSpace (4 * 2 ^ 54 + scratchBytes)) := by
  decide +kernel

/-- Refutes O30: LRLDS does not complete with an image of rank 0 whose header is the last 64 bytes of the scratchpad.
R190 gives such an image no bytes but its header, and so the capability's bounds and the object's length hold it; the
model's second access, of 0 bytes, begins at the scratchpad's end and is a fault of the model. -/
theorem not_loadInstructions : ¬ Obligations.LoadInstructions := by
  unfold Obligations.LoadInstructions
  intro h
  obtain ⟨-, -, -, -, -, -, -, -, -, -, hlrlds⟩ := h lastGuard lastBody lastHeader
  obtain ⟨-, hload⟩ := hlrlds lastHeader_admits _ header_plain
  have hnext := hload (by decide +kernel) rfl _ emptyImage_plain
  have hfault := emptyImage_faults
  rw [hnext] at hfault
  cases hfault

end Sys2Proof.Machine.LoadsAtTheEnd

/-! PROOF. The signed integer of a word's bits, the floating-point sum of NaN and of finite values, and the results of
the atomic operations (R47, R133, R202). -/

namespace Sys2Proof.Machine.AtomicOperations
open Sys2Proof

/-- The signed integer that a word's bits stand for is the word's own. -/
theorem intOfBits_toNat {w : Nat} (hw : 0 < w) (x : BitVec w) : intOfBits true w x.toNat = x.toInt := by
  cases w with
  | zero => exact absurd hw (Nat.lt_irrefl 0)
  | succ k =>
    have hpow : 2 ^ (k + 1) = 2 * 2 ^ k := Nat.pow_succ'
    have htop : 2 ^ k ≤ x.toNat ↔ ¬ 2 * x.toNat < 2 ^ (k + 1) := by omega
    simp only [intOfBits, Nat.add_sub_cancel, Bool.true_and, decide_eq_true_eq, htop, ite_not,
      BitVec.toInt_eq_toNat_cond]

/-- The model takes a sum as a product by one and a sum (R133); one is the factor of no special product. -/
theorem one_not_special : (Fp.fin false 1 0).isNan = false ∧ (Fp.fin false 1 0).isInf = false ∧
    (Fp.fin false 1 0).isZero = false :=
  ⟨rfl, rfl, rfl⟩

/-- A product by one is exact. -/
theorem mul_one_dy (d : Dy) : d.mul (Fp.fin false 1 0).dy = d := by
  simp [Dy.mul, Fp.dy]

/-- An operand that is NaN makes the sum the canonical NaN (R47). -/
theorem fpAdd_of_isNan (f : FpFmt) (mode : RMode) {a b : Fp} (h : a.isNan = true ∨ b.isNan = true) :
    (fpAdd f mode a b).1 = f.nanBits := by
  rcases h with ha | hb
  · simp [fpAdd, fpFma, one_not_special, ha]
  · simp [fpAdd, fpFma, one_not_special, hb]

/-- Where the exact value is not zero, the sign given for a zero has no part in its encoding. -/
theorem encodeFp_of_ne_zero (f : FpFmt) (mode : RMode) (z : Bool) {v : Q} (hv : v.num ≠ 0) :
    encodeFp f mode z v = encodeFp f mode false v := by
  simp only [encodeFp, if_neg hv]

/-- A sum of finite values that is not zero is the exact sum, rounded once (R133). -/
theorem fpAdd_of_finite (f : FpFmt) (mode : RMode) {a b : Fp} (haNan : a.isNan = false) (hbNan : b.isNan = false)
    (haInf : a.isInf = false) (hbInf : b.isInf = false) (hsum : (a.dy.add b.dy).m ≠ 0) :
    fpAdd f mode a b = encodeFp f mode false (a.dy.add b.dy).toQ := by
  simp only [fpAdd, fpFma, haNan, hbNan, haInf, hbInf, one_not_special, mul_one_dy, Bool.false_and, Bool.and_false,
    Bool.or_false, Bool.false_eq_true, if_false]
  exact encodeFp_of_ne_zero f mode _ hsum

section
variable {w : Nat} (m v c : BitVec w)

/-- Operations 4 and 5 are the signed minimum and maximum (R202). -/
theorem atomicNew_signed (hw : 0 < w) :
    atomicNew 4 w m.toNat v.toNat c.toNat = (if m.toInt ≤ v.toInt then m else v).toNat ∧
    atomicNew 5 w m.toNat v.toNat c.toNat = (if v.toInt ≤ m.toInt then m else v).toNat := by
  simp only [atomicNew, intOfBits_toNat hw, apply_ite BitVec.toNat, and_self]

/-- Operations 6 and 7 are the unsigned minimum and maximum (R202). -/
theorem atomicNew_unsigned :
    atomicNew 6 w m.toNat v.toNat c.toNat = (if m.toNat ≤ v.toNat then m else v).toNat ∧
    atomicNew 7 w m.toNat v.toNat c.toNat = (if v.toNat ≤ m.toNat then m else v).toNat := by
  rw [apply_ite BitVec.toNat, apply_ite BitVec.toNat]
  exact ⟨Nat.min_def, (Nat.max_comm ..).trans Nat.max_def⟩

/-- Operation 9 is compare and swap (R202). -/
theorem atomicNew_cas : atomicNew 9 w m.toNat v.toNat c.toNat = (if m = v then c else m).toNat := by
  simp only [atomicNew, BitVec.toNat_inj, apply_ite BitVec.toNat]

end

/-- Settles O34. The operations on integers are the words' own by `intOfBits_toNat`; the floating add is the sum of the
decoded operands. -/
theorem atomicResults : Obligations.AtomicResults := by
  unfold Obligations.AtomicResults
  refine ⟨?_, ?_, ?_⟩
  · intro w m v c hw new
    obtain ⟨hmin, hmax⟩ := atomicNew_signed m v c hw
    obtain ⟨hminu, hmaxu⟩ := atomicNew_unsigned m v c
    exact ⟨(BitVec.toNat_add m v).symm, (BitVec.toNat_and m v).symm, (BitVec.toNat_or m v).symm,
      (BitVec.toNat_xor m v).symm, hmin, hmax, hminu, hmaxu, rfl, atomicNew_cas m v c⟩
  · intro m v c h
    exact fpAdd_of_isNan fp32 .rne h
  · intro m v c hm hv hmInf hvInf hsum
    exact congrArg Prod.fst (fpAdd_of_finite fp32 .rne hm hv hmInf hvInf hsum)

end Sys2Proof.Machine.AtomicOperations

/-! PROOF. What stores performed at their homes write and leave alone (R235, R358): the bytes of memory, and the network's
part of the state. -/

namespace Sys2Proof.Machine.PerformedStores
open Sys2Proof

/-! The cells of a store, each with the last value written to it. -/

theorem wrote_of_sameMem {s t u : State} {cs : List (Nat × Byte)} (h : s.Wrote t cs) (hmem : t.SameMem u) : s.Wrote u cs :=
  fun a => (hmem a).trans (h a)

/-- Two stores, one after the other, are the store of the cells of both. -/
theorem wrote_append {s t u : State} {cs ds : List (Nat × Byte)} (h : s.Wrote t cs) (h' : t.Wrote u ds) :
    s.Wrote u (cs ++ ds) := by
  intro a
  rw [h' a, h a, List.filter_append, List.getLast?_append]
  cases (ds.filter fun x => x.1 == a).getLast? <;> rfl

/-- A byte written at its home stands in memory; a copy kept of its line is no part of it (R235). -/
theorem wrHome_mem (s : State) (pa : Nat) (v : Byte) : (s.wrHome pa v).core.mem = (s.wr8 pa v).core.mem := by
  unfold State.wrHome
  split <;> rfl

theorem wrHome_wrote (s : State) (pa : Nat) (v : Byte) : s.Wrote (s.wrHome pa v) [(pa, v)] := by
  intro a
  have hread : (s.wrHome pa v).rd8 a = (s.wr8 pa v).rd8 a := congrArg (FMap.get 0 · a) (wrHome_mem s pa v)
  rw [hread]
  by_cases ha : pa = a
  · subst ha
    simp
  · simp [ha, s.rd8_wr8_other v (Ne.symm ha)]

theorem foldl_wrHome_wrote (cs : List (Nat × Byte)) (s : State) :
    s.Wrote (cs.foldl (fun a (pa, v) => a.wrHome pa v) s) cs := by
  induction cs generalizing s with
  | nil => exact fun _ => rfl
  | cons x cs ih => exact wrote_append (wrHome_wrote s x.1 x.2) (ih _)

/-! What follows a store: the slices that home the bytes, and the contexts that watch them (R372, R375). -/

theorem touchSlice_frame (s : State) (n : Nat) : (s.touchSlice n).core = s.core ∧ (s.touchSlice n).net = s.net := by
  unfold State.touchSlice
  split <;> exact ⟨rfl, rfl⟩

theorem touch_frame (s : State) (pas : List Nat) : (s.touch pas).core = s.core ∧ (s.touch pas).net = s.net := by
  refine List.foldlRecOn (motive := fun t : State => t.core = s.core ∧ t.net = s.net) _ _ ⟨rfl, rfl⟩ ?_
  intro t ⟨hcore, hnet⟩ pa _
  obtain ⟨hcore', hnet'⟩ := touchSlice_frame t (homeSlice pa)
  dsimp only
  split
  · exact ⟨hcore'.trans hcore, hnet'.trans hnet⟩
  · exact ⟨hcore'.trans hcore, hnet'.trans hnet⟩

theorem noteWrite_frame (s : State) (pas : List Nat) : (s.noteWrite pas).core = s.core ∧ (s.noteWrite pas).net = s.net := by
  unfold State.noteWrite
  split <;> exact ⟨rfl, rfl⟩

/-! The store as a whole. -/

theorem wrHome_net (s : State) (pa : Nat) (v : Byte) : (s.wrHome pa v).net = s.net := by
  unfold State.wrHome
  split <;> rfl

theorem markDirty_net (s : State) (es : List Nat) : (s.markDirty es).net = s.net := by
  induction es generalizing s with
  | nil => rfl
  | cons e es ih => exact ih _

/-- A store leaves the network's part of the state alone. -/
@[simp] theorem performStore_net (s : State) (dirty : List Nat) (cs : List (Nat × Byte)) :
    (s.performStore dirty cs).net = s.net := by
  have hfold : (cs.foldl (fun a (pa, v) => a.wrHome pa v) (s.markDirty dirty)).net = s.net :=
    List.foldlRecOn (motive := fun t : State => t.net = s.net) cs _ (markDirty_net s dirty)
      fun t ht x _ => (wrHome_net t x.1 x.2).trans ht
  exact ((touch_frame _ _).2.trans (noteWrite_frame _ _).2).trans hfold

/-- A store whose pages are marked already writes exactly its cells. -/
theorem performStore_wrote (s : State) (cs : List (Nat × Byte)) : s.Wrote (s.performStore [] cs) cs := by
  refine wrote_of_sameMem (foldl_wrHome_wrote cs s) fun a => ?_
  exact congrArg (fun c : Core => FMap.get 0 c.mem a) ((touch_frame _ _).1.trans (noteWrite_frame _ _).1)

end Sys2Proof.Machine.PerformedStores

/-! PROOF. The happenings of the Ethernet ports and of the queue pairs: frames, congestion, RDMA and the requests that
configure them (R334, R412 to R414). -/

namespace Sys2Proof.Machine.EthernetAndRdma
open Sys2Proof PerformedStores

/-- What is sent is no part of memory. -/
theorem sameMem_send (s : State) (o : Output) : s.SameMem (s.send o) := fun _ => rfl

/-! The frame of a happening of a powered package, and of a request that firmware serves. -/

theorem powered_of_up {s : State} (hup : s.pow.down = false) (f : Unit → State) : s.powered f = .next (f ()) := by
  simp [State.powered, hup]

theorem onRequest_of_served {s : State} (hup : s.pow.down = false) (hfw : s.fwActive = true) (f : Unit → State) :
    s.onRequest f = .next (s.mirrored (f ())) := by
  simp [State.onRequest, hup, hfw]

theorem tableSame_self (s : State) : s.tableSame s = true := by
  simp [State.tableSame]

/-- A request that changes nothing adds no mirror entry (R398). -/
theorem mirrored_self (s : State) : s.mirrored s = s := by
  simp [State.mirrored, tableSame_self]

/-! One port and one queue pair after a change. -/

theorem modPort_port {p : Nat} (hp : p < 2) (s : State) (f : EthPort → EthPort) :
    FMap.get {} (s.modPort p f).net.ports p = f (FMap.get {} s.net.ports p) := by
  simp [State.modPort, hp]

theorem modPort_core (s : State) (p : Nat) (f : EthPort → EthPort) : (s.modPort p f).core = s.core := by
  unfold State.modPort
  split <;> rfl

theorem modQp_qp {q : Nat} (hq : q < 4096) (s : State) (f : QueuePair → QueuePair) : (s.modQp q f).qp q = f (s.qp q) := by
  simp [State.modQp, State.qp, hq]

section
variable {s : State} (hup : s.pow.down = false)
include hup

/-! Frames (R412, R413). -/

theorem exec_ethernetFrameReceive_of_dropped {p : Nat} {vlan : Option Nat} {kind : FrameKind} (prio bytes : Nat)
    (hdrop : (FMap.get ({} : EthPort) s.net.ports p).accepts vlan kind = false) :
    exec (.ethernetFrameReceive p vlan kind prio bytes) s = .next s := by
  rw [exec_ethernetFrameReceive, execEthernetFrameReceive, powered_of_up hup]
  simp [hdrop]

theorem exec_ethernetFrameReceive_of_taken {p : Nat} {vlan : Option Nat} {kind : FrameKind} (prio bytes : Nat) (hp : p < 2)
    (htake : (FMap.get ({} : EthPort) s.net.ports p).accepts vlan kind = true) :
    ∃ u, exec (.ethernetFrameReceive p vlan kind prio bytes) s = .next u ∧
      ((FMap.get ({} : EthPort) u.net.ports p).ecn = true ↔ Config.rxBuffer < 2 * bytes) ∧ u.core = s.core := by
  rw [exec_ethernetFrameReceive, execEthernetFrameReceive, powered_of_up hup]
  refine ⟨_, rfl, ?_⟩
  by_cases hmark : Config.rxBuffer < 2 * bytes
  · simp [hp, htake, hmark, State.send, modPort_port, modPort_core]
  · simp [hp, htake, hmark, modPort_port, modPort_core]

/-! Congestion (R413). -/

theorem exec_congestionNotification_of_due {q : Nat} (hq : q < 4096)
    (hdue : ∀ t, (s.qp q).lastCut = some t → t + 50000 ≤ s.now / 65536) :
    ∃ u, exec (.congestionNotification q) s = .next u ∧
      (u.qp q).rate = (s.qp q).rate / 2 ∧ (u.qp q).lastCut = some (s.now / 65536) := by
  rw [exec_congestionNotification, execCongestionNotification, powered_of_up hup]
  refine ⟨_, rfl, ?_⟩
  rw [modQp_qp hq]
  cases hcut : (s.qp q).lastCut with
  | none => simp [State.ns]
  | some t => simp [State.ns, hdue t hcut]

theorem exec_congestionNotification_of_recent {q t : Nat} (hq : q < 4096) (hcut : (s.qp q).lastCut = some t)
    (hrecent : s.now / 65536 < t + 50000) :
    ∃ u, exec (.congestionNotification q) s = .next u ∧ (u.qp q).rate = (s.qp q).rate := by
  rw [exec_congestionNotification, execCongestionNotification, powered_of_up hup]
  refine ⟨_, rfl, ?_⟩
  rw [modQp_qp hq]
  simp [State.ns, hcut, Nat.not_le.mpr hrecent]

theorem exec_rateRecovery_of_quiet {q : Nat} (hq : q < 4096) (hquiet : (s.qp q).quietSince + 50000 ≤ s.now / 65536) :
    ∃ u, exec (.rateRecovery q) s = .next u ∧ (u.qp q).rate = min 100000 ((s.qp q).rate + 5000) := by
  rw [exec_rateRecovery, execRateRecovery, powered_of_up hup]
  refine ⟨_, rfl, ?_⟩
  simp [State.ns, hquiet, modQp_qp hq]

theorem exec_rateRecovery_of_notified {q : Nat} (hnotified : s.now / 65536 < (s.qp q).quietSince + 50000) :
    exec (.rateRecovery q) s = .next s := by
  rw [exec_rateRecovery, execRateRecovery, powered_of_up hup]
  simp [State.ns, Nat.not_le.mpr hnotified]

/-! RDMA WRITE (R414). -/

theorem exec_rdmaWrite_of_refused {q obj off : Nat} {data : List Byte} (h : s.rdmaStore q obj off data = none) :
    exec (.rdmaWrite q obj off data) s = .next (s.send (.nak q)) := by
  rw [exec_rdmaWrite, execRdmaWrite, powered_of_up hup]
  simp [h]

theorem exec_rdmaWrite_of_stored {q obj off : Nat} {data : List Byte} {t : State} (h : s.rdmaStore q obj off data = some t) :
    exec (.rdmaWrite q obj off data) s = .next (t.send (.ack q)) := by
  rw [exec_rdmaWrite, execRdmaWrite, powered_of_up hup]
  simp [h]

theorem exec_rdmaWriteWithImmediate_of_refused {q obj off : Nat} {data : List Byte} (imm : BitVec 32)
    (h : s.rdmaStore q obj off data = none) :
    exec (.rdmaWriteWithImmediate q obj off data imm) s = .next (s.send (.nak q)) := by
  rw [exec_rdmaWriteWithImmediate, execRdmaWriteWithImmediate, powered_of_up hup]
  simp [h]

/-- The immediate's four bytes are stored behind the data's, as cells of its word. -/
theorem exec_rdmaWriteWithImmediate_of_stored {q obj off : Nat} {data : List Byte} {t : State} (imm : BitVec 32)
    (h : s.rdmaStore q obj off data = some t) :
    exec (.rdmaWriteWithImmediate q obj off data imm) s =
      .next ((t.performStore [] (cellsOf [(t.mailPa (Config.immOffset q % (2 ^ 24 - 3)), 4)] (leBytes 4 imm.toNat))).send
        (.ack q)) := by
  rw [exec_rdmaWriteWithImmediate, execRdmaWriteWithImmediate, powered_of_up hup]
  simp only [h]
  rfl

/-! RDMA READ (R238, R334, R414). -/

theorem exec_rdmaRead_of_refused {q obj : Nat} (off len : Nat)
    (h : ¬ (q < 4096 ∧ (s.qp q).role = 1 ∧ ∃ e, s.walkObj (s.qp q).asid obj = some e ∧ e.getLsbD 80 = true)) :
    exec (.rdmaRead q obj off len) s = .next (s.send (.nak q)) := by
  rw [exec_rdmaRead, execRdmaRead, powered_of_up hup]
  dsimp only
  rw [if_pos]
  cases hobj : s.walkObj (s.qp q).asid obj with
  | none => exact .inr (.inr rfl)
  | some e =>
    have hbad : ¬ (q < 4096 ∧ (s.qp q).role = 1 ∧ e.getLsbD 80 = true) :=
      fun ⟨hq, hrole, hbit⟩ => h ⟨hq, hrole, e, hobj, hbit⟩
    simpa only [Decidable.not_and_iff_not_or_not, Nat.not_lt, Bool.not_eq_true] using hbad

theorem exec_rdmaRead_of_exported {q obj off len : Nat} {e : BitVec 256} {ps : List Piece} {ds : List Nat} {bs : List Byte}
    (hq : q < 4096) (hrole : (s.qp q).role = 1) (hobj : s.walkObj (s.qp q).asid obj = some e) (hbit : e.getLsbD 80 = true)
    (hport : s.cpPort (s.qp q).asid obj [kGLOBAL, kMAILBOX, kSIGNAL] [rR] [] off len = some (ps, ds))
    (hbytes : s.rdExport ps = some bs) :
    exec (.rdmaRead q obj off len) s = .next ({ s with freeCtr := s.freeCtr + 1 }.send (.readData q bs)) := by
  rw [exec_rdmaRead, execRdmaRead, powered_of_up hup]
  simp only [hobj, hport, hbytes]
  rw [if_neg (by simp [hq, hrole, hbit])]

/-! Rates of ports (R412). -/

theorem exec_autoNegotiation_of_rateOk {gbit : Nat} (p : Nat) (h : rateOk gbit = true) :
    exec (.autoNegotiation p gbit) s = .next (s.modPort p fun x => { x with rate := gbit }) := by
  rw [exec_autoNegotiation, execAutoNegotiation, powered_of_up hup, if_pos h]

theorem exec_autoNegotiation_of_not_rateOk {gbit : Nat} (p : Nat) (h : rateOk gbit = false) :
    exec (.autoNegotiation p gbit) s = .next s := by
  rw [exec_autoNegotiation, execAutoNegotiation, powered_of_up hup, if_neg (by simp [h])]

/-! The requests (R412, R414). -/

variable (hfw : s.fwActive = true)
include hfw

theorem exec_portRateSet_of_rateOk {gbit : Nat} (p : Nat) (h : rateOk gbit = true) :
    exec (.portRateSet p gbit) s = .next (s.mirrored (s.modPort p fun x => { x with rate := gbit })) := by
  rw [exec_portRateSet, execPortRateSet, onRequest_of_served hup hfw, if_pos h]

theorem exec_portRateSet_of_not_rateOk {gbit : Nat} (p : Nat) (h : rateOk gbit = false) :
    exec (.portRateSet p gbit) s = .next s := by
  rw [exec_portRateSet, execPortRateSet, onRequest_of_served hup hfw, if_neg (by simp [h]), mirrored_self]

theorem exec_vlanConfig_of_inRange {ids : List Nat} (p : Nat) (hlen : ids.length ≤ 64) (hids : ∀ v ∈ ids, v < 4096) :
    exec (.vlanConfig p ids) s = .next (s.mirrored (s.modPort p fun x => { x with vlans := ids })) := by
  rw [exec_vlanConfig, execVlanConfig, onRequest_of_served hup hfw, if_pos ⟨hlen, by simpa using hids⟩]

theorem exec_vlanConfig_of_outOfRange {ids : List Nat} (p : Nat) (h : 64 < ids.length ∨ ∃ v ∈ ids, 4096 ≤ v) :
    exec (.vlanConfig p ids) s = .next s := by
  rw [exec_vlanConfig, execVlanConfig, onRequest_of_served hup hfw, if_neg, mirrored_self]
  rintro ⟨hlen, hids⟩
  rcases h with hlong | ⟨v, hv, hbig⟩
  · omega
  · have hsmall := of_decide_eq_true (List.all_eq_true.mp hids v hv)
    omega

theorem exec_queuePairBinding_of_inRange {asid role : Nat} (q : Nat) (hasid : asid < 4096) (hlow : 1 ≤ role)
    (hhigh : role ≤ 3) :
    exec (.queuePairBinding q asid role) s =
      .next (s.mirrored (s.modQp q fun x => { x with asid := asid, role := role, quietSince := s.ns })) := by
  rw [exec_queuePairBinding, execQueuePairBinding, onRequest_of_served hup hfw, if_pos ⟨hasid, hlow, hhigh⟩]

theorem exec_queuePairBinding_of_outOfRange {asid role : Nat} (q : Nat) (h : 4096 ≤ asid ∨ role = 0 ∨ 3 < role) :
    exec (.queuePairBinding q asid role) s = .next s := by
  rw [exec_queuePairBinding, execQueuePairBinding, onRequest_of_served hup hfw, if_neg (by omega), mirrored_self]

end

/-! The store of an RDMA WRITE (R414). -/

section
variable {s : State} {q obj off : Nat} {data : List Byte}

theorem rdmaStore_eq_none (h : 4096 ≤ q ∨ (s.qp q).role ≠ 1 ∨
      s.cpPort (s.qp q).asid obj [kGLOBAL, kMAILBOX] [rW] [] off data.length = none) :
    s.rdmaStore q obj off data = none := by
  rcases h with hq | hrole | hport
  · simp [State.rdmaStore, hq]
  · simp [State.rdmaStore, hrole]
  · simp [State.rdmaStore, hport]

theorem rdmaStore_eq_some {ps : List Piece} {ds : List Nat} (hq : q < 4096) (hrole : (s.qp q).role = 1)
    (hport : s.cpPort (s.qp q).asid obj [kGLOBAL, kMAILBOX] [rW] [] off data.length = some (ps, ds)) :
    s.rdmaStore q obj off data = some (s.performStore ds (cellsOf ps data)) := by
  simp [State.rdmaStore, hrole, hport, Nat.not_le.mpr hq]

end

/-- The immediate word's place is that of the package, before and after a store. -/
theorem performStore_mailPa (s : State) (dirty : List Nat) (cs : List (Nat × Byte)) (off : Nat) :
    (s.performStore dirty cs).mailPa off = s.mailPa off := by
  simp [State.mailPa]

section
variable {s : State} (hup : s.pow.down = false) {q obj off : Nat} {data : List Byte} {ps : List Piece} (hq : q < 4096)
  (hrole : (s.qp q).role = 1)
  (hport : s.cpPort (s.qp q).asid obj [kGLOBAL, kMAILBOX] [rW] [] off data.length = some (ps, []))
include hup hq hrole hport

/-- An RDMA WRITE to pages that are marked already writes its bytes and nothing else, and is acknowledged. -/
theorem exec_rdmaWrite_wrote : ∃ u, exec (.rdmaWrite q obj off data) s = .next u ∧ s.Wrote u (cellsOf ps data) ∧
    u.net.outbox = s.net.outbox ++ [.ack q] := by
  refine ⟨_, exec_rdmaWrite_of_stored hup (rdmaStore_eq_some hq hrole hport), ?_, ?_⟩
  · exact wrote_of_sameMem (performStore_wrote s _) (sameMem_send _ _)
  · simp [State.send]

/-- With an immediate, its word is written behind the data. -/
theorem exec_rdmaWriteWithImmediate_wrote (imm : BitVec 32) :
    ∃ u, exec (.rdmaWriteWithImmediate q obj off data imm) s = .next u ∧ u.net.outbox = s.net.outbox ++ [.ack q] ∧
      s.Wrote u (cellsOf ps data ++
        cellsOf [(s.mailPa (Config.immOffset q % (2 ^ 24 - 3)), 4)] (leBytes 4 imm.toNat)) := by
  refine ⟨_, exec_rdmaWriteWithImmediate_of_stored hup imm (rdmaStore_eq_some hq hrole hport), ?_, ?_⟩
  · simp [State.send]
  · rw [performStore_mailPa]
    exact wrote_of_sameMem (wrote_append (performStore_wrote s _) (performStore_wrote _ _)) (sameMem_send _ _)

end

theorem rateOk_iff {gbit : Nat} : rateOk gbit = true ↔ gbit = 200 ∨ gbit = 400 ∨ gbit = 800 := by
  simp [rateOk, or_assoc]

/-- Settles O48. Each happening by the lemma of its case above; what an RDMA WRITE writes rests on `performStore_wrote`. -/
theorem ethernetAndRdmaEvents : Obligations.EthernetAndRdmaEvents := by
  unfold Obligations.EthernetAndRdmaEvents
  intro s hup
  refine ⟨?_, ?_, ?_, ?_, ?_, ?_, ?_⟩
  · intro p vlan kind prio bytes hp x
    refine ⟨?_, ?_, ?_⟩
    · rintro rfl
      exact exec_ethernetFrameReceive_of_dropped hup prio bytes rfl
    · rintro v rfl hv hkind
      exact exec_ethernetFrameReceive_of_dropped hup prio bytes (by simpa [EthPort.accepts, hkind] using hv)
    · rintro v rfl hv hkind
      exact exec_ethernetFrameReceive_of_taken hup prio bytes hp (by simpa [EthPort.accepts, hkind] using hv)
  · intro q hq
    exact ⟨exec_congestionNotification_of_due hup hq, fun t => exec_congestionNotification_of_recent hup hq,
      exec_rateRecovery_of_quiet hup hq, exec_rateRecovery_of_notified hup⟩
  · intro q obj off data imm port nak
    refine ⟨?_, ?_, ?_⟩
    · intro h
      have hnone := rdmaStore_eq_none h
      exact ⟨exec_rdmaWrite_of_refused hup hnone, exec_rdmaWriteWithImmediate_of_refused hup imm hnone⟩
    · intro hq hrole ps ds hport
      rw [exec_rdmaWrite_of_stored hup (rdmaStore_eq_some hq hrole hport), State.send, performStore_net]
    · intro hq hrole ps hport
      exact ⟨exec_rdmaWrite_wrote hup hq hrole hport, exec_rdmaWriteWithImmediate_wrote hup hq hrole hport imm⟩
  · intro q obj off len ok
    refine ⟨exec_rdmaRead_of_refused hup off len, ?_⟩
    rintro ⟨hq, hrole, e, hobj, hbit⟩ ps ds bs hport hbytes
    exact ⟨_, exec_rdmaRead_of_exported hup hq hrole hobj hbit hport hbytes, rfl, fun _ => rfl⟩
  · intro p gbit hp hrate
    have hok := rateOk_iff.mpr hrate
    exact ⟨_, exec_autoNegotiation_of_rateOk hup p hok, congrArg EthPort.rate (modPort_port hp s _),
      fun hfw => exec_portRateSet_of_rateOk hup hfw p hok⟩
  · intro p gbit h200 h400 h800
    have hbad : rateOk gbit = false := by
      rw [← Bool.not_eq_true, rateOk_iff]
      omega
    exact ⟨exec_autoNegotiation_of_not_rateOk hup p hbad, fun hfw => exec_portRateSet_of_not_rateOk hup hfw p hbad⟩
  · intro hfw
    refine ⟨?_, fun p ids => exec_vlanConfig_of_outOfRange hup hfw p, ?_,
      fun q asid role => exec_queuePairBinding_of_outOfRange hup hfw q⟩
    · intro p ids hp hlen hids
      refine ⟨_, exec_vlanConfig_of_inRange hup hfw p hlen hids, ?_⟩
      rw [State.mirrored_net, modPort_port hp]
    · intro q asid role hq hasid hlow hhigh
      refine ⟨_, exec_queuePairBinding_of_inRange hup hfw q hasid hlow hhigh, ?_⟩
      rw [State.qp, State.mirrored_net, ← State.qp, modQp_qp hq]
      exact ⟨rfl, rfl⟩

end Sys2Proof.Machine.EthernetAndRdma

/-! PROOF. Finite maps under `mapValues`, `filter` and folds of writes; what a fold of steps, each of which acts on one place,
leaves at each place. -/

namespace Sys2Proof.Machine.MapsAndFolds
open Sys2Proof

/-! Finite maps. -/

section
variable {α : Type}

/-- A key that does not read as the default is listed. -/
theorem mem_of_get_ne {d : α} {m : FMap α} {k : Nat} (h : FMap.get d m k ≠ d) : (k, FMap.get d m k) ∈ m := by
  induction m with
  | nil => exact absurd rfl h
  | cons x m ih =>
    obtain ⟨j, v⟩ := x
    by_cases hj : j = k
    · simp [FMap.get, hj]
    · simp only [FMap.get, if_neg hj] at h ⊢
      exact List.mem_cons_of_mem _ (ih h)

/-- What a key reads as is the default or listed. -/
theorem get_eq_or_mem (d : α) (m : FMap α) (k : Nat) : FMap.get d m k = d ∨ (k, FMap.get d m k) ∈ m := by
  by_cases h : FMap.get d m k = d
  · exact .inl h
  · exact .inr (mem_of_get_ne h)

theorem get_filter_key (d : α) (p : Nat → Bool) (m : FMap α) (k : Nat) :
    FMap.get d (m.filter fun (j, _) => p j) k = if p k = true then FMap.get d m k else d := by
  induction m with
  | nil => simp [FMap.get]
  | cons x m ih =>
    obtain ⟨j, v⟩ := x
    by_cases hp : p j = true
    · by_cases hj : j = k
      · subst hj
        simp [FMap.get, hp]
      · simp [FMap.get, hp, hj, ih]
    · by_cases hj : j = k
      · subst hj
        simpa [FMap.get, hp] using ih
      · simp [FMap.get, hp, hj, ih]

theorem mem_of_mem_erase {m : FMap α} {k : Nat} {e : Nat × α} (h : e ∈ FMap.erase m k) : e ∈ m ∧ e.1 ≠ k := by
  induction m with
  | nil => exact absurd h (by simp [FMap.erase])
  | cons x m ih =>
    obtain ⟨j, v⟩ := x
    by_cases hj : j = k
    · rw [FMap.erase, if_pos hj] at h
      exact ⟨List.mem_cons_of_mem _ (ih h).1, (ih h).2⟩
    · rw [FMap.erase, if_neg hj] at h
      rcases List.mem_cons.mp h with rfl | htail
      · exact ⟨List.mem_cons_self, hj⟩
      · exact ⟨List.mem_cons_of_mem _ (ih htail).1, (ih htail).2⟩

theorem mem_insert {m : FMap α} {k : Nat} {v : α} {e : Nat × α} (h : e ∈ FMap.insert m k v) : e = (k, v) ∨ e ∈ m := by
  induction m with
  | nil => exact .inl (by simpa [FMap.insert] using h)
  | cons x m ih =>
    obtain ⟨j, w⟩ := x
    rw [FMap.insert] at h
    split at h
    · exact List.mem_cons.mp h
    · rcases List.mem_cons.mp h with rfl | htail
      · exact .inr List.mem_cons_self
      · exact (ih htail).imp_right (List.mem_cons_of_mem _)

variable [DecidableEq α]

/-- An entry of a map that was written is the one written, or an earlier one of another key. -/
theorem mem_set {d : α} {m : FMap α} {k : Nat} {v : α} {e : Nat × α} (h : e ∈ FMap.set d m k v) :
    e = (k, v) ∨ e ∈ m ∧ e.1 ≠ k := by
  unfold FMap.set at h
  split at h
  · exact .inr (mem_of_mem_erase h)
  · exact (mem_insert h).imp_right mem_of_mem_erase

/-- `f` applied to every value of a canonical map, where it keeps the default. -/
theorem get_mapValues_of_wf {d : α} {f : Nat → α → α} (hf : ∀ k, f k d = d) {m : FMap α} (hm : FMap.wf d m = true) (k : Nat) :
    FMap.get d (FMap.mapValues d f m) k = f k (FMap.get d m k) := by
  suffices h : ∀ lo, FMap.wfFrom d lo m = true → FMap.get d (FMap.mapValues d f m) k = f k (FMap.get d m k) from h 0 hm
  clear hm
  induction m with
  | nil => exact fun _ _ => (hf k).symm
  | cons x m ih =>
    obtain ⟨j, v⟩ := x
    intro lo hlo
    simp only [FMap.wfFrom, Bool.and_eq_true, decide_eq_true_eq] at hlo
    have hrest := ih _ hlo.2
    rw [FMap.mapValues] at hrest ⊢
    by_cases hj : j = k
    · subst hj
      rw [FMap.get_of_lt d m hlo.2 (Nat.lt_succ_self j), hf] at hrest
      by_cases hv : f j v = d
      · simp [FMap.get, hv, hrest]
      · simp [FMap.get, hv]
    · by_cases hv : f j v = d
      · simp [FMap.get, hv, hj, hrest]
      · simp [FMap.get, hv, hj, hrest]

/-- `f` applied to a listed value that it does not make the default. -/
theorem get_mapValues_of_ne {d : α} {f : Nat → α → α} {m : FMap α} {k : Nat} (hk : FMap.get d m k ≠ d)
    (hf : f k (FMap.get d m k) ≠ d) : FMap.get d (FMap.mapValues d f m) k = f k (FMap.get d m k) := by
  induction m with
  | nil => exact absurd rfl hk
  | cons x m ih =>
    obtain ⟨j, v⟩ := x
    rw [FMap.mapValues] at ih ⊢
    by_cases hj : j = k
    · subst hj
      simp only [FMap.get, if_true] at hf ⊢
      simp [FMap.get, hf]
    · simp only [FMap.get, if_neg hj] at hk hf ⊢
      have hrest := ih hk hf
      by_cases hv : f j v = d
      · simp [hv, hrest]
      · simp [FMap.get, hv, hj, hrest]

end

/-! Folds of steps that each act on one place. -/

section
variable {β γ : Type} {f : β → Nat → β} {see : β → Nat → γ}

/-- What stands at a place that the fold does not visit. -/
theorem foldl_see_of_notMem (hother : ∀ b i j, j ≠ i → see (f b i) j = see b j) {xs : List Nat} {j : Nat} (hj : j ∉ xs) (b : β) :
    see (xs.foldl f b) j = see b j := by
  induction xs generalizing b with
  | nil => rfl
  | cons x xs ih =>
    rw [List.foldl_cons, ih (fun h => hj (List.mem_cons_of_mem _ h)), hother _ _ _ (fun h => hj (by simp [h]))]

/-- What stands at a place that the fold visits once is what the visit leaves, which finds it as it was. -/
theorem foldl_see_of_mem {I : β → Prop} (hI : ∀ b i, I b → I (f b i)) (hother : ∀ b i j, j ≠ i → see (f b i) j = see b j)
    {xs : List Nat} (hxs : xs.Nodup) {i : Nat} (hi : i ∈ xs) {b : β} (hb : I b) :
    ∃ c, I c ∧ see c i = see b i ∧ see (xs.foldl f b) i = see (f c i) i := by
  induction xs generalizing b with
  | nil => exact absurd hi (by simp)
  | cons x xs ih =>
    obtain ⟨hx, htail⟩ := List.nodup_cons.mp hxs
    rw [List.foldl_cons]
    rcases List.mem_cons.mp hi with rfl | hmem
    · exact ⟨b, hb, rfl, foldl_see_of_notMem hother hx _⟩
    · obtain ⟨c, hc, hsee, hlast⟩ := ih htail hmem (hI b x hb)
      exact ⟨c, hc, hsee.trans (hother b x i fun h => hx (h ▸ hmem)), hlast⟩

end

/-- A fold over a list with its indices, whose step at an index acts on that place by `upd`. -/
theorem foldl_zipIdx_see {α β γ : Type} {f : β → α × Nat → β} {see : β → Nat → γ} {upd : γ → α → γ}
    (hsame : ∀ b e i, see (f b (e, i)) i = upd (see b i) e) (hother : ∀ b e i j, j ≠ i → see (f b (e, i)) j = see b j)
    (xs : List α) (b : β) (k p : Nat) :
    see ((xs.zipIdx k).foldl f b) (k + p) = (xs[p]?.map (upd (see b (k + p)))).getD (see b (k + p)) ∧
      ∀ j < k, see ((xs.zipIdx k).foldl f b) j = see b j := by
  induction xs generalizing b k p with
  | nil => simp
  | cons x xs ih =>
    rw [List.zipIdx_cons, List.foldl_cons]
    refine ⟨?_, fun j hj => ?_⟩
    · cases p with
      | zero => simpa [hsame] using (ih (f b (x, k)) (k + 1) 0).2 k (by omega)
      | succ p =>
        have h := (ih (f b (x, k)) (k + 1) p).1
        rw [hother b x k (k + 1 + p) (by omega)] at h
        simpa [show k + 1 + p = k + (p + 1) by omega] using h
    · rw [(ih (f b (x, k)) (k + 1) 0).2 j (by omega), hother b x k j (by omega)]

end Sys2Proof.Machine.MapsAndFolds

/-! PROOF. The happenings of the straits and of device time: states of a strait, its lanes, the flooding of changes, the
servo and the requests that configure them (R266, R267, R279, R282, R415, R417 to R422). -/

namespace Sys2Proof.Machine.StraitsAndTime
open Sys2Proof EthernetAndRdma

/-! What is sent, and what a flood leaves alone (R421). -/

@[simp] theorem send_strait (s : State) (o : Output) (p : Nat) : (s.send o).strait p = s.strait p := rfl
@[simp] theorem send_core (s : State) (o : Output) : (s.send o).core = s.core := rfl
@[simp] theorem send_applied (s : State) (o : Output) : (s.send o).net.applied = s.net.applied := rfl
@[simp] theorem send_pkg (s : State) (o : Output) : (s.send o).net.pkg = s.net.pkg := rfl
@[simp] theorem send_outbox (s : State) (o : Output) : (s.send o).net.outbox = s.net.outbox ++ [o] := rfl

/-- A flood of the changes that wait sends flits and empties their list: nothing else changes. -/
theorem floodDue_frame (s : State) : ∃ sent due, s.floodDue = { s with net := { s.net with outbox := sent, unsent := due } } := by
  have hsent : ∀ cs : List (LinkChange × Nat), ∃ sent, cs.foldl (fun a (c, but) =>
      ((List.range 12).filter fun p => p != but && (FMap.get ({} : Strait) s.net.straits p).state == 2).foldl
        (fun b p => b.send (.flit p c)) a) s = { s with net := { s.net with outbox := sent } } := by
    intro cs
    refine List.foldlRecOn (motive := fun t : State => ∃ sent, t = { s with net := { s.net with outbox := sent } }) cs _
      ⟨s.net.outbox, rfl⟩ ?_
    intro t ht x _
    refine List.foldlRecOn (motive := fun t : State => ∃ sent, t = { s with net := { s.net with outbox := sent } }) _ _ ht ?_
    rintro _ ⟨sent, rfl⟩ p _
    exact ⟨sent ++ [.flit p x.1], rfl⟩
  unfold State.floodDue
  split
  · obtain ⟨sent, h⟩ := hsent s.net.unsent
    exact ⟨sent, [], by rw [h]⟩
  · exact ⟨s.net.outbox, s.net.unsent, rfl⟩

theorem flood_frame (s : State) (c : LinkChange) (but : Nat) :
    ∃ sent due, s.flood c but = { s with net := { s.net with outbox := sent, unsent := due } } := by
  obtain ⟨sent, due, h⟩ := floodDue_frame { s with net := { s.net with unsent := s.net.unsent ++ [(c, but)] } }
  exact ⟨sent, due, h⟩

/-! A strait changes its state (R282, R420). -/

@[simp] theorem modStrait_strait (s : State) (p : Nat) (f : Strait → Strait) : (s.modStrait p f).strait p = f (s.strait p) := by
  simp [State.modStrait, State.strait]

/-- A strait changed, the change applied, and the news of it flooded. -/
theorem straitTo_eq (s : State) (p st : Nat) (f : Strait → Strait) : ∃ c sent due, c.version = s.net.applied + 1 ∧
    let t := (s.modStrait p fun x => { f x with state := st, version := s.net.applied + 1 }).applyLink c
    s.straitTo p st f = { t with net := { t.net with outbox := sent, unsent := due } } := by
  obtain ⟨sent, due, h⟩ := flood_frame _ _ 12
  exact ⟨_, sent, due, rfl, h⟩

/-- The entry of a strait that changed its state carries the next version, which is then the one applied. -/
theorem straitTo_frame (s : State) (p st : Nat) (f : Strait → Strait) :
    (s.straitTo p st f).strait p = { f (s.strait p) with state := st, version := s.net.applied + 1 } ∧
      (s.straitTo p st f).net.applied = s.net.applied + 1 ∧ (s.straitTo p st f).net.pkg = s.net.pkg ∧
      (s.straitTo p st f).core = s.core := by
  obtain ⟨c, sent, due, hversion, h⟩ := straitTo_eq s p st f
  rw [h]
  refine ⟨modStrait_strait s p fun x => { f x with state := st, version := s.net.applied + 1 }, ?_, rfl, rfl⟩
  exact (congrArg (max s.net.applied) hversion).trans (Nat.max_eq_right (Nat.le_succ _))

theorem trainStrait_frame {s : State} {p : Nat} (hp : p < 12) (hdown : (s.strait p).state = 0) :
    ((s.trainStrait p).strait p).state = 1 ∧ ((s.trainStrait p).strait p).version = s.net.applied + 1 ∧
      (s.trainStrait p).net.applied = s.net.applied + 1 ∧ .identity p ∈ (s.trainStrait p).net.outbox ∧
      (s.trainStrait p).core = s.core := by
  obtain ⟨hstrait, happlied, _, hcore⟩ :=
    straitTo_frame s p 1 fun x => { x with identity := none, agreed := false, crcRun := 0, stopped := [] }
  rw [State.trainStrait, if_pos ⟨hp, hdown⟩]
  simp [hstrait, happlied, hcore]

theorem trainStrait_pkg (s : State) (p : Nat) : (s.trainStrait p).net.pkg = s.net.pkg := by
  unfold State.trainStrait
  split
  · exact (straitTo_frame s p 1 _).2.2.1
  · rfl

theorem downStrait_frame {s : State} {p : Nat} (hp : p < 12) (hup : (s.strait p).state ≠ 0) :
    ((s.downStrait p).strait p).state = 0 ∧ (s.downStrait p).net.applied = s.net.applied + 1 := by
  obtain ⟨hstrait, happlied, _, _⟩ :=
    straitTo_frame s p 0 fun x => { x with identity := none, agreed := false, crcRun := 0, stopped := [] }
  rw [State.downStrait, if_pos ⟨hp, hup⟩]
  simp [hstrait, happlied]

/-! The package's number (R279). -/

theorem wrCells_net (s : State) (cs : List (Nat × Byte)) : (s.wrCells cs).net = s.net := by
  induction cs generalizing s with
  | nil => rfl
  | cons x cs ih => exact ih (s.wr8 x.1 x.2)

theorem joinDomain_pkg {s : State} {n : Nat} (hn : n < 64) (hother : n ≠ s.net.pkg)
    (hdown : ∀ x ∈ s.net.straits, x.2.state = 0) : (s.joinDomain n).net.pkg = n := by
  rw [State.joinDomain, if_pos ⟨hn, hother, by simpa using hdown⟩]
  exact congrArg Network.pkg (wrCells_net _ _)

/-! Versions and changes (R421, R422). -/

/-- A version is agreed with a peer that holds major version 1. -/
theorem negotiate_isSome (vs : List (Nat × Nat)) : (negotiate [(1, 0)] vs).isSome = true ↔ ∃ v ∈ vs, v.1 = 1 := by
  by_cases h : ∃ v ∈ vs, v.1 = 1
  · have hmem : 1 ∈ vs.map Prod.fst := by simpa using h
    simp [negotiate, h, hmem]
  · have hmem : 1 ∉ vs.map Prod.fst := by simpa using h
    simp [negotiate, h, hmem]

theorem mem_insertChange {c d : LinkChange} {ds : List LinkChange} : d ∈ insertChange c ds ↔ d = c ∨ d ∈ ds := by
  induction ds with
  | nil => simp [insertChange]
  | cons e es ih =>
    rw [insertChange]
    split
    · simp
    · simp [ih, or_left_comm]

theorem seen_applyLink_same (s : State) (c : LinkChange) : (s.applyLink c).seen c = true :=
  List.any_eq_true.mpr ⟨c, mem_insertChange.mpr (.inl rfl), by simp⟩

theorem seen_applyLink_of_seen {s : State} {d : LinkChange} (c : LinkChange) (h : s.seen d = true) :
    (s.applyLink c).seen d = true := by
  obtain ⟨e, he, hsame⟩ := List.any_eq_true.mp h
  exact List.any_eq_true.mpr ⟨e, mem_insertChange.mpr (.inr he), hsame⟩

/-- Changes applied one after the other have been seen then, as have those seen before; the floor stands. -/
theorem foldl_applyLink_frame (cs : List LinkChange) (s : State) :
    (∀ c, c ∈ cs ∨ s.seen c = true → (cs.foldl (fun a c => a.applyLink c) s).seen c = true) ∧
      (cs.foldl (fun a c => a.applyLink c) s).net.floor = s.net.floor ∧
      (cs.foldl (fun a c => a.applyLink c) s).core = s.core := by
  induction cs generalizing s with
  | nil => simp
  | cons d ds ih =>
    obtain ⟨hseen, hfloor, hcore⟩ := ih (s.applyLink d)
    refine ⟨fun c hc => hseen c ?_, hfloor, hcore⟩
    rcases hc with hmem | hold
    · rcases List.mem_cons.mp hmem with rfl | htail
      · exact .inr (seen_applyLink_same s c)
      · exact .inl htail
    · exact .inr (seen_applyLink_of_seen d hold)

theorem takeTable_frame (s : State) (oldest : Nat) (cs : List LinkChange) :
    (s.takeTable oldest cs).net.floor = max s.net.floor oldest ∧ (∀ c ∈ cs, (s.takeTable oldest cs).seen c = true) ∧
      (s.takeTable oldest cs).core = s.core := by
  obtain ⟨hseen, hfloor, hcore⟩ := foldl_applyLink_frame (cs.filter fun c => !s.seen c)
    { s with net := { s.net with floor := max s.net.floor oldest, sets := s.net.sets.filter fun x => decide (oldest ≤ x.version) } }
  refine ⟨hfloor, fun c hc => hseen c ?_, hcore⟩
  by_cases hold : s.seen c = true
  · exact .inr hold
  · exact .inl (List.mem_filter.mpr ⟨hc, by simpa using hold⟩)

theorem takeChange_of_seen {s : State} {c : LinkChange} (p : Nat) (h : s.seen c = true) : s.takeChange p c = s := by
  simp [State.takeChange, h]

/-- A change not seen, while fewer than 16 versions are retained, is applied. -/
theorem takeChange_of_new {s : State} {c : LinkChange} (p : Nat) (hnew : s.seen c = false)
    (hroom : (latestVersions s.net.changes).length < 16) :
    (s.takeChange p c).seen c = true ∧ (s.takeChange p c).net.applied = max s.net.applied c.version := by
  obtain ⟨sent, due, h⟩ := flood_frame s c p
  have happly : s.takeChange p c = (s.flood c p).applyLink c := by
    simp only [State.takeChange, hnew]
    rw [if_neg (by simp), if_neg (by omega)]
  rw [happly]
  exact ⟨seen_applyLink_same _ c, by rw [h]; rfl⟩

/-! The servo (R266, R415). -/

/-- The servo after a sync interval with a grandmaster. -/
def afterSync (x : Servo) (offset : Int) (source : Nat) : Servo :=
  let near := decide (-40 ≤ offset) && decide (offset ≤ 40)
  let inRun := if near then x.inRun + 1 else 0
  let outRun := if near then 0 else x.outRun + 1
  let locked := if x.locked then decide (outRun < 4) else decide (16 ≤ inRun)
  { x with locked := locked, ever := x.ever || locked, inRun := inRun, outRun := outRun, offset := offset,
           grandmaster := source, master := false }

/-- A lock is kept by an interval within 40 ns or until the fourth outside, and won by the sixteenth within. -/
theorem afterSync_locked (x : Servo) (offset : Int) (source : Nat) : let near := -40 ≤ offset ∧ offset ≤ 40
    ((afterSync x offset source).locked = true ↔ if x.locked = true then near ∨ x.outRun < 3 else near ∧ 15 ≤ x.inRun) := by
  intro near
  by_cases hn : near
  · have hnear : (decide (-40 ≤ offset) && decide (offset ≤ 40)) = true := by simpa using hn
    by_cases hl : x.locked = true <;> simp [afterSync, hnear, hn, hl]
  · have hfar : (decide (-40 ≤ offset) && decide (offset ≤ 40)) = false := by simpa [near] using hn
    have hfourth : x.outRun + 1 < 4 ↔ x.outRun < 3 := by omega
    by_cases hl : x.locked = true <;> simp [afterSync, hfar, hn, hl, hfourth]

section
variable {s : State} (hup : s.pow.down = false)
include hup

/-! The happenings of a strait (R417 to R419, R421). -/

theorem exec_straitPeerDetect_of_down {p : Nat} : exec (.straitPeerDetect p) s = .next (s.trainStrait p) := by
  rw [exec_straitPeerDetect, execStraitPeerDetect, powered_of_up hup]

theorem exec_identityFlit_of_training {p : Nat} (hp : p < 12) (htrain : (s.strait p).state = 1) (pkg port : Nat)
    (vs : List (Nat × Nat)) :
    exec (.identityFlit p pkg port vs) s =
      let s1 := s.modStrait p fun x =>
        { x with peerPkg := pkg % 64, peerPort := port % 16, identity := some (pkg, port), agreed := (negotiate [(1, 0)] vs).isSome }
      .next (if (s.strait p).lastUp.isSome && (s.strait p).lastUp != some (pkg, port) then s1.downStrait p else s1) := by
  rw [exec_identityFlit, execIdentityFlit, powered_of_up hup, if_pos ⟨hp, htrain⟩]

theorem exec_identityFlit_of_known {p pkg port : Nat} (hp : p < 12) (hpkg : pkg < 64) (htrain : (s.strait p).state = 1)
    (hknown : (s.strait p).lastUp = none ∨ (s.strait p).lastUp = some (pkg, port)) (vs : List (Nat × Nat)) :
    ∃ u, exec (.identityFlit p pkg port vs) s = .next u ∧ (u.strait p).state = 1 ∧
      (u.strait p).identity = some (pkg, port) ∧ (u.strait p).peerPkg = pkg ∧
      ((u.strait p).agreed = true ↔ ∃ v ∈ vs, v.1 = 1) := by
  refine ⟨_, exec_identityFlit_of_training hup hp htrain pkg port vs, ?_⟩
  rw [if_neg (by rcases hknown with h | h <;> simp [h]), modStrait_strait]
  exact ⟨htrain, rfl, Nat.mod_eq_of_lt hpkg, negotiate_isSome vs⟩

theorem exec_identityFlit_of_other {p pkg port : Nat} (hp : p < 12) (htrain : (s.strait p).state = 1)
    (hsome : (s.strait p).lastUp ≠ none) (hother : (s.strait p).lastUp ≠ some (pkg, port)) (vs : List (Nat × Nat)) :
    ∃ u, exec (.identityFlit p pkg port vs) s = .next u ∧ (u.strait p).state = 0 := by
  refine ⟨_, exec_identityFlit_of_training hup hp htrain pkg port vs, ?_⟩
  rw [if_pos (by simp [Option.isSome_iff_ne_none, hsome, hother])]
  exact (downStrait_frame hp (by simp [htrain])).1

theorem exec_straitUp_of_agreed {p : Nat} (hp : p < 12) (htrain : (s.strait p).state = 1)
    (hid : (s.strait p).identity ≠ none) (hagreed : (s.strait p).agreed = true) :
    ∃ u, exec (.straitUp p) s = .next u ∧ (u.strait p).state = 2 ∧ (u.strait p).lastUp = (s.strait p).identity ∧
      u.net.applied = s.net.applied + 1 := by
  obtain ⟨hstrait, happlied, _, _⟩ := straitTo_frame s p 2 fun y => { y with lastUp := y.identity, crcRun := 0 }
  refine ⟨s.straitTo p 2 fun y => { y with lastUp := y.identity, crcRun := 0 }, ?_, ?_, ?_, happlied⟩
  · rw [exec_straitUp, execStraitUp, powered_of_up hup]
    exact congrArg _ (if_pos ⟨hp, htrain, hagreed, Option.isSome_iff_ne_none.mpr hid⟩)
  · rw [hstrait]
  · rw [hstrait]

theorem exec_straitUp_of_not_agreed {p : Nat} (hagreed : (s.strait p).agreed = false) :
    exec (.straitUp p) s = .next s := by
  rw [exec_straitUp, execStraitUp, powered_of_up hup]
  simp [hagreed]

theorem exec_straitDown_eq (p : Nat) : exec (.straitDown p) s = .next (s.downStrait p) := by
  rw [exec_straitDown, execStraitDown, powered_of_up hup]

theorem exec_flitCrcRetry_of_sixteenth {p : Nat} (hp : p < 12) (hlive : (s.strait p).state ≠ 0)
    (hrun : (s.strait p).crcRun = 15) : exec (.flitCrcRetry p true) s = .next (s.downStrait p) := by
  rw [exec_flitCrcRetry, execFlitCrcRetry, powered_of_up hup, if_pos ⟨hp, hlive⟩]
  simp [hrun]

theorem exec_flitCrcRetry_of_fewer {p : Nat} {again : Bool} (hp : p < 12) (hlive : (s.strait p).state ≠ 0)
    (hrun : again = false ∨ (s.strait p).crcRun < 15) :
    ∃ u, exec (.flitCrcRetry p again) s = .next u ∧ (u.strait p).state = (s.strait p).state ∧
      (u.strait p).crcRun = if again = true then (s.strait p).crcRun + 1 else 1 := by
  refine ⟨s.modStrait p fun x => { x with crcRun := if again = true then (s.strait p).crcRun + 1 else 1 }, ?_, by simp, by simp⟩
  rw [exec_flitCrcRetry, execFlitCrcRetry, powered_of_up hup, if_pos ⟨hp, hlive⟩]
  refine congrArg _ (if_neg ?_)
  rcases hrun with rfl | hrun
  · simp
  · split <;> omega

/-! Lanes (R419). -/

theorem exec_virtualLaneStopGo_of_full {p lane free : Nat} (hp : p < 12) (hlane : lane < 8) (hst : (s.strait p).state = 2)
    (hfree : free < 64) (hgoing : lane ∉ (s.strait p).stopped) :
    ∃ u, exec (.virtualLaneStopGo p lane free) s = .next u ∧ lane ∈ (u.strait p).stopped ∧
      u.net.outbox = s.net.outbox ++ [.stop p lane] := by
  refine ⟨(s.modStrait p fun y => { y with stopped := y.stopped ++ [lane] }).send (.stop p lane), ?_, by simp, rfl⟩
  rw [exec_virtualLaneStopGo, execVirtualLaneStopGo, powered_of_up hup]
  dsimp only
  rw [if_neg (by omega), if_pos (by simp [hfree, hgoing])]

theorem exec_virtualLaneStopGo_of_free {p lane free : Nat} (hp : p < 12) (hlane : lane < 8) (hst : (s.strait p).state = 2)
    (hfree : 96 < free) (hstopped : lane ∈ (s.strait p).stopped) :
    ∃ u, exec (.virtualLaneStopGo p lane free) s = .next u ∧ lane ∉ (u.strait p).stopped ∧
      u.net.outbox = s.net.outbox ++ [.go p lane] := by
  refine ⟨(s.modStrait p fun y => { y with stopped := y.stopped.filter fun k => k != lane }).send (.go p lane), ?_, by simp, rfl⟩
  rw [exec_virtualLaneStopGo, execVirtualLaneStopGo, powered_of_up hup]
  dsimp only
  rw [if_neg (by omega), if_neg (by omega), if_pos (by simp [hfree, hstopped])]

theorem exec_virtualLaneStopGo_of_between {p lane free : Nat} (hlow : 64 ≤ free) (hhigh : free ≤ 96) :
    exec (.virtualLaneStopGo p lane free) s = .next s := by
  rw [exec_virtualLaneStopGo, execVirtualLaneStopGo, powered_of_up hup]
  simp [Nat.not_lt.mpr hlow, Nat.not_lt.mpr hhigh]

/-! Link state (R421). -/

theorem exec_linkChangeFlood_change {p : Nat} (hp : p < 12) (hst : (s.strait p).state = 2) (c : LinkChange) :
    exec (.linkChangeFlood p (.change c)) s = .next (s.takeChange p c) := by
  rw [exec_linkChangeFlood, execLinkChangeFlood, powered_of_up hup, if_neg (by omega)]

theorem exec_linkChangeFlood_table {p : Nat} (hp : p < 12) (hst : (s.strait p).state = 2) (oldest : Nat)
    (cs : List LinkChange) : exec (.linkChangeFlood p (.table oldest cs)) s = .next (s.takeTable oldest cs) := by
  rw [exec_linkChangeFlood, execLinkChangeFlood, powered_of_up hup, if_neg (by omega)]

/-! Device time (R266, R267, R415). -/

theorem exec_ptpSync_of_grandmaster (offset : Int) (source : Nat) : let x := s.net.servo
    let near := -40 ≤ offset ∧ offset ≤ 40
    ∃ u, exec (.ptpSync offset true source) s = .next u ∧ u.net.servo.offset = offset ∧ u.net.servo.grandmaster = source ∧
      (u.net.servo.locked = true ↔ if x.locked = true then near ∨ x.outRun < 3 else near ∧ 15 ≤ x.inRun) ∧
      s.now ≤ u.now ∧ (x.ever = true → u.now = s.now) := by
  intro x near
  rw [exec_ptpSync, execPtpSync, powered_of_up hup]
  refine ⟨if (afterSync x offset source).locked && !x.ever then
      { s.modServo fun y => afterSync y offset source with now := max s.now ((s.now : Int) - offset * 65536).toNat }
    else s.modServo fun y => afterSync y offset source, rfl, ?_⟩
  split
  · rename_i hfirst
    exact ⟨rfl, rfl, afterSync_locked x offset source, Nat.le_max_left _ _, fun hever => by simp [hever] at hfirst⟩
  · exact ⟨rfl, rfl, afterSync_locked x offset source, Nat.le_refl _, fun _ => rfl⟩

theorem exec_ptpSync_of_lost (offset : Int) (source : Nat) :
    exec (.ptpSync offset false source) s = .next (s.modServo Servo.lost) := by
  rw [exec_ptpSync, execPtpSync, powered_of_up hup]
  rfl

theorem exec_announceTimeout_eq (gm : Nat) : ∃ u, exec (.announceTimeout gm) s = .next u ∧
    u.net.servo.active = 1 - s.net.servo.active ∧ (gm = s.net.servo.grandmaster → u.net.servo.locked = s.net.servo.locked) ∧
    (gm ≠ s.net.servo.grandmaster → u.net.servo.locked = false) := by
  rw [exec_announceTimeout, execAnnounceTimeout, powered_of_up hup]
  refine ⟨_, rfl, ?_⟩
  by_cases hgm : gm = s.net.servo.grandmaster <;> simp [State.modServo, hgm]

/-! The requests (R279, R415, R418). -/

variable (hfw : s.fwActive = true)
include hfw

theorem exec_straitTrainRequest_eq (p : Nat) :
    exec (.straitTrainRequest { port := p }) s = .next (s.mirrored (s.trainStrait p)) := by
  rw [exec_straitTrainRequest, execStraitTrainRequest, onRequest_of_served hup hfw]

theorem exec_straitTrainRequest_of_number (p n : Nat) :
    exec (.straitTrainRequest { port := p, pkg := some n }) s = .next (s.mirrored ((s.joinDomain n).trainStrait p)) := by
  rw [exec_straitTrainRequest, execStraitTrainRequest, onRequest_of_served hup hfw]

theorem exec_straitDownRequest_eq (p : Nat) : exec (.straitDownRequest p) s = .next (s.mirrored (s.downStrait p)) := by
  rw [exec_straitDownRequest, execStraitDownRequest, onRequest_of_served hup hfw]

theorem exec_ptpConfig_of_inRange {domain delay transport : Nat} (hdomain : domain ≤ 127) (hdelay : delay ≤ 1)
    (htransport : transport ≤ 2) : exec (.ptpConfig domain delay transport) s =
      .next (s.mirrored (s.modServo fun x => { x with domain := domain, delay := delay, transport := transport })) := by
  rw [exec_ptpConfig, execPtpConfig, onRequest_of_served hup hfw, if_pos ⟨hdomain, hdelay, htransport⟩]

theorem exec_ptpConfig_of_outOfRange {domain delay transport : Nat} (h : 127 < domain ∨ 1 < delay ∨ 2 < transport) :
    exec (.ptpConfig domain delay transport) s = .next s := by
  rw [exec_ptpConfig, execPtpConfig, onRequest_of_served hup hfw, if_neg (by omega), mirrored_self]

end

/-- Settles O47. Each happening by the lemma of its case above; every change of a strait's state rests on `straitTo_frame`. -/
theorem straitAndTimeEvents : Obligations.StraitAndTimeEvents := by
  unfold Obligations.StraitAndTimeEvents
  intro s hup
  refine ⟨?_, ?_, ?_, ?_, ?_, fun p again => exec_flitCrcRetry_of_fewer hup, ?_, ?_, ?_,
    exec_ptpSync_of_grandmaster hup, ?_, exec_announceTimeout_eq hup, ?_⟩
  · intro p hp hdown
    obtain ⟨hstate, hversion, happlied, hsent, hcore⟩ := trainStrait_frame hp hdown
    exact ⟨_, exec_straitPeerDetect_of_down hup, hstate, hversion, happlied, hsent, hcore,
      fun hfw => exec_straitTrainRequest_eq hup hfw p⟩
  · intro p n hfw hn hother hdown
    refine ⟨_, exec_straitTrainRequest_of_number hup hfw p n, ?_⟩
    rw [State.mirrored_net, trainStrait_pkg, joinDomain_pkg hn hother hdown]
  · intro p pkg port vs hp hpkg _ htrain
    exact ⟨fun hknown => exec_identityFlit_of_known hup hp hpkg htrain hknown vs,
      fun hsome hother => exec_identityFlit_of_other hup hp htrain hsome hother vs⟩
  · intro p hp htrain hid
    exact ⟨exec_straitUp_of_agreed hup hp htrain hid, exec_straitUp_of_not_agreed hup⟩
  · intro p hp hlive
    obtain ⟨hstate, happlied⟩ := downStrait_frame hp hlive
    exact ⟨_, exec_straitDown_eq hup p, hstate, happlied, fun hfw => exec_straitDownRequest_eq hup hfw p,
      exec_flitCrcRetry_of_sixteenth hup hp hlive⟩
  · intro p lane free hp hlane hst
    exact ⟨exec_virtualLaneStopGo_of_full hup hp hlane hst, exec_virtualLaneStopGo_of_free hup hp hlane hst,
      exec_virtualLaneStopGo_of_between hup⟩
  · intro p c hp hst
    refine ⟨fun hseen => ?_, fun hnew hroom => ?_⟩
    · rw [exec_linkChangeFlood_change hup hp hst, takeChange_of_seen p hseen]
    · exact ⟨_, exec_linkChangeFlood_change hup hp hst c, takeChange_of_new p hnew hroom⟩
  · intro p oldest cs hp hst
    exact ⟨_, exec_linkChangeFlood_table hup hp hst oldest cs, takeTable_frame s oldest cs⟩
  · exact fun offset source => ⟨_, exec_ptpSync_of_lost hup offset source, rfl, rfl⟩
  · intro domain delay transport hfw
    refine ⟨fun hdomain hdelay htransport => ?_, exec_ptpConfig_of_outOfRange hup hfw⟩
    refine ⟨_, exec_ptpConfig_of_inRange hup hfw hdomain hdelay htransport, ?_⟩
    rw [State.mirrored_net]
    exact ⟨rfl, rfl, rfl⟩

end Sys2Proof.Machine.StraitsAndTime

/-! PROOF. Clocks and rails, boost leases, meters, the accounting tick, the heat map and brown-out (R278, R376, R401 to R411). -/

namespace Sys2Proof.Machine.ClocksAndEnergy
open Sys2Proof MapsAndFolds

/-! One island and one rail after a change. -/

@[simp] theorem modIsland_island (s : State) (i : Nat) (f : Island → Island) : (s.modIsland i f).island i = f (s.island i) := by
  simp [State.modIsland, State.island]

theorem modIsland_island_other (s : State) {i j : Nat} (f : Island → Island) (h : j ≠ i) :
    (s.modIsland i f).island j = s.island j := FMap.get_set_other _ _ _ _ h

@[simp] theorem modRail_rail (s : State) (p : Nat) (f : Rail → Rail) : (s.modRail p f).rail p = f (s.rail p) := by
  simp [State.modRail, State.rail]

theorem modRail_rail_other (s : State) {p q : Nat} (f : Rail → Rail) (h : q ≠ p) : (s.modRail p f).rail q = s.rail q :=
  FMap.get_set_other _ _ _ _ h

@[simp] theorem modRail_island (s : State) (p i : Nat) (f : Rail → Rail) : (s.modRail p f).island i = s.island i := rfl

theorem nodup_islandsOf (s : State) (p : Nat) : (s.islandsOf p).Nodup := List.nodup_range.filter _

theorem mem_islandsOf_of_partOf {s : State} {i p : Nat} (hi : i < 64) (h : s.partOf i = some p) : i ∈ s.islandsOf p :=
  List.mem_filter.mpr ⟨List.mem_range.mpr hi, List.find?_some (p := fun p => partHas (s.partition p) i) h⟩

/-! The setting of a clock (R402). -/

theorem setClock_of_waits {s : State} {i p mhz : Nat} (hp : s.partOf i = some p) (hup : (s.island i).state.up = true)
    (htop : s.railTop p < mhz) :
    s.setClock i mhz = (s.modIsland i fun x => { x with nextClock := some mhz }).modRail p fun r => { r with settling := true } := by
  simp [State.setClock, hp, hup, htop]

theorem setClock_of_served {s : State} {i p mhz : Nat} (hp : s.partOf i = some p)
    (h : ¬ ((s.island i).state.up = true ∧ s.railTop p < mhz)) :
    s.setClock i mhz = s.modIsland i fun x => { x with clock := mhz, nextClock := none } := by
  simp [State.setClock, hp, h]

/-- Everything that the setting of a clock can do: at once, or once a rail has settled. -/
theorem setClock_cases (s : State) (i mhz : Nat) :
    s.setClock i mhz = (s.modIsland i fun x => { x with clock := mhz, nextClock := none }) ∨
      ∃ p, s.setClock i mhz = (s.modIsland i fun x => { x with nextClock := some mhz }).modRail p fun r => { r with settling := true } := by
  unfold State.setClock
  split
  · exact .inl rfl
  · split
    · exact .inr ⟨_, rfl⟩
    · exact .inl rfl

theorem setClock_island_other (s : State) {i j : Nat} (mhz : Nat) (h : j ≠ i) : (s.setClock i mhz).island j = s.island j := by
  rcases setClock_cases s i mhz with heq | ⟨p, heq⟩ <;> rw [heq]
  · exact modIsland_island_other s _ h
  · rw [modRail_island, modIsland_island_other s _ h]

/-- The setting of a clock leaves the lease and the heat of its island alone. -/
theorem setClock_island_frame (s : State) (i mhz : Nat) : ((s.setClock i mhz).island i).leased = (s.island i).leased ∧
    ((s.setClock i mhz).island i).hot = (s.island i).hot := by
  rcases setClock_cases s i mhz with heq | ⟨p, heq⟩ <;> simp [heq]

/-- A clock of the rail's highest or below applies at once. -/
theorem clock_le_railTop {s : State} {i p : Nat} (hi : i ∈ s.islandsOf p) (hup : (s.island i).state.up = true) :
    (s.island i).clock ≤ s.railTop p := by
  have hmax : ∀ (l : List Nat) (a : Nat), a ≤ l.foldl max a ∧ ∀ x ∈ l, x ≤ l.foldl max a := by
    intro l
    induction l with
    | nil => simp
    | cons y ys ih =>
      intro a
      obtain ⟨hacc, hall⟩ := ih (max a y)
      refine ⟨Nat.le_trans (Nat.le_max_left a y) hacc, fun x hx => ?_⟩
      rcases List.mem_cons.mp hx with rfl | htail
      · exact Nat.le_trans (Nat.le_max_right a x) hacc
      · exact hall x htail
  exact (hmax _ 0).2 _ (List.mem_map_of_mem (List.mem_filter.mpr ⟨hi, hup⟩))

/-! What only clocks change: islands, and which rails settle. -/

/-- Nothing but islands and the settling of rails differs. -/
def ClocksOnly (s t : State) : Prop :=
  (∃ is rs, t = { s with pow := { s.pow with islands := is, rails := rs } }) ∧
    (∀ p, (t.rail p).energy = (s.rail p).energy ∧ (t.rail p).last = (s.rail p).last) ∧
    (FMap.wf {} s.pow.rails = true → FMap.wf {} t.pow.rails = true)

theorem ClocksOnly.refl (s : State) : ClocksOnly s s := ⟨⟨_, _, rfl⟩, fun _ => ⟨rfl, rfl⟩, id⟩

theorem ClocksOnly.trans {s t u : State} (h : ClocksOnly s t) (h' : ClocksOnly t u) : ClocksOnly s u := by
  obtain ⟨⟨_, _, rfl⟩, hrail, hwf⟩ := h
  obtain ⟨⟨is, rs, rfl⟩, hrail', hwf'⟩ := h'
  exact ⟨⟨is, rs, rfl⟩, fun p => ⟨(hrail' p).1.trans (hrail p).1, (hrail' p).2.trans (hrail p).2⟩, fun w => hwf' (hwf w)⟩

theorem ClocksOnly.foldl {α : Type} {f : State → α → State} (hf : ∀ s x, ClocksOnly s (f s x)) (xs : List α) (s : State) :
    ClocksOnly s (xs.foldl f s) :=
  List.foldlRecOn (motive := ClocksOnly s) xs f (.refl s) fun t ht x _ => ht.trans (hf t x)

theorem clocksOnly_modIsland (s : State) (i : Nat) (f : Island → Island) : ClocksOnly s (s.modIsland i f) :=
  ⟨⟨_, _, rfl⟩, fun _ => ⟨rfl, rfl⟩, id⟩

theorem clocksOnly_settling (s : State) (p : Nat) (b : Bool) : ClocksOnly s (s.modRail p fun r => { r with settling := b }) := by
  refine ⟨⟨_, _, rfl⟩, fun q => ?_, FMap.wf_set _ _ _ _⟩
  by_cases hq : q = p
  · subst hq
    simp
  · simp [modRail_rail_other s _ hq]

theorem clocksOnly_setClock (s : State) (i mhz : Nat) : ClocksOnly s (s.setClock i mhz) := by
  rcases setClock_cases s i mhz with heq | ⟨p, heq⟩ <;> rw [heq]
  · exact clocksOnly_modIsland s i _
  · exact (clocksOnly_modIsland s i _).trans (clocksOnly_settling _ p true)

theorem clocksOnly_stepUp (s : State) (i : Nat) : ClocksOnly s (s.stepUp i) := by
  unfold State.stepUp
  dsimp only
  split
  · exact clocksOnly_setClock s i _
  · exact .refl s

theorem clocksOnly_ite {s t u : State} {c : Prop} [Decidable c] (ht : ClocksOnly s t) (hu : ClocksOnly s u) :
    ClocksOnly s (if c then t else u) := by
  split
  · exact ht
  · exact hu

theorem clocksOnly_throttle (s : State) : ClocksOnly s s.throttle := by
  have hdown : ∀ (is : List Nat) (a : State), ClocksOnly a (is.foldl State.stepDown a) :=
    fun is => ClocksOnly.foldl (fun a i => clocksOnly_setClock a i _) is
  exact (clocksOnly_ite (hdown _ s) (clocksOnly_ite (ClocksOnly.foldl clocksOnly_stepUp _ s) (.refl s))).trans
    (ClocksOnly.foldl (fun a p => hdown (a.islandsOf p) a) _ _)

theorem clocksOnly_applyLease (s : State) (l : Lease) : ClocksOnly s (s.applyLease l) := by
  refine ClocksOnly.foldl (fun a i => ?_) _ s
  split
  · exact .refl a
  · exact (clocksOnly_modIsland a i _).trans (clocksOnly_setClock _ i _)

/-! The share window (R278) and a rail that has settled (R402). -/

theorem exec_clockShareWindow_of_due {s : State} {i : Nat} (htimed : s.timedIsland i = true) (hup : (s.island i).state.up = true)
    (hdue : (s.island i).windowAt + 8192 * 65536000 ≤ (s.island i).cycles) :
    exec (.clockShareWindow i) s = .next (s.modIsland i fun y =>
      { y with ceiling := nextCeiling y.ceiling y.shareBundles, windowAt := (s.island i).windowAt + 8192 * 65536000,
               shareBundles := 0 }) := by
  rw [exec_clockShareWindow, execClockShareWindow]
  simp [htimed, hup, hdue]

theorem exec_clockShareWindow_of_not_due {s : State} {i : Nat} (h : ¬ (s.timedIsland i = true ∧ (s.island i).state.up = true ∧
    (s.island i).windowAt + 8192 * 65536000 ≤ (s.island i).cycles)) : exec (.clockShareWindow i) s = .next s := by
  rw [exec_clockShareWindow, execClockShareWindow]
  exact if_neg (by simpa [and_assoc] using h)

/-- The clock that an island waits for applies. -/
def settleIsland (a : State) (i : Nat) : State := a.modIsland i fun x =>
  match x.nextClock with
  | some c => { x with clock := c, nextClock := none }
  | none => x

theorem settleIsland_island (a : State) (i : Nat) : ((settleIsland a i).island i).clock = (a.island i).nextClock.getD (a.island i).clock ∧
    ((settleIsland a i).island i).nextClock = none := by
  rw [settleIsland, modIsland_island]
  cases h : (a.island i).nextClock <;> simp [h]

theorem exec_railSettled_of_settling {s : State} {p : Nat} (h : (s.rail p).settling = true) :
    exec (.railSettled p) s =
      .next (((s.islandsOf p).foldl settleIsland s).modRail p fun r => { r with settling := false }) := by
  rw [exec_railSettled, execRailSettled, if_neg (by simp [h])]
  rfl

theorem foldl_settleIsland_island {s : State} {p i : Nat} (hi : i ∈ s.islandsOf p) :
    (((s.islandsOf p).foldl settleIsland s).island i).clock = (s.island i).nextClock.getD (s.island i).clock ∧
      (((s.islandsOf p).foldl settleIsland s).island i).nextClock = none := by
  obtain ⟨c, _, hc, hlast⟩ := foldl_see_of_mem (f := settleIsland) (see := State.island) (I := fun _ => True) (b := s)
    (fun _ _ _ => trivial) (fun b i j h => modIsland_island_other b _ h) (nodup_islandsOf s p) hi trivial
  rw [hlast, ← hc]
  exact settleIsland_island c i

/-! The end of a lease (R404, R405). -/

/-- An island returns to its throttle setting. -/
def dropLeased (a : State) (i : Nat) : State :=
  if (a.island i).leased.isSome then (a.modIsland i fun x => { x with leased := none }).setClock i (min 2000 (a.island i).clock)
  else a

theorem dropLeased_island_other (a : State) (i j : Nat) (h : j ≠ i) : (dropLeased a i).island j = a.island j := by
  unfold dropLeased
  split
  · rw [setClock_island_other _ _ h, modIsland_island_other _ _ h]
  · rfl

theorem dropLeased_leased (a : State) (i : Nat) : ((dropLeased a i).island i).leased = none := by
  unfold dropLeased
  split
  · rw [(setClock_island_frame _ i _).1]
    simp
  · simpa using ‹¬ (a.island i).leased.isSome = true›

theorem clocksOnly_dropLeased (a : State) (i : Nat) : ClocksOnly a (dropLeased a i) := by
  unfold dropLeased
  split
  · exact (clocksOnly_modIsland a i _).trans (clocksOnly_setClock _ i _)
  · exact .refl a

theorem endLease_frame (s : State) (l : Lease) : (s.endLease l).core = s.core ∧
    (s.endLease l).pow.leases = s.pow.leases.filter (fun m => m.part != l.part) ∧
    ∀ i ∈ s.islandsOf l.part, ((s.endLease l).island i).leased = none := by
  have hend : s.endLease l = { (s.islandsOf l.part).foldl dropLeased s with
      pow := { ((s.islandsOf l.part).foldl dropLeased s).pow with
        leases := ((s.islandsOf l.part).foldl dropLeased s).pow.leases.filter fun m => m.part != l.part } } := rfl
  obtain ⟨⟨is, rs, heq⟩, _, _⟩ := ClocksOnly.foldl clocksOnly_dropLeased (s.islandsOf l.part) s
  refine ⟨by rw [hend, heq], by rw [hend, heq], fun i hi => ?_⟩
  obtain ⟨c, _, _, hlast⟩ := foldl_see_of_mem (f := dropLeased) (see := State.island) (I := fun _ => True) (b := s)
    (fun _ _ _ => trivial) dropLeased_island_other (nodup_islandsOf s l.part) hi trivial
  exact (congrArg Island.leased hlast).trans (dropLeased_leased c i)

section
variable {s : State} {p : Nat} {l : Lease} (hl : s.pow.leases.find? (fun l => l.part == p) = some l)
include hl

theorem part_of_find : l.part = p := by simpa using List.find?_some hl

theorem exec_leaseExpiry_of_over (h : l.ends ≤ s.ns ∨ ∃ d, l.dropAt = some d ∧ d ≤ s.ns) :
    exec (.leaseExpiry p) s = .next (s.endLease l) := by
  rw [exec_leaseExpiry, execLeaseExpiry, hl]
  refine congrArg _ (if_pos ?_)
  rcases h with h | ⟨d, hd, h⟩ <;> simp [*]

theorem exec_leaseExpiry_of_live (h : ¬ (l.ends ≤ s.ns ∨ ∃ d, l.dropAt = some d ∧ d ≤ s.ns)) :
    exec (.leaseExpiry p) s = .next s := by
  rw [exec_leaseExpiry, execLeaseExpiry, hl]
  refine congrArg _ (if_neg ?_)
  cases hd : l.dropAt <;> simpa [hd] using h

end

/-! The notices of a revocation (R405). -/

/-- The context has the event of a revocation. -/
def Noticed (t c : Nat) (payload : BitVec 160) (a : State) : Prop :=
  ∃ r ∈ (a.ctx t c).events, r.code = 0x0150 ∧ r.payload = payload

/-- No parked task is kept for the context. -/
def NotParked (t c : Nat) (a : State) : Prop := ∀ e ∈ a.cp.saves, e.2.parked = true → e.2.tile = t → e.2.ctxNo ≠ c

/-- The event of a revocation goes to one context. -/
def notice (src : Nat) (payload : BitVec 160) (a : State) (x : Nat × Nat) : State :=
  let (time, b) := a.stamp src
  b.postTo x.1 x.2 { time := BitVec.ofNat 64 time, source := BitVec.ofNat 16 src, code := 0x0150, payload := payload }

theorem mem_insertRec {r q : EventRec} {rs : List EventRec} : q ∈ insertRec r rs ↔ q = r ∨ q ∈ rs := by
  induction rs with
  | nil => simp [insertRec]
  | cons y ys ih =>
    rw [insertRec]
    split
    · simp
    · simp [ih, or_left_comm]

theorem askWake_frame (s : State) (timed : Bool) (i : Nat) : ∃ is, s.askWake timed i = { s with pow := { s.pow with islands := is } } := by
  unfold State.askWake
  dsimp only
  split
  · exact ⟨_, rfl⟩
  · exact ⟨_, rfl⟩

/-- Where a record for a context can go: to the save of a parked task, or to the context. -/
theorem postTo_cases (s : State) (t c : Nat) (r : EventRec) :
    (∃ e ∈ s.cp.saves, ∃ is, e.2.parked = true ∧ e.2.tile = t ∧ e.2.ctxNo = c ∧
      s.postTo t c r = { s with cp := { s.cp with saves := FMap.set {} s.cp.saves e.1 { e.2 with ctx := e.2.ctx.postEvent r } },
                                pow := { s.pow with islands := is } }) ∨
      s.postTo t c r = s.modCtx t c fun x => x.postEvent r := by
  unfold State.postTo
  split
  · rename_i id v hfind
    obtain ⟨is, his⟩ := askWake_frame
      { s with cp := { s.cp with saves := FMap.set {} s.cp.saves id { v with ctx := v.ctx.postEvent r } } } false (t / 8)
    have hwho := List.find?_some hfind
    simp only [Bool.and_eq_true, beq_iff_eq] at hwho
    obtain ⟨⟨hparked, htile⟩, hno⟩ := hwho
    exact .inl ⟨(id, v), List.mem_of_find?_eq_some hfind, is, hparked, htile, hno, his⟩
  · exact .inr rfl

section
variable {t c src : Nat} {payload : BitVec 160}

theorem notParked_notice {a : State} (h : NotParked t c a) (x : Nat × Nat) : NotParked t c (notice src payload a x) := by
  unfold notice
  dsimp only
  rcases postTo_cases (a.stamp src).2 x.1 x.2 _ with ⟨e, he, is, hparked, htile, hno, heq⟩ | heq <;> rw [heq]
  · intro d hd
    rcases mem_set hd with rfl | ⟨hold, _⟩
    · exact h e he
    · exact h d hold
  · exact h

theorem notice_ctx_other (a : State) {x : Nat × Nat} (h : ctxKey t c ≠ ctxKey x.1 x.2) :
    (notice src payload a x).ctx t c = a.ctx t c := by
  unfold notice
  dsimp only
  rcases postTo_cases (a.stamp src).2 x.1 x.2 _ with ⟨e, he, is, hparked, htile, hno, heq⟩ | heq <;> rw [heq]
  · rfl
  · exact State.setCtx_ctx_other _ _ h

/-- A record for a context for which no parked task is kept reaches its queue. -/
theorem notice_ctx {a : State} (h : NotParked t c a) : ∃ r, r.code = 0x0150 ∧ r.payload = payload ∧
    (notice src payload a (t, c)).ctx t c = (a.ctx t c).postEvent r := by
  refine ⟨{ time := BitVec.ofNat 64 (a.stamp src).1, source := BitVec.ofNat 16 src, code := 0x0150, payload := payload },
    rfl, rfl, ?_⟩
  unfold notice
  dsimp only
  rcases postTo_cases (a.stamp src).2 t c _ with ⟨e, he, is, hparked, htile, hno, heq⟩ | heq
  · exact absurd hno (h e he hparked htile)
  · rw [heq, State.modCtx_ctx]
    rfl

theorem noticed_notice {a : State} (h : NotParked t c a) (hroom : (a.ctx t c).events.length < 16) :
    Noticed t c payload (notice src payload a (t, c)) := by
  obtain ⟨r, hcode, hpayload, heq⟩ := notice_ctx (src := src) (payload := payload) h
  refine ⟨r, ?_, hcode, hpayload⟩
  simp [heq, Ctx.postEvent, hroom, mem_insertRec]

/-- A notice stays in its queue while others are posted. -/
theorem Noticed.notice {a : State} (h : Noticed t c payload a) (hnot : NotParked t c a) (hc : c < 4) {x : Nat × Nat}
    (hx : x.2 < 4) : Noticed t c payload (notice src payload a x) := by
  obtain ⟨r, hr, hwhat⟩ := h
  refine ⟨r, ?_, hwhat⟩
  by_cases hkey : ctxKey t c = ctxKey x.1 x.2
  · obtain ⟨rfl, rfl⟩ : t = x.1 ∧ c = x.2 := by unfold ctxKey at hkey; omega
    obtain ⟨q, _, _, heq⟩ := notice_ctx (src := src) (payload := payload) hnot
    rw [heq, Ctx.postEvent]
    split
    · exact mem_insertRec.mpr (.inr hr)
    · exact hr
  · rw [notice_ctx_other a hkey]
    exact hr

/-- A context among those that get a notice has it after all of them. -/
theorem noticed_foldl (hc : c < 4) {xs : List (Nat × Nat)} (hxs : ∀ x ∈ xs, x.2 < 4) {a : State} (hnot : NotParked t c a)
    (h : Noticed t c payload a ∨ (t, c) ∈ xs ∧ (a.ctx t c).events.length < 16) :
    Noticed t c payload (xs.foldl (notice src payload) a) := by
  induction xs generalizing a with
  | nil => simpa using h
  | cons x xs ih =>
    have hlast : ∀ y ∈ xs, y.2 < 4 := fun y hy => hxs y (List.mem_cons_of_mem _ hy)
    refine ih hlast (notParked_notice hnot x) ?_
    rcases h with hdone | ⟨hmem, hroom⟩
    · exact .inl (hdone.notice hnot hc (hxs x List.mem_cons_self))
    · by_cases hx : x = (t, c)
      · subst hx
        exact .inl (noticed_notice hnot hroom)
      · refine .inr ⟨(List.mem_cons.mp hmem).resolve_left (Ne.symm hx), ?_⟩
        have hkey : ctxKey t c ≠ ctxKey x.1 x.2 := by
          intro hkey
          have hsmall := hxs x List.mem_cons_self
          unfold ctxKey at hkey
          exact hx (Prod.ext (by omega) (by omega))
        rw [notice_ctx_other a hkey]
        exact hroom

end

/-- The contexts that hold a task of a lease's region. -/
def leaseContexts (s : State) (l : Lease) : List (Nat × Nat) := s.core.ctxs.filterMap fun (k, x) =>
  if (x.task.map fun y => y.region) == some l.region then some (k / 4, k % 4) else none

/-- When a revocation drops the clock. -/
def dropTime (s : State) (l : Lease) : Nat :=
  max s.ns (FMap.get 0 s.sec.lastRecord s.fwSource) + (leaseContexts s l).length + 50000 +
    (Config.freeWord (s.freeCtr + 1)).toNat % 2 ^ 32

/-- The state in which every context of the lease's region has its notice. -/
def afterNotices (s : State) (l : Lease) : State :=
  (leaseContexts s l).foldl (notice s.fwSource (BitVec.ofNat 160 (dropTime s l % 2 ^ 64 + l.step * 2 ^ 64))) s

theorem mem_leaseContexts {s : State} {l : Lease} {t c : Nat} {k : Task} (hc : c < 4) (htask : (s.ctx t c).task = some k)
    (hregion : k.region = l.region) : (t, c) ∈ leaseContexts s l := by
  have hlisted : (ctxKey t c, s.ctx t c) ∈ s.core.ctxs := by
    refine mem_of_get_ne fun hinit => ?_
    rw [State.ctx, hinit] at htask
    exact absurd htask (by simp [Ctx.init])
  refine List.mem_filterMap.mpr ⟨_, hlisted, ?_⟩
  have hkey : ctxKey t c / 4 = t ∧ ctxKey t c % 4 = c := by unfold ctxKey; omega
  simp [htask, hregion, hkey]

theorem leaseContexts_lt {s : State} {l : Lease} {x : Nat × Nat} (hx : x ∈ leaseContexts s l) : x.2 < 4 := by
  obtain ⟨⟨k, y⟩, _, hy⟩ := List.mem_filterMap.mp hx
  obtain ⟨_, hsome⟩ := Option.ite_none_right_eq_some.mp hy
  obtain rfl := Option.some.inj hsome
  exact Nat.mod_lt _ (by omega)

section
variable {s : State} {p : Nat} {l : Lease} (hl : s.pow.leases.find? (fun l => l.part == p) = some l) {n : Nat}
include hl

theorem exec_leaseRevoke_of_kept (h : l.dropAt ≠ none ∨ s.fwActive = false ∨ s.mayRevoke l n = false) :
    exec (.leaseRevoke p n) s = .next s := by
  rw [exec_leaseRevoke, execLeaseRevoke, hl]
  refine if_pos ?_
  rcases h with h | h | h <;> simp [h, Option.isSome_iff_ne_none]

theorem exec_leaseRevoke_of_revoked (hdrop : l.dropAt = none) (hfw : s.fwActive = true) (hmay : s.mayRevoke l n = true) :
    exec (.leaseRevoke p n) s = .next { afterNotices s l with
      freeCtr := (afterNotices s l).freeCtr + 2
      pow := { (afterNotices s l).pow with leases := (afterNotices s l).pow.leases.map fun m =>
        if m.part = p then { m with dropAt := some (dropTime s l) } else m } } := by
  rw [exec_leaseRevoke, execLeaseRevoke, hl]
  exact if_neg (by simp [hdrop, hfw, hmay])

theorem exec_leaseRevoke_notices (hdrop : l.dropAt = none) (hfw : s.fwActive = true) (hmay : s.mayRevoke l n = true) :
    ∃ u drop, exec (.leaseRevoke p n) s = .next u ∧ s.ns + 50000 ≤ drop ∧
      (∀ m ∈ u.pow.leases, m.part = p → m.dropAt = some drop) ∧
      ∀ t c k, c < 4 → (s.ctx t c).task = some k → k.region = l.region → (s.ctx t c).events.length < 16 →
        NotParked t c s → Noticed t c (BitVec.ofNat 160 (drop % 2 ^ 64 + l.step * 2 ^ 64)) u := by
  refine ⟨_, dropTime s l, exec_leaseRevoke_of_revoked hl hdrop hfw hmay, ?_, ?_, ?_⟩
  · unfold dropTime
    omega
  · intro m hm hpart
    obtain ⟨m', _, rfl⟩ := List.mem_map.mp hm
    by_cases hp : m'.part = p
    · simp [hp]
    · simp [hp] at hpart
  · intro t c k hc htask hregion hroom hnot
    exact noticed_foldl hc (fun _ => leaseContexts_lt) hnot (.inr ⟨mem_leaseContexts hc htask hregion, hroom⟩)

end

/-! Meters (R407) and events that they raise. -/

theorem event_frame (s : State) (src code : Nat) (payload : BitVec 160) : ∃ sec, s.event src code payload = { s with sec := sec } := by
  unfold State.event State.postTelemetry State.stamp
  dsimp only
  split <;> exact ⟨_, rfl⟩

/-- Nothing but the firmware's part of the state and the count of free values differs. -/
def EventsOnly (s t : State) : Prop := ∃ sec ctr, t = { s with sec := sec, freeCtr := ctr }

theorem EventsOnly.foldl {α : Type} {f : State → α → State} (hf : ∀ s x, EventsOnly s (f s x)) (xs : List α) (s : State) :
    EventsOnly s (xs.foldl f s) := by
  refine List.foldlRecOn (motive := EventsOnly s) xs f ⟨_, _, rfl⟩ ?_
  rintro _ ⟨sec, ctr, rfl⟩ x _
  obtain ⟨sec', ctr', h⟩ := hf { s with sec := sec, freeCtr := ctr } x
  exact ⟨sec', ctr', h⟩

theorem eventsOnly_event (s : State) (src code : Nat) (payload : BitVec 160) : EventsOnly s (s.event src code payload) := by
  obtain ⟨sec, h⟩ := event_frame s src code payload
  exact ⟨sec, _, h⟩

theorem eventsOnly_eventFree (s : State) (src code : Nat) (payload : BitVec 160) : EventsOnly s (s.eventFree src code payload) := by
  obtain ⟨sec, h⟩ := event_frame { s with freeCtr := s.freeCtr + 1 } src code payload
  exact ⟨sec, _, h⟩

/-- A fold that marks the entries 0 to 7 of the chains, and leaves SEQ alone. -/
theorem foldl_chains {mark : Chain → Chain} (hseq : ∀ x, (mark x).seq = x.seq) (m : FMap Chain) {p : Nat} (hp : p < 8) :
    ∃ x, FMap.get {} ((List.range 8).foldl (fun (m : FMap Chain) p => FMap.set {} m p (mark (FMap.get {} m p))) m) p = mark x ∧
      (mark x).seq = (FMap.get {} m p).seq := by
  obtain ⟨c, _, hc, hlast⟩ := foldl_see_of_mem
    (f := fun (m : FMap Chain) p => FMap.set {} m p (mark (FMap.get {} m p))) (see := fun m p => FMap.get {} m p)
    (I := fun _ => True) (b := m) (fun _ _ _ => trivial) (fun b i j h => FMap.get_set_other _ _ _ _ h) List.nodup_range
    (List.mem_range.mpr hp) trivial
  refine ⟨FMap.get {} c p, hlast.trans (FMap.get_set_same _ _ _ _), ?_⟩
  rw [hseq]
  exact congrArg Chain.seq hc

theorem degrade_chain (s : State) {p : Nat} (hp : p < 8) : (s.degrade.chain p).degraded = true := by
  obtain ⟨x, hx, _⟩ := foldl_chains (mark := fun x => { x with degraded := true }) (fun _ => rfl) s.pow.chains hp
  rw [State.chain, State.degrade, hx]

/-- The eight rail meters add up what they have integrated. -/
def metered (s : State) (rails : List Nat) : State :=
  (rails.take 8).zipIdx.foldl (fun a (e, p) => a.modRail p fun r => { r with energy := r.energy + e }) s

theorem metered_frame (s : State) (rails : List Nat) : ∃ rs, metered s rails = { s with pow := { s.pow with rails := rs } } := by
  refine List.foldlRecOn (motive := fun t : State => ∃ rs, t = { s with pow := { s.pow with rails := rs } }) _ _ ⟨_, rfl⟩ ?_
  rintro _ ⟨rs, rfl⟩ x _
  exact ⟨_, rfl⟩

theorem metered_energy (s : State) (rails : List Nat) {p : Nat} (hp : p < 8) :
    ((metered s rails).rail p).energy = (s.rail p).energy + rails.getD p 0 := by
  have h := (foldl_zipIdx_see (f := fun (a : State) (x : Nat × Nat) => a.modRail x.2 fun r => { r with energy := r.energy + x.1 })
    (see := State.rail) (upd := fun r e => { r with energy := r.energy + e }) (fun b e i => modRail_rail b i _)
    (fun b e i j hj => modRail_rail_other b _ hj) (rails.take 8) s 0 p).1
  rw [Nat.zero_add, List.getElem?_take_of_lt hp] at h
  rw [metered, h, List.getD_eq_getElem?_getD]
  cases rails[p]? <;> rfl

/-- The event of a meter whose self-check failed. -/
def meterEvent (a : State) (m : Nat) : State :=
  if m < 8 then a.event (0xA000 + m) 0x0152 0 else a.eventFree a.openSource 0x0152 0

theorem eventsOnly_meterEvent (a : State) (m : Nat) : EventsOnly a (meterEvent a m) := by
  unfold meterEvent
  split
  · exact eventsOnly_event a _ _ _
  · exact eventsOnly_eventFree a _ _ _

theorem exec_meterIntegration_of_up {s : State} (hup : s.pow.down = false) (rails : List Nat) (input : Nat) (failed : List Nat) :
    ∃ u, exec (.meterIntegration rails input failed) s = .next u ∧
      u.pow.inputEnergy = s.pow.inputEnergy + input ∧ (∀ p < 8, (u.rail p).energy = (s.rail p).energy + rails.getD p 0) ∧
      (failed ≠ [] → ∀ p < 8, (u.chain p).degraded = true) ∧ (failed = [] → u.pow.chains = s.pow.chains) ∧ u.core = s.core := by
  let t : State := { metered s rails with pow := { (metered s rails).pow with inputEnergy := (metered s rails).pow.inputEnergy + input } }
  have hexec : exec (.meterIntegration rails input failed) s =
      .next (if failed.isEmpty then failed.foldl meterEvent t else (failed.foldl meterEvent t).degrade) := by
    rw [exec_meterIntegration, execMeterIntegration, if_neg (by simp [hup])]
    rfl
  obtain ⟨rs, hrs⟩ := metered_frame s rails
  have hinput : t.pow.inputEnergy = s.pow.inputEnergy + input := by simp [t, hrs]
  have hrails : ∀ p < 8, (t.rail p).energy = (s.rail p).energy + rails.getD p 0 := fun p hp => metered_energy s rails hp
  have hchains : t.pow.chains = s.pow.chains := by simp [t, hrs]
  have hcore : t.core = s.core := by simp [t, hrs]
  obtain ⟨sec, ctr, hev⟩ := EventsOnly.foldl eventsOnly_meterEvent failed t
  rw [hexec, hev]
  cases failed with
  | nil => exact ⟨_, rfl, hinput, hrails, by simp, fun _ => hchains, hcore⟩
  | cons m ms => exact ⟨_, rfl, hinput, hrails, fun _ p hp => degrade_chain _ hp, by simp, hcore⟩

/-! Shares of a total (R409). -/

theorem sum_floor_mul_le (total S : Nat) (ws : List Nat) : (ws.map fun w => total * w / S).sum * S ≤ total * ws.sum := by
  induction ws with
  | nil => simp
  | cons w ws ih =>
    have hw := Nat.div_mul_le_self (total * w) S
    simp only [List.map_cons, List.sum_cons, Nat.add_mul, Nat.mul_add]
    omega

theorem sum_set_add {l : List Nat} {k : Nat} (hk : k < l.length) (x : Nat) : (l.set k (l.getD k 0 + x)).sum = l.sum + x := by
  induction l generalizing k with
  | nil => simp at hk
  | cons y ys ih =>
    cases k with
    | zero => simp; omega
    | succ k =>
      have h := ih (k := k) (by simpa using hk)
      simp only [List.getD_cons_succ, List.set_cons_succ, List.sum_cons, h]
      omega

/-- A split loses nothing: the shares are the total. -/
theorem splitPj_sum (total : Nat) {ws : List Nat} (hws : ∃ w ∈ ws, w ≠ 0) :
    (splitPj total ws).foldl (· + ·) 0 = total ∧ (splitPj total ws).length = ws.length := by
  obtain ⟨w, hw, hne⟩ := hws
  have hpos : 0 < ws.sum := List.sum_pos_iff_exists_pos_nat.mpr ⟨w, hw, Nat.pos_of_ne_zero hne⟩
  have hfloor : (ws.map fun w => total * w / ws.sum).sum ≤ total :=
    Nat.le_of_mul_le_mul_right (sum_floor_mul_le total ws.sum ws) hpos
  have hfirst : ws.findIdx (fun w => w != 0) < ws.length :=
    List.findIdx_lt_length_of_exists ⟨w, hw, by simpa using hne⟩
  simp only [splitPj, ← List.sum_eq_foldl]
  rw [if_neg (by omega), sum_set_add (by simpa using hfirst)]
  exact ⟨by omega, by simp⟩

/-! The accounting tick (R403, R408, R409). -/

/-- A partition's counter and its residue, by key. -/
def counters (s : State) (k : Nat) : Nat × Nat := (FMap.get 0 s.pow.energy k, FMap.get 0 s.pow.residue k)

/-- A counter and its residue with energy in pJ added. -/
def counted (x : Nat × Nat) (pj : Nat) : Nat × Nat :=
  (min (2 ^ 64 - 1) (x.1 + (x.2 + pj) / 1000000), (x.2 + pj) % 1000000)

theorem counters_addCounter (s : State) (p cat pj : Nat) :
    counters (s.addCounter p cat pj) (6 * p + cat) = counted (counters s (6 * p + cat)) pj := by
  simp [counters, counted, State.addCounter]

theorem counters_addCounter_other (s : State) {p cat k : Nat} (pj : Nat) (h : k ≠ 6 * p + cat) :
    counters (s.addCounter p cat pj) k = counters s k := by
  simp [counters, State.addCounter, FMap.get_set_other _ _ _ _ h]

/-- The ISLAND counters take the rails' energies. -/
theorem counters_addCategory_zero (s : State) (pjs : List Nat) (p : Nat) :
    counters (s.addCategory 0 pjs) (6 * p) = (pjs[p]?.map (counted (counters s (6 * p)))).getD (counters s (6 * p)) := by
  have h := (foldl_zipIdx_see (f := fun (a : State) (x : Nat × Nat) => a.addCounter x.2 0 x.1)
    (see := fun a p => counters a (6 * p)) (upd := counted) (fun b e i => counters_addCounter b i 0 e)
    (fun b e i j hj => counters_addCounter_other b e (by omega)) pjs s 0 p).1
  rw [Nat.zero_add] at h
  exact h

/-- Another category leaves the ISLAND counters alone. -/
theorem counters_addCategory_other (s : State) {cat : Nat} (pjs : List Nat) (hpos : 0 < cat) (hcat : cat < 6) (p : Nat) :
    counters (s.addCategory cat pjs) (6 * p) = counters s (6 * p) :=
  List.foldlRecOn (motive := fun t => counters t (6 * p) = counters s (6 * p)) pjs.zipIdx _ rfl
    fun t ht x _ => (counters_addCounter_other t x.1 (by omega)).trans ht

/-- Nothing but counters of energy and the statement chains differ. -/
def CountersOnly (s t : State) : Prop :=
  ∃ ctr es rs cs, t = { s with freeCtr := ctr, pow := { s.pow with energy := es, residue := rs, chains := cs } }

theorem CountersOnly.addCategory {s t : State} (h : CountersOnly s t) (cat : Nat) (pjs : List Nat) :
    CountersOnly s (t.addCategory cat pjs) := by
  refine List.foldlRecOn (motive := CountersOnly s) pjs.zipIdx _ h ?_
  rintro _ ⟨ctr, es, rs, cs, rfl⟩ x _
  exact ⟨ctr, _, _, cs, rfl⟩

theorem CountersOnly.degrade {s t : State} (h : CountersOnly s t) : CountersOnly s t.degrade := by
  obtain ⟨ctr, es, rs, cs, rfl⟩ := h
  exact ⟨ctr, es, rs, _, rfl⟩

/-- The energies of the six categories added. -/
def sixAdded (s : State) (rails cis ddr lnk idle rest : List Nat) : State :=
  (((((({ s with freeCtr := s.freeCtr + 24 } : State).addCategory 0 rails).addCategory 1 cis).addCategory 2 ddr).addCategory
    3 lnk).addCategory 4 idle).addCategory 5 rest

theorem countersOnly_sixAdded (s : State) (rails cis ddr lnk idle rest : List Nat) :
    CountersOnly s (sixAdded s rails cis ddr lnk idle rest) :=
  CountersOnly.addCategory (CountersOnly.addCategory (CountersOnly.addCategory (CountersOnly.addCategory (CountersOnly.addCategory
    (CountersOnly.addCategory ⟨_, _, _, _, rfl⟩ 0 rails) 1 cis) 2 ddr) 3 lnk) 4 idle) 5 rest

theorem counters_sixAdded (s : State) (rails cis ddr lnk idle rest : List Nat) (p : Nat) :
    counters (sixAdded s rails cis ddr lnk idle rest) (6 * p) =
      (rails[p]?.map (counted (counters s (6 * p)))).getD (counters s (6 * p)) := by
  unfold sixAdded
  simp only [counters_addCategory_other, Nat.reduceLT, counters_addCategory_zero]
  rfl

theorem degrade_eq (s : State) : ∃ cs, s.degrade = { s with pow := { s.pow with chains := cs } } := ⟨_, rfl⟩

theorem counters_degrade (s : State) (k : Nat) : counters s.degrade k = counters s k := by
  obtain ⟨cs, h⟩ := degrade_eq s
  rw [h]
  rfl

/-- The six categories have been added, the rails' energies first, and the statements may have been degraded. -/
def Attributed (s t : State) : Prop :=
  ∃ cis ddr lnk idle rest, ∃ bad : Bool,
    let a := sixAdded s ((List.range 8).map fun p => (s.rail p).energy) cis ddr lnk idle rest
    t = if bad = true then a.degrade else a

theorem Attributed.frame {s t : State} (h : Attributed s t) : CountersOnly s t ∧
    ∀ p < 8, counters t (6 * p) = counted (counters s (6 * p)) (s.rail p).energy := by
  obtain ⟨cis, ddr, lnk, idle, rest, bad, h⟩ := h
  have hadded := countersOnly_sixAdded s ((List.range 8).map fun p => (s.rail p).energy) cis ddr lnk idle rest
  have hcounters := counters_sixAdded s ((List.range 8).map fun p => (s.rail p).energy) cis ddr lnk idle rest
  have hrail : ∀ p < 8, ((List.range 8).map fun p => (s.rail p).energy)[p]? = some (s.rail p).energy :=
    fun p hp => by simp [hp]
  rw [h]
  cases bad with
  | false => exact ⟨hadded, fun p hp => by rw [if_neg (by simp), hcounters p, hrail p hp]; rfl⟩
  | true => exact ⟨hadded.degrade, fun p hp => by rw [if_pos rfl, counters_degrade, hcounters p, hrail p hp]; rfl⟩

/-- Nothing but shares of energy and the regions' energies differ. -/
def SharesOnly (s t : State) : Prop :=
  ∃ cp sh rt, t = { s with cp := cp, pow := { s.pow with shares := sh, regionTick := rt } }

theorem SharesOnly.trans {s t u : State} (h : SharesOnly s t) (h' : SharesOnly t u) : SharesOnly s u := by
  obtain ⟨_, _, _, rfl⟩ := h
  obtain ⟨cp, sh, rt, rfl⟩ := h'
  exact ⟨cp, sh, rt, rfl⟩

theorem SharesOnly.foldl {α : Type} {f : State → α → State} (hf : ∀ s x, SharesOnly s (f s x)) (xs : List α) (s : State) :
    SharesOnly s (xs.foldl f s) :=
  List.foldlRecOn (motive := SharesOnly s) xs f ⟨_, _, _, rfl⟩ fun t ht x _ => ht.trans (hf t x)

theorem sharesOnly_addEnergy (s : State) (r pj : Nat) : SharesOnly s (s.addEnergy r pj) := by
  unfold State.addEnergy
  dsimp only
  split
  · exact ⟨_, _, _, rfl⟩
  · exact ⟨_, _, _, rfl⟩

theorem sharesOnly_splitPart (s : State) (p : Nat) : SharesOnly s (s.splitPart p) := by
  unfold State.splitPart
  dsimp only
  refine SharesOnly.trans (SharesOnly.foldl (fun a x => ⟨_, _, _, rfl⟩) _ s)
    (SharesOnly.trans (SharesOnly.foldl (fun a x => ?_) _ _) ⟨_, _, _, rfl⟩)
  exact sharesOnly_addEnergy a x.1 _

theorem splitTick_frame (s : State) : ∃ cp sh rt is, s.splitTick = { s with cp := cp, pow := { s.pow with
    shares := sh, regionTick := rt, islands := is, activity := [], doneUnits := [] } } := by
  obtain ⟨cp, sh, rt, h⟩ := SharesOnly.foldl sharesOnly_splitPart (List.range 8) { s with pow := { s.pow with regionTick := [] } }
  unfold State.splitTick
  rw [h]
  exact ⟨_, _, _, _, rfl⟩

/-- A tick's energy is split, and the leases are applied again. -/
def accounted (t : State) : State := t.splitTick.pow.leases.foldl State.applyLease t.splitTick

/-- The meters start again, and the tick counts. -/
def tickEnd (a : State) : State :=
  { a with pow := { a.pow with
    rails := FMap.mapValues {} (fun _ (r : Rail) => { r with energy := 0, last := r.energy }) a.pow.rails
    tick := a.pow.tick + 1
    inputEnergy := 0
    inputHistory := (a.pow.inputHistory ++ [a.pow.inputEnergy]).drop ((a.pow.inputHistory ++ [a.pow.inputEnergy]).length - 100) } }

theorem tickEnd_rail {a : State} (h : FMap.wf {} a.pow.rails = true) (p : Nat) :
    ((tickEnd a).rail p).energy = 0 ∧ ((tickEnd a).rail p).last = (a.rail p).energy := by
  have hrail := get_mapValues_of_wf (f := fun _ (r : Rail) => { r with energy := 0, last := r.energy }) (fun _ => rfl) h p
  rw [State.rail, tickEnd, hrail]
  exact ⟨rfl, rfl⟩

theorem tickEnd_frame (a : State) : (tickEnd a).core = a.core ∧ (tickEnd a).pow.tick = a.pow.tick + 1 ∧
    (tickEnd a).pow.inputEnergy = 0 ∧ (tickEnd a).pow.activity = a.pow.activity ∧
    (tickEnd a).pow.doneUnits = a.pow.doneUnits ∧ (∀ k, counters (tickEnd a) k = counters a k) ∧
    (tickEnd a).pow.inputHistory.length ≤ 100 ∧ (tickEnd a).pow.inputHistory.getLast? = some a.pow.inputEnergy := by
  refine ⟨rfl, rfl, rfl, rfl, rfl, fun _ => rfl, ?_, ?_⟩
  · simp only [tickEnd, List.length_drop]
    omega
  · have hlength : ¬ (a.pow.inputHistory ++ [a.pow.inputEnergy]).length ≤
        (a.pow.inputHistory ++ [a.pow.inputEnergy]).length - 100 := by
      rw [List.length_append, List.length_singleton]
      omega
    rw [tickEnd, List.getLast?_drop, if_neg hlength, List.getLast?_concat]

theorem exec_accountingTick_of_due {s : State} (hup : s.pow.down = false) (hdue : 1000000 * (s.pow.tick + 1) ≤ s.ns) :
    ∃ t, exec .accountingTick s = .next (tickEnd (accounted t)) ∧ Attributed s.throttle t := by
  rw [exec_accountingTick, execAccountingTick, if_neg (by simp [hup, hdue])]
  dsimp only [accounted, tickEnd]
  exact ⟨_, rfl, _, _, _, _, _, _, rfl⟩

theorem exec_accountingTick_of_not_due {s : State} (h : s.pow.down = true ∨ s.ns < 1000000 * (s.pow.tick + 1)) :
    exec .accountingTick s = .next s := by
  rw [exec_accountingTick, execAccountingTick, if_pos (by simpa using h)]

/-- What a tick's attribution and its clocks leave alone until the tick ends. -/
structure TickKept (s t : State) : Prop where
  core : t.core = s.core
  tick : t.pow.tick = s.pow.tick
  input : t.pow.inputEnergy = s.pow.inputEnergy
  history : t.pow.inputHistory = s.pow.inputHistory
  rails : ∀ p, (t.rail p).energy = (s.rail p).energy
  wf : FMap.wf {} s.pow.rails = true → FMap.wf {} t.pow.rails = true

theorem TickKept.trans {s t u : State} (h : TickKept s t) (h' : TickKept t u) : TickKept s u :=
  ⟨h'.core.trans h.core, h'.tick.trans h.tick, h'.input.trans h.input, h'.history.trans h.history,
    fun p => (h'.rails p).trans (h.rails p), fun w => h'.wf (h.wf w)⟩

theorem ClocksOnly.kept {s t : State} (h : ClocksOnly s t) :
    TickKept s t ∧ (∀ k, counters t k = counters s k) ∧ t.pow.activity = s.pow.activity ∧ t.pow.doneUnits = s.pow.doneUnits := by
  obtain ⟨⟨_, _, rfl⟩, hrail, hwf⟩ := h
  exact ⟨⟨rfl, rfl, rfl, rfl, fun p => (hrail p).1, hwf⟩, fun _ => rfl, rfl, rfl⟩

theorem CountersOnly.kept {s t : State} (h : CountersOnly s t) : TickKept s t := by
  obtain ⟨_, _, _, _, rfl⟩ := h
  exact ⟨rfl, rfl, rfl, rfl, fun _ => rfl, id⟩

theorem splitTick_kept (s : State) : TickKept s s.splitTick ∧ (∀ k, counters s.splitTick k = counters s k) ∧
    s.splitTick.pow.activity = [] ∧ s.splitTick.pow.doneUnits = [] := by
  obtain ⟨cp, sh, rt, is, h⟩ := splitTick_frame s
  rw [h]
  exact ⟨⟨rfl, rfl, rfl, rfl, fun _ => rfl, id⟩, fun _ => rfl, rfl, rfl⟩

theorem accounted_frame {s t : State} (h : Attributed s.throttle t) : TickKept s (accounted t) ∧
    (accounted t).pow.activity = [] ∧ (accounted t).pow.doneUnits = [] ∧
    ∀ p < 8, counters (accounted t) (6 * p) = counted (counters s (6 * p)) (s.rail p).energy := by
  obtain ⟨hthrottle, hcount, _, _⟩ := (clocksOnly_throttle s).kept
  obtain ⟨hadded, hcounted⟩ := h.frame
  obtain ⟨hsplit, hcount', hactivity, hdone⟩ := splitTick_kept t
  obtain ⟨hlease, hcount'', hactivity', hdone'⟩ :=
    (ClocksOnly.foldl clocksOnly_applyLease t.splitTick.pow.leases t.splitTick).kept
  unfold accounted
  refine ⟨((hthrottle.trans hadded.kept).trans hsplit).trans hlease, hactivity'.trans hactivity, hdone'.trans hdone,
    fun p hp => ?_⟩
  rw [hcount'', hcount', hcounted p hp, hcount, hthrottle.rails]

/-- A counter that does not saturate takes the energy exactly, in µJ with the residue in pJ. -/
theorem counted_exact {e r pj : Nat} (h : e + (r + pj) / 1000000 < 2 ^ 64) :
    1000000 * (counted (e, r) pj).1 + (counted (e, r) pj).2 = 1000000 * e + r + pj := by
  have hmin : (counted (e, r) pj).1 = e + (r + pj) / 1000000 := Nat.min_eq_right (by omega)
  have hmod : (counted (e, r) pj).2 = (r + pj) % 1000000 := rfl
  omega

/-! The heat map (R406). -/

/-- The heat map with the sensors' differences. -/
def heatMap (m : FMap Byte) (sensors : List Int) : FMap Byte :=
  (sensors.take 64).zipIdx.foldl (fun m (d, i) => FMap.set 0 m i (heatByte d)) m

theorem heatByte_toNat (d : Int) : ((heatByte d).toNat : Int) = min 255 (max 0 d) := by
  simp only [heatByte, BitVec.toNat_ofNat]
  omega

theorem heatMap_get {sensors : List Int} (hlen : sensors.length = 64) (m : FMap Byte) {i : Nat} (hi : i < 64) :
    FMap.get 0 (heatMap m sensors) i = heatByte (sensors.getD i 0) := by
  have h := (foldl_zipIdx_see (f := fun (m : FMap Byte) (x : Int × Nat) => FMap.set 0 m x.2 (heatByte x.1))
    (see := fun m i => FMap.get 0 m i) (upd := fun _ d => heatByte d) (fun b e j => FMap.get_set_same 0 b j _)
    (fun b e j k hk => FMap.get_set_other 0 0 b _ hk) (sensors.take 64) m 0 i).1
  have hin : i < sensors.length := by omega
  simpa [heatMap, hi, hin] using h

/-- Every entry of a map after a run of writes is one of them, or an earlier one outside the run. -/
theorem mem_foldl_set_zipIdx {xs : List Int} {m : FMap Byte} {k : Nat} {e : Nat × Byte}
    (he : e ∈ (xs.zipIdx k).foldl (fun m (d, i) => FMap.set 0 m i (heatByte d)) m) :
    (∃ d ∈ xs, e.2 = heatByte d) ∨ e ∈ m ∧ (e.1 < k ∨ k + xs.length ≤ e.1) := by
  induction xs generalizing m k with
  | nil => exact .inr ⟨he, by simp; omega⟩
  | cons x xs ih =>
    rw [List.zipIdx_cons, List.foldl_cons] at he
    rcases ih he with ⟨d, hd, hval⟩ | ⟨hmem, hout⟩
    · exact .inl ⟨d, List.mem_cons_of_mem _ hd, hval⟩
    · rcases mem_set hmem with rfl | ⟨hold, hne⟩
      · exact .inl ⟨x, List.mem_cons_self, rfl⟩
      · simp only [List.length_cons]
        exact .inr ⟨hold, by omega⟩

/-- A sensor of the list, read with a default. -/
theorem sensor_of_lt {sensors : List Int} {i : Nat} (h : i < sensors.length) : sensors.getD i 0 = sensors[i] := by
  rw [List.getD_eq_getElem?_getD, List.getElem?_eq_getElem h, Option.getD_some]

theorem heatMap_hot {sensors : List Int} (hlen : sensors.length = 64) (m : FMap Byte) (h : ∃ d ∈ sensors, 100 ≤ d) :
    ((heatMap m sensors).any fun (_, b) => decide (100 ≤ b.toNat)) = true := by
  obtain ⟨d, hd, hhot⟩ := h
  obtain ⟨i, hi, rfl⟩ := List.mem_iff_getElem.mp hd
  have hget := heatMap_get hlen m (i := i) (by omega)
  rw [sensor_of_lt hi] at hget
  have hbyte := heatByte_toNat sensors[i]
  refine List.any_eq_true.mpr ⟨_, mem_of_get_ne (d := 0) (k := i) ?_, ?_⟩
  · intro hzero
    rw [hget] at hzero
    rw [hzero] at hbyte
    simp at hbyte
    omega
  · simp only [hget, decide_eq_true_eq]
    omega

theorem heatMap_cool {sensors : List Int} (hlen : sensors.length = 64) {m : FMap Byte} (h : ∀ d ∈ sensors, d < 100)
    (hm : ∀ e ∈ m, e.1 < 64) : ((heatMap m sensors).any fun (_, b) => decide (100 ≤ b.toNat)) = false := by
  refine List.any_eq_false.mpr fun e he => ?_
  rcases mem_foldl_set_zipIdx he with ⟨d, hd, hval⟩ | ⟨hold, hout⟩
  · have hd' := h d (List.mem_of_mem_take hd)
    have hbyte := heatByte_toNat d
    simp only [hval, decide_eq_true_eq]
    omega
  · have hkey := hm e hold
    simp only [List.length_take, hlen] at hout
    omega

theorem clocksOnly_heatStep (s : State) (i : Nat) : ClocksOnly s (s.heatStep i) := by
  unfold State.heatStep
  dsimp only
  exact clocksOnly_ite ((clocksOnly_modIsland s i _).trans (clocksOnly_setClock _ i _)) (clocksOnly_modIsland s i _)

theorem heatStep_island_other (s : State) (i j : Nat) (h : j ≠ i) : (s.heatStep i).island j = s.island j := by
  unfold State.heatStep
  dsimp only
  split
  · rw [State.stepDown, setClock_island_other _ _ h, modIsland_island_other _ _ h]
  · exact modIsland_island_other _ _ h

/-- An island of 70 or more steps down by 0.2 GHz at once. -/
theorem heatStep_of_hot {s : State} {i p : Nat} (hi : i < 64) (hp : s.partOf i = some p) (hup : (s.island i).state.up = true)
    (hclock : 1400 ≤ (s.island i).clock) (hheat : 70 ≤ (FMap.get 0 s.pow.heat i).toNat) :
    ((s.heatStep i).island i).clock = (s.island i).clock - 200 ∧ ((s.heatStep i).island i).hot = true := by
  have hhot : (decide (70 ≤ (FMap.get 0 s.pow.heat i).toNat) ||
      ((s.island i).hot && decide (65 ≤ (FMap.get 0 s.pow.heat i).toNat))) = true := by
    rw [decide_eq_true hheat, Bool.true_or]
  let t := s.modIsland i fun x => { x with hot := true }
  have hstep : s.heatStep i = t.setClock i (max 1200 ((t.island i).clock - 200)) := by
    unfold State.heatStep
    dsimp only
    rw [if_pos hhot, hhot, State.stepDown]
  have hisland : t.island i = { s.island i with hot := true } := modIsland_island s i _
  have htop : (t.island i).clock ≤ t.railTop p :=
    clock_le_railTop (mem_islandsOf_of_partOf (s := t) hi hp) (by rw [hisland]; exact hup)
  have htarget : max 1200 ((t.island i).clock - 200) = (s.island i).clock - 200 := by
    rw [hisland]
    dsimp only
    omega
  rw [hisland] at htop
  dsimp only at htop
  rw [hstep, htarget, setClock_of_served (s := t) hp (by omega), modIsland_island, hisland]
  exact ⟨rfl, rfl⟩

theorem heatStep_of_cool {s : State} {i : Nat} (hheat : (FMap.get 0 s.pow.heat i).toNat < 65) :
    ((s.heatStep i).island i).clock = (s.island i).clock := by
  have hcool : (decide (70 ≤ (FMap.get 0 s.pow.heat i).toNat) ||
      ((s.island i).hot && decide (65 ≤ (FMap.get 0 s.pow.heat i).toNat))) = false := by
    rw [decide_eq_false (by omega), decide_eq_false (by omega), Bool.and_false, Bool.or_false]
  unfold State.heatStep
  dsimp only
  rw [hcool]
  simp

/-- The state in which the islands that are not timed have met the new heat map. -/
def heated (s : State) (sensors : List Int) : State :=
  s.freeIslands.foldl State.heatStep { s with pow := { s.pow with heat := heatMap s.pow.heat sensors } }

theorem heated_frame (s : State) (sensors : List Int) : (heated s sensors).core = s.core ∧
    (heated s sensors).pow.down = s.pow.down ∧ (heated s sensors).pow.heat = heatMap s.pow.heat sensors := by
  obtain ⟨⟨is, rs, h⟩, _, _⟩ :=
    ClocksOnly.foldl clocksOnly_heatStep s.freeIslands { s with pow := { s.pow with heat := heatMap s.pow.heat sensors } }
  refine ⟨?_, ?_, ?_⟩ <;> rw [heated, h]

/-- An island that is not timed meets the heat map as it stands before. -/
theorem heated_island (s : State) (sensors : List Int) {i : Nat} (hi : i ∈ s.freeIslands) : ∃ c : State,
    c.pow.heat = heatMap s.pow.heat sensors ∧ c.tab = s.tab ∧ c.island i = s.island i ∧
      (heated s sensors).island i = (c.heatStep i).island i := by
  obtain ⟨c, ⟨hheat, htab⟩, hc, hlast⟩ := foldl_see_of_mem (f := State.heatStep) (see := State.island)
    (I := fun a => a.pow.heat = heatMap s.pow.heat sensors ∧ a.tab = s.tab)
    (b := { s with pow := { s.pow with heat := heatMap s.pow.heat sensors } })
    (fun b i ⟨hheat, htab⟩ => by
      obtain ⟨⟨is, rs, h⟩, _, _⟩ := clocksOnly_heatStep b i
      rw [h]
      exact ⟨hheat, htab⟩)
    heatStep_island_other (List.nodup_range.filter _) hi ⟨rfl, rfl⟩
  exact ⟨c, hheat, htab, hc, hlast⟩

/-- An island that is not timed belongs to a partition. -/
theorem mem_freeIslands {s : State} {i : Nat} (h : i ∈ s.freeIslands) : i < 64 ∧ ∃ p, s.partOf i = some p := by
  obtain ⟨hrange, hfree⟩ := List.mem_filter.mp h
  simp only [Bool.and_eq_true] at hfree
  exact ⟨List.mem_range.mp hrange, Option.isSome_iff_exists.mp hfree.1⟩

/-- What follows the islands' steps: events of the timed islands, and the loss of power at 100. -/
theorem exec_heatRefresh_eq {s : State} (hup : s.pow.down = false) (sensors : List Int) :
    ∃ t, EventsOnly (heated s sensors) t ∧ exec (.heatRefresh sensors) s =
      .next (if (heatMap s.pow.heat sensors).any (fun (_, b) => decide (100 ≤ b.toNat)) = true then t.powerLoss else t) := by
  refine ⟨_, EventsOnly.foldl (f := fun a _ => a.eventFree a.openSource 0x0151 0) (fun a _ => eventsOnly_eventFree a _ _ _)
    ((List.range 64).filter fun i => (heated s sensors).timedIsland i &&
      decide (85 ≤ (FMap.get 0 (heatMap s.pow.heat sensors) i).toNat)) _, ?_⟩
  rw [exec_heatRefresh, execHeatRefresh, if_neg (by simp [hup])]
  dsimp only [heated, heatMap]
  rfl

/-! The loss of power (R376). -/

/-- The contexts that power loss leaves, one by one. -/
def keepCtxs (cs : FMap Ctx) (s : State) : State := cs.foldl (fun a (k, x) => a.setCtx (k / 4) (k % 4) x.kept) s

theorem keepCtxs_frame (cs : FMap Ctx) (s : State) : ∃ xs, keepCtxs cs s = { s with core := { s.core with ctxs := xs } } := by
  refine List.foldlRecOn (motive := fun t : State => ∃ xs, t = { s with core := { s.core with ctxs := xs } }) cs _ ⟨_, rfl⟩ ?_
  rintro _ ⟨xs, rfl⟩ x _
  exact ⟨_, rfl⟩

/-- Each context listed once is what power loss leaves of it; another stays. -/
theorem keepCtxs_ctx {cs : FMap Ctx} (hcs : (FMap.keys cs).Nodup) (s : State) {t c : Nat} (hc : c < 4) :
    (keepCtxs cs s).ctx t c =
      if ctxKey t c ∈ FMap.keys cs then (FMap.get (Ctx.init c) cs (ctxKey t c)).kept else s.ctx t c := by
  induction cs generalizing s with
  | nil => rfl
  | cons e cs ih =>
    obtain ⟨k, x⟩ := e
    obtain ⟨hk, htail⟩ := List.nodup_cons.mp hcs
    change (keepCtxs cs (s.setCtx (k / 4) (k % 4) x.kept)).ctx t c = _
    rw [ih htail]
    by_cases hkey : k = ctxKey t c
    · obtain ⟨rfl, rfl⟩ : k / 4 = t ∧ k % 4 = c := by unfold ctxKey at hkey; omega
      rw [if_neg (hkey ▸ hk), if_pos (by simp [FMap.keys, ← hkey]), State.setCtx_ctx]
      simp [FMap.get, ← hkey]
    · have hother : ctxKey t c ≠ ctxKey (k / 4) (k % 4) := by unfold ctxKey at hkey ⊢; omega
      have hmem : ctxKey t c ∈ FMap.keys ((k, x) :: cs) ↔ ctxKey t c ∈ FMap.keys cs := by
        simp [FMap.keys, Ne.symm hkey]
      rw [State.setCtx_ctx_other _ _ hother]
      simp [hmem, FMap.get, hkey]

/-- A context at reset is what power loss leaves of it. -/
theorem init_kept (c : Nat) : (Ctx.init c).kept = Ctx.init c := rfl

/-- The statement chains after power loss. -/
def lostChains (m : FMap Chain) : FMap Chain := FMap.mapValues {} (fun _ (x : Chain) => { x with powerLoss := true })
  ((List.range 8).foldl (fun (m : FMap Chain) p => FMap.set {} m p { FMap.get {} m p with powerLoss := true }) m)

theorem lostChains_get (m : FMap Chain) {p : Nat} (hp : p < 8) :
    (FMap.get {} (lostChains m) p).powerLoss = true ∧ (FMap.get {} (lostChains m) p).seq = (FMap.get {} m p).seq := by
  obtain ⟨x, hx, hseq⟩ := foldl_chains (mark := fun x => { x with powerLoss := true }) (fun _ => rfl) m hp
  have hne : ({ x with powerLoss := true } : Chain) ≠ {} := fun h => absurd (congrArg Chain.powerLoss h) (by simp)
  have hget : FMap.get {} (lostChains m) p = { x with powerLoss := true } := by
    rw [lostChains, get_mapValues_of_ne (by rw [hx]; exact hne) (by rw [hx]; exact hne), hx]
  rw [hget]
  exact ⟨rfl, hseq⟩

/-- What power loss leaves but for the contexts. -/
def unpowered (s : State) : State :=
  { now := s.now, freeCtr := s.freeCtr, nextId := s.nextId, agenda := s.agenda
    core := { tiles := FMap.mapValues {} (fun _ (x : Tile) => x.kept) s.core.tiles
              mem := s.core.mem.filter fun (a, _) => s.survives a
              capTags := s.core.capTags.filter fun (a, _) => s.survives (16 * a) }
    cp := { loss := s.cp.loss }, net := { pkg := s.net.pkg }
    pow := { tick := s.pow.tick, energy := s.pow.energy, residue := s.pow.residue, chains := lostChains s.pow.chains, down := true }
    sec := { nor := s.sec.nor, fw := { svnMin := s.sec.fw.svnMin }, lastRecord := s.sec.lastRecord } }

theorem powerLoss_eq (s : State) : s.powerLoss = keepCtxs s.core.ctxs (unpowered s) := by
  unfold State.powerLoss keepCtxs unpowered lostChains
  rfl

theorem powerLoss_down (s : State) : s.powerLoss.pow.down = true := by
  obtain ⟨xs, h⟩ := keepCtxs_frame s.core.ctxs (unpowered s)
  rw [powerLoss_eq, h]
  rfl

/-! A well write that power loss interrupts (R376). -/

/-- Nothing but memory and one tile's well differs. -/
def WellOnly (t0 : Nat) (s u : State) : Prop :=
  (∃ ts mem tags, u = { s with core := { s.core with tiles := ts, mem := mem, capTags := tags } }) ∧
    (∀ t ≠ t0, u.tile t = s.tile t) ∧ (∀ t, (u.tile t).tids = (s.tile t).tids) ∧
    (FMap.wf {} s.core.tiles = true → FMap.wf {} u.core.tiles = true)

theorem WellOnly.refl (t0 : Nat) (s : State) : WellOnly t0 s s := ⟨⟨_, _, _, rfl⟩, fun _ _ => rfl, fun _ => rfl, id⟩

theorem WellOnly.modWell {t0 : Nat} {s u : State} (h : WellOnly t0 s u) (f : Well → Well) : WellOnly t0 s (u.modWell t0 f) := by
  obtain ⟨⟨_, _, _, rfl⟩, hother, htids, hwf⟩ := h
  refine ⟨⟨_, _, _, rfl⟩, fun t ht => (State.modTile_tile_other _ _ ht).trans (hother t ht), fun t => ?_,
    fun w => FMap.wf_set _ _ _ _ (hwf w)⟩
  by_cases ht : t = t0
  · subst ht
    rw [← htids, State.modWell, State.modTile_tile]
  · rw [← htids, State.modWell, State.modTile_tile_other _ _ ht]

theorem WellOnly.wrBytes {t0 : Nat} {s u : State} (h : WellOnly t0 s u) (pa : Nat) (bs : List Byte) :
    WellOnly t0 s (u.wrBytes pa bs) := by
  obtain ⟨⟨_, _, _, rfl⟩, hother, htids, hwf⟩ := h
  exact ⟨⟨_, _, _, rfl⟩, hother, htids, hwf⟩

theorem WellOnly.appliedUnits {t0 : Nat} {s u : State} (h : WellOnly t0 s u) (n : Nat) :
    WellOnly t0 s (u.appliedUnits t0 n) := by
  unfold State.appliedUnits
  split
  · exact (h.wrBytes _ _).modWell _
  · exact h

theorem wellOnly_tornUnit (s : State) (w : TornUnit) : WellOnly w.tile s (s.tornUnit (some w)) := by
  unfold State.tornUnit
  dsimp only
  have hwear := (WellOnly.refl w.tile s).modWell fun x => x.wearUp (w.unit / 64)
  split
  · exact .refl _ s
  · split
    · exact .refl _ s
    · exact ((hwear.appliedUnits _).wrBytes _ _).modWell _
    · exact hwear.modWell _
    · exact hwear.modWell _
    · exact hwear
    · exact hwear.modWell _

theorem tornUnit_frame (s : State) (w : Option TornUnit) :
    (∃ ts mem tags, s.tornUnit w = { s with core := { s.core with tiles := ts, mem := mem, capTags := tags } }) ∧
      (∀ t, (∀ x, w = some x → x.tile ≠ t) → (s.tornUnit w).tile t = s.tile t) ∧
      (∀ t, ((s.tornUnit w).tile t).tids = (s.tile t).tids) ∧
      (FMap.wf {} s.core.tiles = true → FMap.wf {} (s.tornUnit w).core.tiles = true) := by
  cases w with
  | none => exact ⟨⟨_, _, _, rfl⟩, fun _ _ => rfl, fun _ => rfl, id⟩
  | some x =>
    obtain ⟨heq, hother, htids, hwf⟩ := wellOnly_tornUnit s x
    exact ⟨heq, fun t ht => hother t (ht x rfl).symm, htids, hwf⟩

/-! Brown-out (R376). -/

/-- The state after a brown-out that interrupts no write or the write that `t` has torn. -/
def browned (t : State) (flips : List (Nat × Nat × Nat)) : State :=
  { keepCtxs t.core.ctxs (unpowered t) with pow := { (unpowered t).pow with flips := flips } }

theorem exec_brownOut_of_up {s : State} (hup : s.pow.down = false) (w : Option TornUnit) (flips : List (Nat × Nat × Nat)) :
    exec (.brownOut { torn := w, flips := flips }) s = .next (browned (s.tornUnit w) flips) := by
  obtain ⟨xs, h⟩ := keepCtxs_frame (s.tornUnit w).core.ctxs (unpowered (s.tornUnit w))
  rw [exec_brownOut, execBrownOut, if_neg (by simp [hup]), powerLoss_eq, browned, h]
  rfl

/-- What stays and what is gone outside of the core. -/
theorem browned_frame (t : State) (flips : List (Nat × Nat × Nat)) :
    (browned t flips).pow.down = true ∧ (browned t flips).pow.flips = flips ∧ (browned t flips).cp = { loss := t.cp.loss } ∧
      (browned t flips).tab = {} ∧ (browned t flips).eng = {} ∧ (browned t flips).core.cmds = [] ∧
      (browned t flips).pow.energy = t.pow.energy ∧ (browned t flips).sec.nor = t.sec.nor ∧
      (browned t flips).core.tiles = FMap.mapValues {} (fun _ (x : Tile) => x.kept) t.core.tiles ∧
      (browned t flips).core.mem = t.core.mem.filter (fun (a, _) => t.survives a) := by
  obtain ⟨xs, h⟩ := keepCtxs_frame t.core.ctxs (unpowered t)
  rw [browned, h]
  exact ⟨rfl, rfl, rfl, rfl, rfl, rfl, rfl, rfl, rfl, rfl⟩

theorem browned_chain (t : State) (flips : List (Nat × Nat × Nat)) {p : Nat} (hp : p < 8) :
    ((browned t flips).chain p).powerLoss = true ∧ ((browned t flips).chain p).seq = (t.chain p).seq := by
  have hchains : (browned t flips).pow.chains = lostChains t.pow.chains := by dsimp only [browned, unpowered]
  rw [State.chain, hchains, State.chain]
  exact lostChains_get t.pow.chains hp

theorem browned_tile {t : State} (flips : List (Nat × Nat × Nat)) (hwf : FMap.wf {} t.core.tiles = true) (n : Nat) :
    (browned t flips).tile n = (t.tile n).kept := by
  obtain ⟨_, _, _, _, _, _, _, _, htiles, _⟩ := browned_frame t flips
  rw [State.tile, htiles]
  exact get_mapValues_of_wf (fun _ => rfl) hwf n

theorem browned_ctx {t : State} (flips : List (Nat × Nat × Nat)) (hctxs : (FMap.keys t.core.ctxs).Nodup) (n : Nat) {c : Nat}
    (hc : c < 4) : (browned t flips).ctx n c = (t.ctx n c).kept := by
  change (keepCtxs t.core.ctxs (unpowered t)).ctx n c = _
  rw [keepCtxs_ctx hctxs _ hc]
  split
  · rfl
  · rename_i hkey
    have hinit : t.ctx n c = Ctx.init c :=
      (get_eq_or_mem _ _ _).resolve_right fun hmem => hkey (List.mem_map_of_mem hmem)
    rw [hinit, init_kept]
    rfl

theorem browned_rd8 (t : State) (flips : List (Nat × Nat × Nat)) (a : Nat) :
    (browned t flips).rd8 a = if paSpace a = 3 ∨ paPkg a ≠ t.net.pkg then t.rd8 a else 0 := by
  obtain ⟨_, _, _, _, _, _, _, _, _, hmem⟩ := browned_frame t flips
  rw [State.rd8, hmem, get_filter_key]
  simp only [State.survives, Bool.or_eq_true, beq_iff_eq, bne_iff_ne]
  rfl

theorem exec_brownOut_loses {s : State} (hup : s.pow.down = false) (w : Option TornUnit) (flips : List (Nat × Nat × Nat)) :
    ∃ u, exec (.brownOut { torn := w, flips := flips }) s = .next u ∧ u.pow.down = true ∧ u.pow.flips = flips ∧
      u.cp = { loss := s.cp.loss } ∧ u.tab = {} ∧ u.eng = {} ∧ u.core.cmds = [] ∧ u.pow.energy = s.pow.energy ∧
      u.sec.nor = s.sec.nor ∧ (∀ p < 8, (u.chain p).powerLoss = true ∧ (u.chain p).seq = (s.chain p).seq) ∧
      (FMap.wf {} s.core.tiles = true → ∀ t, ((∀ x, w = some x → x.tile ≠ t) → (u.tile t).well = (s.tile t).well) ∧
        (u.tile t).tids = (s.tile t).tids ∧ (u.tile t).inflight = []) ∧
      ((FMap.keys s.core.ctxs).Nodup → ∀ t c, c < 4 → (u.ctx t c).task = none ∧ (u.ctx t c).rec0 = (s.ctx t c).rec0 ∧
        (u.ctx t c).commitQ = [] ∧ (u.ctx t c).sys.winSize = (s.ctx t c).sys.winSize) ∧
      (w = none → ∀ a, u.rd8 a = if paSpace a = 3 ∨ paPkg a ≠ s.net.pkg then s.rd8 a else 0) := by
  obtain ⟨⟨ts, mem, tags, htorn⟩, hwell, htids, hwf⟩ := tornUnit_frame s w
  obtain ⟨hdown, hflips, hcp, htab, heng, hcmds, henergy, hnor, _, _⟩ := browned_frame (s.tornUnit w) flips
  refine ⟨_, exec_brownOut_of_up hup w flips, hdown, hflips, ?_, htab, heng, hcmds, ?_, ?_, fun p hp => ?_, fun w' t => ?_,
    fun hctxs t c hc => ?_, ?_⟩
  · rw [hcp, htorn]
  · rw [henergy, htorn]
  · rw [hnor, htorn]
  · obtain ⟨hloss, hseq⟩ := browned_chain (s.tornUnit w) flips hp
    exact ⟨hloss, hseq.trans (by rw [htorn]; rfl)⟩
  · rw [browned_tile flips (hwf w')]
    exact ⟨fun ht => by rw [← hwell t ht]; rfl, htids t, rfl⟩
  · have hsame : ∀ n c, (s.tornUnit w).ctx n c = s.ctx n c := by
      rw [htorn]
      exact fun _ _ => rfl
    rw [browned_ctx flips (by rw [htorn]; exact hctxs) t hc, hsame]
    exact ⟨rfl, rfl, rfl, rfl⟩
  · rintro rfl a
    exact browned_rd8 s flips a

/-! The heat map as a whole (R406). -/

theorem exec_heatRefresh_of_hot {s : State} (hup : s.pow.down = false) {sensors : List Int} (hlen : sensors.length = 64)
    (hhot : ∃ d ∈ sensors, 100 ≤ d) : ∃ u, exec (.heatRefresh sensors) s = .next u ∧ u.pow.down = true := by
  obtain ⟨t, _, hexec⟩ := exec_heatRefresh_eq hup sensors
  rw [if_pos (heatMap_hot hlen _ hhot)] at hexec
  exact ⟨_, hexec, powerLoss_down t⟩

theorem exec_heatRefresh_of_cool {s : State} (hup : s.pow.down = false) {sensors : List Int} (hlen : sensors.length = 64)
    (hcool : ∀ d ∈ sensors, d < 100) (hheat : ∀ e ∈ s.pow.heat, e.1 < 64) :
    ∃ u, exec (.heatRefresh sensors) s = .next u ∧ u.pow.down = false ∧ u.core = s.core ∧
      (∀ i < 64, ((FMap.get 0 u.pow.heat i).toNat : Int) = max 0 (sensors.getD i 0)) ∧
      (∀ i ∈ s.freeIslands, 70 ≤ sensors.getD i 0 → 1400 ≤ (s.island i).clock → (s.island i).state.up = true →
        (u.island i).clock = (s.island i).clock - 200 ∧ (u.island i).hot = true) ∧
      ∀ i ∈ s.freeIslands, sensors.getD i 0 < 65 → (u.island i).clock = (s.island i).clock := by
  obtain ⟨t, ⟨sec, ctr, rfl⟩, hexec⟩ := exec_heatRefresh_eq hup sensors
  rw [if_neg (by simp [heatMap_cool hlen hcool hheat])] at hexec
  obtain ⟨hcore, hdown, hmap⟩ := heated_frame s sensors
  have hbyte : ∀ i < 64, ((FMap.get 0 (heatMap s.pow.heat sensors) i).toNat : Int) = max 0 (sensors.getD i 0) := by
    intro i hi
    have hlt : sensors.getD i 0 < 100 := by
      rw [sensor_of_lt (by omega)]
      exact hcool _ (List.getElem_mem _)
    rw [heatMap_get hlen _ hi, heatByte_toNat]
    omega
  refine ⟨_, hexec, hdown.trans hup, hcore, fun i hi => ?_, fun i hi hhot hclock hstate => ?_, fun i hi hlow => ?_⟩
  · rw [← hbyte i hi, ← hmap]
  · obtain ⟨hlt, p, hp⟩ := mem_freeIslands hi
    obtain ⟨c, hheat', htab, hisland, hlast⟩ := heated_island s sensors hi
    have hpart : c.partOf i = some p := by
      rw [← hp]
      simp only [State.partOf, State.partition, htab]
    have hnow := hbyte i hlt
    rw [← hheat'] at hnow
    rw [← hisland] at hclock hstate ⊢
    change (((heated s sensors).island i).clock = _) ∧ ((heated s sensors).island i).hot = true
    rw [hlast]
    exact heatStep_of_hot hlt hpart hstate hclock (by omega)
  · obtain ⟨hlt, _⟩ := mem_freeIslands hi
    obtain ⟨c, hheat', _, hisland, hlast⟩ := heated_island s sensors hi
    have hnow := hbyte i hlt
    rw [← hheat'] at hnow
    rw [← hisland]
    change ((heated s sensors).island i).clock = _
    rw [hlast]
    exact heatStep_of_cool (by omega)

/-- A tick that has come counts, and leaves memory alone (R403, R409). -/
theorem exec_accountingTick_counts {s : State} (hup : s.pow.down = false) (hdue : 1000000 * (s.pow.tick + 1) ≤ s.ns) :
    ∃ u, exec .accountingTick s = .next u ∧
      u.pow.tick = s.pow.tick + 1 ∧ u.pow.inputEnergy = 0 ∧ u.pow.activity = [] ∧ u.pow.doneUnits = [] ∧ s.SameMem u ∧
      u.pow.inputHistory.length ≤ 100 ∧ u.pow.inputHistory.getLast? = some s.pow.inputEnergy ∧
      (∀ p < 8, FMap.get 0 s.pow.energy (6 * p) + (FMap.get 0 s.pow.residue (6 * p) + (s.rail p).energy) / 1000000 < 2 ^ 64 →
        1000000 * FMap.get 0 u.pow.energy (6 * p) + FMap.get 0 u.pow.residue (6 * p) =
          1000000 * FMap.get 0 s.pow.energy (6 * p) + FMap.get 0 s.pow.residue (6 * p) + (s.rail p).energy) ∧
      (FMap.wf {} s.pow.rails = true → ∀ p, (u.rail p).energy = 0 ∧ (u.rail p).last = (s.rail p).energy) := by
  obtain ⟨t, hexec, hattributed⟩ := exec_accountingTick_of_due hup hdue
  obtain ⟨hkept, hactivity, hdone, hcount⟩ := accounted_frame hattributed
  obtain ⟨hcore, htick, hinput, hactivity', hdone', hcount', hlength, hlast⟩ := tickEnd_frame (accounted t)
  refine ⟨_, hexec, ?_, hinput, hactivity'.trans hactivity, hdone'.trans hdone, fun a => ?_,
    hlength, ?_, fun p hp hroom => ?_, fun w p => ?_⟩
  · rw [htick, hkept.tick]
  · rw [State.rd8, hcore, hkept.core, ← State.rd8]
  · rw [hlast, hkept.input]
  · have hexact := counted_exact hroom
    rw [← counters, ← hcount p hp, ← hcount'] at hexact
    dsimp only [counters] at hexact
    exact hexact
  · obtain ⟨henergy, hrail⟩ := tickEnd_rail (hkept.wf w) p
    exact ⟨henergy, hrail.trans (hkept.rails p)⟩

/-- A window that has passed sets the ceiling by its share of bundles with a matrix operation (R278). -/
theorem exec_clockShareWindow_ceiling {s : State} {i : Nat} (htimed : s.timedIsland i = true) (hup : (s.island i).state.up = true)
    (hdue : (s.island i).windowAt + 8192 * 65536000 ≤ (s.island i).cycles) :
    ∃ u, exec (.clockShareWindow i) s = .next u ∧ (u.island i).shareBundles = 0 ∧
      (u.island i).windowAt = (s.island i).windowAt + 8192 * 65536000 ∧ u.core = s.core ∧
      ((s.island i).ceiling = 2400 → 65536 ≤ 2 * (s.island i).shareBundles → (u.island i).ceiling = 2200) ∧
      ((s.island i).ceiling = 2200 → 100 * (s.island i).shareBundles < 45 * 65536 → (u.island i).ceiling = 2400) ∧
      ((s.island i).ceiling = 2400 → 2 * (s.island i).shareBundles < 65536 → (u.island i).ceiling = 2400) ∧
      ((s.island i).ceiling = 2200 → 45 * 65536 ≤ 100 * (s.island i).shareBundles → (u.island i).ceiling = 2200) := by
  refine ⟨_, exec_clockShareWindow_of_due htimed hup hdue, ?_⟩
  rw [modIsland_island]
  refine ⟨rfl, rfl, rfl, ?_⟩
  simp only [nextCeiling]
  refine ⟨fun h h' => if_pos ⟨h, h'⟩, fun h h' => ?_, fun h h' => ?_, fun h h' => ?_⟩
  · rw [if_neg (by simp [h]), if_pos ⟨h, h'⟩]
  · rw [if_neg (by omega), if_neg (by simp [h])]
    exact h
  · rw [if_neg (by simp [h]), if_neg (by omega)]
    exact h

/-- Settles O55. Each happening by the lemma of its case above; that only clocks change rests on `clocksOnly_setClock`, and
what a fold over islands leaves at one of them on `foldl_see_of_mem`. -/
theorem energyEvents : Obligations.EnergyEvents := by
  unfold Obligations.EnergyEvents
  intro s ns
  refine ⟨?_, ?_, ?_, ?_, ?_, fun total ws hws => splitPj_sum total hws, exec_accountingTick_of_not_due,
    exec_accountingTick_counts, ?_, ?_⟩
  · intro i x due
    exact ⟨exec_clockShareWindow_of_not_due, fun ⟨htimed, hup, hdue⟩ => exec_clockShareWindow_ceiling htimed hup hdue⟩
  · intro i p mhz hp x waits u
    refine ⟨fun ⟨hup, htop⟩ => ?_, fun h => ?_⟩
    · have hu : u = _ := setClock_of_waits hp hup htop
      simp [hu, x]
    · have hu : u = _ := setClock_of_served hp h
      simp [hu]
  · intro p
    refine ⟨fun h => ?_, fun h => ⟨_, exec_railSettled_of_settling h, ?_, ?_, fun i hi => foldl_settleIsland_island hi⟩⟩
    · rw [exec_railSettled, execRailSettled, if_pos (by simp [h])]
    · rw [modRail_rail]
    · obtain ⟨⟨is, rs, heq⟩, _, _⟩ := ClocksOnly.foldl (f := settleIsland) (fun a i => clocksOnly_modIsland a i _)
        (s.islandsOf p) s
      change ((s.islandsOf p).foldl settleIsland s).core = s.core
      rw [heq]
  · intro p
    refine ⟨fun hnone => ?_, fun l hl => ?_⟩
    · have hfind : s.pow.leases.find? (fun l => l.part == p) = none := by simpa using hnone
      refine ⟨?_, fun n => ?_⟩
      · rw [exec_leaseExpiry, execLeaseExpiry, hfind]
      · rw [exec_leaseRevoke, execLeaseRevoke, hfind]
    · obtain rfl := part_of_find hl
      obtain ⟨hcore, hleases, hisland⟩ := endLease_frame s l
      refine ⟨exec_leaseExpiry_of_live hl, fun hover => ⟨_, exec_leaseExpiry_of_over hl hover, ?_, hisland, hcore⟩, fun n =>
        ⟨exec_leaseRevoke_of_kept hl, exec_leaseRevoke_notices hl⟩⟩
      intro m
      simp [hleases]
  · intro rails input failed
    refine ⟨fun hdown => ?_, fun hup => exec_meterIntegration_of_up hup rails input failed⟩
    rw [exec_meterIntegration, execMeterIntegration, if_pos hdown]
  · intro sensors
    refine ⟨fun hdown => ?_, fun hup hlen => exec_heatRefresh_of_hot hup hlen, fun hup hlen => exec_heatRefresh_of_cool hup hlen⟩
    rw [exec_heatRefresh, execHeatRefresh, if_pos hdown]
  · intro w flips
    refine ⟨fun hdown => ?_, fun hup => exec_brownOut_loses hup w flips⟩
    rw [exec_brownOut, execBrownOut, if_pos hdown]

end Sys2Proof.Machine.ClocksAndEnergy

/-! PROOF. Streams and timed arms: the arrival of a token, a tick and its wake lead, the end of a step, and the resolving of
STMGET with its mask (R268 to R275). -/

namespace Sys2Proof.Machine.StreamsAndArms
open Sys2Proof

/-! One stream and one arm after a change. -/

@[simp] theorem modStream_stream (s : State) (k : Nat) (f : Stream → Stream) : (s.modStream k f).stream k = f (s.stream k) := by
  simp [State.modStream, State.stream]

@[simp] theorem modArm_arm (s : State) (a : Nat) (f : Arm → Arm) : (s.modArm a f).arm a = f (s.arm a) := by
  simp [State.modArm, State.arm]

/-! The fields of a token's message (R269). -/

/-- A field of `n` bytes reads back. -/
theorem leNat_field {n v p : Nat} (hv : v < 256 ^ n) {pre : List Byte} (hpre : pre.length = p) (post : List Byte) :
    leNat (((pre ++ (leBytes n v ++ post)).drop p).take n) = v := by
  rw [List.drop_left' hpre, List.take_left' (Accumulators.length_leBytes n v), Accumulators.leNat_leBytes, Nat.mod_eq_of_lt hv]

/-- A token's message: its header and its body. -/
def tokenMsg (stamp k sender z : Nat) (body : List Byte) : List Byte :=
  leBytes 8 stamp ++ leBytes 2 k ++ leBytes 2 sender ++ leBytes 4 z ++ body

section
variable {stamp k sender z : Nat} (body : List Byte)

theorem tokenMsg_stamp (h : stamp < 2 ^ 64) : leNat ((tokenMsg stamp k sender z body).take 8) = stamp := by
  have hfield := leNat_field (n := 8) (p := 0) (by simpa using h) (pre := []) rfl
    (leBytes 2 k ++ (leBytes 2 sender ++ (leBytes 4 z ++ body)))
  simpa [tokenMsg] using hfield

theorem tokenMsg_stream (h : k < 2 ^ 16) : leNat (((tokenMsg stamp k sender z body).drop 8).take 2) = k := by
  have hfield := leNat_field (n := 2) (by simpa using h) (Accumulators.length_leBytes 8 stamp)
    (leBytes 2 sender ++ (leBytes 4 z ++ body))
  simpa [tokenMsg] using hfield

theorem tokenMsg_sender (h : sender < 2 ^ 16) : leNat (((tokenMsg stamp k sender z body).drop 10).take 2) = sender := by
  have hfield := leNat_field (n := 2) (p := 10) (by simpa using h) (pre := leBytes 8 stamp ++ leBytes 2 k)
    (by simp [Accumulators.length_leBytes]) (leBytes 4 z ++ body)
  simpa [tokenMsg] using hfield

theorem tokenMsg_reserved (h : z < 2 ^ 32) : leNat (((tokenMsg stamp k sender z body).drop 12).take 4) = z := by
  have hfield := leNat_field (n := 4) (p := 12) (by simpa using h) (pre := leBytes 8 stamp ++ leBytes 2 k ++ leBytes 2 sender)
    (by simp [Accumulators.length_leBytes]) body
  simpa [tokenMsg] using hfield

theorem tokenMsg_body : (tokenMsg stamp k sender z body).drop 16 = body :=
  List.drop_left' (by simp [Accumulators.length_leBytes])

theorem tokenMsg_length : (tokenMsg stamp k sender z body).length = 16 + body.length := by
  simp only [tokenMsg, List.length_append, Accumulators.length_leBytes]

end

/-! Arrival (R269). -/

theorem mem_insertToken {t u : Token} {us : List Token} : u ∈ insertToken t us ↔ u = t ∨ u ∈ us := by
  induction us with
  | nil => simp [insertToken]
  | cons v vs ih =>
    rw [insertToken]
    split
    · simp
    · simp [ih, or_left_comm]

theorem length_insertToken (t : Token) (us : List Token) : (insertToken t us).length = us.length + 1 := by
  induction us with
  | nil => rfl
  | cons v vs ih =>
    rw [insertToken]
    split
    · rfl
    · simp [ih]

section
variable {s : State} {k : Nat} {msg : List Byte}

theorem exec_streamTokenArrival_of_stray (hup : s.pow.down = false) (hk : leNat ((msg.drop 8).take 2) = k)
    (hstray : 1023 < k ∨ stValid (s.stream k).desc = false) :
    exec (.streamTokenArrival msg) s = .next { s with eng := { s.eng with stray := satAdd s.eng.stray 1 } } := by
  rw [exec_streamTokenArrival, execStreamTokenArrival, hk, if_neg (by simp [hup]), if_pos (by simpa using hstray)]

theorem exec_streamTokenArrival_of_valid (hup : s.pow.down = false) (hk : leNat ((msg.drop 8).take 2) = k) (hlt : k < 1024)
    (hvalid : stValid (s.stream k).desc = true) : exec (.streamTokenArrival msg) s = .next (s.fileToken k msg) := by
  rw [exec_streamTokenArrival, execStreamTokenArrival, hk, if_neg (by simp [hup]), if_neg (by simp [hvalid]; omega)]

/-- The header of a token names another sender, has a reserved bit set, or its length is not the stream's. -/
def BadHeader (d : BitVec 512) (msg : List Byte) : Prop :=
  leNat ((msg.drop 10).take 2) ≠ stSender d ∨ leNat ((msg.drop 12).take 4) ≠ 0 ∨ msg.length ≠ 16 + 64 * stTsize d

/-- A token's message has a good header where its fields and its length are the stream's. -/
theorem good_iff {stamp sender z : Nat} {d : BitVec 512} (body : List Byte) (hsender : sender < 2 ^ 16) (hz : z < 2 ^ 32) :
    (k < 1024 ∧ stValid d = true) ∧ ¬ BadHeader d (tokenMsg stamp k sender z body) ↔
      k < 1024 ∧ stValid d = true ∧ sender = stSender d ∧ z = 0 ∧ body.length = 64 * stTsize d := by
  simp only [BadHeader, Ne, tokenMsg_sender body hsender, tokenMsg_reserved body hz, tokenMsg_length, not_or, Classical.not_not, and_assoc,
    Nat.add_left_cancel_iff]

theorem fileToken_of_badHeader (h : BadHeader (s.stream k).desc msg) :
    s.fileToken k msg = s.modStream k fun x => { x with counts := { x.counts with badHdr := satAdd x.counts.badHdr 1 } } :=
  if_pos h

variable (hgood : ¬ BadHeader (s.stream k).desc msg) {stamp : Nat} (hstamp : leNat (msg.take 8) = stamp)
include hgood hstamp

theorem fileToken_of_tooLate (h : stamp + stWindow (s.stream k).desc < s.ns ∨ stIndex (s.stream k).desc stamp < 0) :
    s.fileToken k msg = s.modStream k fun x => { x with counts := { x.counts with tooLate := satAdd x.counts.tooLate 1 } } := by
  subst hstamp
  exact (if_neg hgood).trans (if_pos h)

variable (hnow : s.ns ≤ stamp + stWindow (s.stream k).desc) (hn : 0 ≤ stIndex (s.stream k).desc stamp)
include hnow hn

theorem fileToken_of_dup (h : ∃ t ∈ (s.stream k).ring, t.n = stIndex (s.stream k).desc stamp) :
    s.fileToken k msg = s.modStream k fun x => { x with counts := { x.counts with dup := satAdd x.counts.dup 1 } } := by
  subst hstamp
  exact (if_neg hgood).trans ((if_neg (by omega)).trans (if_pos (by simpa using h)))

theorem fileToken_of_room (hnew : ∀ t ∈ (s.stream k).ring, t.n ≠ stIndex (s.stream k).desc stamp)
    (hopen : s.rangeClosed (s.stream k) (stIndex (s.stream k).desc stamp) = false)
    (hroom : (s.stream k).ring.length < stRslots (s.stream k).desc) :
    s.fileToken k msg = s.modStream k fun x => { x with
      ring := insertToken { n := stIndex (s.stream k).desc stamp, stamp := BitVec.ofNat 64 stamp, bytes := msg.drop 16, backfill := false }
        x.ring } := by
  subst hstamp
  refine (if_neg hgood).trans ((if_neg (by omega)).trans ((if_neg (by simpa using hnew)).trans ?_))
  dsimp only
  rw [hopen, if_neg (by simp), if_neg (by omega)]

end

/-! Ticks and the wake lead (R270). -/

theorem exec_tick_of_not_due {s : State} {a : Nat} (h : (s.arm a).armed = false ∨ s.ns < (s.arm a).tickTime (s.arm a).nextTick) :
    exec (.tick a) s = .next s := by
  rw [exec_tick, execTick]
  exact if_pos (by simpa using h)

/-- A tick that has come ends with the arm's next tick set, whatever it launched or skipped. -/
theorem exec_tick_of_due {s : State} {a : Nat} (harmed : (s.arm a).armed = true)
    (hdue : (s.arm a).tickTime (s.arm a).nextTick ≤ s.ns) :
    ∃ u, exec (.tick a) s = .next u ∧ (u.arm a).nextTick = (s.arm a).nextTick + 1 := by
  rw [exec_tick, execTick]
  dsimp only
  rw [if_neg (by simp [harmed, hdue])]
  exact ⟨_, rfl, by rw [modArm_arm]⟩

/-- The island is asked to wake ahead of every other request. -/
def Asked (i : Nat) (s : State) : Prop := (s.island i).wakeReq ≠ none ∧ (s.island i).wakeTimed = true

/-- The island sleeps. -/
def Asleep (i : Nat) (s : State) : Prop := (s.island i).state = .retain ∨ (s.island i).state = .off

theorem askWake_of_asleep {s : State} {i : Nat} (h : Asleep i s) (timed : Bool) : s.askWake timed i =
    s.modIsland i fun x => { x with wakeReq := some (x.wakeReq.getD s.now), wakeTimed := x.wakeTimed || timed } := if_pos h

theorem askWake_of_awake {s : State} {i : Nat} (h : ¬ Asleep i s) (timed : Bool) : s.askWake timed i = s := if_neg h

/-- A request leaves no island asked less, none asleep more or less, and the island that it names asked if it sleeps. -/
theorem askWake_island (s : State) (j i : Nat) : (Asleep i (s.askWake true j) ↔ Asleep i s) ∧
    (Asked i s → Asked i (s.askWake true j)) ∧ (j = i → Asleep i s → Asked i (s.askWake true j)) := by
  by_cases hsleep : Asleep j s
  · rw [askWake_of_asleep hsleep]
    by_cases hij : i = j
    · subst hij
      simp [Asleep, Asked, ClocksAndEnergy.modIsland_island]
    · simp [Asleep, Asked, ClocksAndEnergy.modIsland_island_other s _ hij, Ne.symm hij]
  · rw [askWake_of_awake hsleep]
    exact ⟨Iff.rfl, id, fun hj hi => absurd (hj ▸ hi) hsleep⟩

theorem askWakes_asked {i : Nat} {is : List Nat} {s : State} (h : Asked i s ∨ i ∈ is ∧ Asleep i s) :
    Asked i (s.askWakes true is) := by
  induction is generalizing s with
  | nil => exact h.resolve_right (by simp)
  | cons j js ih =>
    obtain ⟨hsleep, hkeep, hask⟩ := askWake_island s j i
    refine ih ?_
    rcases h with hdone | ⟨hmem, hsleeping⟩
    · exact .inl (hkeep hdone)
    · rcases List.mem_cons.mp hmem with rfl | htail
      · exact .inl (hask rfl hsleeping)
      · exact .inr ⟨htail, hsleep.mpr hsleeping⟩

theorem askWakes_core (s : State) (is : List Nat) : (s.askWakes true is).core = s.core :=
  List.foldlRecOn (motive := fun t : State => t.core = s.core) is _ rfl fun t ht j _ => by
    obtain ⟨xs, h⟩ := ClocksAndEnergy.askWake_frame t true j
    rw [h]
    exact ht

theorem exec_tickWakeLead_of_lead {s : State} {a : Nat} (harmed : (s.arm a).armed = true)
    (hlaunches : (s.arm a).first = false ∨ (s.arm a).launched = false)
    (hlead : (s.arm a).tickTime (s.arm a).nextTick ≤ s.ns + 30000) :
    exec (.tickWakeLead a) s = .next (s.askWakes true (s.graphIslands (s.arm a).graph (s.arm a).region)) := by
  rw [exec_tickWakeLead, execTickWakeLead]
  exact if_neg (by rcases hlaunches with h | h <;> simp [harmed, h, hlead])

/-! The end of a step (R271). -/

/-- A fold that leaves the command processor's part alone. -/
theorem foldl_cp {α : Type} {f : State → α → State} (hf : ∀ s x, (f s x).cp = s.cp) (xs : List α) (s : State) :
    (xs.foldl f s).cp = s.cp :=
  List.foldlRecOn (motive := fun t : State => t.cp = s.cp) xs f rfl fun t ht x _ => (hf t x).trans ht

theorem trimArm_cp (s : State) (a : Nat) : (s.trimArm a).cp = s.cp :=
  foldl_cp (f := fun b (e : Nat × Nat) => b.trimSeq e.1 e.2) (fun _ _ => rfl) _ s

/-- The end of a step of an earlier arming takes it from the arm's earlier steps, and no other. -/
theorem endPast_past (s : State) (a : Nat) (p : PastStep) : ((s.endPast a p).arm a).past = (s.arm a).past.filter fun q => q != p := by
  rw [State.endPast, modArm_arm, State.arm, State.arm, trimArm_cp,
    foldl_cp (f := fun b i => b.modStream i fun x => x.endPast p.step) fun _ _ => rfl]

theorem exec_stepEnd_of_past {s : State} {a : Nat} {p : PastStep} (h : (s.arm a).past.find? s.pastOver = some p) :
    exec (.stepEnd a) s = .next (s.endPast a p) := by
  rw [exec_stepEnd, execStepEnd, h]

section
variable {s : State} {a k : Nat} (hcur : (s.arm a).cur = some k) (hpast : ∀ p ∈ (s.arm a).past, s.pastOver p = false)
include hcur hpast

theorem exec_stepEnd_of_current : exec (.stepEnd a) s =
    if (if (s.arm a).first = true then decide ((s.arm a).tickTime (k + 1) ≤ s.ns) else (s.arm a).curInst.isNone) = true
      then .next (s.endStep a k) else .next s := by
  have hfind : (s.arm a).past.find? s.pastOver = none := by simpa using hpast
  rw [exec_stepEnd, execStepEnd, hfind, hcur]

theorem exec_stepEnd_of_ended (h : (s.arm a).first = true ∧ (s.arm a).tickTime (k + 1) ≤ s.ns ∨
    (s.arm a).first = false ∧ (s.arm a).curInst = none) :
    ∃ u, exec (.stepEnd a) s = .next u ∧ (u.arm a).cur = none := by
  rw [exec_stepEnd_of_current hcur hpast, if_pos (by rcases h with ⟨hf, h⟩ | ⟨hf, h⟩ <;> simp [hf, h])]
  exact ⟨_, rfl, by rw [State.endStep, modArm_arm]⟩

theorem exec_stepEnd_of_running (h : ¬ ((s.arm a).first = true ∧ (s.arm a).tickTime (k + 1) ≤ s.ns ∨
    (s.arm a).first = false ∧ (s.arm a).curInst = none)) : exec (.stepEnd a) s = .next s := by
  rw [exec_stepEnd_of_current hcur hpast, if_neg]
  intro hended
  refine h ?_
  cases hf : (s.arm a).first
  · exact .inr ⟨rfl, by simpa [hf] using hended⟩
  · exact .inl ⟨rfl, by simpa [hf] using hended⟩

end

/-! STMGET (R272, R274, R275). -/

section
variable {s : State} {id : Nat} {m : PumpCmd} (hcmd : s.cmd id = some m) (hwait : s.stmWaiting m = true)
include hcmd hwait

theorem exec_stmgetResolve_of_waiting : exec (.stmgetResolve id) s = finish s (s.stmResolve m false) := by
  rw [exec_stmgetResolve, execStmgetResolve, hcmd]
  exact if_pos hwait

variable {i k : Nat} (hi : bitsOf m.s0 9 0 = i) (hk : m.step = some k)
include hi hk

theorem exec_holdLimitExpiry_of_reached
    (h : (s.armOf (stArm (s.stream i).desc) k).tickTime k + stHoldlim (s.stream i).desc ≤ s.ns) :
    exec (.holdLimitExpiry id) s = finish s (s.stmResolve m true) := by
  subst hi
  rw [exec_holdLimitExpiry, execHoldLimitExpiry, hcmd]
  exact if_pos (by simpa [hwait, hk] using h)

theorem exec_holdLimitExpiry_of_not_reached
    (h : ¬ (s.armOf (stArm (s.stream i).desc) k).tickTime k + stHoldlim (s.stream i).desc ≤ s.ns) :
    exec (.holdLimitExpiry id) s = .next s := by
  subst hi
  rw [exec_holdLimitExpiry, execHoldLimitExpiry, hcmd]
  exact if_neg (by simpa [hwait, hk] using h)

end

section
variable {s u : State} {m : PumpCmd} {i k : Nat} (hi : bitsOf m.s0 9 0 = i) (hk : m.step = some k)
  (hvalid : stValid (s.stream i).desc = true) (harm : m.arm = some (stArm (s.stream i).desc))
include hi hk hvalid harm

/-- A delivery that is fixed gives its part. -/
theorem stmResolve_of_fixed (hfixed : ∃ v ∈ (s.stream i).deliveries, v.step = k) (hu : s.deliverPart m i k = .ok u)
    (expired : Bool) : s.stmResolve m expired = .ok u := by
  subst hi
  have hany : ((s.stream (bitsOf m.s0 9 0)).deliveries.any fun v => v.step == k) = true := by simpa using hfixed
  simp only [State.stmResolve, hk, Option.getD_some, hvalid, harm, hany, hu, bne_self_eq_false, Bool.not_true, Bool.or_self,
    Bool.false_eq_true, if_false, if_true]

variable (hopen : ¬ ∃ v ∈ (s.stream i).deliveries, v.step = k)
include hopen

/-- Where none is fixed, it is fixed now if the stream does not hold or the step is complete. -/
theorem stmResolve_of_ready {a : Arm} (ha : s.armOf (stArm (s.stream i).desc) k = a)
    (hready : ¬ (stPolicy (s.stream i).desc = 1 ∧ (s.stream i).complete a k = false))
    (hu : (s.fixDelivery i k a).deliverPart m i k = .ok u) (expired : Bool) : s.stmResolve m expired = .ok u := by
  subst hi ha
  have hany : ((s.stream (bitsOf m.s0 9 0)).deliveries.any fun v => v.step == k) = false := by simpa using hopen
  have hnow : (stPolicy (s.stream (bitsOf m.s0 9 0)).desc != 1 || (s.stream (bitsOf m.s0 9 0)).complete
      (s.armOf (stArm (s.stream (bitsOf m.s0 9 0)).desc) k) k) = true := by
    by_cases hpolicy : stPolicy (s.stream (bitsOf m.s0 9 0)).desc = 1 <;> simp_all
  simp only [State.stmResolve, hk, Option.getD_some, hvalid, harm, hany, hnow, hu, bne_self_eq_false, Bool.not_true, Bool.or_self,
    Bool.true_or, Bool.false_eq_true, if_false, if_true]

variable {a : Arm} (ha : s.armOf (stArm (s.stream i).desc) k = a)
  (hheld : stPolicy (s.stream i).desc = 1 ∧ (s.stream i).complete a k = false)
include ha hheld

/-- A HOLD step that is not complete waits, -/
theorem stmResolve_of_held : s.stmResolve m false = .ok (s.setCmd { m with place := .stream }) := by
  subst hi ha
  obtain ⟨hpolicy, hpart⟩ := hheld
  have hany : ((s.stream (bitsOf m.s0 9 0)).deliveries.any fun v => v.step == k) = false := by simpa using hopen
  simp only [State.stmResolve, hk, Option.getD_some, hvalid, harm, hany, hpolicy, hpart, bne_self_eq_false, Bool.not_true,
    Bool.or_self, Bool.false_eq_true, if_false]

/-- until the hold limit, at which it resolves and HELDOUT counts. -/
theorem stmResolve_of_expired (hu : ((s.fixDelivery i k a).modStream i fun y =>
      { y with counts := { y.counts with heldOut := satAdd y.counts.heldOut 1 } }).deliverPart m i k = .ok u) :
    s.stmResolve m true = .ok u := by
  subst hi ha
  obtain ⟨hpolicy, hpart⟩ := hheld
  have hany : ((s.stream (bitsOf m.s0 9 0)).deliveries.any fun v => v.step == k) = false := by simpa using hopen
  simp only [State.stmResolve, hk, Option.getD_some, hvalid, harm, hany, hpolicy, hpart, hu, bne_self_eq_false, Bool.not_true,
    Bool.or_self, Bool.or_true, Bool.false_eq_true, if_false, if_true]

end

/-! The mask of a part (R275). -/

/-- The bits of the slots that hold a token, from bit k up. -/
def slotBits (ts : List (Option Token)) (k : Nat) : Nat := ((ts.zipIdx k).map fun (t, j) => if t.isSome then 2 ^ j else 0).sum

theorem slotBits_succ (ts : List (Option Token)) (k : Nat) : slotBits ts (k + 1) = 2 * slotBits ts k := by
  induction ts generalizing k with
  | nil => rfl
  | cons t ts ih =>
    have h := ih (k + 1)
    simp only [slotBits, List.zipIdx_cons, List.map_cons, List.sum_cons] at h ⊢
    rw [h]
    cases t <;> simp [Nat.pow_succ]; omega

/-- A bit is set where its slot holds a token. -/
theorem slotBits_testBit (ts : List (Option Token)) (j : Nat) : (slotBits ts 0).testBit j = (ts.getD j none).isSome := by
  induction ts generalizing j with
  | nil => simp [slotBits]
  | cons t ts ih =>
    have hcons : slotBits (t :: ts) 0 = 2 * slotBits ts 0 + t.isSome.toNat := by
      rw [← slotBits_succ, slotBits, List.zipIdx_cons, List.map_cons, List.sum_cons, slotBits, Nat.add_comm]
      cases t <;> rfl
    rw [hcons]
    cases j with
    | zero => cases t <;> simp [Nat.testBit_zero]
    | succ j =>
      have hhalf : (2 * slotBits ts 0 + t.isSome.toNat) / 2 = slotBits ts 0 := by
        cases t <;> simp; omega
      rw [Nat.testBit_succ, hhalf, ih j, List.getD_cons_succ]

/-- Bit j of a part's mask: slot 64 q + j holds a token. -/
theorem part_mask (v : Delivery) (d : BitVec 512) (tick q : Nat) {j : Nat} (hj : j < 64) :
    (v.part d tick q).2.getLsbD j = (v.slots.getD (64 * q + j) none).isSome := by
  have hmask : (v.part d tick q).2 = BitVec.ofNat 64 (slotBits ((v.slots.drop (64 * q)).take 64) 0) := by
    rw [slotBits, List.sum_eq_foldl]
    rfl
  rw [hmask, BitVec.getLsbD_ofNat, decide_eq_true hj, Bool.true_and, slotBits_testBit]
  simp [List.getD_eq_getElem?_getD, hj]

/-- A sequence of checks that answers has answered at its first one. -/
theorem except_bind_ok {ε α β : Type} {x : Except ε α} {f : α → Except ε β} {b : β} (h : x >>= f = .ok b) :
    ∃ a, x = .ok a ∧ f a = .ok b := by
  cases x with
  | error e => cases h
  | ok a => exact ⟨a, rfl, h⟩

theorem setCmd_ctx (s : State) (m : PumpCmd) (t c : Nat) : (s.setCmd m).ctx t c = s.ctx t c := rfl

/-- A part that has been delivered has written its mask to the predicate that the command names. -/
theorem deliverPart_mask {s u : State} {m : PumpCmd} {i k : Nat} {v : Delivery} (h : s.deliverPart m i k = .ok u)
    (hv : (s.stream i).deliveries.find? (fun v => v.step == k) = some v) (hd : bitsOf m.body.aux 7 4 ≠ 0) {j : Nat} (hj : j < 64) :
    ((u.ctx m.tile m.ctx).regs.getP (bitsOf m.body.aux 7 4)).getLsbD j =
      (v.slots.getD (64 * bitsOf m.s1 7 0 + j) none).isSome := by
  unfold State.deliverPart at h
  dsimp only at h
  rw [hv, Option.getD_some] at h
  obtain ⟨_, _, h⟩ := except_bind_ok h
  obtain ⟨_, _, h⟩ := except_bind_ok h
  obtain rfl := Except.ok.inj h
  rw [setCmd_ctx, State.modCtx_ctx, ScalarOutputs.getP_setP_same _ _ hd]
  exact part_mask v _ _ _ hj

/-- Settles O45. -/
theorem streamEvents : Obligations.StreamEvents := by
  unfold Obligations.StreamEvents
  intro s
  refine ⟨?arrival, ?tick, ?lead, ?current, ?past, ?stmget, ?mask⟩
  case arrival =>
    intro stamp k sender z body hstamp hk hsender hz hup msg x d n out counted good
    have hstream : leNat ((msg.drop 8).take 2) = k := tokenMsg_stream body hk
    have hfile (hvalid : k < 1024 ∧ stValid d = true) : out = .next (s.fileToken k msg) :=
      exec_streamTokenArrival_of_valid hup hstream hvalid.1 hvalid.2
    have hgood : good ↔ (k < 1024 ∧ stValid d = true) ∧ ¬ BadHeader d msg :=
      (good_iff body hsender hz).symm
    have hread : leNat (msg.take 8) = stamp := tokenMsg_stamp body hstamp
    have hbody : msg.drop 16 = body := tokenMsg_body body
    refine ⟨exec_streamTokenArrival_of_stray hup hstream, fun hlt hvalid hbad => ?_, fun hg hlate => ?_,
      fun hg hnow hn hdup => ?_, fun hg hnow hn hnew hopen hroom => ?_⟩
    · rw [hgood, not_and, Classical.not_not] at hbad
      exact (hfile ⟨hlt, hvalid⟩).trans (congrArg _ (fileToken_of_badHeader (hbad ⟨hlt, hvalid⟩)))
    all_goals obtain ⟨hvalid, hhdr⟩ := hgood.mp hg
    · exact (hfile hvalid).trans (congrArg _ (fileToken_of_tooLate hhdr hread hlate))
    · exact (hfile hvalid).trans (congrArg _ (fileToken_of_dup hhdr hread hnow hn hdup))
    · refine ⟨_, (hfile hvalid).trans (congrArg _ (fileToken_of_room hhdr hread hnow hn hnew hopen hroom)), ?_⟩
      rw [modStream_stream]
      exact ⟨⟨_, mem_insertToken.mpr (.inl rfl), rfl, by simpa using hstamp, hbody, rfl⟩,
        length_insertToken _ _, rfl⟩
  case tick => exact fun a => ⟨exec_tick_of_not_due, exec_tick_of_due⟩
  case lead =>
    intro a y harmed hlaunches hlead
    exact ⟨_, exec_tickWakeLead_of_lead harmed hlaunches hlead, askWakes_core _ _,
      fun i hi hsleeping => askWakes_asked (.inr ⟨hi, hsleeping⟩)⟩
  case current =>
    intro a k y hcur hpast ended
    exact ⟨exec_stepEnd_of_ended hcur hpast, exec_stepEnd_of_running hcur hpast⟩
  case past => exact fun a p h => ⟨_, exec_stepEnd_of_past h, endPast_past s a p⟩
  case stmget =>
    intro id m hcmd hopc hrun hfree hstarted i x hvalid harm k hk a get expire reached held isFixed
    have hwait : s.stmWaiting m = true := by simp [State.stmWaiting, hopc, hrun, hfree, hstarted]
    have hi : bitsOf m.s0 9 0 = i := by simp [bitsOf, i]
    have hget {u : State} (h : s.stmResolve m false = .ok u) : get = .next u := by
      rw [← finish_ok s u, ← h]
      exact exec_stmgetResolve_of_waiting hcmd hwait
    have hexpire (hr : reached) {u : State} (h : s.stmResolve m true = .ok u) : expire = .next u := by
      rw [← finish_ok s u, ← h]
      exact exec_holdLimitExpiry_of_reached hcmd hwait hi hk hr
    exact ⟨fun hfixed u hu => ⟨hget (stmResolve_of_fixed hi hk hvalid harm hfixed hu false),
        fun hr => hexpire hr (stmResolve_of_fixed hi hk hvalid harm hfixed hu true)⟩,
      fun hnone hready u hu => hget (stmResolve_of_ready hi hk hvalid harm hnone rfl hready hu false),
      fun hnone hheld => hget (stmResolve_of_held hi hk hvalid harm hnone rfl hheld),
      fun hnone hheld hr u hu => hexpire hr (stmResolve_of_expired hi hk hvalid harm hnone rfl hheld hu),
      exec_holdLimitExpiry_of_not_reached hcmd hwait hi hk⟩
  case mask =>
    intro m i k u v h hv q hd j hj
    have hpred : m.body.aux.toNat / 16 % 16 = bitsOf m.body.aux 7 4 := by simp [bitsOf]
    have hq : q = bitsOf m.s1 7 0 := by simp [bitsOf, q]
    rw [hpred] at hd ⊢
    rw [hq]
    exact deliverPart_mask h hv hd hj

end Sys2Proof.Machine.StreamsAndArms

/-! PROOF. An INVALIDATE packet and the command processor's own number (R230, R357). The command processor walks the tables
under the tile number `cpTile`, which no tile of the package has, so that it finds no cached translation. The statement
quantifies over every state, and with it over those that hold a translation under that number: an INVALIDATE drops it with
the others, and then the packet's own signal no longer resolves. (R356's walks are for numbers below 1,024.) -/

namespace Sys2Proof.Machine.InvalidatedSignal
open Sys2Proof

/-- INVALIDATE of every translation, with a signal at the start of object 3. -/
def packet : BitVec 1024 := BitVec.ofNat 1024 (10 + 2 ^ 8 + 2 ^ 40 + 2 ^ 63 + 3 * 2 ^ 128)

/-- Object 3: eight bytes at 0x1000 of kind SIGNAL that may be written. -/
def signalEntry : BitVec 256 := BitVec.ofNat 256 (kSIGNAL * 2 ^ 84 + 2 ^ (88 + rW) + 0x1000 * 2 ^ 96 + 8 * 2 ^ 160)

/-- Queue 0, ACTIVE and PRIV, holds the packet; the signal's VALUE is 5; object 3 has no entry in memory, but a translation
under the command processor's number. -/
def cached : State :=
  { core := { mem := [(0x1000, 5)], tiles := [(cpTile, { tlbObjs := [{ asid := 0, obj := 3, entry := signalEntry }] })] }
    cp := { queues := [(0, { entry := BitVec.ofNat 512 (1 + 2 ^ 144), packets := [packet] })] }
    sec := { complexes := [(0, { role := .active })] } }

/-- The packet is the queue's only one, and an active complex serves it. -/
theorem cached_head : cached.Head 0 10 packet [] ∧ cached.fwServes = true := by
  unfold State.Head
  decide +kernel

theorem cached_still : cached.Still 0 [] := ⟨by decide +kernel, by simp⟩

/-- Before the packet is served its signal resolves, through the cached translation. -/
theorem signal_resolves : cached.pkSignal 0 packet [sigRight packet] = some (0x1000, []) := by decide +kernel

/-- The packet retires without the update of its signal. -/
theorem signal_not_updated {u : State} (h : exec (.invalidate 0) cached = .next u) : u.rdNat 0x1000 8 = 5 := by
  have heval : (match exec (.invalidate 0) cached with
    | .next t => t.rdNat 0x1000 8
    | _ => 0) = 5 := by decide +kernel
  rwa [h] at heval

/-- The update that the retirement owes: VALUE 5 becomes 4. -/
theorem signal_owed : (signalMerge (BitVec.ofNat 64 (cached.rdNat 0x1000 8)) (-1) 0).toNat = 4 := by decide +kernel

/-- Refutes O52: an INVALIDATE that is served in `cached` retires, and its signal is not updated. -/
theorem not_firmwarePackets : ¬ Obligations.FirmwarePackets := by
  unfold Obligations.FirmwarePackets
  intro h
  obtain ⟨_, _, _, _, hinvalidate, _⟩ := h cached 0 packet []
  obtain ⟨_, _, _, hserved⟩ := hinvalidate cached_head
  obtain ⟨u, hexec, hretired, _⟩ := hserved (by decide +kernel) (by decide +kernel)
  have hsignal := (hretired (by decide +kernel)).2 cached_still (by decide +kernel) 0x1000 (by decide +kernel) signal_resolves
  rw [signal_not_updated hexec, signal_owed] at hsignal
  exact absurd hsignal (by decide)

end Sys2Proof.Machine.InvalidatedSignal

/-! PROOF. The fault record of R350: numbers packed into fields, and the fields of the record. -/

namespace Sys2Proof.Machine.FaultRecords
open Sys2Proof

/-! Numbers packed into fields of given widths. -/

/-- The number that fields of given widths hold with given values, the first lowest. -/
def packFields : List Nat → List Nat → Nat
  | n :: ns, v :: vs => packFields ns vs * 2 ^ n + v % 2 ^ n
  | _, _ => 0

/-- A field reads back at the sum of the widths below it. -/
theorem packFields_field {ns vs : List Nat} {i n v : Nat} (hn : ns[i]? = some n) (hv : vs[i]? = some v) :
    packFields ns vs / 2 ^ (ns.take i).sum % 2 ^ n = v % 2 ^ n := by
  induction ns generalizing vs i with
  | nil => simp at hn
  | cons m ns ih =>
    cases vs with
    | nil => simp at hv
    | cons u vs =>
      cases i with
      | zero =>
        obtain ⟨rfl, rfl⟩ : m = n ∧ u = v := ⟨by simpa using hn, by simpa using hv⟩
        simp [packFields]
      | succ i =>
        have hhigh : packFields (m :: ns) (u :: vs) / 2 ^ m = packFields ns vs := by
          rw [packFields, Nat.mul_comm, Nat.mul_add_div (Nat.two_pow_pos m),
            Nat.div_eq_of_lt (Nat.mod_lt _ (Nat.two_pow_pos m)), Nat.add_zero]
        rw [List.take_succ_cons, List.sum_cons, Nat.pow_add, ← Nat.div_div_eq_div_mul, hhigh]
        exact ih hn hv

section
variable {w : Nat} {r : BitVec w} {ns vs : List Nat} (hr : r.toNat = packFields ns vs) {i v hi lo : Nat}
include hr

theorem bitsOf_field (hv : vs[i]? = some v) (hplace : ns[i]? = some (hi + 1 - lo) ∧ (ns.take i).sum = lo := by decide) :
    bitsOf r hi lo = v % 2 ^ (hi + 1 - lo) := by
  obtain ⟨hwidth, hlo⟩ := hplace
  rw [← packFields_field hwidth hv, hlo, bitsOf, hr]

/-- The same for a value that its field has room for. -/
theorem bitsOf_field_of_lt (hv : vs[i]? = some v) (hlt : v < 2 ^ (hi + 1 - lo))
    (hplace : ns[i]? = some (hi + 1 - lo) ∧ (ns.take i).sum = lo := by decide) : bitsOf r hi lo = v :=
  (bitsOf_field hr hv hplace).trans (Nat.mod_eq_of_lt hlt)

theorem bitsOf_field_zero (hv : vs[i]? = some 0) (hplace : ns[i]? = some (hi + 1 - lo) ∧ (ns.take i).sum = lo := by decide) :
    bitsOf r hi lo = 0 := bitsOf_field_of_lt hr hv (Nat.two_pow_pos _) hplace

end

theorem getLsbD_of_bitsOf {w : Nat} {r : BitVec w} {lo : Nat} {b : Bool} (h : bitsOf r lo lo = b.toNat) : r.getLsbD lo = b := by
  rw [BitVec.getLsbD, Nat.testBit_eq_decide_div_mod_eq]
  rw [bitsOf, Nat.add_sub_cancel_left, Nat.pow_one] at h
  rw [h]
  cases b <;> rfl

/-! The record of R350. -/

/-- The widths of a fault record's fields, the lowest first. -/
def faultWidths : List Nat := [64, 16, 16, 16, 48, 20, 12, 48, 3, 2, 1, 3, 7, 16, 16, 13, 3, 9, 1, 6, 32, 160]

/-- Their values. -/
def faultValues (s : State) (time t c disp : Nat) (tr : Trap) (pc : Off) : List Nat :=
  let x := s.ctx t c
  let k := x.task.getD {}
  [time, t, tr.code.toNat, tr.sub.toNat, pc.toNat, tr.obj, x.sys.asid, tr.off, tr.slot, c,
    (x.region.isSome || x.pageTrap.isSome).toNat, disp, 0, k.region, k.node, k.queue, 0, k.member, k.rgn.toNat, 0,
    k.step.getD (2 ^ 32 - 1), 0]

theorem toNat_faultRecord (s : State) (time t c disp : Nat) (tr : Trap) (pc : Off) :
    (s.faultRecord time t c disp tr pc).toNat = packFields faultWidths (faultValues s time t c disp tr pc) := by
  unfold State.faultRecord faultWidths faultValues
  dsimp only
  generalize (s.ctx t c).task.getD {} = k
  have hbool (b : Bool) : (BitVec.ofBool b).toNat = b.toNat % 2 ^ 1 := by cases b <;> rfl
  rw [ScalarResults.toNat_append_eq_add]
  simp only [ScalarResults.toNat_append_eq_add, BitVec.toNat_ofNat, packFields, hbool, Nat.mod_eq_of_lt tr.code.isLt,
    Nat.mod_eq_of_lt tr.sub.isLt, Nat.mod_eq_of_lt pc.isLt, Nat.zero_mul, Nat.zero_add]
  cases k.step <;> simp

/-- The lowest 96 bits of an event record and of a fault record hold TIME, SOURCE and CODE (R11, R350). -/
theorem faultRecord_low (s : State) (time t c disp : Nat) (tr : Trap) (pc : Off) {q : EventRec}
    (htime : q.time = BitVec.ofNat 64 time) (hsource : q.source = BitVec.ofNat 16 t) (hcode : q.code = tr.code) :
    (s.faultRecord time t c disp tr pc).extractLsb' 0 96 = (eventBits q).extractLsb' 0 96 := by
  obtain ⟨high, hhigh⟩ : ∃ high, (s.faultRecord time t c disp tr pc).toNat =
      ((high * 2 ^ 16 + tr.code.toNat % 2 ^ 16) * 2 ^ 16 + t % 2 ^ 16) * 2 ^ 64 + time % 2 ^ 64 :=
    ⟨_, toNat_faultRecord s time t c disp tr pc⟩
  have hevent : (eventBits q).toNat =
      ((q.payload.toNat * 2 ^ 16 + tr.code.toNat) * 2 ^ 16 + t % 2 ^ 16) * 2 ^ 64 + time % 2 ^ 64 := by
    simp only [eventBits, ScalarResults.toNat_append_eq_add, htime, hsource, hcode, BitVec.toNat_ofNat]
  apply BitVec.eq_of_toNat_eq
  rw [BitVec.extractLsb'_toNat, BitVec.extractLsb'_toNat, hhigh, hevent, Nat.mod_eq_of_lt tr.code.isLt]
  omega

/-- Settles O14. The record is its fields packed from bit 0 (`toNat_faultRecord`), and each reads back at the sum of the
widths below it. -/
theorem faultRecordLayout : Obligations.FaultRecordLayout := by
  unfold Obligations.FaultRecordLayout
  intro s time t c disp tr pc r k
  have hr : r.toNat = packFields faultWidths (faultValues s time t c disp tr pc) := toNat_faultRecord s time t c disp tr pc
  have hbit (b : Bool) : b.toNat < 2 ^ 1 := b.toNat_lt
  refine ⟨bitsOf_field hr (i := 0) rfl, bitsOf_field hr (i := 1) rfl,
    bitsOf_field_of_lt hr (i := 2) rfl tr.code.isLt, bitsOf_field_of_lt hr (i := 3) rfl tr.sub.isLt,
    bitsOf_field_of_lt hr (i := 4) rfl pc.isLt, bitsOf_field hr (i := 5) rfl, bitsOf_field hr (i := 6) rfl,
    bitsOf_field hr (i := 7) rfl, bitsOf_field hr (i := 8) rfl, bitsOf_field hr (i := 9) rfl,
    getLsbD_of_bitsOf (bitsOf_field_of_lt hr (i := 10) rfl (hbit _)), bitsOf_field hr (i := 11) rfl,
    bitsOf_field_zero hr (i := 12) rfl, bitsOf_field hr (i := 13) rfl, bitsOf_field hr (i := 14) rfl,
    bitsOf_field hr (i := 15) rfl, bitsOf_field_zero hr (i := 16) rfl, bitsOf_field hr (i := 17) rfl,
    getLsbD_of_bitsOf (bitsOf_field_of_lt hr (i := 18) rfl (hbit _)), bitsOf_field_zero hr (i := 19) rfl,
    fun hstep => ?_, fun n hstep => ?_, bitsOf_field_zero hr (i := 21) rfl,
    fun q htime hsource hcode => faultRecord_low s time t c disp tr pc htime hsource hcode⟩
  all_goals
    have hfield : bitsOf r 351 320 = k.step.getD (2 ^ 32 - 1) % 2 ^ 32 := bitsOf_field hr (i := 20) rfl
    rw [hfield, hstep]
    rfl

end Sys2Proof.Machine.FaultRecords

/-! PROOF. System traps: the abort of an open region (R36), the stop of a task (R348, R349), and the dispositions of a
trap. -/

namespace Sys2Proof.Machine.SystemTraps
open Sys2Proof MapsAndFolds

/-! What a trap's record and the return of launch entries leave alone (R221, R351). -/

theorem returnEntry_frame (s : State) (r : Nat) : ∃ cp, s.returnEntry r = { s with cp := cp } := by
  unfold State.returnEntry
  split <;> exact ⟨_, rfl⟩

theorem foldl_returnEntry_frame (rs : List Nat) (s : State) : ∃ cp, rs.foldl State.returnEntry s = { s with cp := cp } := by
  refine List.foldlRecOn (motive := fun t : State => ∃ cp, t = { s with cp := cp }) rs _ ⟨_, rfl⟩ ?_
  rintro _ ⟨cp, rfl⟩ r _
  exact returnEntry_frame _ r

/-- Nothing but memory, the driver's tables, the command processor's and the firmware's part of the state differs. -/
def RecordsOnly (s t : State) : Prop := ∃ mem tags tab cp sec,
  t = { s with core := { s.core with mem := mem, capTags := tags }, tab := tab, cp := cp, sec := sec }

theorem RecordsOnly.ctx {s t : State} (h : RecordsOnly s t) (u c : Nat) : t.ctx u c = s.ctx u c := by
  obtain ⟨_, _, _, _, _, rfl⟩ := h
  rfl

theorem logInsert_frame (base size lo : Nat) (r : BitVec 512) (n : Nat) (s : State) :
    ∃ mem tags, s.logInsert base size lo r n = { s with core := { s.core with mem := mem, capTags := tags } } := by
  induction n generalizing s with
  | zero => exact ⟨_, _, rfl⟩
  | succ n ih =>
    rw [State.logInsert]
    split
    · exact ih _
    · exact ⟨_, _, rfl⟩

theorem logRecord_frame (s : State) (part : Nat) (r : BitVec 512) : ∃ mem tags tab,
    s.logRecord part r = { s with core := { s.core with mem := mem, capTags := tags }, tab := tab } := by
  unfold State.logRecord
  dsimp only
  split
  · exact ⟨_, _, _, rfl⟩
  · obtain ⟨mem, tags, h⟩ := logInsert_frame _ _ _ r _ s
    rw [h]
    exact ⟨_, _, _, rfl⟩

theorem postTelemetry_frame (s : State) (r : EventRec) : ∃ sec, s.postTelemetry r = { s with sec := sec } := by
  unfold State.postTelemetry
  split <;> exact ⟨_, rfl⟩

theorem recordsOnly_writeFault {s t : State} (h : RecordsOnly s t) (u c disp : Nat) (tr : Trap) (pc : Off) :
    RecordsOnly s (t.writeFault u c disp tr pc) := by
  obtain ⟨_, _, _, _, _, rfl⟩ := h
  unfold State.writeFault State.stamp
  dsimp only
  obtain ⟨sec, hpost⟩ := postTelemetry_frame (State.logRecord _ _ _) _
  obtain ⟨mem, tags, tab, hlog⟩ := logRecord_frame _ _ _
  rw [hpost, hlog]
  exact ⟨_, _, _, _, _, rfl⟩

theorem recordsOnly_requestRegen (s : State) (asid obj start : Nat) : RecordsOnly s (s.requestRegen asid obj start) := by
  unfold State.requestRegen
  split <;> exact ⟨_, _, _, _, _, rfl⟩

/-! The abort of an open region (R36). -/

/-- A context whose open region has aborted. -/
def abortedCtx (x : Ctx) (r : RegionRec) (waits : List Nat) : Ctx :=
  { x with region := none, commitQ := x.commitQ.filter fun e => !e.held, pc := r.pc, loops := r.loops,
           regs := restoreOffs x.regs r.offs, target := none, redirect := none, captured := none, checked := false,
           awaitCmds := x.awaitCmds ++ waits }

theorem abortRegion_of_closed {s : State} {t c : Nat} (h : (s.ctx t c).region = none) : s.abortRegion t c = s := by
  simp [State.abortRegion, h]

theorem abortRegion_of_open {s : State} {t c : Nat} {r : RegionRec} (h : (s.ctx t c).region = some r) : ∃ cp waits,
    s.abortRegion t c = { s with cp := cp }.setCtx t c (abortedCtx (s.ctx t c) r waits) := by
  obtain ⟨cp, hcp⟩ := foldl_returnEntry_frame (reservedEntries (s.ctx t c).commitQ) s
  simp only [State.abortRegion, h, hcp]
  exact ⟨_, _, rfl⟩

section
variable (r : Regs) (offs : FMap Off)

theorem restoreOffs_getA {j : Nat} (hj : j < 16) :
    (restoreOffs r offs).getA j = (r.getA j).withOffset (FMap.get 0 offs j).toNat := by
  obtain ⟨q, _, hq, hlast⟩ := foldl_see_of_mem
    (f := fun (r : Regs) j => r.setA j ((r.getA j).withOffset (FMap.get 0 offs j).toNat)) (see := Regs.getA)
    (I := fun _ => True) (b := r) (fun _ _ _ => trivial) (fun b i j h => FMap.get_set_other _ _ _ _ h) List.nodup_range
    (List.mem_range.mpr hj) trivial
  rw [restoreOffs, hlast, ← hq]
  exact FMap.get_set_same _ _ _ _

/-- Only the a-registers are set back. -/
theorem restoreOffs_frame : (restoreOffs r offs).s = r.s ∧ (restoreOffs r offs).p = r.p ∧ (restoreOffs r offs).b = r.b :=
  List.foldlRecOn (motive := fun q : Regs => q.s = r.s ∧ q.p = r.p ∧ q.b = r.b) _ _ ⟨rfl, rfl, rfl⟩ fun _ h _ _ => h

end

/-- A capability with its offset set back keeps its other fields. -/
theorem withOffset_keeps (a : Cap) (o : Off) : (a.withOffset o.toNat).offset = o.toNat ∧
    (a.withOffset o.toNat).tag = a.tag ∧ (a.withOffset o.toNat).rights = a.rights ∧ (a.withOffset o.toNat).kind = a.kind ∧
    (a.withOffset o.toNat).obj = a.obj ∧ (a.withOffset o.toNat).exp = a.exp ∧ (a.withOffset o.toNat).baseM = a.baseM ∧
    (a.withOffset o.toNat).lenM = a.lenM := by
  obtain ⟨htag, hkind, hobj, hexp, hbase, hlen⟩ := CapabilityResults.mkCap_keeps a a.rights.toNat o.toNat
  refine ⟨?_, htag, CapabilityResults.withOffset_rights a _, hkind, hobj, hexp, hbase, hlen⟩
  rw [Cap.withOffset, CapabilityResults.mkCap_offset, Nat.mod_eq_of_lt o.isLt]

/-! The stop of a task (R124, R348, R349). -/

theorem settleEnergy_core (s : State) (t c r : Nat) : (s.settleEnergy t c r).core = s.core := by
  unfold State.settleEnergy State.addEnergy
  dsimp only
  split <;> rfl

theorem settleEnergy_ctx (s : State) (t c r u d : Nat) : (s.settleEnergy t c r).ctx u d = s.ctx u d :=
  congrArg (fun x : Core => FMap.get (Ctx.init d) x.ctxs (ctxKey u d)) (settleEnergy_core s t c r)

theorem modGang_ctx (s : State) (g : Nat) (f : Gang → Gang) (u d : Nat) : (s.modGang g f).ctx u d = s.ctx u d := rfl

/-- A context that frees is idle; it has no loops where it had none, and the commit stage and the commands are as before. -/
theorem freeContext_idle (s : State) (t c st : Nat) : ((s.freeContext t c st).ctx t c).phase = .idle ∧
    ((s.ctx t c).loops = [] → ((s.freeContext t c st).ctx t c).loops = []) ∧
    ((s.freeContext t c st).ctx t c).commitQ = (s.ctx t c).commitQ ∧ (s.freeContext t c st).core.cmds = s.core.cmds := by
  unfold State.freeContext
  split
  · simp
  · simp [modGang_ctx, settleEnergy_ctx, settleEnergy_core]

theorem settle_cases (s : State) (t c : Nat) : s.settle t c = s ∨ ∃ st, s.settle t c = s.freeContext t c st := by
  unfold State.settle
  split
  · split
    · exact .inr ⟨_, rfl⟩
    · exact .inl rfl
  · split
    · exact .inr ⟨_, rfl⟩
    · exact .inl rfl
  · exact .inl rfl

/-- What is left of a context whose operations from bundle `n` on are discarded, and of the commands. -/
theorem discardFrom_left (s : State) (t c n : Nat) : ((s.discardFrom t c n).ctx t c).loops = [] ∧
    ((s.discardFrom t c n).ctx t c).commitQ = (s.ctx t c).commitQ.filter (fun e => decide (e.bundle < n) || e.stands) ∧
    (s.discardFrom t c n).core.cmds =
      s.core.cmds.filter fun m => !(m.tile == t && m.ctx == c && m.owned && m.place == .port) := by
  unfold State.discardFrom
  dsimp only
  generalize hreturned : List.foldl State.returnEntry s _ = s1
  obtain ⟨cp, rfl⟩ : ∃ cp, s1 = { s with cp := cp } := hreturned ▸ foldl_returnEntry_frame _ s
  refine ⟨?_, ?_, rfl⟩
  · exact congrArg Ctx.loops (FMap.get_set_same (Ctx.init c) s.core.ctxs (ctxKey t c) _)
  · exact congrArg Ctx.commitQ (FMap.get_set_same (Ctx.init c) s.core.ctxs (ctxKey t c) _)

/-- A context without loops that is set to wait for its operations waits or frees. -/
theorem settle_draining {d : State} {t c : Nat} (st : Nat) (hloops : (d.ctx t c).loops = []) :
    let u := (d.modCtx t c fun x => { x with phase := .draining st }).settle t c
    ((u.ctx t c).phase = .draining st ∨ (u.ctx t c).phase = .idle) ∧ (u.ctx t c).loops = [] ∧
      (u.ctx t c).commitQ = (d.ctx t c).commitQ ∧ u.core.cmds = d.core.cmds := by
  intro u
  rcases settle_cases (d.modCtx t c fun x => { x with phase := .draining st }) t c with heq | ⟨st', heq⟩ <;>
    rw [show u = _ from heq]
  · simp [hloops]
  · obtain ⟨hphase, hnone, hcommit, hcmds⟩ :=
      freeContext_idle (d.modCtx t c fun x => { x with phase := .draining st }) t c st'
    exact ⟨.inr hphase, hnone (by simp [hloops]), by simp [hcommit], hcmds⟩

/-- A task that stops waits for its operations or frees its context. -/
theorem stopTask_stopped (s : State) (t c n st : Nat) : let u := s.stopTask t c n st
    ((u.ctx t c).phase = .draining st ∨ (u.ctx t c).phase = .idle) ∧ (u.ctx t c).loops = [] ∧
      (∀ e ∈ (u.ctx t c).commitQ, e.bundle < n ∨ e.stands = true) ∧
      ∀ m ∈ u.core.cmds, m.tile = t → m.ctx = c → m.owned = true → m.place ≠ .port := by
  obtain ⟨hloops, hcommit, hcmds⟩ := discardFrom_left s t c n
  obtain ⟨hphase, hnone, hcommit', hcmds'⟩ := settle_draining st hloops
  refine ⟨hphase, hnone, fun e he => ?_, fun m hm htile hctx howned hplace => ?_⟩
  · have hleft : e ∈ ((s.discardFrom t c n).ctx t c).commitQ := hcommit' ▸ he
    rw [hcommit] at hleft
    simpa using (List.mem_filter.mp hleft).2
  · have hleft : m ∈ (s.discardFrom t c n).core.cmds := hcmds' ▸ hm
    rw [hcmds] at hleft
    simpa [htile, hctx, howned, hplace] using (List.mem_filter.mp hleft).2

/-! The dispositions of a system trap (R348, R349, R359, R364). -/

section
variable {s : State} {t c : Nat} {tr : Trap} {pc : Off} {n : Nat} (hgood : tr.bad = none)
include hgood

theorem takeSystemTrap_of_fatal (hregen : tr.code ≠ trapPAGE_REGEN) (hfeature : tr.code ≠ trapFEATURE) :
    ∃ a : State, s.takeSystemTrap t c tr pc n = a.stopTask t c n (if tr.code = trapRETENTION_LOSS then 4 else 2) := by
  simp only [State.takeSystemTrap, hgood, hregen, hfeature, false_and, if_false]
  exact ⟨_, rfl⟩

theorem takeSystemTrap_of_pageRegen {r : RegionRec} (hcode : tr.code = trapPAGE_REGEN) (hopen : (s.ctx t c).region = some r) :
    ((s.takeSystemTrap t c tr pc n).ctx t c).phase = .page (s.ctx t c).sys.asid tr.obj tr.off ∧
      ((s.takeSystemTrap t c tr pc n).ctx t c).region = none := by
  have hrecords := recordsOnly_writeFault (recordsOnly_requestRegen s (s.ctx t c).sys.asid tr.obj tr.off) t c 1 tr pc
  obtain ⟨cp, waits, habort⟩ := abortRegion_of_open ((congrArg Ctx.region (hrecords.ctx t c)).trans hopen)
  simp only [State.takeSystemTrap, hgood, hcode, hopen, Option.isSome_some, and_self, if_true, habort]
  rw [State.modCtx_ctx, State.setCtx_ctx]
  exact ⟨rfl, rfl⟩

theorem takeSystemTrap_of_feature {k : Task} (hcode : tr.code = trapFEATURE) (htask : (s.ctx t c).task = some k)
    (hcan : (s.regionTiles k.region).any (fun u => (s.tile u).feat.getLsbD tr.sub.toNat) = true) :
    ((s.takeSystemTrap t c tr pc n).ctx t c).phase = .landed ∧
      ((s.takeSystemTrap t c tr pc n).ctx t c).preempt = some { kind := .migrate } ∧
      ((s.takeSystemTrap t c tr pc n).ctx t c).task = some { k with feat := k.feat ||| BitVec.ofNat 8 (2 ^ tr.sub.toNat) } := by
  have hother : trapFEATURE ≠ trapPAGE_REGEN := by decide
  simp only [State.takeSystemTrap, hgood, hcode, htask, hother, hcan, Option.isSome_some, Option.getD_some, and_self,
    false_and, if_true, if_false]
  rw [State.modCtx_ctx]
  exact ⟨rfl, rfl, rfl⟩

end

/-- Settles O16. A trap that ends its task comes down to `stopTask`; the other dispositions change the context after the
abort of its region, which `abortRegion_of_open` writes out. -/
theorem systemTrapAndRegionAbort : Obligations.SystemTrapAndRegionAbort := by
  unfold Obligations.SystemTrapAndRegionAbort
  refine ⟨fun s tr hgood => ?_, fun s t c => ?_⟩
  · intro t x c
    refine ⟨fun hregen hfeature => ?_, fun hcode hopen => ?_, fun k hcode htask hcan => ?_⟩
    · obtain ⟨a, ha⟩ : ∃ a : State, t = a.stopTask x c s.me.bundleNo (if tr.code = trapRETENTION_LOSS then 4 else 2) :=
        takeSystemTrap_of_fatal hgood hregen hfeature
      rw [ha]
      exact stopTask_stopped a x c s.me.bundleNo _
    · obtain ⟨r, hr⟩ := Option.isSome_iff_exists.mp hopen
      exact takeSystemTrap_of_pageRegen hgood hcode hr
    · exact takeSystemTrap_of_feature hgood hcode htask hcan
  · intro x u y
    refine ⟨abortRegion_of_closed, fun r hr => ?_⟩
    obtain ⟨cp, waits, habort⟩ := abortRegion_of_open hr
    have hu : u = _ := habort
    have hy : y = abortedCtx x r waits := by rw [show y = u.ctx t c from rfl, hu, State.setCtx_ctx]
    obtain ⟨hs, hp, hb⟩ := restoreOffs_frame x.regs r.offs
    rw [hy, hu]
    refine ⟨rfl, rfl, rfl, rfl, fun j hj => ?_, hs, hp, hb, rfl, rfl, rfl, rfl, rfl, rfl, rfl, fun _ => rfl, fun _ => rfl⟩
    have hd : (abortedCtx x r waits).regs.getA j = (x.regs.getA j).withOffset (FMap.get 0 r.offs j).toNat :=
      restoreOffs_getA x.regs r.offs hj
    rw [hd]
    exact withOffset_keeps _ _

end Sys2Proof.Machine.SystemTraps

/-! PROOF. The writes of a well's controller and what they leave alone: the apply and the repair of the journal, and the
scrubber (R378 to R389). -/

namespace Sys2Proof.Machine.WellWrites
open Sys2Proof MapsAndFolds ClocksAndEnergy

/-! What changes nothing but wells. -/

/-- Nothing but the tiles' wells, the count of free values and the firmware's part of the state differs. -/
def WellsOnly (s u : State) : Prop :=
  (∃ ts ctr sec, u = { s with freeCtr := ctr, core := { s.core with tiles := ts }, sec := sec }) ∧
    ∀ t, ∃ w, u.tile t = { s.tile t with well := w }

theorem WellsOnly.refl (s : State) : WellsOnly s s := ⟨⟨_, _, _, rfl⟩, fun _ => ⟨_, rfl⟩⟩

theorem WellsOnly.trans {s u v : State} (h : WellsOnly s u) (h' : WellsOnly u v) : WellsOnly s v := by
  obtain ⟨⟨_, _, _, rfl⟩, htile⟩ := h
  obtain ⟨⟨_, _, _, rfl⟩, htile'⟩ := h'
  refine ⟨⟨_, _, _, rfl⟩, fun t => ?_⟩
  obtain ⟨w, hw⟩ := htile t
  obtain ⟨w', hw'⟩ := htile' t
  exact ⟨w', by rw [hw', hw]⟩

theorem WellsOnly.foldl {α : Type} {f : State → α → State} (hf : ∀ s x, WellsOnly s (f s x)) (xs : List α) (s : State) :
    WellsOnly s (xs.foldl f s) :=
  List.foldlRecOn (motive := WellsOnly s) xs f (.refl s) fun t ht x _ => ht.trans (hf t x)

section
variable {s u : State} (h : WellsOnly s u)
include h

theorem WellsOnly.sameMem : s.SameMem u := by
  obtain ⟨⟨_, _, _, rfl⟩, _⟩ := h
  exact fun _ => rfl

theorem WellsOnly.tids (t : Nat) : (u.tile t).tids = (s.tile t).tids := by
  obtain ⟨w, hw⟩ := h.2 t
  rw [hw]

end

/-! One well after a change. -/

@[simp] theorem modWell_well (s : State) (t : Nat) (f : Well → Well) : (s.modWell t f).well t = f (s.well t) := by
  simp [State.modWell, State.well]

theorem wellsOnly_modWell (s : State) (t : Nat) (f : Well → Well) : WellsOnly s (s.modWell t f) := by
  refine ⟨⟨_, _, _, rfl⟩, fun u => ?_⟩
  by_cases hu : u = t
  · subst hu
    exact ⟨_, State.modTile_tile _ _ _⟩
  · exact ⟨_, State.modTile_tile_other _ _ hu⟩

theorem wellsOnly_event (s : State) (src code : Nat) (payload : BitVec 160) : WellsOnly s (s.event src code payload) := by
  obtain ⟨sec, h⟩ := event_frame s src code payload
  rw [h]
  exact ⟨⟨_, _, _, rfl⟩, fun _ => ⟨_, rfl⟩⟩

@[simp] theorem event_well (s : State) (src code : Nat) (payload : BitVec 160) (t : Nat) :
    (s.event src code payload).well t = s.well t := by
  obtain ⟨sec, h⟩ := event_frame s src code payload
  rw [h]
  rfl

theorem wellsOnly_markBad (s : State) (t p : Nat) : WellsOnly s (s.markBad t p) := by
  unfold State.markBad
  split
  · exact .refl s
  · exact (wellsOnly_modWell s t _).trans (wellsOnly_event _ _ _ _)

/-! The attempts of a write (R385). -/

/-- What attempts leave of a well: its wear and, where they count, the journal differ. -/
def Tried (counted : Bool) (w v : Well) : Prop :=
  ∃ wear journal, v = { w with wear := wear, journal := journal } ∧ (counted = false → journal = w.journal)

theorem Tried.trans {counted : Bool} {w v x : Well} (h : Tried counted w v) (h' : Tried counted v x) : Tried counted w x := by
  obtain ⟨_, _, rfl, hjournal⟩ := h
  obtain ⟨_, _, rfl, hjournal'⟩ := h'
  exact ⟨_, _, rfl, fun hc => (hjournal' hc).trans (hjournal hc)⟩

theorem tryWrite_frame (t p : Nat) (counted : Bool) (k : Nat) (s : State) :
    WellsOnly s (s.tryWrite t p counted k).1 ∧ Tried counted (s.well t) ((s.tryWrite t p counted k).1.well t) := by
  induction k generalizing s with
  | zero => exact ⟨.refl s, _, _, rfl, fun _ => rfl⟩
  | succ k ih =>
    rw [State.tryWrite]
    generalize Config.writeVerifies s.freeCtr = ok
    generalize hu : State.modWell _ t _ = u
    have hfree : WellsOnly s { s with freeCtr := s.freeCtr + 1 } := ⟨⟨_, _, _, rfl⟩, fun _ => ⟨_, rfl⟩⟩
    have hone : WellsOnly s u := hu ▸ hfree.trans (wellsOnly_modWell _ t _)
    have htried : Tried counted (s.well t) (u.well t) := by
      rw [← hu, modWell_well]
      cases counted
      · exact ⟨_, _, rfl, fun _ => rfl⟩
      · exact ⟨_, _, rfl, nofun⟩
    split
    · exact ⟨hone, htried⟩
    · exact ⟨hone.trans (ih u).1, htried.trans (ih u).2⟩

theorem writeOwn_frame (s : State) (t p : Nat) :
    WellsOnly s (s.writeOwn t p).1 ∧ ∃ wear, (s.writeOwn t p).1.well t = { s.well t with wear := wear } := by
  obtain ⟨honly, wear, _, hwell, hjournal⟩ := tryWrite_frame t p false 9 s
  exact ⟨honly, wear, by rw [State.writeOwn, hwell, hjournal rfl]⟩

/-! A record copy and a descriptor copy (R380, R387). -/

/-- A record copy rewritten leaves the journal and all but the copies and the wear. -/
theorem writeRecord_frame (s : State) (t copy : Nat) : WellsOnly s (s.writeRecord t copy).1 ∧ ∃ wear r0 g0 r1 g1,
    (s.writeRecord t copy).1.well t =
      { s.well t with wear := wear, rec0 := r0, rec0Good := g0, rec1 := r1, rec1Good := g1 } := by
  obtain ⟨honly, wear, hwell⟩ := writeOwn_frame s t journalPage
  unfold State.writeRecord
  dsimp only
  refine ⟨honly.trans (wellsOnly_modWell _ t _), ?_⟩
  rw [modWell_well, hwell]
  split
  · exact ⟨_, _, _, _, _, rfl⟩
  · exact ⟨_, _, _, _, _, rfl⟩

theorem wellsOnly_writeRecords (s : State) (t : Nat) : WellsOnly s (s.writeRecords t).1 :=
  (writeRecord_frame s t 0).1.trans (writeRecord_frame _ t 1).1

theorem wellsOnly_writeRedirects (t k : Nat) (s : State) : WellsOnly s (s.writeRedirects t k).1 := by
  induction k generalizing s with
  | zero => exact .refl s
  | succ k ih =>
    have hone := (writeOwn_frame s t journalPage).1
    rw [State.writeRedirects]
    split
    · rename_i heq
      rw [heq] at hone
      exact hone.trans (ih _)
    · rename_i heq
      rw [heq] at hone
      exact hone

theorem genNewer_succ (g : BitVec 32) : genNewer (g + 1) g = true ∧ genNewer g (g + 1) = false := by
  have hup : g + 1 - g = 1 := by rw [BitVec.add_comm, BitVec.add_sub_cancel]
  have hdown : g - (g + 1) = -1 := by rw [← BitVec.sub_sub, BitVec.sub_self, BitVec.zero_sub]
  rw [genNewer, genNewer, hup, hdown]
  decide

/-- The active descriptor is what its slot reads, if that reads (R380). -/
theorem active_cases (w : Well) :
    (w.active.1 = 0 ∧ ∀ a, readSlot w.desc00 w.desc01 = some a → w.active.2 = a) ∨
      (w.active.1 = 1 ∧ ∀ b, readSlot w.desc10 w.desc11 = some b → w.active.2 = b) := by
  unfold Well.active
  split
  · split
    · exact .inr ⟨rfl, fun _ h => by simp_all⟩
    · exact .inl ⟨rfl, fun _ h => by simp_all⟩
  · exact .inl ⟨rfl, fun _ h => by simp_all⟩
  · exact .inr ⟨rfl, fun _ h => by simp_all⟩
  · exact .inl ⟨rfl, fun _ h => by simp_all⟩

/-- A slot that reads is the active one where the other does not read as newer. -/
theorem active_of_slot0 {w : Well} {d : PageDesc} (hd : readSlot w.desc00 w.desc01 = some d)
    (hnewer : ∀ b, readSlot w.desc10 w.desc11 = some b → genNewer b.gen d.gen = false) : w.active.2 = d := by
  unfold Well.active
  rw [hd]
  cases h1 : readSlot w.desc10 w.desc11 with
  | none => rfl
  | some b => simp [hnewer b h1]

theorem active_of_slot1 {w : Well} {d : PageDesc} (hd : readSlot w.desc10 w.desc11 = some d)
    (hnewer : ∀ a, readSlot w.desc00 w.desc01 = some a → genNewer d.gen a.gen = true) : w.active.2 = d := by
  unfold Well.active
  rw [hd]
  cases h0 : readSlot w.desc00 w.desc01 with
  | none => rfl
  | some a => simp [hnewer a h0]

/-- A new descriptor in the slot that is not active is the active one once its copy 0 is good (R380). -/
theorem active_setDesc (w : Well) {d : PageDesc} (hgood : d.good = true) (hgen : d.gen = w.active.2.gen + 1) :
    (w.setDesc (1 - w.active.1) 0 d).active.2 = d := by
  have hread (c : PageDesc) : readSlot d c = some d := by simp [readSlot, hgood]
  rcases active_cases w with ⟨hslot, hact⟩ | ⟨hslot, hact⟩ <;> rw [hslot]
  · refine active_of_slot1 (hread _) fun a ha => ?_
    rw [hgen, hact a ha]
    exact (genNewer_succ a.gen).1
  · refine active_of_slot0 (hread _) fun b hb => ?_
    rw [hgen, hact b hb]
    exact (genNewer_succ b.gen).2

theorem writeDesc0_eq (s : State) (t : Nat) (redir : Bool) (nred : Nat) : s.writeDesc0 t redir nred =
    ((s.writeOwn t descPage).1.modWell t fun w => w.setDesc (1 - (s.well t).active.1) 0
      { good := (s.writeOwn t descPage).2, redir := redir, nred := nred, gen := (s.well t).active.2.gen + 1,
        jseq := w.journal.jseq }, (s.writeOwn t descPage).2) := rfl

theorem writeDesc1_eq (s : State) (t : Nat) : s.writeDesc1 t =
    ((s.writeOwn t descPage).1.modWell t fun w => w.setDesc (s.well t).active.1 1
      { (s.well t).active.2 with good := (s.writeOwn t descPage).2 }, (s.writeOwn t descPage).2) := rfl

theorem wellsOnly_writeDesc0 (s : State) (t : Nat) (redir : Bool) (nred : Nat) : WellsOnly s (s.writeDesc0 t redir nred).1 := by
  rw [writeDesc0_eq]
  dsimp only
  exact (writeOwn_frame s t descPage).1.trans (wellsOnly_modWell _ t _)

theorem writeDesc0_active {s u : State} {t : Nat} {redir : Bool} {nred : Nat} (h : s.writeDesc0 t redir nred = (u, true)) :
    (u.well t).active.2.redir = redir := by
  obtain ⟨_, wear, hwell⟩ := writeOwn_frame s t descPage
  rw [writeDesc0_eq] at h
  obtain ⟨rfl, hok⟩ := Prod.mk.inj h
  rw [modWell_well, hwell]
  exact congrArg PageDesc.redir (active_setDesc { s.well t with wear := wear } hok rfl)

theorem wellsOnly_writeDesc1 (s : State) (t : Nat) : WellsOnly s (s.writeDesc1 t).1 := by
  rw [writeDesc1_eq]
  dsimp only
  exact (writeOwn_frame s t descPage).1.trans (wellsOnly_modWell _ t _)

/-! The repair of the journal (R382, R389). -/

theorem wellsOnly_journalDiscard (s : State) (t st : Nat) : WellsOnly s (s.journalDiscard t st) :=
  ((((wellsOnly_modWell s t _).trans (wellsOnly_writeRecords _ t)).trans (wellsOnly_writeRedirects t 4 _)).trans
    (wellsOnly_modWell _ t _)).trans (wellsOnly_event _ _ _ _)

theorem wellsOnly_journalRepair (s : State) (t : Nat) : WellsOnly s (s.journalRepair t) := by
  unfold State.journalRepair
  dsimp only
  generalize (if (s.well t).rec0Good = true then _ else _ : JournalRec) = r
  generalize hu : State.modWell s t _ = u
  have hone : WellsOnly s u := hu ▸ wellsOnly_modWell s t _
  split
  · exact hone.trans (wellsOnly_modWell u t _)
  · split
    · exact hone.trans (wellsOnly_journalDiscard u t 0)
    · split
      · exact hone.trans (wellsOnly_journalDiscard u t 1)
      · exact hone.trans (wellsOnly_journalDiscard u t 2)
      · exact hone

/-! A page written (R385). -/

theorem rd8_wrBytes (s : State) (pa : Nat) (bs : List Byte) (a : Nat) :
    (s.wrBytes pa bs).rd8 a = if pa ≤ a ∧ a < pa + bs.length then bs.getD (a - pa) 0 else s.rd8 a := by
  split
  · rename_i h
    obtain ⟨k, rfl⟩ := Nat.exists_eq_add_of_le h.1
    have hk : k < bs.length := by omega
    rw [s.rd8_wrBytes_mem pa bs k hk, Nat.add_sub_cancel_left, List.getD_eq_getElem _ _ hk]
  · exact s.rd8_wrBytes_other bs (by omega)

/-- What a verified write leaves: the bytes from `pa` on, and neither the package's number nor the place of an apply differs. -/
def Verified (s u : State) (t pa : Nat) (bs : List Byte) : Prop :=
  u.net = s.net ∧ (u.well t).applyNext = (s.well t).applyNext ∧ ∀ a, u.rd8 a = (s.wrBytes pa bs).rd8 a

/-- Two verified writes, the second behind the first. -/
theorem Verified.append {s u v : State} {t pa : Nat} {bs cs : List Byte} (h : Verified s u t pa bs)
    (h' : Verified u v t (pa + bs.length) cs) : Verified s v t pa (bs ++ cs) := by
  obtain ⟨hnet, hnext, hmem⟩ := h
  obtain ⟨hnet', hnext', hmem'⟩ := h'
  refine ⟨hnet'.trans hnet, hnext'.trans hnext, fun a => ?_⟩
  rw [hmem', rd8_wrBytes, hmem, rd8_wrBytes, rd8_wrBytes, List.length_append]
  by_cases hlow : a < pa + bs.length
  · by_cases hin : pa ≤ a
    · simp [hlow, hin, show ¬ pa + bs.length ≤ a by omega, show a < pa + (bs.length + cs.length) by omega,
        List.getElem?_append_left (show a - pa < bs.length by omega)]
    · simp [hin, show ¬ pa + bs.length ≤ a by omega]
  · simp [hlow, show pa + bs.length ≤ a by omega, show pa ≤ a by omega, Nat.add_assoc,
      List.getElem?_append_right (show bs.length ≤ a - pa by omega), Nat.sub_add_eq]

/-- A unit that verified: the attempts, then its bytes in memory and its errors gone. -/
theorem writeUnit_verified {s u : State} {t off : Nat} {bs : List Byte} (h : s.writeUnit t off bs = (u, true)) :
    Verified s u t (s.wellPa t off) bs := by
  obtain ⟨honly, _, _, hwell, _⟩ := tryWrite_frame t (off / 4096) true 9 s
  unfold State.writeUnit at h
  generalize s.tryWrite t (off / 4096) true 9 = r at h honly hwell
  obtain ⟨s1, ok⟩ := r
  cases ok with
  | false => simp at h
  | true =>
    obtain ⟨rfl, -⟩ := Prod.mk.inj h
    have hnext := congrArg Well.applyNext hwell
    obtain ⟨⟨ts, ctr, sec, rfl⟩, _⟩ := honly
    refine ⟨rfl, ?_, fun _ => rfl⟩
    rw [modWell_well]
    exact hnext

theorem writeUnits_verified {t k : Nat} {s u : State} {off : Nat} {bs : List Byte}
    (h : s.writeUnits t off bs k = (u, true)) (hlen : bs.length = 64 * k) : Verified s u t (s.wellPa t off) bs := by
  induction k generalizing s off bs with
  | zero =>
    obtain rfl : s = u := congrArg Prod.fst h
    obtain rfl : bs = [] := List.eq_nil_of_length_eq_zero hlen
    exact ⟨rfl, rfl, fun _ => rfl⟩
  | succ k ih =>
    rw [State.writeUnits] at h
    split at h
    · rename_i s1 hone
      have hfirst := writeUnit_verified hone
      have hrest := ih h (by rw [List.length_drop]; omega)
      have hplace : s1.wellPa t (off + 64) = s.wellPa t off + (bs.take 64).length := by
        rw [State.wellPa, hfirst.1, List.length_take, Nat.min_eq_left (by omega)]
        exact (Nat.add_assoc _ _ _).symm
      rw [hplace] at hrest
      have hboth := hfirst.append hrest
      rwa [List.take_append_drop] at hboth
    · exact absurd (congrArg Prod.snd h) (by simp)

theorem writePage_verified {s u : State} {t p : Nat} {bs : List Byte} (h : s.writePage t p bs = (u, true))
    (hlen : bs.length = 4096) : Verified s u t (s.wellPa t (4096 * p)) bs := by
  unfold State.writePage at h
  split at h
  · rename_i s1 hunits
    obtain ⟨rfl, -⟩ := Prod.mk.inj h
    obtain ⟨hnet, hnext, hmem⟩ := writeUnits_verified hunits hlen
    refine ⟨hnet, ?_, hmem⟩
    rw [modWell_well]
    exact hnext
  · exact absurd (congrArg Prod.snd h) (by simp)

/-! The apply of a committed journal (R382). -/

/-- A piece of a well that reads is its bytes in memory. -/
theorem wellPiece_ok {s : State} {t p o n : Nat} {bs : List Byte} (h : s.wellPiece t (p, o, n) = .ok bs) :
    bs = s.rdBytes (s.wellPa t (4096 * p + o)) n := by
  unfold State.wellPiece at h
  dsimp only at h
  split at h
  · cases h
  · split at h
    · cases h
    · split at h
      · cases h
      · exact (Except.ok.inj h).symm

theorem rd8_of_rdBytes (s : State) (pa n k : Nat) (hk : k < n) : (s.rdBytes pa n).getD k 0 = s.rd8 (pa + k) := by
  simp [State.rdBytes, State.rd8, Accumulators.getRun_eq_map, hk]

theorem wellPa_add (s : State) (t off k : Nat) : s.wellPa t (off + k) = s.wellPa t off + k := (Nat.add_assoc _ off k).symm

theorem applyFail_verifyFailed (s : State) (t : Nat) : ((s.applyFail t).well t).verifyFailed = true := by
  rw [State.applyFail, modWell_well]

/-- Whether an apply goes on at a tile. -/
def Runs (s : State) (t : Nat) : Prop :=
  s.pow.down = false ∧ s.fwActive = true ∧ (s.well t).applying = true ∧ s.wjMid t = false

theorem runs_iff (s : State) (t : Nat) :
    Runs s t ↔ ¬ (s.pow.down || !s.fwActive || !(s.well t).applying || s.wjMid t) = true := by
  simp [Runs, and_assoc]

theorem exec_journalApply_of_idle {s : State} {t : Nat} (h : ¬ Runs s t) : exec (.journalApply t) s = .next s := by
  rw [exec_journalApply, execJournalApply]
  exact if_pos (by rwa [runs_iff, not_not] at h)

section
variable {s : State} {t : Nat} (hruns : Runs s t)
include hruns

theorem exec_journalApply_of_ending (hstep : (s.well t).applyStep ≠ 0) : exec (.journalApply t) s = .next (s.applyEnd t) := by
  rw [exec_journalApply, execJournalApply]
  exact (if_neg ((runs_iff s t).mp hruns)).trans (if_pos hstep)

variable (hstep : (s.well t).applyStep = 0)
include hstep

/-- A shadow page is copied home, or the apply has failed. -/
theorem exec_journalApply_of_page {p j : Nat}
    (hnext : ((s.well t).redirect.take (s.well t).active.2.nred)[(s.well t).applyNext]? = some (p, j)) :
    ∃ u, exec (.journalApply t) s = .next u ∧ ((u.well t).verifyFailed = true ∨
      (u.well t).applyNext = (s.well t).applyNext + 1 ∧
      (∀ o < 4096, u.rd8 (s.wellPa t (4096 * p + o)) = s.rd8 (s.wellPa t (shadowOff j + o))) ∧
      ∀ a, (a < s.wellPa t (4096 * p) ∨ s.wellPa t (4096 * p + 4096) ≤ a) → u.rd8 a = s.rd8 a) := by
  rw [exec_journalApply, execJournalApply]
  dsimp only
  rw [if_neg ((runs_iff s t).mp hruns), if_neg (not_not.mpr hstep), hnext]
  dsimp only
  split
  · refine ⟨_, rfl, .inl ?_⟩
    rw [event_well, applyFail_verifyFailed]
  · rename_i bs hread
    have hbs := wellPiece_ok hread
    have hlen : bs.length = 4096 := by simp [hbs, State.rdBytes, Accumulators.getRun_eq_map]
    split
    · rename_i s1 hpage
      obtain ⟨_, happlied, hmem⟩ := writePage_verified hpage hlen
      refine ⟨_, rfl, .inr ⟨?_, fun o ho => (hmem _).trans ?_, fun a ha => (hmem a).trans ?_⟩⟩
      · rw [modWell_well, happlied]
      · have hshadow : 4096 * (shadowOff j / 4096) + 0 + o = shadowOff j + o := by
          unfold shadowOff
          omega
        rw [wellPa_add, rd8_wrBytes, if_pos (by omega), Nat.add_sub_cancel_left, hbs, rd8_of_rdBytes _ _ _ _ ho,
          ← wellPa_add, hshadow]
      · rw [wellPa_add] at ha
        exact s.rd8_wrBytes_other bs (by omega)
    · refine ⟨_, rfl, .inl ?_⟩
      rw [event_well, applyFail_verifyFailed]

/-- After the last page the descriptor is rewritten with REDIR 0, or the apply has failed. -/
theorem exec_journalApply_of_last
    (hnext : ((s.well t).redirect.take (s.well t).active.2.nred)[(s.well t).applyNext]? = none) :
    ∃ u, exec (.journalApply t) s = .next u ∧ ((u.well t).verifyFailed = true ∨
      (u.well t).applyStep = 1 ∧ (u.well t).active.2.redir = false ∧ s.SameMem u) := by
  rw [exec_journalApply, execJournalApply]
  dsimp only
  rw [if_neg ((runs_iff s t).mp hruns), if_neg (not_not.mpr hstep), hnext]
  dsimp only
  have hmem := (wellsOnly_writeDesc0 s t false 0).sameMem
  split
  · rename_i s1 hdesc
    rw [hdesc] at hmem
    refine ⟨_, rfl, .inr ⟨?_, ?_, hmem⟩⟩
    · rw [modWell_well]
    · rw [modWell_well]
      exact writeDesc0_active hdesc
  · exact ⟨_, rfl, .inl (applyFail_verifyFailed _ t)⟩

end

/-- The writes that end an apply leave memory; the first of the record copies takes the journal to APPLIED (R382, R387). -/
theorem applyEnd_ends (s : State) (t : Nat) : s.SameMem (s.applyEnd t) ∧
    ((s.applyEnd t).well t).applyStep =
      (if (s.well t).applyStep = 1 then 2 else if (s.well t).applyStep = 2 then 3 else 0) ∧
    ((s.well t).applyStep = 2 → ((s.applyEnd t).well t).journal.state = .applied ∧ ((s.applyEnd t).well t).shadowMask = 0) := by
  unfold State.applyEnd
  split
  · rename_i hstep
    refine ⟨((wellsOnly_writeDesc1 s t).trans (wellsOnly_modWell _ t _)).sameMem, ?_, fun h => ?_⟩
    · rw [modWell_well, if_pos hstep]
    · omega
  · rename_i hstep
    obtain ⟨honly, _, _, _, _, _, hwell⟩ := writeRecord_frame (s.modWell t fun w =>
      let v := w.freeShadows
      { v with applyNext := 0, journal := { v.journal with state := .applied } }) t 0
    refine ⟨(((wellsOnly_modWell s t _).trans honly).trans (wellsOnly_modWell _ t _)).sameMem, ?_, fun _ => ?_⟩
    · rw [modWell_well, hstep]
      rfl
    · rw [modWell_well, hwell, modWell_well]
      exact ⟨rfl, rfl⟩
  · rename_i h1 h2
    refine ⟨((writeRecord_frame s t 1).1.trans (wellsOnly_modWell _ t _)).sameMem, ?_, fun h => absurd h h2⟩
    rw [modWell_well, if_neg h1, if_neg h2]

/-! The scrubber (R378). -/

/-- The wear of the words written anew leaves the errors and the bad pages. -/
theorem foldl_wearUp_keeps {α : Type} (p : Nat) (xs : List α) (w : Well) :
    (xs.foldl (fun a _ => a.wearUp p) w).eccSingle = w.eccSingle ∧ (xs.foldl (fun a _ => a.wearUp p) w).badPages = w.badPages :=
  List.foldlRecOn (motive := fun v : Well => v.eccSingle = w.eccSingle ∧ v.badPages = w.badPages) xs _ ⟨rfl, rfl⟩
    fun _ h _ _ => h

section
variable {s : State} {t p : Nat} (e : WellErrors)

theorem exec_wellScrub_of_down (hdown : s.pow.down = true) : exec (.wellScrub t { page := p, arisen := e }) s = .next s := by
  rw [exec_wellScrub, execWellScrub]
  exact if_pos hdown

variable (hup : s.pow.down = false)
include hup

/-- A page that is not to be scrubbed: only the errors that have arisen are added. -/
theorem exec_wellScrub_of_skipped (h : 12288 ≤ p ∨ p ∈ ((s.well t).arise e).badPages) :
    ∃ u, exec (.wellScrub t { page := p, arisen := e }) s = .next u ∧ u.well t = (s.well t).arise e ∧ s.SameMem u := by
  refine ⟨s.modWell t fun w => w.arise e, ?_, modWell_well s t _, (wellsOnly_modWell s t _).sameMem⟩
  rw [exec_wellScrub, execWellScrub, State.whenUp]
  simp [hup, h]

variable (hpage : p < 12288) (hbad : p ∉ ((s.well t).arise e).badPages)
include hpage hbad

/-- A page whose CRC or a word fails is marked bad. -/
theorem exec_wellScrub_of_failed (h : p ∈ ((s.well t).arise e).crcBad ∨
    ∃ k ∈ ((s.well t).arise e).eccDouble, 512 * p ≤ k ∧ k < 512 * p + 512) :
    ∃ u, exec (.wellScrub t { page := p, arisen := e }) s = .next u ∧
      (u.well t).badPages = ((s.well t).arise e).badPages ++ [p] ∧ s.SameMem u := by
  refine ⟨(s.modWell t fun w => w.arise e).markBad t p, ?_, ?_,
    ((wellsOnly_modWell s t _).trans (wellsOnly_markBad _ t p)).sameMem⟩
  · rw [exec_wellScrub, execWellScrub, State.whenUp]
    simp [hup, hbad, h, show ¬ 12288 ≤ p by omega]
  · simp [State.markBad, hbad]

/-- The words of a page that read, corrected, are written anew. -/
theorem exec_wellScrub_of_mended (hcrc : p ∉ ((s.well t).arise e).crcBad)
    (hdouble : ∀ k ∈ ((s.well t).arise e).eccDouble, ¬ (512 * p ≤ k ∧ k < 512 * p + 512)) :
    ∃ u, exec (.wellScrub t { page := p, arisen := e }) s = .next u ∧
      (∀ k, k ∈ (u.well t).eccSingle ↔ k ∈ ((s.well t).arise e).eccSingle ∧ ¬ (512 * p ≤ k ∧ k < 512 * p + 512)) ∧
      (u.well t).badPages = ((s.well t).arise e).badPages ∧ s.SameMem u := by
  have hclean : ¬ ((((s.modWell t fun w => w.arise e).well t).crcBad.contains p ||
      ((s.modWell t fun w => w.arise e).well t).eccDouble.any fun k =>
        decide (512 * p ≤ k) && decide (k < 512 * p + 512)) = true) := by
    rw [modWell_well]
    simpa [hcrc] using hdouble
  have hserved : ¬ (12288 ≤ p ∨ ((s.modWell t fun w => w.arise e).well t).badPages.contains p = true) := by
    rw [modWell_well]
    simp [hbad, hpage]
  rw [exec_wellScrub, execWellScrub, State.whenUp, if_neg (by simp [hup])]
  dsimp only
  rw [if_neg hserved, if_neg hclean]
  refine ⟨_, rfl, fun k => ?_, ?_, ((wellsOnly_modWell s t _).trans (wellsOnly_modWell _ t _)).sameMem⟩
  · rw [modWell_well, (foldl_wearUp_keeps _ _ _).1, modWell_well]
    simp only [List.mem_filter, Bool.not_eq_true', Bool.and_eq_false_iff, decide_eq_false_iff_not, not_and_or]
  · rw [modWell_well, (foldl_wearUp_keeps _ _ _).2, modWell_well]

end

end Sys2Proof.Machine.WellWrites

/-! PROOF. Islands from ON to OFF and back, parked contexts and their resume records, and cistern slices (R367 to R375, R396). -/

namespace Sys2Proof.Machine.IslandsAndSlices
open Sys2Proof MapsAndFolds ClocksAndEnergy StreamsAndArms WellWrites

/-! The tiles and the contexts of an island. -/

theorem mem_tilesOf {i t : Nat} : t ∈ tilesOf i ↔ t / 8 = i := by
  simp only [tilesOf, List.mem_map, List.mem_range]
  refine ⟨?_, fun h => ⟨t % 8, by omega, by omega⟩⟩
  rintro ⟨j, hj, rfl⟩
  omega

theorem mem_ctxsOf {i : Nat} {tc : Nat × Nat} : tc ∈ ctxsOf i ↔ tc.1 / 8 = i ∧ tc.2 < 4 := by
  simp only [ctxsOf, List.mem_flatMap, List.mem_map, List.mem_range, mem_tilesOf]
  refine ⟨?_, fun h => ⟨tc.1, h.1, tc.2, h.2, rfl⟩⟩
  rintro ⟨t, ht, c, hc, rfl⟩
  exact ⟨ht, hc⟩

/-- What one step of a fold establishes and every step keeps holds after the fold. -/
theorem foldl_establishes {α β : Type} {f : β → α → β} {P : β → Prop} {xs : List α} {x : α} (hx : x ∈ xs)
    (hset : ∀ b, P (f b x)) (hkeep : ∀ b, ∀ y ∈ xs, P b → P (f b y)) (b : β) : P (xs.foldl f b) := by
  obtain ⟨ys, zs, rfl⟩ := List.append_of_mem hx
  rw [List.foldl_append, List.foldl_cons]
  exact List.foldlRecOn (motive := P) zs f (hset _) fun b hb y hy =>
    hkeep b y (List.mem_append_right _ (List.mem_cons_of_mem _ hy)) hb

/-- What a change leaves of every tile stands at each tile of a list once all of the list are changed. -/
theorem foldl_modTile {Q : Tile → Prop} {f : Tile → Tile} (hf : ∀ x, Q (f x)) {ts : List Nat} {t : Nat} (ht : t ∈ ts)
    (s : State) : Q ((ts.foldl (fun a t => a.modTile t f) s).tile t) := by
  refine foldl_establishes (P := fun a : State => Q (a.tile t)) ht (fun b => ?_) (fun b u _ hb => ?_) s
  · simpa using hf (b.tile t)
  · by_cases hu : t = u
    · subst hu
      simpa using hf (b.tile t)
    · rwa [State.modTile_tile_other b f hu]

/-- The same for the contexts of an island. -/
theorem foldl_modCtx {Q : Ctx → Prop} {f : Ctx → Ctx} (hf : ∀ x, Q (f x)) {i : Nat} {tc : Nat × Nat}
    (htc : tc ∈ ctxsOf i) (s : State) : Q (((ctxsOf i).foldl (fun a tc => a.modCtx tc.1 tc.2 f) s).ctx tc.1 tc.2) := by
  refine foldl_establishes (P := fun a : State => Q (a.ctx tc.1 tc.2)) htc (fun b => ?_) (fun b ud hud hb => ?_) s
  · simpa using hf (b.ctx tc.1 tc.2)
  · by_cases hkey : ctxKey tc.1 tc.2 = ctxKey ud.1 ud.2
    · have hc := (mem_ctxsOf.mp htc).2
      have hd := (mem_ctxsOf.mp hud).2
      obtain ⟨h1, h2⟩ : tc.1 = ud.1 ∧ tc.2 = ud.2 := by unfold ctxKey at hkey; omega
      rw [h1, h2]
      simpa using hf (b.ctx ud.1 ud.2)
    · exact (b.setCtx_ctx_other _ hkey).symm ▸ hb

theorem ctx_of_ctxs {s u : State} (h : u.core.ctxs = s.core.ctxs) {t c : Nat} : u.ctx t c = s.ctx t c := by
  rw [State.ctx, State.ctx, h]

theorem tile_of_tiles {s u : State} (h : u.core.tiles = s.core.tiles) {t : Nat} : u.tile t = s.tile t := by
  rw [State.tile, State.tile, h]

/-! IDLE and back (R368). -/

theorem exec_islandIdle_of_still {s : State} {i : Nat} (h : (s.island i).state = .on ∧ s.islandQuiet i = true ∧
    (s.island i).busyAt + 256 * 65536000 ≤ (s.island i).cycles) :
    exec (.islandIdle i) s = .next (s.modIsland i fun x => { x with state := .idle, idleSince := some s.ns }) := by
  rw [exec_islandIdle, execIslandIdle]
  exact if_pos (by simp [h])

theorem exec_islandIdle_of_not_still {s : State} {i : Nat} (h : ¬ ((s.island i).state = .on ∧ s.islandQuiet i = true ∧
    (s.island i).busyAt + 256 * 65536000 ≤ (s.island i).cycles)) : exec (.islandIdle i) s = .next s := by
  rw [exec_islandIdle, execIslandIdle]
  exact if_neg (by simpa [and_assoc] using h)

/-- What takes an island out of IDLE. -/
def Roused (s : State) (i : Nat) : Prop := (s.island i).state = .idle ∧
  (s.islandQuiet i = false ∨ ∃ m ∈ s.core.cmds, m.island = i ∧ m.left = false ∧ m.place = .accepted)

theorem roused_iff (s : State) (i : Nat) : Roused s i ↔ ((s.island i).state == .idle &&
    (!s.islandQuiet i || s.core.cmds.any fun m => m.island == i && !m.left && m.place == .accepted)) = true := by
  simp [Roused, and_assoc]

theorem exec_islandIdleExit_of_roused {s : State} {i : Nat} (h : Roused s i) : exec (.islandIdleExit i) s =
    .next (s.modIsland i fun x => { x with state := .on, idleSince := none, busyAt := x.cycles }) := by
  rw [exec_islandIdleExit, execIslandIdleExit]
  exact if_pos ((roused_iff s i).mp h)

theorem exec_islandIdleExit_of_not_roused {s : State} {i : Nat} (h : ¬ Roused s i) : exec (.islandIdleExit i) s = .next s := by
  rw [exec_islandIdleExit, execIslandIdleExit]
  exact if_neg (mt (roused_iff s i).mpr h)

/-! Parking and RETAIN (R367, R370, R371). -/

theorem settleEnergy_net (s : State) (t c r : Nat) : (s.settleEnergy t c r).net = s.net := by
  unfold State.settleEnergy State.addEnergy
  dsimp only
  split <;> rfl

theorem forgetCmds_net (s : State) (ids : List Nat) : (s.forgetCmds ids).net = s.net := rfl

theorem saveTask_net {s s1 : State} {t c id : Nat} (h : s.saveTask t c true = some (s1, id)) : s1.net = s.net := by
  unfold State.saveTask at h
  extract_lets x at h
  split at h
  · cases h
  · extract_lets part at h
    split at h
    · cases h
    · extract_lets addr v s1 s2 left saves core cp s3 s4 s5 s6 at h
      obtain ⟨rfl, -⟩ := Prod.mk.inj (Option.some.inj h)
      calc s6.net = s5.net := congrArg State.net (if_pos rfl)
        _ = s4.net := State.modCtx_net s4 t c _
        _ = _ := State.modGang_net (s3.settleEnergy t c _) _ _
        _ = s3.net := settleEnergy_net s3 t c _
        _ = s2.net := by dsimp only [s3]
        _ = s1.net := forgetCmds_net s1 _
        _ = s.net := State.wrBytes_net s addr _

/-- The resume record of a parked task (R371): its address, when it wakes and what it watches. -/
theorem parkTask_of_saved {s s1 : State} {t c wakeAt mon id : Nat} (htriggers : s.parkTriggers t c = some (wakeAt, mon))
    (hsaved : s.saveTask t c true = some (s1, id)) :
    let k := (s.ctx t c).task.getD {}
    let r := resumeRecord (s1.save id).addr wakeAt mon k.region k.queue k.member c
    s.parkTask t c = s1.modCtx t c fun x => { x with rec0 := r, rec1 := r } := by
  simp only [State.parkTask, htriggers, hsaved]

theorem parkTask_net (s : State) (t c : Nat) : (s.parkTask t c).net = s.net := by
  unfold State.parkTask
  dsimp only
  split
  · rename_i hsaved
    exact (State.modCtx_net _ _ _ _).trans (saveTask_net hsaved)
  · rfl

/-- The widths of a resume record's fields, the lowest first (R371). -/
def recordWidths : List Nat := [1, 2, 253, 9, 23, 13, 3, 16, 64, 64, 64]

theorem toNat_resumeRecord (addr wakeAt mon region queue member c : Nat) :
    (resumeRecord addr wakeAt mon region queue member c).toNat =
      FaultRecords.packFields recordWidths [1, c, 0, member, 0, queue, 0, region, mon, wakeAt, addr] := by
  unfold resumeRecord
  repeat rw [ScalarResults.toNat_append_eq_add]
  simp [recordWidths, FaultRecords.packFields]

theorem resumeRecord_fields (addr wakeAt mon region queue member : Nat) {c : Nat} (hc : c < 4) :
    let r := resumeRecord addr wakeAt mon region queue member c
    r.getLsbD 0 = true ∧ bitsOf r 2 1 = c ∧ recWakeAt r = wakeAt % 2 ^ 64 ∧ recMon r = mon % 2 ^ 64 ∧
      bitsOf r 511 448 = addr % 2 ^ 64 := by
  intro r
  have hr := toNat_resumeRecord addr wakeAt mon region queue member c
  exact ⟨FaultRecords.getLsbD_of_bitsOf (b := true) (FaultRecords.bitsOf_field_of_lt hr (i := 0) rfl (by decide)),
    FaultRecords.bitsOf_field_of_lt hr (i := 1) rfl hc, FaultRecords.bitsOf_field hr (i := 9) rfl,
    FaultRecords.bitsOf_field hr (i := 8) rfl, FaultRecords.bitsOf_field hr (i := 10) rfl⟩

/-- A byte of the scratchpads of an island (R354). -/
def Mine (s : State) (i a : Nat) : Prop := paSpace a = 4 ∧ paPkg a = s.net.pkg ∧ paAddr a / 2 ^ 25 = i

/-- Whether a byte is one of the scratchpads of an island, as the model decides it. -/
def ownByte (s : State) (i a : Nat) : Bool := paSpace a == 4 && paPkg a == s.net.pkg && paAddr a / 2 ^ 25 == i

theorem ownByte_iff (s : State) (i a : Nat) : ownByte s i a = true ↔ Mine s i a := by
  simp [ownByte, Mine, and_assoc]

/-- The tiles of an island with what they lose in RETAIN. -/
def wipedTiles (s : State) (i : Nat) : State := (tilesOf i).foldl (fun a t => a.modTile t fun x =>
  { x with q := 0, space := [], inflight := [], syncQ := [], lateQ := [], tlbObjs := [], tlbPages := [] }) s

/-- Its contexts too: the windows stay, as configuration, and so do requests and resume records. -/
def wiped (s : State) (i : Nat) : State := (ctxsOf i).foldl (fun a tc => a.modCtx tc.1 tc.2 fun x =>
  { sys := { winErr := x.sys.winErr, winSize := x.sys.winSize, winBase := x.sys.winBase },
    preempt := x.preempt, rec0 := x.rec0, rec1 := x.rec1 }) (wipedTiles s i)

section
variable (s : State) (i : Nat)

theorem wiped_tiles : (wiped s i).core.tiles = (wipedTiles s i).core.tiles :=
  List.foldlRecOn (motive := fun t : State => t.core.tiles = (wipedTiles s i).core.tiles) _ _ rfl fun _ h _ _ => h

theorem wiped_mem : (wiped s i).core.mem = s.core.mem := by
  unfold wiped wipedTiles
  rw [foldl_mem, foldl_mem]
  · exact fun _ _ => rfl
  · exact fun _ _ => rfl

theorem loseVolatile_eq : s.loseVolatile i = { wiped s i with core := { (wiped s i).core with
    mem := (wiped s i).core.mem.filter fun x => !ownByte s i x.1
    capTags := (wiped s i).core.capTags.filter fun x => !ownByte s i (16 * x.1) } } := by
  unfold State.loseVolatile wiped wipedTiles
  dsimp only [ownByte]

theorem loseVolatile_ctx {tc : Nat × Nat} (h : tc ∈ ctxsOf i) : ((s.loseVolatile i).ctx tc.1 tc.2).task = none := by
  have hctxs : (s.loseVolatile i).core.ctxs = (wiped s i).core.ctxs := by simp only [loseVolatile_eq]
  rw [ctx_of_ctxs hctxs, wiped]
  exact foldl_modCtx (Q := fun x => x.task = none) (fun _ => rfl) h _

theorem loseVolatile_tile {t : Nat} (h : t ∈ tilesOf i) : ((s.loseVolatile i).tile t).inflight = [] ∧
    ((s.loseVolatile i).tile t).space = [] ∧ ((s.loseVolatile i).tile t).syncQ = [] ∧
    ((s.loseVolatile i).tile t).lateQ = [] := by
  have htiles : (s.loseVolatile i).core.tiles = (wipedTiles s i).core.tiles := by simp only [loseVolatile_eq, wiped_tiles]
  have htile := foldl_modTile (Q := fun x => x.inflight = [] ∧ x.space = [] ∧ x.syncQ = [] ∧ x.lateQ = [])
    (f := fun x => { x with q := 0, space := [], inflight := [], syncQ := [], lateQ := [], tlbObjs := [], tlbPages := [] })
    (fun _ => ⟨rfl, rfl, rfl, rfl⟩) h s
  rw [tile_of_tiles htiles]
  exact htile

/-- The scratchpad bytes of the island are gone, and no others. -/
theorem loseVolatile_rd8 (a : Nat) :
    (Mine s i a → (s.loseVolatile i).rd8 a = 0) ∧ (¬ Mine s i a → (s.loseVolatile i).rd8 a = s.rd8 a) := by
  have hread : (s.loseVolatile i).rd8 a = if (!ownByte s i a) = true then s.rd8 a else 0 := by
    rw [loseVolatile_eq]
    exact (get_filter_key 0 (fun a => !ownByte s i a) (wiped s i).core.mem a).trans (by rw [wiped_mem]; rfl)
  rw [hread, ← ownByte_iff]
  cases ownByte s i a <;> simp

end

/-! Only an island differs. -/

theorem modIsland_ctx (s : State) (i : Nat) (f : Island → Island) (t c : Nat) : (s.modIsland i f).ctx t c = s.ctx t c := rfl

theorem modIsland_tile (s : State) (i : Nat) (f : Island → Island) (t : Nat) : (s.modIsland i f).tile t = s.tile t := rfl

theorem modIsland_rd8 (s : State) (i : Nat) (f : Island → Island) (a : Nat) : (s.modIsland i f).rd8 a = s.rd8 a := rfl

/-! RETAIN and OFF (R367, R368, R370). -/

/-- The contexts of an island that hold a task. -/
def taskCtxs (s : State) (i : Nat) : List (Nat × Nat) := (ctxsOf i).filter fun tc => (s.ctx tc.1 tc.2).task.isSome

/-- The save slots of a partition that no save uses. -/
def freeSlots (s : State) (p : Nat) : List Nat :=
  (List.range (bitsOf (s.service p) 303 288)).filter fun k => !s.cp.usedSlots.contains (p, k)

/-- Whether an island that has been quiet since d goes to RETAIN in its partition p. -/
def Parks (s : State) (i d p : Nat) : Prop :=
  (s.island i).state = .idle ∧ (s.powerEntry p).getLsbD 0 = false ∧ bitsOf (s.powerEntry p) 31 16 ≠ 0xFFFF ∧
    d + 1000 * bitsOf (s.powerEntry p) 31 16 ≤ s.ns ∧ (∀ tc ∈ taskCtxs s i, s.parkable tc.1 tc.2 = true) ∧
    s.savesDue p + (taskCtxs s i).length ≤ (freeSlots s p).length ∧
    ∀ m ∈ s.core.cmds, m.island ≠ i ∨ m.left = true ∨ m.place = .accepted

theorem parks_iff (s : State) (i d p : Nat) : Parks s i d p ↔
    ((s.island i).state == .idle && !(s.powerEntry p).getLsbD 0 && bitsOf (s.powerEntry p) 31 16 != 0xFFFF &&
      decide (d + 1000 * bitsOf (s.powerEntry p) 31 16 ≤ s.ns) && ((taskCtxs s i).all fun tc => s.parkable tc.1 tc.2) &&
      decide (s.savesDue p + (taskCtxs s i).length ≤ (freeSlots s p).length) &&
      (s.core.cmds.all fun m => m.island != i || m.left || m.place == .accepted)) = true := by
  simp [Parks, and_assoc, or_assoc]

/-- An island with its tasks parked and its volatile stores lost. -/
def retained (s : State) (i : Nat) : State := ((taskCtxs s i).foldl (fun a tc => a.parkTask tc.1 tc.2) s).loseVolatile i

section
variable (s : State) (i : Nat)

theorem parked_net : ((taskCtxs s i).foldl (fun a tc => a.parkTask tc.1 tc.2) s).net = s.net :=
  List.foldlRecOn (motive := fun t : State => t.net = s.net) _ _ rfl fun b h tc _ => (parkTask_net b tc.1 tc.2).trans h

theorem retained_ctx {tc : Nat × Nat} (h : tc ∈ ctxsOf i) : ((retained s i).ctx tc.1 tc.2).task = none := by
  rw [retained]
  exact loseVolatile_ctx _ i h

theorem retained_tile {t : Nat} (h : t ∈ tilesOf i) : ((retained s i).tile t).inflight = [] ∧
    ((retained s i).tile t).space = [] ∧ ((retained s i).tile t).syncQ = [] ∧ ((retained s i).tile t).lateQ = [] := by
  rw [retained]
  exact loseVolatile_tile _ i h

theorem retained_rd8_mine {a : Nat} (h : Mine s i a) : (retained s i).rd8 a = 0 :=
  (loseVolatile_rd8 _ i a).1 (by unfold Mine; rwa [parked_net])

theorem retained_rd8_other (hnone : taskCtxs s i = []) {a : Nat} (h : ¬ Mine s i a) : (retained s i).rd8 a = s.rd8 a := by
  rw [retained, hnone]
  exact (loseVolatile_rd8 s i a).2 h

end

/-- An island with its tensor entries gone. -/
def withoutTids (s : State) (i : Nat) : State := (tilesOf i).foldl (fun a t => a.modTile t fun y => { y with tids := [] }) s

/-- Whether an island that has been in RETAIN since d turns OFF in its partition p. -/
def TurnsOff (s : State) (i d p : Nat) : Prop :=
  (s.island i).state = .retain ∧ bitsOf (s.powerEntry p) 47 32 ≠ 0xFFFF ∧
    d + 1000000 * bitsOf (s.powerEntry p) 47 32 ≤ s.ns ∧ (∀ tc ∈ ctxsOf i, (s.ctx tc.1 tc.2).parked = false) ∧
    (s.powerEntry p).getLsbD (64 + s.relIsland p i) = false

theorem turnsOff_iff (s : State) (i d p : Nat) : TurnsOff s i d p ↔
    ((s.island i).state == .retain && bitsOf (s.powerEntry p) 47 32 != 0xFFFF &&
      decide (d + 1000000 * bitsOf (s.powerEntry p) 47 32 ≤ s.ns) &&
      !((ctxsOf i).any fun tc => (s.ctx tc.1 tc.2).parked) && !(s.powerEntry p).getLsbD (64 + s.relIsland p i)) = true := by
  simp [TurnsOff, and_assoc]

section
variable {s : State} {i d p : Nat} (hsince : (s.island i).idleSince = some d) (hpart : s.partOf i = some p)
include hsince hpart

theorem exec_islandPark_of_not_parks (h : ¬ Parks s i d p) : exec (.islandPark i) s = .next s := by
  rw [exec_islandPark, execIslandPark]
  simp only [hsince, hpart]
  exact if_neg (mt (parks_iff s i d p).mpr h)

theorem exec_islandPark_of_parks (h : Parks s i d p) : exec (.islandPark i) s =
    .next ((retained s i).modIsland i fun x => { x with state := .retain, idleSince := some s.ns }) := by
  rw [exec_islandPark, execIslandPark]
  simp only [hsince, hpart]
  exact if_pos ((parks_iff s i d p).mp h)

theorem exec_islandOff_of_not_turnsOff (h : ¬ TurnsOff s i d p) : exec (.islandOff i) s = .next s := by
  rw [exec_islandOff, execIslandOff]
  simp only [hsince, hpart]
  exact if_neg (mt (turnsOff_iff s i d p).mpr h)

theorem exec_islandOff_of_turnsOff (h : TurnsOff s i d p) : exec (.islandOff i) s =
    .next ((withoutTids s i).modIsland i fun y => { y with state := .off, idleSince := none }) := by
  rw [exec_islandOff, execIslandOff]
  simp only [hsince, hpart]
  exact if_pos ((turnsOff_iff s i d p).mp h)

end

theorem withoutTids_tile (s : State) {i t : Nat} (h : t ∈ tilesOf i) : ((withoutTids s i).tile t).tids = [] := by
  rw [withoutTids]
  exact foldl_modTile (Q := fun x => x.tids = []) (fun _ => rfl) h s

theorem withoutTids_sameMem (s : State) (i : Nat) : s.SameMem (withoutTids s i) := fun a => by
  unfold State.rd8 withoutTids
  rw [foldl_mem]
  exact fun _ _ => rfl

/-! Resume records (R371). -/

/-- Both copies of a parked context's record are the record that its triggers give (R371). -/
theorem parkTask_record {s s1 : State} {t c wakeAt mon id : Nat} (hc : c < 4)
    (htriggers : s.parkTriggers t c = some (wakeAt, mon)) (hsaved : s.saveTask t c true = some (s1, id)) :
    let r := ((s.parkTask t c).ctx t c).rec0
    r = ((s.parkTask t c).ctx t c).rec1 ∧ r.getLsbD 0 = true ∧ bitsOf r 2 1 = c ∧ recWakeAt r = wakeAt % 2 ^ 64 ∧
      recMon r = mon % 2 ^ 64 ∧ bitsOf r 511 448 = (s1.save id).addr % 2 ^ 64 := by
  rw [parkTask_of_saved htriggers hsaved, State.modCtx_ctx]
  exact ⟨rfl, resumeRecord_fields _ _ _ _ _ _ hc⟩

/-! The wake that begins first (R368). -/

/-- Whether the wake request of one island goes before, or is, that of another. -/
def First (s : State) (b j : Nat) : Prop :=
  ((s.island b).wakeTimed = true ∨ (s.island j).wakeTimed = false) ∧
    ((s.island b).wakeTimed = (s.island j).wakeTimed → (s.island b).wakeReq.getD 0 ≤ (s.island j).wakeReq.getD 0 ∧
      ((s.island b).wakeReq.getD 0 = (s.island j).wakeReq.getD 0 → b ≤ j))

/-- The better of the request found so far and another, as the model compares them. -/
def sooner (s : State) (best : Option Nat) (i : Nat) : Option Nat :=
  match best with
  | none => some i
  | some b =>
    let x := s.island i
    let y := s.island b
    if (x.wakeTimed && !y.wakeTimed) || (x.wakeTimed == y.wakeTimed && decide (x.wakeReq.getD 0 < y.wakeReq.getD 0))
    then some i else some b

theorem nextWake_eq (s : State) : s.nextWake = ((List.range 64).filter s.wantsWake).foldl (sooner s) none := rfl

section
variable {s : State} {a b j : Nat}

theorem First.refl (s : State) (b : Nat) : First s b b :=
  ⟨by cases (s.island b).wakeTimed <;> simp, fun _ => ⟨le_rfl, fun _ => le_rfl⟩⟩

theorem First.trans (h : First s a b) (h' : First s b j) : First s a j := by
  obtain ⟨htimed, horder⟩ := h
  obtain ⟨htimed', horder'⟩ := h'
  have hsame : (s.island a).wakeTimed = (s.island j).wakeTimed →
      (s.island a).wakeTimed = (s.island b).wakeTimed ∧ (s.island b).wakeTimed = (s.island j).wakeTimed := by
    revert htimed htimed'
    cases (s.island a).wakeTimed <;> cases (s.island b).wakeTimed <;> cases (s.island j).wakeTimed <;> decide
  refine ⟨?_, fun heq => ?_⟩
  · rcases htimed with ha | hb
    · exact .inl ha
    · exact .inr (htimed'.resolve_left (by simp [hb]))
  · obtain ⟨hab, hbj⟩ := hsame heq
    have := horder hab
    have := horder' hbj
    omega

/-- Of two requests in the order of their islands' numbers the model keeps the one that goes first. -/
theorem sooner_first (hab : a < b) : ∃ c, sooner s (some a) b = some c ∧ (c = a ∨ c = b) ∧ First s c a ∧ First s c b := by
  simp only [sooner]
  split
  · rename_i hbetter
    refine ⟨b, rfl, .inr rfl, ?_, .refl s b⟩
    simp only [Bool.or_eq_true, Bool.and_eq_true, Bool.not_eq_true', beq_iff_eq, decide_eq_true_eq] at hbetter
    rcases hbetter with ⟨hb, ha⟩ | ⟨heq, hlt⟩
    · exact ⟨.inl hb, fun h => by simp [ha, hb] at h⟩
    · exact ⟨by rw [heq]; exact (First.refl s a).1, fun _ => ⟨hlt.le, fun h => absurd h hlt.ne⟩⟩
  · rename_i hkeep
    refine ⟨a, rfl, .inl rfl, .refl s a, ?_⟩
    simp only [Bool.or_eq_true, Bool.and_eq_true, Bool.not_eq_true', beq_iff_eq, decide_eq_true_eq, not_or, not_and] at hkeep
    obtain ⟨hnot, hle⟩ := hkeep
    refine ⟨?_, fun heq => ⟨not_lt.mp (hle heq.symm), fun _ => hab.le⟩⟩
    cases hb : (s.island b).wakeTimed
    · exact .inr rfl
    · exact .inl (by simpa using hnot hb)

/-- After a list of requests in that order, the first of them and of the one found before. -/
theorem foldl_sooner {is : List Nat} (hsorted : (a :: is).Pairwise (· < ·)) : ∃ c, is.foldl (sooner s) (some a) = some c ∧
    c ∈ a :: is ∧ ∀ j ∈ a :: is, First s c j := by
  induction is generalizing a with
  | nil => exact ⟨a, rfl, by simp, by simp [First.refl]⟩
  | cons b bs ih =>
    obtain ⟨ha, hb⟩ := List.pairwise_cons.mp hsorted
    obtain ⟨c, hc, hmem, hca, hcb⟩ := sooner_first (s := s) (ha b (by simp))
    have hsorted' : (c :: bs).Pairwise (· < ·) := by
      refine List.pairwise_cons.mpr ⟨fun j hj => ?_, (List.pairwise_cons.mp hb).2⟩
      rcases hmem with rfl | rfl
      · exact ha j (List.mem_cons_of_mem _ hj)
      · exact (List.pairwise_cons.mp hb).1 j hj
    obtain ⟨f, hf, hfmem, hfirst⟩ := ih hsorted'
    refine ⟨f, by rw [List.foldl_cons, hc, hf], ?_, ?_⟩
    · rcases List.mem_cons.mp hfmem with rfl | hin
      · rcases hmem with rfl | rfl <;> simp
      · exact List.mem_cons_of_mem _ (List.mem_cons_of_mem _ hin)
    · have hfc := hfirst c (by simp)
      intro j hj
      rcases List.mem_cons.mp hj with rfl | hj
      · exact hfc.trans hca
      · rcases List.mem_cons.mp hj with rfl | hj
        · exact hfc.trans hcb
        · exact hfirst j (List.mem_cons_of_mem _ hj)

theorem nextWake_first (h : s.nextWake = some b) :
    b < 64 ∧ s.wantsWake b = true ∧ ∀ j < 64, s.wantsWake j = true → First s b j := by
  have hmem : ∀ j, j ∈ (List.range 64).filter s.wantsWake ↔ j < 64 ∧ s.wantsWake j = true := by simp
  have hsorted : ((List.range 64).filter s.wantsWake).Pairwise (· < ·) := List.pairwise_lt_range.filter _
  rw [nextWake_eq] at h
  generalize (List.range 64).filter s.wantsWake = waiting at *
  cases waiting with
  | nil => cases h
  | cons a is =>
    obtain ⟨c, hc, hin, hfirst⟩ := foldl_sooner hsorted
    obtain rfl : c = b := Option.some.inj (hc.symm.trans h)
    obtain ⟨hlt, hwants⟩ := (hmem c).mp hin
    exact ⟨hlt, hwants, fun j hj hw => hfirst j ((hmem j).mpr ⟨hj, hw⟩)⟩

end

/-- The wakes that have begun within 1 µs. -/
def recentWakes (s : State) : List Nat := s.pow.wakesBegun.filter fun t => decide (s.now < t + 1000 * 65536)

theorem island_of_islands {s u : State} (h : u.pow.islands = s.pow.islands) {i : Nat} : u.island i = s.island i := by
  rw [State.island, State.island, h]

/-- An island whose wake begins. -/
def beginWake (x : Island) : Island := { x with fromOff := x.state == .off, state := .waking }

theorem exec_islandWake_of_first {s : State} {i : Nat} (hnext : s.nextWake = some i) (hfew : (recentWakes s).length < 8) :
    ∃ u, exec (.islandWake i) s = .next u ∧ (u.island i).state = .waking ∧
      ((u.island i).fromOff = true ↔ (s.island i).state = .off) ∧ u.pow.wakesBegun = recentWakes s ++ [s.now] ∧
      u.core = s.core := by
  let s1 := s.modIsland i beginWake
  let u : State := { s1 with pow := { s1.pow with wakesBegun := recentWakes s ++ [s.now] } }
  have hisland : u.island i = beginWake (s.island i) := (island_of_islands (s := s1) rfl).trans (modIsland_island s i beginWake)
  refine ⟨u, ?_, by rw [hisland]; rfl, by rw [hisland]; exact beq_iff_eq, rfl, rfl⟩
  rw [exec_islandWake, execIslandWake]
  exact if_pos ⟨hnext, hfew⟩

theorem exec_islandWake_of_not_first {s : State} {i : Nat} (h : s.nextWake ≠ some i ∨ 8 ≤ (recentWakes s).length) :
    exec (.islandWake i) s = .next s := by
  rw [exec_islandWake, execIslandWake]
  refine if_neg fun ⟨hnext, hfew⟩ => ?_
  rcases h with h | h
  · exact h hnext
  · exact absurd hfew (by unfold recentWakes at h; omega)

end Sys2Proof.Machine.IslandsAndSlices

/-! PROOF. The wake of an island completed: parity failures, the journals of an island that was OFF, parked tasks (R367, R373,
R374). -/

namespace Sys2Proof.Machine.WakesCompleted
open Sys2Proof MapsAndFolds ClocksAndEnergy StreamsAndArms WellWrites IslandsAndSlices

/-! What changes nothing but tiles. -/

/-- Nothing but the tiles, the count of free values and the firmware's part of the state differs. -/
def TilesOnly (s u : State) : Prop := ∃ ts ctr sec, u = { s with freeCtr := ctr, core := { s.core with tiles := ts }, sec := sec }

theorem TilesOnly.refl (s : State) : TilesOnly s s := ⟨_, _, _, rfl⟩

theorem TilesOnly.trans {s u v : State} (h : TilesOnly s u) (h' : TilesOnly u v) : TilesOnly s v := by
  obtain ⟨_, _, _, rfl⟩ := h
  obtain ⟨_, _, _, rfl⟩ := h'
  exact ⟨_, _, _, rfl⟩

theorem TilesOnly.foldl {α : Type} {f : State → α → State} (hf : ∀ s x, TilesOnly s (f s x)) (xs : List α) (s : State) :
    TilesOnly s (xs.foldl f s) :=
  List.foldlRecOn (motive := TilesOnly s) xs f (.refl s) fun t ht x _ => ht.trans (hf t x)

theorem tilesOnly_modTile (s : State) (t : Nat) (f : Tile → Tile) : TilesOnly s (s.modTile t f) := ⟨_, _, _, rfl⟩

theorem tilesOnly_of_wellsOnly {s u : State} (h : WellsOnly s u) : TilesOnly s u := h.1

section
variable {s u : State} (h : TilesOnly s u)
include h

theorem TilesOnly.sameMem : s.SameMem u := by
  obtain ⟨_, _, _, rfl⟩ := h
  exact fun _ => rfl

theorem TilesOnly.pow : u.pow = s.pow := by
  obtain ⟨_, _, _, rfl⟩ := h
  rfl

theorem TilesOnly.cp : u.cp = s.cp := by
  obtain ⟨_, _, _, rfl⟩ := h
  rfl

end

/-! Parity failures (R374). -/

@[simp] theorem parityEvent_tile (s : State) (u kind n t : Nat) : (s.parityEvent u kind n).tile t = s.tile t := by
  obtain ⟨sec, h⟩ := event_frame s wakeSource 0x0130 (BitVec.ofNat 160 (u % 2 ^ 16 + kind * 2 ^ 16 + n * 2 ^ 32))
  rw [State.parityEvent, h]
  rfl

theorem tilesOnly_parityEvent (s : State) (u kind n : Nat) : TilesOnly s (s.parityEvent u kind n) :=
  tilesOnly_of_wellsOnly (wellsOnly_event s _ _ _)

/-- A tensor entry that fails its parity. -/
def invalidTid (n : Nat) (x : Tile) : Tile := { x with tids := FMap.set {} x.tids n { FMap.get {} x.tids n with valid := false } }

/-- A wear counter that fails its parity. -/
def wornOut (n : Nat) (x : Tile) : Tile :=
  { x with well := { x.well with wear := FMap.set 0 x.well.wear n (BitVec.allOnes 32) } }

theorem parityFail_tid (s : State) (t n : Nat) : s.parityFail t 1 n = (s.modTile t (invalidTid n)).parityEvent t 1 n := rfl

theorem parityFail_wear (s : State) (t n : Nat) : s.parityFail t 3 n = (s.modTile t (wornOut n)).parityEvent t 3 n := rfl

theorem parityFail_other (s : State) (t n : Nat) {kind : Nat} (h1 : kind ≠ 1) (h3 : kind ≠ 3) :
    s.parityFail t kind n = s.parityEvent t kind n := by
  unfold State.parityFail
  split
  · exact absurd rfl h1
  · exact absurd rfl h3
  · rfl

theorem tilesOnly_parityFail (s : State) (t kind n : Nat) : TilesOnly s (s.parityFail t kind n) := by
  unfold State.parityFail
  split
  · exact (tilesOnly_modTile s t _).trans (tilesOnly_parityEvent _ _ _ _)
  · exact (tilesOnly_of_wellsOnly (wellsOnly_modWell s t _)).trans (tilesOnly_parityEvent _ _ _ _)
  · exact tilesOnly_parityEvent _ _ _ _

/-- What both kinds of failure keep of a tile, a parity failure of any kind at any tile keeps. -/
theorem parityFail_keeps {Q : Tile → Prop} (htid : ∀ n x, Q x → Q (invalidTid n x)) (hwear : ∀ n x, Q x → Q (wornOut n x))
    {s : State} {t : Nat} (h : Q (s.tile t)) (u kind n : Nat) : Q ((s.parityFail u kind n).tile t) := by
  have hmod : ∀ f : Tile → Tile, (∀ x, Q x → Q (f x)) → Q ((s.modTile u f).tile t) := fun f hf => by
    by_cases hu : t = u
    · subst hu
      rw [State.modTile_tile]
      exact hf _ h
    · rwa [State.modTile_tile_other s f hu]
  by_cases h1 : kind = 1
  · rw [h1, parityFail_tid, parityEvent_tile]
    exact hmod _ (htid n)
  · by_cases h3 : kind = 3
    · rw [h3, parityFail_wear, parityEvent_tile]
      exact hmod _ (hwear n)
    · rwa [parityFail_other s u n h1 h3, parityEvent_tile]

/-- A value set at one place of a map that has it at another leaves it there. -/
theorem get_set_keeps {α : Type} [DecidableEq α] {Q : α → Prop} {d : α} {m : FMap α} {k j : Nat} {v : α} (hv : j = k → Q v)
    (h : Q (FMap.get d m j)) : Q (FMap.get d (FMap.set d m k v) j) := by
  by_cases hj : j = k
  · rw [hj, FMap.get_set_same]
    exact hv hj
  · rwa [FMap.get_set_other _ _ _ _ hj]

section
variable {bad : List (Nat × Nat × Nat)} {t n : Nat} (s : State)

theorem foldl_parityFail_tid (h : (t, 1, n) ∈ bad) :
    (FMap.get {} ((bad.foldl (fun a b => a.parityFail b.1 b.2.1 b.2.2) s).tile t).tids n).valid = false := by
  refine foldl_establishes (P := fun a : State => (FMap.get {} (a.tile t).tids n).valid = false) h (fun b => ?_)
    (fun b y _ hb => parityFail_keeps (Q := fun x => (FMap.get {} x.tids n).valid = false) (fun k x hx => ?_) (fun _ _ hx => hx)
      hb _ _ _) s
  · rw [parityFail_tid, parityEvent_tile, State.modTile_tile, invalidTid, FMap.get_set_same]
  · exact get_set_keeps (Q := fun d : Tid => d.valid = false) (fun _ => rfl) hx

theorem foldl_parityFail_wear (h : (t, 3, n) ∈ bad) :
    FMap.get 0 ((bad.foldl (fun a b => a.parityFail b.1 b.2.1 b.2.2) s).tile t).well.wear n = BitVec.allOnes 32 := by
  refine foldl_establishes (P := fun a : State => FMap.get 0 (a.tile t).well.wear n = BitVec.allOnes 32) h (fun b => ?_)
    (fun b y _ hb => parityFail_keeps (Q := fun x => FMap.get 0 x.well.wear n = BitVec.allOnes 32) (fun _ _ hx => hx)
      (fun k x hx => ?_) hb _ _ _) s
  · rw [parityFail_wear, parityEvent_tile, State.modTile_tile, wornOut, FMap.get_set_same]
  · exact get_set_keeps (Q := fun v => v = BitVec.allOnes 32) (fun _ => rfl) hx

end

/-! The tiles and journals of an island that was OFF (R367, R389). -/

/-- A tile of an island that was OFF: its tensor entries are gone and its journal is repaired. -/
def coldTile (s : State) (t : Nat) : State := (s.modTile t fun y => { y with tids := [] }).journalRepair t

theorem tilesOnly_coldTile (s : State) (t : Nat) : TilesOnly s (coldTile s t) :=
  (tilesOnly_modTile s t _).trans (tilesOnly_of_wellsOnly (wellsOnly_journalRepair _ t))

theorem foldl_coldTile_tids {ts : List Nat} {t : Nat} (h : t ∈ ts) (s : State) : ((ts.foldl coldTile s).tile t).tids = [] := by
  refine foldl_establishes (P := fun a : State => (a.tile t).tids = []) h (fun b => ?_) (fun b u _ hb => ?_) s
  · rw [coldTile, (wellsOnly_journalRepair _ t).tids, State.modTile_tile]
  · rw [coldTile, (wellsOnly_journalRepair _ u).tids]
    by_cases hu : t = u
    · rw [hu, State.modTile_tile]
    · rwa [State.modTile_tile_other b _ hu]

/-! Parked tasks resumed (R373). -/

/-- The saves of the tasks that are parked on an island. -/
def parkedSaves (s : State) (i : Nat) : List Nat :=
  s.cp.saves.filterMap fun e => if e.2.parked && e.2.tile / 8 == i then some e.1 else none

theorem parkedSaves_eq_nil {s : State} {i : Nat} (h : ∀ e ∈ s.cp.saves, e.2.parked = false ∨ e.2.tile / 8 ≠ i) :
    parkedSaves s i = [] := by
  refine List.filterMap_eq_nil_iff.mpr fun e he => if_neg ?_
  rcases h e he with hfree | hother
  · simp [hfree]
  · simp [hother]

/-- The contexts of an island with no valid resume record. -/
def clearRecords (i : Nat) (s : State) : State :=
  (ctxsOf i).foldl (fun a tc => a.modCtx tc.1 tc.2 fun x => { x with rec0 := 0, rec1 := 0 }) s

theorem unparkAll_eq (s : State) (i : Nat) (bad : List (Nat × Nat × Nat)) :
    s.unparkAll i bad = clearRecords i ((parkedSaves s i).foldl (fun a id =>
      a.unpark id (decide (2 ≤ (bad.filter fun b => b == ((a.save id).tile, 2, (a.save id).ctxNo)).length))) s) := by
  unfold State.unparkAll clearRecords parkedSaves
  dsimp only

theorem unparkAll_of_none {s : State} {i : Nat} (h : ∀ e ∈ s.cp.saves, e.2.parked = false ∨ e.2.tile / 8 ≠ i)
    (bad : List (Nat × Nat × Nat)) : s.unparkAll i bad = clearRecords i s := by
  rw [unparkAll_eq, parkedSaves_eq_nil h]
  rfl

theorem clearRecords_ctx {i : Nat} {tc : Nat × Nat} (h : tc ∈ ctxsOf i) (s : State) :
    ((clearRecords i s).ctx tc.1 tc.2).rec0 = 0 ∧ ((clearRecords i s).ctx tc.1 tc.2).rec1 = 0 :=
  foldl_modCtx (Q := fun x => x.rec0 = 0 ∧ x.rec1 = 0) (fun _ => ⟨rfl, rfl⟩) h s

theorem unparkAll_ctx (s : State) (i : Nat) (bad : List (Nat × Nat × Nat)) {tc : Nat × Nat} (h : tc ∈ ctxsOf i) :
    ((s.unparkAll i bad).ctx tc.1 tc.2).rec0 = 0 ∧ ((s.unparkAll i bad).ctx tc.1 tc.2).rec1 = 0 := by
  rw [unparkAll_eq]
  exact clearRecords_ctx h _

theorem clearRecords_frame (i : Nat) (s : State) :
    ∃ cs, clearRecords i s = { s with core := { s.core with ctxs := cs } } := by
  refine List.foldlRecOn (motive := fun t : State => ∃ cs, t = { s with core := { s.core with ctxs := cs } }) _ _ ⟨_, rfl⟩ ?_
  rintro _ ⟨_, rfl⟩ _ _
  exact ⟨_, rfl⟩

/-! The wake completed. -/

/-- An island that reaches ON. -/
def woken (y : Island) : Island :=
  { y with state := .on, wakeReq := none, wakeTimed := false, fromOff := false, idleSince := none,
           ceiling := 2200, windowAt := y.cycles, busyAt := y.cycles, shareBundles := 0 }

/-- What fails its parity on an island. -/
def badOn (i : Nat) (bad : List (Nat × Nat × Nat)) : List (Nat × Nat × Nat) := bad.filter fun b => b.1 / 8 == i

/-- Those failures but for the resume records of which both copies are bad, whose tasks are lost. -/
def served (i : Nat) (bad : List (Nat × Nat × Nat)) : List (Nat × Nat × Nat) :=
  (badOn i bad).filter fun b => !(b.2.1 == 2 && decide (2 ≤ ((badOn i bad).filter fun d => d == b).length))

theorem mem_served {i t kind n : Nat} {bad : List (Nat × Nat × Nat)} (ht : t / 8 = i) (hkind : kind ≠ 2)
    (h : (t, kind, n) ∈ bad) : (t, kind, n) ∈ served i bad := by
  simp [served, badOn, ht, hkind, h]

/-- The island is ON and what failed its parity has failed. -/
def afterParity (s : State) (i : Nat) (bad : List (Nat × Nat × Nat)) : State :=
  (served i bad).foldl (fun a b => a.parityFail b.1 b.2.1 b.2.2) (s.modIsland i woken)

/-- Just before the parked tasks resume. -/
def beforeResume (s : State) (i : Nat) (bad : List (Nat × Nat × Nat)) : State :=
  if (s.island i).fromOff then (tilesOf i).foldl coldTile (afterParity s i bad) else afterParity s i bad

section
variable {s : State} {i : Nat} (bad : List (Nat × Nat × Nat))

theorem exec_islandWakeComplete_of_not_waking (h : (s.island i).state ≠ .waking) :
    exec (.islandWakeComplete i bad) s = .next s := by
  rw [exec_islandWakeComplete, execIslandWakeComplete]
  exact if_pos (by simpa using h)

theorem exec_islandWakeComplete_of_waking (h : (s.island i).state = .waking) :
    exec (.islandWakeComplete i bad) s = .next ((beforeResume s i bad).unparkAll i (badOn i bad)) := by
  rw [exec_islandWakeComplete, execIslandWakeComplete]
  exact if_neg (by simp [h])

theorem afterParity_only (s : State) (i : Nat) : TilesOnly (s.modIsland i woken) (afterParity s i bad) :=
  TilesOnly.foldl (fun a (b : Nat × Nat × Nat) => tilesOnly_parityFail a b.1 b.2.1 b.2.2) _ _

theorem beforeResume_only (s : State) (i : Nat) : TilesOnly (s.modIsland i woken) (beforeResume s i bad) := by
  unfold beforeResume
  split
  · exact (afterParity_only bad s i).trans (TilesOnly.foldl tilesOnly_coldTile _ _)
  · exact afterParity_only bad s i

/-- With no task parked on the island, all that a completed wake does. -/
theorem wake_without_parked (h : ∀ e ∈ s.cp.saves, e.2.parked = false ∨ e.2.tile / 8 ≠ i) :
    let u := (beforeResume s i bad).unparkAll i (badOn i bad)
    (u.island i).state = .on ∧ (u.island i).wakeReq = none ∧ (u.island i).ceiling = 2200 ∧
      ((s.island i).fromOff = true → ∀ t ∈ tilesOf i, (u.tile t).tids = []) ∧
      ((s.island i).fromOff = false → s.SameMem u ∧
        (∀ t n, t / 8 = i → (t, 1, n) ∈ bad → (FMap.get ({} : Tid) (u.tile t).tids n).valid = false) ∧
        (∀ t n, t / 8 = i → (t, 3, n) ∈ bad → FMap.get 0 (u.well t).wear n = BitVec.allOnes 32)) := by
  have honly := beforeResume_only bad s i
  obtain ⟨cs, hu⟩ := clearRecords_frame i (beforeResume s i bad)
  have hunpark := unparkAll_of_none (s := beforeResume s i bad) (by rw [honly.cp]; exact h) (badOn i bad)
  rw [hunpark, hu]
  intro u
  have hisland : u.island i = woken (s.island i) :=
    (island_of_islands (congrArg Power.islands honly.pow)).trans (modIsland_island s i woken)
  refine ⟨by rw [hisland]; rfl, by rw [hisland]; rfl, by rw [hisland]; rfl, fun hoff t ht => ?_, fun hwarm => ?_⟩
  · have htiles : u.tile t = (beforeResume s i bad).tile t := rfl
    rw [htiles, beforeResume, if_pos hoff]
    exact foldl_coldTile_tids ht _
  · have htiles : ∀ t, u.tile t = (afterParity s i bad).tile t := fun t => by
      refine Eq.trans (rfl : _ = (beforeResume s i bad).tile t) ?_
      rw [beforeResume, if_neg (by simp [hwarm])]
    refine ⟨honly.sameMem, fun t n ht hbad => ?_, fun t n ht hbad => ?_⟩
    · rw [htiles]
      exact foldl_parityFail_tid _ (mem_served ht (by decide) hbad)
    · rw [State.well, htiles]
      exact foldl_parityFail_wear _ (mem_served ht (by decide) hbad)

end

end Sys2Proof.Machine.WakesCompleted

/-! PROOF. Resume triggers and wake requests, the self-test of an island and the slices of the cistern (R369, R372, R375,
R396). -/

namespace Sys2Proof.Machine.WakesAndSlices
open Sys2Proof MapsAndFolds ClocksAndEnergy StreamsAndArms WellWrites IslandsAndSlices

/-! Wake requests (R369, R372). -/

/-- Whether a parked context asks for its wake: its time, a write to the place it watches, or a record for it. -/
def Triggers (s : State) (t c : Nat) : Prop :=
  s.pow.down = false ∧ (s.ctx t c).parked = true ∧
    (recWakeAt (s.ctx t c).rec0 ≠ 0 ∧ recWakeAt (s.ctx t c).rec0 ≤ s.ns + 10000 ∨ ctxKey t c ∈ s.pow.monHits ∨
      ∃ e ∈ s.cp.saves, e.2.parked = true ∧ e.2.tile = t ∧ e.2.ctxNo = c ∧ e.2.ctx.events ≠ [])

theorem triggers_iff (s : State) (t c : Nat) : Triggers s t c ↔ (!s.pow.down && (s.ctx t c).parked &&
    ((recWakeAt (s.ctx t c).rec0 != 0 && decide (recWakeAt (s.ctx t c).rec0 ≤ s.ns + 10000)) ||
      s.pow.monHits.contains (ctxKey t c) ||
      s.cp.saves.any fun e => e.2.parked && e.2.tile == t && e.2.ctxNo == c && !e.2.ctx.events.isEmpty)) = true := by
  simp [Triggers, and_assoc, or_assoc]

section
variable {s : State} {t c : Nat}

theorem exec_resumeTrigger_of_triggers (h : Triggers s t c) : exec (.resumeTrigger t c) s =
    .next (State.askWake { s with pow := { s.pow with monHits := s.pow.monHits.filter fun k => k != ctxKey t c } }
      false (t / 8)) := by
  rw [exec_resumeTrigger, execResumeTrigger]
  exact if_pos ((triggers_iff s t c).mp h)

theorem exec_resumeTrigger_of_not_triggers (h : ¬ Triggers s t c) : exec (.resumeTrigger t c) s = .next s := by
  rw [exec_resumeTrigger, execResumeTrigger]
  exact if_neg (mt (triggers_iff s t c).mpr h)

end

theorem askWake_wakeReq {s : State} {i : Nat} (h : Asleep i s) (timed : Bool) :
    ((s.askWake timed i).island i).wakeReq = some ((s.island i).wakeReq.getD s.now) := by
  rw [askWake_of_asleep h, modIsland_island]

theorem askWake_island_other (s : State) (timed : Bool) {i j : Nat} (h : j ≠ i) :
    (s.askWake timed i).island j = s.island j := by
  by_cases hsleep : Asleep i s
  · rw [askWake_of_asleep hsleep, modIsland_island_other s _ h]
  · rw [askWake_of_awake hsleep]

theorem askWake_now (s : State) (timed : Bool) (i : Nat) : (s.askWake timed i).now = s.now := by
  obtain ⟨_, h⟩ := askWake_frame s timed i
  rw [h]

theorem askWake_core (s : State) (timed : Bool) (i : Nat) : (s.askWake timed i).core = s.core := by
  obtain ⟨_, h⟩ := askWake_frame s timed i
  rw [h]

/-- Each island that is asked to wake and sleeps holds the request, with the time of the first one. -/
theorem askWakes_wakeReq {s : State} {i : Nat} {is : List Nat} (hnodup : is.Nodup) (hi : i ∈ is) (h : Asleep i s) (timed : Bool) :
    ((s.askWakes timed is).island i).wakeReq = some ((s.island i).wakeReq.getD s.now) := by
  obtain ⟨a, hnow, hsame, hlast⟩ := foldl_see_of_mem (see := State.island) (f := fun a j => a.askWake timed j)
    (I := fun a => a.now = s.now) (fun a j ha => (askWake_now a timed j).trans ha)
    (fun a j k hk => askWake_island_other a timed hk) hnodup hi (b := s) rfl
  have hasleep : Asleep i a := by
    unfold Asleep
    rwa [hsame]
  rw [State.askWakes, hlast, askWake_wakeReq hasleep, hsame, hnow]

theorem askWakes_core_of (s : State) (timed : Bool) (is : List Nat) : (s.askWakes timed is).core = s.core :=
  List.foldlRecOn (motive := fun a : State => a.core = s.core) is _ rfl fun a ha j _ => (askWake_core a timed j).trans ha

theorem exec_driverWakeRequest_of_active {s : State} (mask : BitVec 64) (h : s.fwActive = true) :
    exec (.driverWakeRequest mask) s = .next (s.askWakes false ((List.range 64).filter fun i => mask.getLsbD i)) := by
  rw [exec_driverWakeRequest, execDriverWakeRequest]
  exact if_pos h

theorem exec_driverWakeRequest_of_inactive {s : State} (mask : BitVec 64) (h : s.fwActive = false) :
    exec (.driverWakeRequest mask) s = .next s := by
  rw [exec_driverWakeRequest, execDriverWakeRequest]
  exact if_neg (by simp [h])

/-! The self-test (R396). -/

theorem exec_islandSelfTestDone_of_settled {s : State} {i : Nat} (pass : Bool)
    (h : s.pow.down = true ∨ 64 ≤ i ∨ (s.island i).selfTest ≠ .pending) : exec (.islandSelfTestDone i pass) s = .next s := by
  rw [exec_islandSelfTestDone, execIslandSelfTestDone]
  exact if_pos h

theorem exec_islandSelfTestDone_of_pending {s : State} {i : Nat} (pass : Bool) (hup : s.pow.down = false) (hi : i < 64)
    (htest : (s.island i).selfTest = .pending) : ∃ u, exec (.islandSelfTestDone i pass) s = .next u ∧ u.core = s.core ∧
      (u.island i).selfTest = (if pass = true then .passed else .failed) ∧ (u.island i).state = (s.island i).state := by
  have hpending : ¬ (s.pow.down = true ∨ 64 ≤ i ∨ (s.island i).selfTest ≠ .pending) := by
    simp [hup, htest]
    omega
  rw [exec_islandSelfTestDone, execIslandSelfTestDone, if_neg hpending]
  cases pass with
  | true => exact ⟨_, rfl, rfl, by rw [modIsland_island]; rfl, by rw [modIsland_island]⟩
  | false =>
    let s1 := s.modIsland i fun x => { x with selfTest := .failed }
    obtain ⟨sec, ctr, hevent⟩ := eventsOnly_eventFree s1 s1.openSource 0x0141 0
    have hisland : (s1.eventFree s1.openSource 0x0141 0).island i = s1.island i := by
      rw [hevent]
      exact island_of_islands rfl
    refine ⟨s1.eventFree s1.openSource 0x0141 0, rfl, by rw [hevent]; rfl, ?_, ?_⟩
    · rw [hisland, modIsland_island]
      rfl
    · rw [hisland, modIsland_island]

/-! Slices of the cistern (R375). -/

@[simp] theorem modSlice_slice (s : State) (n : Nat) (f : Slice → Slice) : (s.modSlice n f).slice n = f (s.slice n) := by
  simp [State.modSlice, State.slice]

theorem modSlice_sameMem (s : State) (n : Nat) (f : Slice → Slice) : s.SameMem (s.modSlice n f) := fun _ => rfl

theorem modSlice_rd8 (s : State) (n : Nat) (f : Slice → Slice) (a : Nat) : (s.modSlice n f).rd8 a = s.rd8 a := rfl

/-- Whether a slice has had no access for 50 µs. -/
def Rests (s : State) (n : Nat) : Prop :=
  s.pow.down = false ∧ (s.slice n).state = .active ∧ (s.slice n).accessed + 50000 ≤ s.ns

section
variable {s : State} {n : Nat}

theorem exec_cisternRetain_of_rests (h : Rests s n) :
    exec (.cisternRetain n) s = .next (s.modSlice n fun x => { x with state := .retain }) := by
  obtain ⟨hup, hactive, hlong⟩ := h
  rw [exec_cisternRetain, execCisternRetain, State.whenUp, if_neg (by simp [hup])]
  exact if_pos (by simp [hactive, hlong])

theorem exec_cisternRetain_of_not_rests (h : ¬ Rests s n) : exec (.cisternRetain n) s = .next s := by
  rw [exec_cisternRetain, execCisternRetain, State.whenUp]
  by_cases hdown : s.pow.down = true
  · exact if_pos hdown
  · rw [if_neg hdown]
    exact if_neg (by simpa [Rests, hdown] using h)

theorem exec_cisternWake_of_waking (hup : s.pow.down = false) (h : (s.slice n).waking = true) :
    exec (.cisternWake n) s = .next (s.modSlice n fun x => { x with state := .active, waking := false }) := by
  rw [exec_cisternWake, execCisternWake, State.whenUp, if_neg (by simp [hup])]
  exact if_pos h

theorem exec_cisternWake_of_not_waking (h : ¬ (s.pow.down = false ∧ (s.slice n).waking = true)) :
    exec (.cisternWake n) s = .next s := by
  rw [exec_cisternWake, execCisternWake, State.whenUp]
  by_cases hdown : s.pow.down = true
  · exact if_pos hdown
  · rw [if_neg hdown]
    exact if_neg (by simpa [hdown] using h)

theorem spillBlock_core (s : State) (k b : Nat) : (s.spillBlock k b).core = s.core := rfl

/-- Blocks moved to their spill extents leave the bytes of memory. -/
theorem spillSlice_core {u : State} (h : s.spillSlice n = some u) : u.core = s.core := by
  unfold State.spillSlice at h
  refine List.foldlRecOn (motive := fun o : Option State => ∀ u, o = some u → u.core = s.core) _ _
    (fun u hu => congrArg State.core (Option.some.inj hu).symm) (fun o ho e _ u hu => ?_) u h
  obtain ⟨a, ha, hstep⟩ := Option.bind_eq_some_iff.mp hu
  dsimp only at hstep
  split at hstep
  · rw [← Option.some.inj hstep, spillBlock_core, ho a ha]
  · cases hstep

theorem exec_cisternOffRequest_of_refused (h : s.fwActive = false ∨ s.sliceNeeded n = true ∨ s.spillSlice n = none) :
    exec (.cisternOffRequest n) s = .next s := by
  rw [exec_cisternOffRequest, execCisternOffRequest]
  by_cases hguard : (!s.fwActive || s.sliceNeeded n) = true
  · exact if_pos hguard
  · rw [if_neg hguard]
    have hspill : s.spillSlice n = none := by
      simp only [Bool.or_eq_true, Bool.not_eq_true', not_or] at hguard
      exact (h.resolve_left hguard.1).resolve_left hguard.2
    rw [hspill]

theorem exec_cisternOffRequest_of_spilled (hactive : s.fwActive = true) (hfree : s.sliceNeeded n = false) {u : State}
    (hspill : s.spillSlice n = some u) : exec (.cisternOffRequest n) s = .next (u.modSlice n fun _ => { state := .off }) := by
  rw [exec_cisternOffRequest, execCisternOffRequest, if_neg (by simp [hactive, hfree]), hspill]

end

end Sys2Proof.Machine.WakesAndSlices

/-! PROOF. Islands, resume records, cistern slices, the scrubber and the journal's apply (R367 to R375, R378, R382, R396). -/

namespace Sys2Proof.Machine.IslandEvents
open Sys2Proof MapsAndFolds ClocksAndEnergy StreamsAndArms WellWrites IslandsAndSlices WakesCompleted WakesAndSlices

theorem applying_iff (w : Well) :
    w.applying = true ↔ w.applyStep ≠ 0 ∨ w.journal.state = .committed ∧ w.verifyFailed = false := by
  simp [Well.applying]

/-- A step that copies: a page comes home, or the redirection ends, or the apply has failed. -/
theorem exec_journalApply_of_copying {s : State} {t : Nat} (hruns : Runs s t) (hstep : (s.well t).applyStep = 0) :
    let w := s.well t
    ∃ u, exec (.journalApply t) s = .next u ∧ ((u.well t).verifyFailed = true ∨
      (∀ p j, (w.redirect.take w.active.2.nred)[w.applyNext]? = some (p, j) → (u.well t).applyNext = w.applyNext + 1 ∧
        (∀ o < 4096, u.rd8 (s.wellPa t (4096 * p + o)) = s.rd8 (s.wellPa t (shadowOff j + o))) ∧
        ∀ a, (a < s.wellPa t (4096 * p) ∨ s.wellPa t (4096 * p + 4096) ≤ a) → u.rd8 a = s.rd8 a) ∧
      ((w.redirect.take w.active.2.nred)[w.applyNext]? = none → (u.well t).applyStep = 1 ∧
        (u.well t).active.2.redir = false ∧ s.SameMem u)) := by
  intro w
  cases hnext : (w.redirect.take w.active.2.nred)[w.applyNext]? with
  | none =>
    obtain ⟨u, hu, h⟩ := exec_journalApply_of_last hruns hstep hnext
    exact ⟨u, hu, h.imp_right fun hlast => ⟨fun _ _ hsome => (by cases hsome), fun _ => hlast⟩⟩
  | some pj =>
    obtain ⟨u, hu, h⟩ := exec_journalApply_of_page hruns hstep hnext
    exact ⟨u, hu, h.imp_right fun hpage => ⟨fun p j hsome => by cases hsome; exact hpage, fun hnone => (by cases hnone)⟩⟩

/-- Settles O54: each clause is what the lemmas above say of its event. -/
theorem islandAndWellEvents : Obligations.IslandAndWellEvents := by
  intro s i
  refine ⟨fun h => ⟨_, exec_islandIdle_of_still h, by simp, by rw [modIsland_island]; rfl, rfl⟩, exec_islandIdle_of_not_still,
    fun h => ⟨_, exec_islandIdleExit_of_roused h, by simp, by simp, rfl⟩, exec_islandIdleExit_of_not_roused,
    fun d p hsince hpart => ⟨exec_islandPark_of_not_parks hsince hpart, fun h => ?_,
      exec_islandOff_of_not_turnsOff hsince hpart, fun h => ?_⟩,
    fun t c wakeAt mon s1 id hc htriggers hsaved => parkTask_record hc htriggers hsaved,
    fun b hb => nextWake_first hb, ⟨exec_islandWake_of_first, exec_islandWake_of_not_first⟩,
    fun bad => ⟨exec_islandWakeComplete_of_not_waking bad, fun h => ?_⟩,
    fun t c => ⟨exec_resumeTrigger_of_triggers, exec_resumeTrigger_of_not_triggers⟩,
    fun timed => ⟨fun h => askWake_wakeReq h timed, fun hretain hoff => askWake_of_awake (not_or.mpr ⟨hretain, hoff⟩) timed⟩,
    fun mask => ⟨exec_driverWakeRequest_of_inactive mask, fun h => ?_⟩,
    fun pass => ⟨exec_islandSelfTestDone_of_settled pass, exec_islandSelfTestDone_of_pending pass⟩,
    ⟨fun h => ⟨_, exec_cisternRetain_of_rests h, by simp, modSlice_sameMem s i _⟩, exec_cisternRetain_of_not_rests,
      fun h => ⟨_, exec_cisternWake_of_waking h.1 h.2, by simp, by simp, modSlice_sameMem s i _⟩,
      exec_cisternWake_of_not_waking, exec_cisternOffRequest_of_refused, fun hactive hfree hspill => ?_⟩,
    fun t p e => ⟨exec_wellScrub_of_down e, exec_wellScrub_of_skipped e, exec_wellScrub_of_failed e, exec_wellScrub_of_mended e⟩,
    fun t => ⟨applying_iff _, exec_journalApply_of_idle, fun hruns hstep => ?_, fun hruns hstep => ?_⟩⟩
  · refine ⟨_, exec_islandPark_of_parks hsince hpart h, by simp, by rw [modIsland_island]; rfl, fun tc htc => ?_,
      fun t ht => ?_, fun a ha => ?_, fun hnone a ha => ?_⟩
    · rw [modIsland_ctx]
      exact retained_ctx s i htc
    · rw [modIsland_tile]
      exact retained_tile s i ht
    · rw [modIsland_rd8]
      exact retained_rd8_mine s i ha
    · rw [modIsland_rd8]
      exact retained_rd8_other s i hnone ha
  · refine ⟨_, exec_islandOff_of_turnsOff hsince hpart h, by simp, fun t ht => ?_, fun a => ?_⟩
    · rw [modIsland_tile]
      exact withoutTids_tile s ht
    · rw [modIsland_rd8]
      exact withoutTids_sameMem s i a
  · exact ⟨_, exec_islandWakeComplete_of_waking bad h, fun tc htc => unparkAll_ctx _ i _ htc, wake_without_parked bad⟩
  · refine ⟨_, exec_driverWakeRequest_of_active mask h, askWakes_core_of s false _, fun hi hbit hasleep => ?_⟩
    exact askWakes_wakeReq (List.nodup_range.filter _) (by simp [hi, hbit]) hasleep false
  · obtain ⟨u, hu⟩ := Option.ne_none_iff_exists'.mp hspill
    refine ⟨_, exec_cisternOffRequest_of_spilled hactive hfree hu, modSlice_slice u i _, fun a => ?_⟩
    rw [modSlice_rd8, State.rd8, spillSlice_core hu, State.rd8]
  · exact exec_journalApply_of_copying hruns hstep
  · exact ⟨_, exec_journalApply_of_ending hruns hstep, applyEnd_ends s t⟩

end Sys2Proof.Machine.IslandEvents

/-! PROOF. The values that reset leaves (R15, R28, R151, R268, R369). -/

namespace Sys2Proof.Machine.AfterReset

/-- After reset each partition's power entry holds PARKDLY 50 and OFFDLY 10 (R369). -/
theorem reset_powerEntry (p : Nat) : State.reset.powerEntry p = powerReset := rfl

/-- Settles O57: every field read is the default of an empty map. -/
theorem resetValues : Obligations.ResetValues := by
  unfold Obligations.ResetValues
  refine ⟨rfl, reset_memCanonical, fun _ => rfl, fun _ _ => ⟨rfl, rfl, rfl, rfl, fun _ => rfl⟩, fun _ _ => rfl,
    fun _ => rfl, fun _ => rfl, fun _ => ⟨rfl, rfl⟩, fun _ => rfl, fun _ => rfl, fun _ => rfl,
    fun p => ?_⟩
  rw [reset_powerEntry]
  decide
end Sys2Proof.Machine.AfterReset

/-! PROOF. Loops: the operations on the loop stack and the loop end of a bundle (R25, R27, R107 to R109). -/

namespace Sys2Proof.Machine.LoopStack
open Sys2Proof Sys2Proof.Machine.ScalarResults

/-- What a loop-back leaves of an a-register (R27): the offset takes the delta modulo 2^48, the other fields stay. -/
structure MovedOffset (c d : Cap) (delta : Int) : Prop where
  offset : (d.offset : Int) = (c.offset + delta) % 2 ^ 48
  fields : d.tag = c.tag ∧ d.rights = c.rights ∧ d.kind = c.kind ∧ d.obj = c.obj ∧ d.exp = c.exp ∧ d.baseM = c.baseM ∧
    d.lenM = c.lenM

/-! The operations (R107, R109). -/

/-- What the checks of an admitted LOOP have found. -/
theorem checkLoop_ok {b : ScalarBody} {s : State} (h : checkLoop b s = .ok ()) :
    s.me.loops.length < 6 ∧ s.loopCount b < 2 ^ 32 := by
  unfold checkLoop at h
  dsimp only at h
  by_cases hl : s.me.loops.length < 6
  · by_cases hc : s.loopCount b ≤ 0xFFFFFFFF
    · exact ⟨hl, by omega⟩
    · simp [require, hl, hc, bind, Except.bind] at h
  · simp [require, hl, bind, Except.bind] at h

/-- A count of zero pushes nothing. -/
theorem loopEff_of_zero {b : ScalarBody} {s : State} (h : s.loopCount b = 0) :
    loopEff b s = s.modMe fun y => { y with target := some (y.pc + BitVec.ofNat 48 (64 * loopEnd b) + 64) } := by
  simp only [loopEff, h, if_true]

/-- Any other count pushes a level with index 0. -/
theorem loopEff_of_pos {b : ScalarBody} {s : State} (h : s.loopCount b ≠ 0) :
    loopEff b s = s.modMe fun y => { y with loops := y.loops ++
      [{ start := y.pc + 64, stop := y.pc + BitVec.ofNat 48 (64 * loopEnd b), count := BitVec.ofNat 32 (s.loopCount b),
         index := 0 }] } := by
  simp only [loopEff, h, if_false, Ctx.nextPc]

/-- LBREAK changes the count of one level. -/
theorem lbreak_getElem? (ls : List Level) (l k : Nat) (v : Level) (h : ls[k]? = some v) :
    (lbreak ls l)[k]? = some (if k = l then { v with count := v.index + 1 } else v) := by
  simp [lbreak, List.getElem?_mapIdx, h]

/-! The end of loops (R25, R108). -/

section
variable {pc : Off} {l : Level} {ls : List Level}

theorem endLoops_of_elsewhere (h : l.stop ≠ pc) : endLoops pc (l :: ls) = (l :: ls, none) := by
  simp [endLoops, h]

theorem endLoops_of_more (h : l.stop = pc) (hi : l.index.toNat + 1 < l.count.toNat) :
    endLoops pc (l :: ls) = ({ l with index := l.index + 1 } :: ls, some (l.start, ls.length)) := by
  simp [endLoops, h, hi]

theorem endLoops_of_last (h : l.stop = pc) (hi : l.count.toNat ≤ l.index.toNat + 1) :
    endLoops pc (l :: ls) = endLoops pc ls := by
  rw [endLoops, if_neg (not_not.mpr h), if_neg (by omega)]

end

/-! The deltas of a loop-back (R27). -/

/-- What a loop-back of level `l` makes of a-register `j`. -/
def movedBy (x : Ctx) (l : Nat) (r : Regs) (j : Nat) : Regs :=
  let d := FMap.get 0 x.delta (16 * l + j)
  if d = 0 then r
  else r.setA j ((r.getA j).withOffset (((((r.getA j).offset : Int) + d.toInt) % 2 ^ 48).toNat))

theorem addDeltas_regs (x : Ctx) (l : Nat) : (x.addDeltas l).regs = (List.range 16).foldl (movedBy x l) x.regs := by
  unfold Ctx.addDeltas movedBy
  rfl

theorem movedBy_getA_other (x : Ctx) (l : Nat) (r : Regs) (i j : Nat) (h : j ≠ i) :
    (movedBy x l r i).getA j = r.getA j := by
  unfold movedBy
  dsimp only
  split
  · rfl
  · exact ScalarOutputs.getA_setA_other r _ h

theorem movedBy_getA (x : Ctx) (l : Nat) (r : Regs) (j : Nat) :
    MovedOffset (r.getA j) ((movedBy x l r j).getA j) (FMap.get 0 x.delta (16 * l + j)).toInt := by
  have hlt : (r.getA j).offset < 2 ^ 48 := CapabilityResults.bitsOf_lt _ 95 48
  unfold movedBy
  dsimp only
  split
  next h0 =>
    refine ⟨?_, rfl, rfl, rfl, rfl, rfl, rfl, rfl⟩
    rw [h0, show BitVec.toInt (0 : BitVec 32) = 0 from rfl]
    omega
  next =>
    have hkeep := SystemTraps.withOffset_keeps (r.getA j)
      (BitVec.ofNat 48 ((((r.getA j).offset : Int) + (FMap.get 0 x.delta (16 * l + j)).toInt) % 2 ^ 48).toNat)
    rw [BitVec.toNat_ofNat, Nat.mod_eq_of_lt (by omega)] at hkeep
    obtain ⟨hoff, hrest⟩ := hkeep
    rw [ScalarOutputs.getA_setA_same]
    exact ⟨by omega, hrest⟩

theorem addDeltas_getA (x : Ctx) (l : Nat) {j : Nat} (hj : j < 16) :
    ∃ r : Regs, r.getA j = x.regs.getA j ∧ (x.addDeltas l).regs.getA j = (movedBy x l r j).getA j := by
  obtain ⟨r, _, hr, hlast⟩ := MapsAndFolds.foldl_see_of_mem (f := movedBy x l) (see := Regs.getA) (I := fun _ => True)
    (b := x.regs) (fun _ _ _ => trivial) (fun b i j h => movedBy_getA_other x l b i j h) List.nodup_range
    (List.mem_range.mpr hj) trivial
  exact ⟨r, hr, by rw [addDeltas_regs, hlast]⟩

/-! The loop end of a bundle (R25, R27, R108). -/

theorem loopEnd_of_none {s : State} {ls : List Level} (h : endLoops s.me.pc s.me.loops.reverse = (ls, none)) :
    s.loopEnd = (s.modMe fun y => { y with loops := ls.reverse }, s.me.nextPc, false) := by
  simp only [State.loopEnd, h]

theorem loopEnd_of_some {s : State} {ls : List Level} {start : Off} {l : Nat}
    (h : endLoops s.me.pc s.me.loops.reverse = (ls, some (start, l))) :
    s.loopEnd = ((s.modMe fun y => Ctx.addDeltas { y with loops := ls.reverse } l).modTile s.myTile
      fun y => y.loopCursors s.myCtx l, start, true) := by
  simp only [State.loopEnd, h]

/-- Settles O8. The operations are changes of the issuing context; the loop end is `endLoops` of its stack. -/
theorem loopsAndLoopEnds : Obligations.LoopsAndLoopEnds := by
  unfold Obligations.LoopsAndLoopEnds
  refine ⟨fun g x s => ⟨fun h => ?_, fun h => ?_, fun h => ?_, fun h => ?_⟩, fun pc l ls => ?_, fun x l j hj => ?_, fun s => ?_⟩
  · obtain ⟨hlen, hcount⟩ := checkLoop_ok (runCheck_of_admits h)
    refine ⟨s.loopCount x, loopEnd x, ?_, ?_, hcount, fun h0 => ?_, fun h0 => ⟨hlen, ?_⟩⟩
    · rintro rd rs1 rs2 aux rfl
      exact ⟨rfl, by simp [loopEnd, bitsOf]⟩
    · rintro rd rs1 aux2 imm rfl
      have := imm.isLt
      exact ⟨by simp only [State.loopCount, bitsOf]; omega, by simp [loopEnd, bitsOf]⟩
    · exact exec_eq_next h (exec_loop s g x) (by rw [loopEff_of_zero h0])
    · exact exec_eq_next h (exec_loop s g x) (by rw [loopEff_of_pos h0])
  · refine ⟨_, exec_eq_next h (exec_ldelta s g x) rfl, fun k => ?_⟩
    by_cases hk : k = 16 * (sbRs1 x).toNat + (sbRd x).toNat
    · rw [if_pos hk, hk, FMap.get_set_same]
    · rw [if_neg hk, FMap.get_set_other _ _ _ _ hk]
  · refine ⟨_, exec_eq_next h (exec_lbreak s g x) rfl, by simp [lbreak], fun k v hv => lbreak_getElem? _ _ k v hv⟩
  · refine ⟨_, exec_eq_next h (exec_lidx s g x) rfl, fun hlen => ?_, fun l hl => ?_⟩
    · rw [List.getElem?_eq_none hlen]
    · rw [hl]
      dsimp only
      split <;> exact BitVec.toNat_setWidth_of_le (by decide)
  · exact ⟨rfl, endLoops_of_elsewhere, endLoops_of_more, endLoops_of_last⟩
  · obtain ⟨r, hr, hd⟩ := addDeltas_getA x l hj
    have hmoved := movedBy_getA x l r j
    rw [hr] at hmoved
    rw [hd]
    exact ⟨hmoved.offset, hmoved.fields⟩
  · rcases he : endLoops s.me.pc s.me.loops.reverse with ⟨ls, _ | ⟨start, l⟩⟩
    · rw [loopEnd_of_none he]
      refine ⟨fun _ => ⟨rfl, _, rfl⟩, fun ks k hk hstop hmore => ?_⟩
      rw [hk, List.reverse_append, List.reverse_singleton, List.singleton_append, endLoops_of_more hstop hmore] at he
      cases he
    · rw [loopEnd_of_some he]
      refine ⟨nofun, fun ks k hk hstop hmore => ?_⟩
      rw [hk, List.reverse_append, List.reverse_singleton, List.singleton_append, endLoops_of_more hstop hmore] at he
      cases he
      simp
end Sys2Proof.Machine.LoopStack

/-! PROOF. Views, system registers, device time and features (R110 to R117, R125). -/

namespace Sys2Proof.Machine.SystemRegisters
open Sys2Proof Sys2Proof.Machine.ScalarResults

/-! Views (R110, R170). -/

/-- The limits that an admitted VIEW keeps. -/
theorem checkView_ok {b : ScalarBody} {s : State} (h : checkView b s = .ok ()) :
    s.viewBase b % 256 = 0 ∧ s.viewBase b < 4096 * s.me.sys.winSize := by
  have hlim := require_ok h
  simp only [Bool.and_eq_true, beq_iff_eq, decide_eq_true_eq] at hlim
  obtain ⟨⟨hal, hin⟩, -⟩ := hlim
  exact ⟨hal, hin⟩

/-- The views of a context after VIEW of kind `n`. -/
def viewed (w : Views) (n base cap : Nat) : Views :=
  if n = 0 then { w with v := base } else if n = 1 then { w with t := base } else if n = 2 then { w with c := base }
  else { w with k := base, kCap := cap, ranks := [] }

theorem viewEff_eq (b : ScalarBody) (s : State) :
    viewEff b s = s.modMe fun y => { y with views := viewed s.me.views (sbRd b).toNat (s.viewBase b) (s.viewCap b) } := by
  unfold viewEff viewed State.modMe
  dsimp only
  split
  next hn => rw [hn]; rfl
  next hn => rw [hn]; rfl
  next hn => rw [hn]; rfl
  next h0 h1 h2 => rw [if_neg h0, if_neg h1, if_neg h2]

/-! System registers (R111, R112, R15, R116). -/

/-- The registers that a granted write names (R111). -/
theorem srWritable_range {sup : Bool} {n : Nat} (h : srWritable sup n = true) : 5 ≤ n ∧ n ≤ 16 := by
  unfold srWritable at h
  split at h
  · omega
  · simp only [Bool.and_eq_true, Bool.or_eq_true, decide_eq_true_eq, beq_iff_eq] at h
    omega

/-- An admitted write of SR.PRIV or SR.WIN has SUP (R111, R112). -/
theorem sup_of_checkSrw {b : ScalarBody} {s : State} (h : checkSrw b s = .ok ()) (hn : (sbRd b).toNat ∈ [5, 6, 7, 16]) :
    s.me.sys.sup = true := require_ok (TrapsAndReturns.checkSrw_of_privileged hn ▸ h)

/-- Under SUP the write of SR.PRIV puts bit 0 into SUP. -/
theorem writePriv_of_sup {s : State} (v : Word) (h : s.me.sys.sup = true) :
    s.writePriv v = s.modMe fun y => { y with sys := { y.sys with sup := v.getLsbD 0 } } := by
  simp only [State.writePriv, State.modMe, h, Bool.true_and]

/-- The write of the current BASE and SIZE is never refused (R15). -/
theorem writeWin_of_current {s : State} {v : Word} (hb : bitsOf v 6 0 = s.me.sys.winBase) (hs : bitsOf v 15 8 = s.me.sys.winSize) :
    s.writeWin v = s.modMe fun y => { y with sys := { y.sys with winErr := y.sys.winErr && !v.getLsbD 16 } } := by
  unfold State.writeWin
  dsimp only
  rw [if_pos ⟨hb, hs⟩]
  cases v.getLsbD 16 <;> simp

/-- Any other write is refused where the context holds a task, or the window is no window of the tile (R15). -/
theorem writeWin_of_refused {s : State} {v : Word}
    (hc : ¬ (bitsOf v 6 0 = s.me.sys.winBase ∧ bitsOf v 15 8 = s.me.sys.winSize))
    (h : s.me.task.isSome ∨ bitsOf v 15 8 = 0 ∨ 128 < bitsOf v 6 0 + bitsOf v 15 8) :
    s.writeWin v = s.modMe fun y => { y with sys := { y.sys with winErr := true } } := by
  unfold State.writeWin
  dsimp only
  rw [if_neg hc, if_pos]
  simp only [Bool.or_eq_true, beq_iff_eq, decide_eq_true_eq]
  rcases h with h | h | h
  · exact .inl (.inl (.inl h))
  · exact .inl (.inl (.inr h))
  · exact .inl (.inr h)

/-- What a write of SR.WIN can do (R15). -/
theorem writeWin_cases (s : State) (v : Word) :
    s.writeWin v = s.modMe (fun y => { y with sys := { y.sys with winErr := y.sys.winErr && !v.getLsbD 16 } }) ∨
      s.writeWin v = s.modMe (fun y => { y with sys := { y.sys with winErr := true } }) ∨
      s.writeWin v = s.modMe fun y => { y with sys := { y.sys with
        winBase := bitsOf v 6 0, winSize := bitsOf v 15 8, winErr := y.sys.winErr && !v.getLsbD 16 } } := by
  have hclear : ∀ e : Bool, (if v.getLsbD 16 = true then false else e) = (e && !v.getLsbD 16) := by
    cases v.getLsbD 16 <;> simp
  unfold State.writeWin
  dsimp only
  simp only [hclear]
  split
  · exact .inl rfl
  · split
    · exact .inr (.inl rfl)
    · exact .inr (.inr rfl)

/-! Features (R113, R125). -/

/-- All bits where every feature that the immediate asks for is one of the tile's groups, else none. -/
theorem asked_iff (feat : BitVec 8) (imm : BitVec 32) :
    ((feat.zeroExtend 64 &&& imm.zeroExtend 64 : Word) == imm.zeroExtend 64) = true ↔
      ∀ k, imm.getLsbD k = true → k < 8 ∧ feat.getLsbD k = true := by
  rw [beq_iff_eq]
  constructor
  · intro h k hk
    have hlt : k < 32 := BitVec.lt_of_getLsbD hk
    have hbit := congrArg (fun w : Word => w.getLsbD k) h
    simp only [BitVec.getLsbD_and, BitVec.getLsbD_setWidth, BitVec.truncate_eq_setWidth, hk, show k < 64 by omega,
      decide_true, Bool.true_and, Bool.and_true] at hbit
    exact ⟨BitVec.lt_of_getLsbD hbit, hbit⟩
  · intro h
    apply BitVec.eq_of_getLsbD_eq
    intro k hk
    simp only [BitVec.getLsbD_and, BitVec.getLsbD_setWidth, BitVec.truncate_eq_setWidth, hk, decide_true, Bool.true_and]
    cases hbit : imm.getLsbD k
    · exact Bool.and_false _
    · rw [(h k hbit).2]
      rfl

/-- Settles O9. Each operation is one change of the issuing context's views, system registers or registers. -/
theorem viewsAndSystemRegisters : Obligations.ViewsAndSystemRegisters := by
  unfold Obligations.ViewsAndSystemRegisters
  intro g x s
  refine ⟨fun h => ?_, fun h => exec_eq_next h (exec_srr s g x) rfl, fun h => ?_, fun h hn => ?_, fun h hn => ?_,
    fun h => ?_, fun h => ?_⟩
  · obtain ⟨hal, hin⟩ := checkView_ok (runCheck_of_admits h)
    exact ⟨hal, hin, _, exec_eq_next h (exec_view s g x) (congrArg Except.ok (viewEff_eq x s)), rfl⟩
  · have hexec : exec (.srw g x) s = .next (s.setSysReg (sbRd x).toNat (s.srwVal x)) := exec_eq_next h (exec_srw s g x) rfl
    have hrange := srWritable_range (require_ok (runCheck_of_admits h))
    rw [hexec]
    refine ⟨?_, ?_, ?_, ?_, ?_, ?_, ?_, ?_, ?_, ?_, by simp only [List.mem_cons]; omega⟩ <;> intro hn <;> rw [hn]
    · simp only [State.setSysReg, bitsOf, Nat.pow_zero, Nat.div_one]
    all_goals rfl
  · have hsup := sup_of_checkSrw (runCheck_of_admits h) (by simp [hn])
    refine ⟨hsup, exec_eq_next h (exec_srPrivWrite s g x) ?_⟩
    rw [hn, ← writePriv_of_sup _ hsup]
    rfl
  · have hbase : (s.srwVal x).toNat % 2 ^ 7 = bitsOf (s.srwVal x) 6 0 := by simp [bitsOf]
    have hsize : (s.srwVal x).toNat / 2 ^ 8 % 2 ^ 8 = bitsOf (s.srwVal x) 15 8 := rfl
    have hexec : exec (.srWinWrite g x) s = .next (s.writeWin (s.srwVal x)) :=
      exec_eq_next h (exec_srWinWrite s g x) (by rw [hn]; rfl)
    rw [hexec]
    dsimp only
    rw [hbase, hsize]
    refine ⟨fun hc => ?_, fun hc hr => ?_, ?_⟩
    · rw [writeWin_of_current hc.1 hc.2]
    · rw [writeWin_of_refused hc hr]
    · rcases writeWin_cases s (s.srwVal x) with hw | hw | hw <;> simp only [hw, true_or, or_true]
  · refine ⟨_, exec_eq_next h (exec_rdtime s g x) rfl, fun hm => ?_, fun hm => ?_⟩ <;> rw [hm] <;> rfl
  · have hexec : exec (.feat g x) s = .next (s.scalarP (sbRd x)
        (allBits (((s.tile s.myTile).feat.zeroExtend 64 &&& (sbImm x).zeroExtend 64 : Word) == (sbImm x).zeroExtend 64))) :=
      exec_eq_next h (exec_feat s g x) rfl
    rw [hexec]
    refine ⟨fun ha => ?_, fun ha => ?_⟩
    · rw [(asked_iff _ _).mpr ha]
      rfl
    · rw [Bool.eq_false_iff.mpr fun he => ha ((asked_iff _ _).mp he)]
      rfl
end Sys2Proof.Machine.SystemRegisters

/-! PROOF. YIELD, END, the header bits and the NOPs (R32, R36, R37, R73, R123, R124). -/

namespace Sys2Proof.Machine.YieldAndEnd
open Sys2Proof Sys2Proof.Machine.ScalarResults

/-! YIELD (R123). -/

section
variable {b : ScalarBody} {s : State}

theorem yieldEff_of_ask (h : (sbAux b).getLsbD 0 = true) :
    yieldEff b s = (s.modMe Ctx.commitEarlier).askPreempt s.myTile s.myCtx .yieldQ := by
  simp only [yieldEff, h, if_true]

theorem yieldEff_of_unasked (h : (sbAux b).getLsbD 0 = false) (hp : s.me.preempt = none) :
    yieldEff b s = (s.modMe Ctx.commitEarlier).modMe fun c => { c with yieldNext := true } := by
  simp only [yieldEff, h, hp, Bool.false_eq_true, if_false, Option.isNone_none, if_true]

theorem yieldEff_of_pending (h : (sbAux b).getLsbD 0 = false) (hp : s.me.preempt ≠ none) :
    yieldEff b s = s.modMe Ctx.commitEarlier := by
  simp only [yieldEff, h, Bool.false_eq_true, if_false, Option.isNone_iff_eq_none, if_neg hp]

end

/-! Regions (R32, R36). -/

section
variable {c : Ctx}

theorem commitEarlier_of_earlier (h : ∀ r, c.region = some r → r.bundle ≠ c.bundleNo) : c.commitEarlier = c.commitRegion := by
  unfold Ctx.commitEarlier
  split
  next r hr => exact if_neg (h r hr)
  next => rfl

theorem commitEarlier_of_own {r : RegionRec} (hr : c.region = some r) (hb : r.bundle = c.bundleNo) : c.commitEarlier = c := by
  simp only [Ctx.commitEarlier, hr, hb, if_true]

end

/-- The offsets of a list of registers that each stand in it once, recorded where they are not 0. -/
theorem get_recorded_offset {a : FMap Cap} (h : a.Pairwise fun u v => u.1 ≠ v.1) (j : Nat) :
    (FMap.get 0 (a.filterMap fun (k, c) => if c.offset = 0 then none else some (k, BitVec.ofNat 48 c.offset)) j : Off).toNat =
      (FMap.get {} a j).offset % 2 ^ 48 := by
  induction a with
  | nil => simp [FMap.get, Cap.offset, bitsOf]
  | cons x a ih =>
    obtain ⟨k, c⟩ := x
    obtain ⟨hne, hrest⟩ := List.pairwise_cons.mp h
    have htail := ih hrest
    by_cases hj : k = j
    · subst hj
      by_cases h0 : c.offset = 0
      · have hunlisted : FMap.get ({} : Cap) a k = {} := by
          rcases MapsAndFolds.get_eq_or_mem ({} : Cap) a k with hd | hmem
          · exact hd
          · exact absurd rfl (hne (k, FMap.get {} a k) hmem)
        rw [hunlisted] at htail
        simp only [List.filterMap_cons, h0, if_true, htail, FMap.get]
        simp [Cap.offset, bitsOf]
      · simp [h0, FMap.get]
    · by_cases h0 : c.offset = 0
      · simp only [List.filterMap_cons, h0, if_true, htail, FMap.get, if_neg hj]
      · simp only [List.filterMap_cons, h0, if_false, htail, FMap.get, if_neg hj]

/-- Settles O12. Each is one change of the issuing context. -/
theorem yieldEndAndHeaderBits : Obligations.YieldEndAndHeaderBits := by
  unfold Obligations.YieldEndAndHeaderBits
  intro g x y s
  refine ⟨fun h => ?_, fun c => commitEarlier_of_earlier, fun c r => commitEarlier_of_own,
    fun h => exec_eq_next h (exec_endTask s g x) rfl, ⟨rfl, fun c => ⟨_, rfl, rfl, rfl, fun j _ hp => get_recorded_offset hp j⟩⟩,
    ⟨rfl, fun c => ⟨rfl, TrapsAndReturns.commitRegion_held c, ?_⟩⟩, ⟨fun hr => ?_, fun hr => ?_⟩,
    fun h => exec_eq_next h (exec_nopScalar s g y) rfl, fun h => VectorResults.exec_eq_next_lanes h (exec_nopVector s g y) rfl,
    fun h => exec_eq_next h (exec_nopMatrix s g y) rfl, fun h => exec_eq_next h (exec_nopLoad s g y) rfl,
    fun h => exec_eq_next h (exec_nopStore s g y) rfl, fun h => exec_eq_next h (exec_nopPump s g y) rfl,
    fun h => exec_eq_next h (exec_nopSync s g y) rfl⟩
  · exact ⟨fun hq => exec_eq_next h (exec_yield s g x) (by rw [yieldEff_of_ask hq]),
      fun hq hp => exec_eq_next h (exec_yield s g x) (by rw [yieldEff_of_unasked hq hp]),
      fun hq hp => exec_eq_next h (exec_yield s g x) (by rw [yieldEff_of_pending hq hp])⟩
  · simp [Ctx.commitRegion, Function.comp_def]
  · rw [exec_preemptionPoint, execPreemptionPoint, hr]
    rfl
  · rw [exec_preemptionPoint, execPreemptionPoint, Option.isNone_iff_eq_none.not.mpr hr |> Bool.eq_false_iff.mpr]
    rfl
end Sys2Proof.Machine.YieldAndEnd

/-! PROOF. Fields written into words, and numbers written into memory (R3). -/

namespace Sys2Proof.Machine.FieldWrites
open Sys2Proof

/-! A field of a word that was written. -/

section
variable {w : Nat} (x : BitVec w) {lo n : Nat} (v : Nat)

/-- The word after the write: what stands below the field, the field, what stands above it. -/
theorem setBits_toNat (hn : 0 < n) (h : lo + n ≤ w) :
    (setBits x lo n v).toNat = x.toNat % 2 ^ lo + 2 ^ lo * (v % 2 ^ n + 2 ^ n * (x.toNat / 2 ^ lo / 2 ^ n)) := by
  have hfield : bitsOf x (lo + n - 1) lo = x.toNat / 2 ^ lo % 2 ^ n := by
    rw [bitsOf, show lo + n - 1 + 1 - lo = n by omega]
  have hx : x.toNat = x.toNat % 2 ^ lo + 2 ^ lo * (x.toNat / 2 ^ lo % 2 ^ n + 2 ^ n * (x.toNat / 2 ^ lo / 2 ^ n)) := by
    rw [Nat.mod_add_div (x.toNat / 2 ^ lo), Nat.mod_add_div]
  have hsum : x.toNat - bitsOf x (lo + n - 1) lo * 2 ^ lo + v % 2 ^ n * 2 ^ lo =
      x.toNat % 2 ^ lo + 2 ^ lo * (v % 2 ^ n + 2 ^ n * (x.toNat / 2 ^ lo / 2 ^ n)) := by
    rw [hfield, Nat.mul_comm _ (2 ^ lo), Nat.mul_comm _ (2 ^ lo)]
    rw [Nat.mul_add] at hx ⊢
    omega
  have hhigh : x.toNat / 2 ^ lo / 2 ^ n < 2 ^ (w - lo - n) := by
    rw [Nat.div_div_eq_div_mul, ← Nat.pow_add]
    refine Nat.div_lt_of_lt_mul ?_
    rw [← Nat.pow_add, show lo + n + (w - lo - n) = w by omega]
    exact x.isLt
  have hlt : x.toNat % 2 ^ lo + 2 ^ lo * (v % 2 ^ n + 2 ^ n * (x.toNat / 2 ^ lo / 2 ^ n)) < 2 ^ w := by
    have hw : 2 ^ w = 2 ^ lo * (2 ^ n * 2 ^ (w - lo - n)) := by
      rw [← Nat.pow_add, ← Nat.pow_add, show lo + (n + (w - lo - n)) = w by omega]
    have hlow : x.toNat % 2 ^ lo < 2 ^ lo := Nat.mod_lt _ (Nat.two_pow_pos _)
    have hmid : v % 2 ^ n < 2 ^ n := Nat.mod_lt _ (Nat.two_pow_pos _)
    rw [hw]
    calc x.toNat % 2 ^ lo + 2 ^ lo * (v % 2 ^ n + 2 ^ n * (x.toNat / 2 ^ lo / 2 ^ n))
        < 2 ^ lo + 2 ^ lo * (v % 2 ^ n + 2 ^ n * (x.toNat / 2 ^ lo / 2 ^ n)) := Nat.add_lt_add_right hlow _
      _ = 2 ^ lo * (v % 2 ^ n + 2 ^ n * (x.toNat / 2 ^ lo / 2 ^ n) + 1) := by rw [Nat.mul_succ, Nat.add_comm]
      _ ≤ 2 ^ lo * (2 ^ n * (x.toNat / 2 ^ lo / 2 ^ n + 1)) := Nat.mul_le_mul_left _ (by rw [Nat.mul_succ]; omega)
      _ ≤ 2 ^ lo * (2 ^ n * 2 ^ (w - lo - n)) := Nat.mul_le_mul_left _ (Nat.mul_le_mul_left _ hhigh)
  rw [setBits, BitVec.toNat_ofNat, hsum, Nat.mod_eq_of_lt hlt]

variable {hi l : Nat}

/-- The field written. -/
theorem bitsOf_setBits_same (hn : 0 < n) (h : lo + n ≤ w) (hhi : hi + 1 = lo + n) :
    bitsOf (setBits x lo n v) hi lo = v % 2 ^ n := by
  rw [bitsOf, setBits_toNat x v hn h, Nat.add_mul_div_left _ _ (Nat.two_pow_pos _),
    Nat.div_eq_of_lt (Nat.mod_lt _ (Nat.two_pow_pos _)), Nat.zero_add, show hi + 1 - lo = n by omega,
    Nat.add_mul_mod_self_left, Nat.mod_mod]

/-- The bits above a field written stay. -/
theorem setBits_div_above (hn : 0 < n) (h : lo + n ≤ w) (hl : lo + n ≤ l) :
    (setBits x lo n v).toNat / 2 ^ l = x.toNat / 2 ^ l := by
  obtain ⟨k, rfl⟩ := Nat.exists_eq_add_of_le hl
  rw [Nat.add_assoc, Nat.pow_add, Nat.pow_add, ← Nat.div_div_eq_div_mul, ← Nat.div_div_eq_div_mul,
    ← Nat.div_div_eq_div_mul, ← Nat.div_div_eq_div_mul, setBits_toNat x v hn h,
    Nat.add_mul_div_left _ _ (Nat.two_pow_pos _), Nat.div_eq_of_lt (Nat.mod_lt _ (Nat.two_pow_pos _)), Nat.zero_add,
    Nat.add_mul_div_left _ _ (Nat.two_pow_pos _), Nat.div_eq_of_lt (Nat.mod_lt _ (Nat.two_pow_pos _)), Nat.zero_add]

/-- The bits below a field written stay. -/
theorem setBits_mod_below (hn : 0 < n) (h : lo + n ≤ w) (hl : l ≤ lo) :
    (setBits x lo n v).toNat % 2 ^ l = x.toNat % 2 ^ l := by
  obtain ⟨k, rfl⟩ := Nat.exists_eq_add_of_le hl
  rw [setBits_toNat x v hn h, Nat.pow_add, Nat.mul_assoc, Nat.add_mul_mod_self_left, Nat.mod_mod_of_dvd _ (Nat.dvd_mul_right _ _)]

theorem bitsOf_setBits_above (hn : 0 < n) (h : lo + n ≤ w) (hl : lo + n ≤ l) :
    bitsOf (setBits x lo n v) hi l = bitsOf x hi l := by
  rw [bitsOf, setBits_div_above x v hn h hl, bitsOf]

theorem bitsOf_setBits_below (hn : 0 < n) (h : lo + n ≤ w) (hl : hi < lo) :
    bitsOf (setBits x lo n v) hi l = bitsOf x hi l := by
  have hcut : ∀ y : Nat, y / 2 ^ l % 2 ^ (hi + 1 - l) = y % 2 ^ (l + (hi + 1 - l)) / 2 ^ l := fun y => by
    rw [Nat.pow_add, Nat.mod_mul_right_div_self]
  rcases Nat.lt_or_ge hi l with hempty | hle
  · rw [bitsOf, bitsOf, show hi + 1 - l = 0 by omega, Nat.pow_zero, Nat.mod_one, Nat.mod_one]
  · rw [bitsOf, bitsOf, hcut, hcut, show l + (hi + 1 - l) = hi + 1 by omega, setBits_mod_below x v hn h hl]

/-- Bits outside a field written stay. -/
theorem getLsbD_setBits_other (hn : 0 < n) (h : lo + n ≤ w) (hl : l < lo ∨ lo + n ≤ l) :
    (setBits x lo n v).getLsbD l = x.getLsbD l := by
  have hbit : ∀ y : BitVec w, y.getLsbD l = decide (y.toNat / 2 ^ l % 2 = 1) := fun y => by
    rw [BitVec.getLsbD, Nat.testBit_eq_decide_div_mod_eq]
  have hone : ∀ y : BitVec w, bitsOf y l l = y.toNat / 2 ^ l % 2 := fun y => by
    rw [bitsOf, Nat.add_sub_cancel_left, Nat.pow_one]
  rw [hbit, hbit, ← hone, ← hone]
  rcases hl with hl | hl
  · rw [bitsOf_setBits_below x v hn h hl]
  · rw [bitsOf_setBits_above x v hn h hl]

/-- A bit written. -/
theorem getLsbD_setBits_one (h : lo + 1 ≤ w) : (setBits x lo 1 v).getLsbD lo = decide (v % 2 = 1) := by
  have hsame := bitsOf_setBits_same x v (hi := lo) Nat.one_pos h rfl
  rw [bitsOf, Nat.add_sub_cancel_left, Nat.pow_one] at hsame
  rw [BitVec.getLsbD, Nat.testBit_eq_decide_div_mod_eq, hsame]

end

/-! Numbers in memory. -/

theorem leBytes_eq_map (n v : Nat) : leBytes n v = (List.range n).map fun k => BitVec.ofNat 8 (v / 256 ^ k) := by
  induction n generalizing v with
  | zero => rfl
  | succ n ih =>
    rw [leBytes, ih, List.range_succ_eq_map, List.map_cons, List.map_map]
    simp [Function.comp_def, Nat.pow_succ', Nat.div_div_eq_div_mul]

theorem leBytes_getD {n k : Nat} (v : Nat) (h : k < n) : (leBytes n v).getD k 0 = BitVec.ofNat 8 (v / 256 ^ k) := by
  simp [leBytes_eq_map, h]

/-- A number written, byte by byte. -/
theorem rd8_wrNat (s : State) (pa n v a : Nat) :
    (s.wrNat pa n v).rd8 a = if pa ≤ a ∧ a < pa + n then BitVec.ofNat 8 (v / 256 ^ (a - pa)) else s.rd8 a := by
  rw [State.wrNat, WellWrites.rd8_wrBytes, Accumulators.length_leBytes]
  split
  next h => exact leBytes_getD v (by omega)
  next => rfl

theorem rd8_wrNat_other (s : State) {pa n a : Nat} (v : Nat) (h : a < pa ∨ pa + n ≤ a) : (s.wrNat pa n v).rd8 a = s.rd8 a := by
  rw [rd8_wrNat, if_neg (by omega)]

theorem rdBytes_eq_map (s : State) (pa n : Nat) : s.rdBytes pa n = (List.range n).map fun k => s.rd8 (pa + k) :=
  Accumulators.getRun_eq_map ..

/-- A number read is that of its bytes. -/
theorem rdNat_congr {s t : State} {pa n : Nat} (h : ∀ k < n, t.rd8 (pa + k) = s.rd8 (pa + k)) : t.rdNat pa n = s.rdNat pa n := by
  rw [State.rdNat, State.rdNat, rdBytes_eq_map, rdBytes_eq_map, List.map_congr_left fun k hk => h k (List.mem_range.mp hk)]

/-- A number written reads back. -/
theorem rdNat_wrNat (s : State) (pa n v : Nat) : (s.wrNat pa n v).rdNat pa n = v % 256 ^ n := by
  have hread : (s.wrNat pa n v).rdBytes pa n = leBytes n v := by
    rw [rdBytes_eq_map, leBytes_eq_map]
    refine List.map_congr_left fun k hk => ?_
    have hk := List.mem_range.mp hk
    rw [rd8_wrNat, if_pos (by omega), Nat.add_sub_cancel_left]
  rw [State.rdNat, hread, Accumulators.leNat_leBytes]

/-- The bytes of a word. -/
theorem ofNat_div_256_pow {w : Nat} (x : BitVec w) (k : Nat) : BitVec.ofNat 8 (x.toNat / 256 ^ k) = x.extractLsb' (8 * k) 8 := by
  apply BitVec.eq_of_toNat_eq
  rw [BitVec.extractLsb'_toNat, Nat.shiftRight_eq_div_pow, Nat.pow_mul, BitVec.toNat_ofNat]

end Sys2Proof.Machine.FieldWrites

/-! PROOF. Where a fault record goes in its partition's log (R7, R12, R351). -/

namespace Sys2Proof.Machine.FaultLogs
open Sys2Proof Sys2Proof.Machine.FieldWrites

/-! The ring. -/

/-- Two places of a ring that lie less than its size apart are different slots. -/
theorem slot_ne {size lo i k : Nat} (hi : i < k) (hk : k < size + i) : (lo + i) % size ≠ (lo + k) % size := fun h => by
  have hzero : (lo + k - (lo + i)) % size = 0 := Nat.sub_mod_eq_zero_of_mod_eq h.symm
  rw [Nat.mod_eq_of_lt (by omega)] at hzero
  omega

section
variable (s : State) (base size lo : Nat) (r : BitVec 512)

/-- An insertion among `n` records writes the slots of the records `lo` to `lo + n` only. -/
theorem logInsert_rd8_other (n : Nat) {a : Nat}
    (ha : ∀ i ≤ n, a < base + 64 * ((lo + i) % size) ∨ base + 64 * ((lo + i) % size) + 64 ≤ a) :
    (s.logInsert base size lo r n).rd8 a = s.rd8 a := by
  induction n generalizing s with
  | zero => exact rd8_wrNat_other s _ (ha 0 (Nat.le_refl 0))
  | succ n ih =>
    have htop := ha (n + 1) (Nat.le_refl _)
    rw [← Nat.add_assoc] at htop
    rw [State.logInsert]
    split
    · rw [ih _ fun i hi => ha i (by omega), rd8_wrNat_other s _ htop]
    · exact rd8_wrNat_other s _ htop

/-- A record that no unread one comes after stands in the slot above them. -/
theorem logInsert_of_last {n : Nat} (h : n = 0 ∨
      faultBefore r (BitVec.ofNat 512 (s.rdNat (base + 64 * ((lo + n - 1) % size)) 64)) = false) :
    s.logInsert base size lo r n = s.wrNat (base + 64 * ((lo + n) % size)) 64 r.toNat := by
  cases n with
  | zero => rfl
  | succ n =>
    have hb := h.resolve_left (Nat.succ_ne_zero n)
    rw [show lo + (n + 1) - 1 = lo + n by omega] at hb
    rw [State.logInsert]
    simp only [hb, Bool.false_eq_true, if_false]
    rfl

/-- A record that comes before the last unread one: that one moves up a slot. -/
theorem logInsert_moves_last {n : Nat} (hn : n ≠ 0) (hroom : n < size)
    (h : faultBefore r (BitVec.ofNat 512 (s.rdNat (base + 64 * ((lo + n - 1) % size)) 64)) = true) {k : Nat} (hk : k < 64) :
    (s.logInsert base size lo r n).rd8 (base + 64 * ((lo + n) % size) + k) =
      (BitVec.ofNat 512 (s.rdNat (base + 64 * ((lo + n - 1) % size)) 64)).extractLsb' (8 * k) 8 := by
  obtain ⟨m, rfl⟩ := Nat.exists_eq_succ_of_ne_zero hn
  rw [show lo + m.succ - 1 = lo + m by omega] at h ⊢
  rw [State.logInsert]
  simp only [h, if_true]
  rw [Nat.add_succ lo m, ← Nat.succ_eq_add_one (lo + m), logInsert_rd8_other, rd8_wrNat, if_pos (by omega),
    ← ofNat_div_256_pow, Nat.add_sub_cancel_left]
  · intro i hi
    have hne := slot_ne (size := size) (lo := lo) (i := i) (k := m.succ) (by omega) (by omega)
    rw [Nat.add_succ] at hne
    omega

end

/-! The log's numbers. -/

/-- The slot after the unread records is that of the next record, and the one below it that of the last. -/
theorem slots_of_unread {head read size c : Nat} (hh : head < 2 ^ 32) (hr : read < 2 ^ 32) (hsize : 2 ^ 32 = size * c) :
    let n := (head + 2 ^ 32 - read) % 2 ^ 32
    (read + n) % size = head % size ∧ (n ≠ 0 → (read + n - 1) % size = (head + 2 ^ 32 - 1) % size) := by
  intro n
  have hwrap : ∀ m, (m + 2 ^ 32) % size = m % size := fun m => by rw [hsize, Nat.add_mul_mod_self_left]
  have hn : read + n = head ∧ (n ≠ 0 → 0 < head) ∨ read + n = head + 2 ^ 32 := by omega
  rcases hn with ⟨hn, hpos⟩ | hn
  · refine ⟨by rw [hn], fun h0 => ?_⟩
    have := hpos h0
    rw [hn, show head + 2 ^ 32 - 1 = head - 1 + 2 ^ 32 by omega, hwrap]
  · exact ⟨by rw [hn, hwrap], fun _ => by rw [hn]⟩

theorem faultBefore_iff (r q : BitVec 512) : faultBefore r q = true ↔ bitsOf r 63 0 < bitsOf q 63 0 ∨
    bitsOf r 63 0 = bitsOf q 63 0 ∧ bitsOf r 79 64 < bitsOf q 79 64 := by
  simp only [faultBefore, Bool.or_eq_true, Bool.and_eq_true, decide_eq_true_eq, beq_iff_eq]

section
variable (s : State) (part : Nat) (e : BitVec 512)

@[simp] theorem setService_same : (s.setService part e).service part = e := FMap.get_set_same ..

theorem setService_other {p : Nat} (h : p ≠ part) : (s.setService part e).service p = s.service p :=
  FMap.get_set_other _ _ _ _ h

@[simp] theorem setService_rd8 (a : Nat) : (s.setService part e).rd8 a = s.rd8 a := rfl

theorem logInsert_service (base size lo : Nat) (r : BitVec 512) (n : Nat) (p : Nat) :
    (s.logInsert base size lo r n).service p = s.service p := by
  obtain ⟨mem, tags, h⟩ := SystemTraps.logInsert_frame base size lo r n s
  rw [h]
  rfl

end

/-- The slots of a partition's ring. -/
def ringSize (s : State) (part : Nat) : Nat := 2 ^ bitsOf (s.service part) 68 64
/-- The first byte of a partition's ring. -/
def ringBase (s : State) (part : Nat) : Nat := bitsOf (s.service part) 63 0
/-- The driver's read count. -/
def readCount (s : State) (part : Nat) : Nat := s.rdNat ((ringBase s part + 2 ^ 64 - 8) % 2 ^ 64) 8 % 2 ^ 32
/-- LOGHEAD. -/
def logHead (s : State) (part : Nat) : Nat := bitsOf (s.service part) 159 128

section
variable {s : State} {part : Nat} {r : BitVec 512}

theorem logRecord_of_full (h : ringSize s part < (logHead s part + 1 + 2 ^ 32 - readCount s part) % 2 ^ 32) :
    s.logRecord part r = s.setService part (setBits (s.service part) 160 32
      (min (bitsOf (s.service part) 191 160 + 1) (2 ^ 32 - 1))) := by
  unfold ringSize logHead readCount ringBase at h
  unfold State.logRecord
  dsimp only
  rw [if_pos h]

theorem logRecord_of_room (h : (logHead s part + 1 + 2 ^ 32 - readCount s part) % 2 ^ 32 ≤ ringSize s part) :
    s.logRecord part r = (s.logInsert (ringBase s part) (ringSize s part) (readCount s part) r
      ((logHead s part + 2 ^ 32 - readCount s part) % 2 ^ 32)).setService part
        (setBits (s.service part) 128 32 (logHead s part + 1)) := by
  unfold ringSize logHead readCount ringBase at *
  unfold State.logRecord
  dsimp only
  rw [if_neg (Nat.not_lt.mpr h)]

theorem logRecord_service_other {p : Nat} (h : p ≠ part) : (s.logRecord part r).service p = s.service p := by
  rcases Nat.lt_or_ge (ringSize s part) ((logHead s part + 1 + 2 ^ 32 - readCount s part) % 2 ^ 32) with hf | hf
  · rw [logRecord_of_full hf, setService_other _ _ _ h]
  · rw [logRecord_of_room hf, setService_other _ _ _ h, logInsert_service]

/-- Whatever becomes of a record, one of LOGHEAD and LOGOVF is written and no other field of the entry. -/
theorem logRecord_service_keeps : bitsOf ((s.logRecord part r).service part) 127 0 = bitsOf (s.service part) 127 0 ∧
    bitsOf ((s.logRecord part r).service part) 511 192 = bitsOf (s.service part) 511 192 := by
  rcases Nat.lt_or_ge (ringSize s part) ((logHead s part + 1 + 2 ^ 32 - readCount s part) % 2 ^ 32) with hf | hf
  · rw [logRecord_of_full hf, setService_same]
    exact ⟨bitsOf_setBits_below _ _ (by decide) (by decide) (by decide),
      bitsOf_setBits_above _ _ (by decide) (by decide) (by decide)⟩
  · rw [logRecord_of_room hf, setService_same]
    exact ⟨bitsOf_setBits_below _ _ (by decide) (by decide) (by decide),
      bitsOf_setBits_above _ _ (by decide) (by decide) (by decide)⟩

end

/-- LOGOVF saturates in 32 bits. -/
theorem saturated_mod (m : Nat) : min m (2 ^ 32 - 1) % 2 ^ 32 = min m (2 ^ 32 - 1) := Nat.mod_eq_of_lt (by omega)

/-- Settles O15. A dropped record writes LOGOVF; any other is inserted among the unread ones, by `State.logInsert`. -/
theorem faultLog : Obligations.FaultLog := by
  unfold Obligations.FaultLog
  intro s part r
  have hbase : bitsOf (s.service part) 63 0 = ringBase s part := rfl
  have hsize : 2 ^ bitsOf (s.service part) 68 64 = ringSize s part := rfl
  have hlog : bitsOf (s.service part) 159 128 = logHead s part := rfl
  have hcount : s.rdNat ((ringBase s part + 2 ^ 64 - 8) % 2 ^ 64) 8 % 2 ^ 32 = readCount s part := rfl
  dsimp only
  simp only [hbase, hsize, hlog, hcount]
  have hhead : logHead s part < 2 ^ 32 := CapabilityResults.bitsOf_lt _ 159 128
  have hread : readCount s part < 2 ^ 32 := Nat.mod_lt _ (Nat.two_pow_pos _)
  have hexp : bitsOf (s.service part) 68 64 < 2 ^ 5 := CapabilityResults.bitsOf_lt _ 68 64
  obtain ⟨c, hc⟩ : ringSize s part ∣ 2 ^ 32 := Nat.pow_dvd_pow 2 (by omega)
  obtain ⟨hnext, hlast⟩ := slots_of_unread hhead hread hc
  have hpos : 0 < ringSize s part := Nat.two_pow_pos _
  refine ⟨fun hf => ?_, fun hf => ?_, faultBefore_iff r, logRecord_service_keeps.1, logRecord_service_keeps.2,
    fun p hp => logRecord_service_other hp⟩
  · rw [logRecord_of_full hf]
    refine ⟨fun a => setService_rd8 .., ?_, ?_⟩
    · rw [setService_same, bitsOf_setBits_below _ _ (by decide) (by decide) (by decide), hlog]
    · rw [setService_same, bitsOf_setBits_same (n := 32) _ _ (by decide) (by decide) rfl, saturated_mod]
  · rw [logRecord_of_room hf]
    refine ⟨?_, ?_, fun a ha => ?_, fun hl => ?_, fun h0 hroom hb k hk => ?_⟩
    · rw [setService_same, bitsOf_setBits_same (n := 32) _ _ (by decide) (by decide) rfl]
    · rw [setService_same, bitsOf_setBits_above _ _ (by decide) (by decide) (by decide)]
    · rw [setService_rd8, logInsert_rd8_other]
      intro i _
      have hslot := Nat.mod_lt (readCount s part + i) hpos
      omega
    · rw [logInsert_of_last, hnext]
      · refine ⟨fun k hk => ?_, fun a ha => ?_⟩
        · rw [setService_rd8, rd8_wrNat, if_pos (by omega), Nat.add_sub_cancel_left, ofNat_div_256_pow]
        · rw [setService_rd8, rd8_wrNat_other s _ ha]
      · rcases hl with h0 | hb
        · exact .inl h0
        · by_cases h0 : (logHead s part + 2 ^ 32 - readCount s part) % 2 ^ 32 = 0
          · exact .inl h0
          · exact .inr (by rw [hlast h0, hb])
    · have hmoved := logInsert_moves_last s (ringBase s part) (ringSize s part) (readCount s part) r h0 hroom
        (by rw [hlast h0, hb]) hk
      rw [hlast h0, hnext] at hmoved
      rw [setService_rd8, hmoved]
end Sys2Proof.Machine.FaultLogs

/-! PROOF. What the completion of a vector operation writes (R16, R74, R128, R129, R310). -/

namespace Sys2Proof.Machine.VectorFrame
open Sys2Proof Sys2Proof.Machine.FieldWrites

/-- The bytes of a run, read one by one. -/
theorem get_setRun_leBytes (m : FMap Byte) (k n v a : Nat) :
    FMap.get 0 (FMap.setRun 0 m k (leBytes n v)) a =
      if k ≤ a ∧ a < k + n then BitVec.ofNat 8 (v / 2 ^ (8 * (a - k))) else FMap.get 0 m a := by
  have hlen := Accumulators.length_leBytes n v
  split
  next h =>
    obtain ⟨i, rfl⟩ := Nat.exists_eq_add_of_le h.1
    rw [FMap.get_setRun_mem 0 _ m k i (by omega), Nat.add_sub_cancel_left, Nat.pow_mul, ← leBytes_getD v (show i < n by omega),
      List.getD_eq_getElem?_getD, List.getElem?_eq_getElem (by omega), Option.getD_some]
  next h => exact FMap.get_setRun_other 0 _ m (by omega)

/-- The unit's latch, the flags and the clamps that a context takes from a result. -/
def noted (b : Bool) (N : Nat) (fl : Flags) (cl : Nat) (x : Ctx) : Ctx :=
  { x with latches := if b then { x.latches with lvb := leBytes 256 N } else { x.latches with lva := leBytes 256 N },
           sys := { x.sys with nflag := x.sys.nflag ||| fl,
                               qclamp := BitVec.ofNat 32 (min (x.sys.qclamp.toNat + cl) (2 ^ 32 - 1)) } }

section
variable (s : State) {g : Guard} (r : BitVec 8) (N cl : Nat) (fl : Flags)

theorem vdone_of_marked (h : g.dup = true) : s.vdone g r N fl cl = s.vput g r 0 N := by
  simp only [State.vdone, State.vlatch, State.addFlags, h, if_true]

theorem vdone_of_unmarked (h : g.dup = false) :
    s.vdone g r N fl cl = (s.vput g r 0 N).modMe (noted (unitB g) N fl cl) := by
  simp only [State.vdone, State.vlatch, State.addFlags, State.latchLv, h, Bool.false_eq_true, if_false, State.modMe_modMe]
  rfl

variable {r}

/-- A result in the window. -/
theorem vput_of_view (h : ropLevel r = 0) : s.vput g r 0 N = s.modTile s.myTile fun x =>
    { x with space := FMap.setRun 0 x.space (s.me.winAt (s.dstV g (ropIndex r + 0))) (leBytes 256 N) } := if_pos h

/-- A result in the unit's operand file. -/
theorem vput_of_file (h : ropLevel r ≠ 0) :
    s.vput g r 0 N = s.modMe fun x => x.setOfile (unitB g) (ropIndex r + 0) (leBytes 256 N) := if_neg h

/-- The issuing context after the result is put. -/
def putCtx (s : State) (g : Guard) (r : BitVec 8) (N : Nat) : Ctx :=
  if ropLevel r = 0 then s.me else s.me.setOfile (unitB g) (ropIndex r + 0) (leBytes 256 N)

theorem vput_me : (s.vput g r 0 N).me = putCtx s g r N := by
  unfold putCtx
  split
  next h => rw [vput_of_view s N h, State.modTile_me]
  next h => rw [vput_of_file s N h, State.modMe_me]

/-- The issuing context after the completion. -/
theorem vdone_me : (s.vdone g r N fl cl).me =
    if g.dup then putCtx s g r N else noted (unitB g) N fl cl (putCtx s g r N) := by
  cases h : g.dup
  · rw [vdone_of_unmarked s r N cl fl h, State.modMe_me, vput_me]
    rfl
  · rw [vdone_of_marked s r N cl fl h, vput_me]
    rfl

theorem vdone_tile (u : Nat) : (s.vdone g r N fl cl).tile u = (s.vput g r 0 N).tile u := by
  cases h : g.dup
  · rw [vdone_of_unmarked s r N cl fl h, State.modMe_tile]
  · rw [vdone_of_marked s r N cl fl h]

/-- Nothing but contexts and tiles differs. -/
theorem vput_frame : ∃ cs ts, s.vput g r 0 N = { s with core := { s.core with ctxs := cs, tiles := ts } } := by
  by_cases h : ropLevel r = 0
  · exact ⟨_, _, vput_of_view s N h⟩
  · exact ⟨_, _, vput_of_file s N h⟩

theorem vdone_frame : ∃ cs ts, s.vdone g r N fl cl = { s with core := { s.core with ctxs := cs, tiles := ts } } := by
  obtain ⟨cs, ts, hput⟩ := vput_frame s (g := g) (r := r) N
  cases h : g.dup
  · exact ⟨_, _, by rw [vdone_of_unmarked s r N cl fl h, hput]; rfl⟩
  · exact ⟨_, _, by rw [vdone_of_marked s r N cl fl h, hput]⟩

theorem vput_ctx_other {u c : Nat} (hu : ctxKey u c ≠ ctxKey s.myTile s.myCtx) : (s.vput g r 0 N).ctx u c = s.ctx u c := by
  by_cases h : ropLevel r = 0
  · rw [vput_of_view s N h, State.modTile_ctx]
  · rw [vput_of_file s N h, State.modMe_ctx_other s _ hu]

theorem vdone_ctx_other {u c : Nat} (hu : ctxKey u c ≠ ctxKey s.myTile s.myCtx) : (s.vdone g r N fl cl).ctx u c = s.ctx u c := by
  obtain ⟨cs, ts, hput⟩ := vput_frame s (g := g) (r := r) N
  have hcur : ctxKey u c ≠ ctxKey (s.vput g r 0 N).myTile (s.vput g r 0 N).myCtx := by rwa [hput]
  rw [← vput_ctx_other s N hu]
  cases h : g.dup
  · rw [vdone_of_unmarked s r N cl fl h, State.modMe_ctx_other _ _ hcur]
  · rw [vdone_of_marked s r N cl fl h]

theorem vput_tile_other {u : Nat} (hu : u ≠ s.myTile) : (s.vput g r 0 N).tile u = s.tile u := by
  by_cases h : ropLevel r = 0
  · rw [vput_of_view s N h, State.modTile_tile_other s _ hu]
  · rw [vput_of_file s N h, State.modMe_tile]

/-- The latches and the system registers after the result is put are those before. -/
theorem putCtx_keeps : (putCtx s g r N).latches = s.me.latches ∧ (putCtx s g r N).sys = s.me.sys ∧
    (putCtx s g r N).regs = s.me.regs ∧ (putCtx s g r N).h = s.me.h ∧ (putCtx s g r N).views = s.me.views ∧
    (putCtx s g r N).loops = s.me.loops ∧ (putCtx s g r N).pc = s.me.pc ∧ (putCtx s g r N).commitQ = s.me.commitQ ∧
    (putCtx s g r N).acc = s.me.acc := by
  unfold putCtx Ctx.setOfile
  split
  · exact ⟨rfl, rfl, rfl, rfl, rfl, rfl, rfl, rfl, rfl⟩
  · split <;> exact ⟨rfl, rfl, rfl, rfl, rfl, rfl, rfl, rfl, rfl⟩

/-- The completion writes no operand file but where the result is put. -/
theorem vdone_files : (s.vdone g r N fl cl).me.ofA = (putCtx s g r N).ofA ∧ (s.vdone g r N fl cl).me.ofB = (putCtx s g r N).ofB := by
  rw [vdone_me]
  cases g.dup <;> exact ⟨rfl, rfl⟩

end

/-- Settles O24. The result is put into the window or the operand file; the unmarked slot's context is then `noted`. -/
theorem vectorOutputs : Obligations.VectorOutputs := by
  unfold Obligations.VectorOutputs
  intro s g r N cl fl
  obtain ⟨hlatch, hsys, hregs, hh, hviews, hloops, hpc, hq, hacc⟩ := putCtx_keeps s (g := g) (r := r) N
  obtain ⟨hA, hB⟩ := vdone_files s (g := g) (r := r) N cl fl
  refine ⟨fun h => ?_, fun h => ?_, fun h => ?_, fun h => ?_, ?_⟩
  · refine ⟨fun k hk => ?_, fun a ha => ?_, ?_, ?_⟩
    · rw [vdone_tile, vput_of_view s N h, State.modTile_tile, get_setRun_leBytes, if_pos (by omega), Nat.add_sub_cancel_left]
    · rw [vdone_tile, vput_of_view s N h, State.modTile_tile, get_setRun_leBytes, if_neg (by omega)]
    · rw [hA, putCtx, if_pos h]
    · rw [hB, putCtx, if_pos h]
  · refine ⟨?_, fun hb => ⟨?_, fun a => ?_⟩, fun hb => ⟨?_, fun a => ?_⟩⟩
    · rw [vdone_tile, vput_of_file s N h, State.modMe_tile]
    · rw [hB, putCtx, if_neg h, hb]
      rfl
    · rw [hA, putCtx, if_neg h, hb]
      simp only [Ctx.setOfile, Bool.false_eq_true, if_false, Nat.add_zero, get_setRun_leBytes]
    · rw [hA, putCtx, if_neg h, hb]
      rfl
    · rw [hB, putCtx, if_neg h, hb]
      simp only [Ctx.setOfile, if_true, Nat.add_zero, get_setRun_leBytes]
  · rw [vdone_me, if_pos h]
    exact ⟨hlatch, hsys⟩
  · rw [vdone_me, h, ← hlatch, ← hsys]
    exact ⟨rfl, rfl⟩
  · have hme := vdone_me s (g := g) (r := r) N cl fl
    obtain ⟨cs, ts, hframe⟩ := vdone_frame s (g := g) (r := r) N cl fl
    refine ⟨?_, ?_, ?_, ?_, ?_, ?_, ?_, fun a => by rw [hframe]; rfl, fun u c hu => vdone_ctx_other s N cl fl hu,
      fun u hu => (vdone_tile s N cl fl u).trans (vput_tile_other s N hu), cs, ts, hframe⟩ <;> rw [hme]
    · rw [← hregs]; split <;> rfl
    · rw [← hh]; split <;> rfl
    · rw [← hviews]; split <;> rfl
    · rw [← hloops]; split <;> rfl
    · rw [← hpc]; split <;> rfl
    · rw [← hq]; split <;> rfl
    · rw [← hacc]; split <;> rfl
end Sys2Proof.Machine.VectorFrame

/-! PROOF. Translation at the memory port, the bytes of a load, and what a write leaves (R33, R230, R353, R354). -/

namespace Sys2Proof.Machine.MemoryPort
open Sys2Proof

/-! Checks in order. -/

/-- A check that fails stops what follows it. -/
theorem require_bind_of_false {α : Type} {b : Bool} {e : Stop} {k : Unit → Except Stop α} (h : b = false) :
    (require b e >>= k) = .error e := by
  rw [h]
  rfl

/-- A check that passes leaves what follows it. -/
theorem require_bind_of_true {α : Type} {b : Bool} {e : Stop} {k : Unit → Except Stop α} (h : b = true) :
    (require b e >>= k) = k () := by
  rw [h]
  rfl

theorem hasRights_iff {m : BitVec 8} {rs : List Nat} : hasRights m rs = true ↔ ∀ r ∈ rs, m.getLsbD r = true := List.all_eq_true

/-- A list of rights asked for in full, with no alternative. -/
theorem allRights_iff {m : BitVec 8} {rs : List Nat} :
    (hasRights m rs && (([] : List Nat).isEmpty || hasSome m [])) = true ↔ ∀ r ∈ rs, m.getLsbD r = true := by
  rw [← hasRights_iff, List.isEmpty_nil, Bool.true_or, Bool.and_true]

section
variable {slot : Nat} {c : Cap} {kinds rs : List Nat} {eo len : Nat}

theorem capCheck_of_untagged (h : c.tag = false) : capCheck slot c kinds rs [] eo len = .error (slotTrap trapCAP_TAG slot c.obj eo) :=
  require_bind_of_false h

theorem capCheck_of_kind (ht : c.tag = true) (h : ¬ kinds.contains c.kind = true) :
    capCheck slot c kinds rs [] eo len = .error (slotTrap trapCAP_RIGHTS slot c.obj eo) := by
  rw [capCheck, require_bind_of_true ht, require_bind_of_false (Bool.eq_false_iff.mpr h)]

theorem capCheck_of_rights (ht : c.tag = true) (hk : kinds.contains c.kind = true)
    (h : ¬ ∀ r ∈ rs, c.rights.getLsbD r = true) :
    capCheck slot c kinds rs [] eo len = .error (slotTrap trapCAP_RIGHTS slot c.obj eo) := by
  rw [capCheck, require_bind_of_true ht, require_bind_of_true hk,
    require_bind_of_false (Bool.eq_false_iff.mpr (allRights_iff.not.mpr h))]

/-- Where tag, kind and rights pass, the bounds decide. -/
theorem capCheck_eq_bounds (ht : c.tag = true) (hk : kinds.contains c.kind = true) (hr : ∀ r ∈ rs, c.rights.getLsbD r = true) :
    capCheck slot c kinds rs [] eo len = require (decide (c.exp ≤ 48) && decide (c.ws ≤ eo) && decide (eo + len ≤ c.we))
      (slotTrap trapCAP_BOUNDS slot c.obj eo) := by
  rw [capCheck, require_bind_of_true ht, require_bind_of_true hk, require_bind_of_true (allRights_iff.mpr hr)]

end

/-! What a translation leaves: the port's caches (R356). -/

/-- Nothing but tiles differs. -/
def PortOnly (s t : State) : Prop := ∃ ts, t = { s with core := { s.core with tiles := ts } }

theorem PortOnly.refl (s : State) : PortOnly s s := ⟨_, rfl⟩

theorem PortOnly.trans {s t u : State} (h : PortOnly s t) (k : PortOnly t u) : PortOnly s u := by
  obtain ⟨_, rfl⟩ := h
  obtain ⟨_, rfl⟩ := k
  exact ⟨_, rfl⟩

theorem PortOnly.core {s t : State} (h : PortOnly s t) : t.core.mem = s.core.mem ∧ t.core.ctxs = s.core.ctxs ∧ t.core.cur = s.core.cur ∧
    t.core.remoteLines = s.core.remoteLines ∧ t.net = s.net ∧ t.pow = s.pow := by
  obtain ⟨_, rfl⟩ := h
  exact ⟨rfl, rfl, rfl, rfl, rfl, rfl⟩

theorem portOnly_fillObj (s : State) (t asid obj : Nat) (e : BitVec 256) : PortOnly s (s.fillObj t asid obj e) := by
  unfold State.fillObj
  split
  · exact .refl s
  · exact ⟨_, rfl⟩

theorem portOnly_fillPage (s : State) (t : Nat) (p : TlbPage) : PortOnly s (s.fillPage t p) := by
  unfold State.fillPage
  split
  · exact .refl s
  · exact ⟨_, rfl⟩

theorem portOnly_pagePieces {t asid obj map slot fuel : Nat} {s : State} {off len : Nat} {r : State × List Piece × List Nat}
    (h : s.pagePieces t asid obj map slot fuel off len = .ok r) : PortOnly s r.1 := by
  induction fuel generalizing s off len r with
  | zero =>
    cases h
    exact .refl s
  | succ fuel ih =>
    rw [State.pagePieces] at h
    split at h
    · cases h
      exact .refl s
    · split at h
      · cases h
      · cases h
      next p _ =>
        dsimp only at h
        cases hrec : (s.fillPage t p).pagePieces t asid obj map slot fuel (off + min len (p.start + p.size - off))
            (len - min len (p.start + p.size - off)) with
        | error e =>
          rw [hrec] at h
          cases h
        | ok q =>
          rw [hrec] at h
          cases h
          exact (portOnly_fillPage s t p).trans (ih (r := q) hrec)

section
variable {s : State} {t asid slot obj kind off len : Nat} {rs : List Nat} {r : State × List Piece × List Nat} {e : BitVec 256}

/-- Where an entry's extents lie (R353, R355). -/
def entryPieces (s : State) (t asid obj slot : Nat) (e : BitVec 256) (off len : Nat) : Except Stop (State × List Piece × List Nat) :=
  match bitsOf e 83 82 with
  | 0 => .ok (s, [(extentPa t (bitsOf e 159 96) off, len)], [])
  | 1 => s.pagePieces t asid obj (bitsOf e 159 96) slot (len / 65536 + 2) off len
  | _ => .error (slotTrap trapCAP_RIGHTS slot obj off)

theorem translate_of_none (h : s.lookObj t asid obj = none) :
    s.translate t asid slot obj kind rs [] off len = .error (slotTrap trapCAP_BOUNDS slot obj off) := by
  unfold State.translate
  rw [h]

theorem translate_of_entry (h : s.lookObj t asid obj = some e) :
    s.translate t asid slot obj kind rs [] off len = (do
      require (bitsOf e 87 84 == kind) (slotTrap trapCAP_RIGHTS slot obj off)
      require (hasRights (e.extractLsb' 88 8) rs && (([] : List Nat).isEmpty || hasSome (e.extractLsb' 88 8) []))
        (slotTrap trapCAP_RIGHTS slot obj off)
      require (decide (off + len ≤ bitsOf e 207 160)) (slotTrap trapCAP_BOUNDS slot obj off)
      let r ← entryPieces (s.fillObj t asid obj e) t asid obj slot e off len
      checkPieces r.2.1
      .ok r) := by
  unfold State.translate
  rw [h]
  rfl

theorem translate_of_kind (h : s.lookObj t asid obj = some e) (hk : bitsOf e 87 84 ≠ kind) :
    s.translate t asid slot obj kind rs [] off len = .error (slotTrap trapCAP_RIGHTS slot obj off) := by
  rw [translate_of_entry h, require_bind_of_false (beq_eq_false_iff_ne.mpr hk)]

theorem translate_of_rights (h : s.lookObj t asid obj = some e) (hk : bitsOf e 87 84 = kind)
    (hr : ¬ ∀ r ∈ rs, (e.extractLsb' 88 8).getLsbD r = true) :
    s.translate t asid slot obj kind rs [] off len = .error (slotTrap trapCAP_RIGHTS slot obj off) := by
  rw [translate_of_entry h, require_bind_of_true (beq_iff_eq.mpr hk),
    require_bind_of_false (Bool.eq_false_iff.mpr (allRights_iff.not.mpr hr))]

/-- Where kind and rights pass, the length decides, then the extents. -/
theorem translate_eq_bounds (h : s.lookObj t asid obj = some e) (hk : bitsOf e 87 84 = kind)
    (hr : ∀ r ∈ rs, (e.extractLsb' 88 8).getLsbD r = true) :
    s.translate t asid slot obj kind rs [] off len = (do
      require (decide (off + len ≤ bitsOf e 207 160)) (slotTrap trapCAP_BOUNDS slot obj off)
      let r ← entryPieces (s.fillObj t asid obj e) t asid obj slot e off len
      checkPieces r.2.1
      .ok r) := by
  rw [translate_of_entry h, require_bind_of_true (beq_iff_eq.mpr hk), require_bind_of_true (allRights_iff.mpr hr)]

theorem portOnly_translate {any : List Nat} (h : s.translate t asid slot obj kind rs any off len = .ok r) : PortOnly s r.1 := by
  unfold State.translate at h
  split at h
  · cases h
  next e _ =>
    obtain ⟨_, -, h⟩ := StreamsAndArms.except_bind_ok h
    obtain ⟨_, -, h⟩ := StreamsAndArms.except_bind_ok h
    obtain ⟨_, -, h⟩ := StreamsAndArms.except_bind_ok h
    obtain ⟨q, hq, h⟩ := StreamsAndArms.except_bind_ok h
    obtain ⟨_, -, h⟩ := StreamsAndArms.except_bind_ok h
    cases h
    refine (portOnly_fillObj s t asid obj e).trans ?_
    split at hq
    · cases hq
      exact .refl _
    · exact portOnly_pagePieces hq
    · cases hq

end

section
variable {s : State} {slot : Nat} {c : Cap} {rs : List Nat} {scope eo len pa : Nat}

theorem portOnly_port {r : State × List Piece × List Nat} (h : s.port slot c rs eo len = .ok r) : PortOnly s r.1 := by
  obtain ⟨q, hq, h⟩ := StreamsAndArms.except_bind_ok h
  obtain ⟨_, -, h⟩ := StreamsAndArms.except_bind_ok h
  cases h
  exact portOnly_translate hq

/-! A plain extent (R353, R354). -/

/-- An entry that the port has taken up is found there. -/
theorem lookObj_fillObj (s : State) (t asid obj : Nat) (e : BitVec 256) (h : s.lookObj t asid obj = some e) :
    (s.fillObj t asid obj e).lookObj t asid obj = some e := by
  unfold State.fillObj
  split
  · exact h
  next hnew =>
    have hnone : ∀ x ∈ (s.tile t).tlbObjs, (x.asid == asid && x.obj == obj) = false := by
      simpa only [Bool.not_eq_true, List.any_eq_false] using hnew
    have hdrop : ∀ n, ((s.tile t).tlbObjs.drop n).find? (fun x => x.asid == asid && x.obj == obj) = none := fun n =>
      List.find?_eq_none.mpr fun x hx => by rw [hnone x (List.mem_of_mem_drop hx)]; exact Bool.false_ne_true
    unfold State.lookObj
    rw [State.modTile_tile]
    dsimp only
    have hfind : (evictTo 32 (fun _ => false) ((s.tile t).tlbObjs ++ [({ asid := asid, obj := obj, entry := e } : TlbObj)])).find?
        (fun x => x.asid == asid && x.obj == obj) = some { asid := asid, obj := obj, entry := e } := by
      unfold evictTo
      split
      · rw [List.find?_append, ← List.drop_zero (l := (s.tile t).tlbObjs), hdrop 0]
        simp
      next hfull =>
        rw [if_neg (by simp)]
        have hlong : 1 ≤ (s.tile t).tlbObjs.length := by
          rw [List.length_append, List.length_singleton] at hfull
          omega
        have hfirst : ((s.tile t).tlbObjs ++ [({ asid := asid, obj := obj, entry := e } : TlbObj)]).findIdx (fun _ => !false) = 0 := by
          rcases htl : (s.tile t).tlbObjs with _ | ⟨x, xs⟩ <;> simp [List.findIdx_cons]
        dsimp only
        rw [hfirst, List.take_zero, List.nil_append, List.drop_append_of_le_length hlong, List.find?_append, hdrop]
        simp
    rw [hfind]

/-- Pieces that exist pass. -/
theorem checkPieces_of_exist {n : Nat} (h : paExists pa = true) (hn : n = 0 ∨ paExists (pa + (n - 1)) = true) :
    checkPieces [(pa, n)] = .ok () := by
  have hok : (paExists pa && (n == 0 || paExists (pa + (n - 1)))) = true := by
    rw [h, Bool.true_and, Bool.or_eq_true, beq_iff_eq]
    exact hn
  rw [checkPieces, require_bind_of_true hok, checkPieces]

/-- The port's answer on a plain extent: one piece, no page to mark. -/
theorem port_of_plain (hlen : 0 < len) (h : s.Plain c rs eo len pa) :
    s.port slot c rs eo len = .ok (s.afterPort c, [(pa, len)], []) := by
  obtain ⟨e, hlook, hkind, hrights, hbound, hmap, -, hpa, hall⟩ := h
  have hafter : s.afterPort c = s.fillObj s.myTile s.me.sys.asid c.obj e := by simp only [State.afterPort, hlook]
  have hpieces : entryPieces (s.fillObj s.myTile s.me.sys.asid c.obj e) s.myTile s.me.sys.asid c.obj slot e eo len =
      .ok (s.afterPort c, [(pa, len)], []) := by
    rw [entryPieces, hmap, hafter, hpa]
    rfl
  obtain ⟨hex, hwell⟩ := hall 0 hlen
  rw [Nat.add_zero] at hex hwell
  have hlast := (hall (len - 1) (by omega)).1
  have htr : s.translate s.myTile s.me.sys.asid slot c.obj c.kind rs [] eo len = .ok (s.afterPort c, [(pa, len)], []) := by
    rw [translate_eq_bounds hlook hkind (hasRights_iff.mp hrights), require_bind_of_true (decide_eq_true hbound), hpieces]
    show (checkPieces [(pa, len)] >>= fun _ => _) = _
    rw [checkPieces_of_exist hex (.inr hlast)]
    rfl
  rw [State.port, htr]
  show (require _ _ >>= fun _ => _) = _
  rw [require_bind_of_true (by simpa using hwell)]

/-- No kept copy serves a load of a plain extent. -/
theorem not_isRcopy_of_plain (h : s.Plain c rs eo len pa) : (s.afterPort c).isRcopy c.obj = false := by
  obtain ⟨e, hlook, -, -, -, -, hrcopy, -, -⟩ := h
  have hafter : s.afterPort c = s.fillObj s.myTile s.me.sys.asid c.obj e := by simp only [State.afterPort, hlook]
  have hfill := lookObj_fillObj s s.myTile s.me.sys.asid c.obj e hlook
  obtain ⟨ts, hts⟩ := portOnly_fillObj s s.myTile s.me.sys.asid c.obj e
  have hsame : (s.afterPort c).lookObj (s.afterPort c).myTile (s.afterPort c).me.sys.asid c.obj = some e := by
    rw [hafter]
    rw [← hfill]
    rw [hts]
    rfl
  rw [State.isRcopy, hsame]
  exact hrcopy

theorem portOnly_afterPort (s : State) (c : Cap) : PortOnly s (s.afterPort c) := by
  unfold State.afterPort
  split
  · exact portOnly_fillObj ..
  · exact .refl s

theorem loadRun_of_plain (hlen : 0 < len) (h : s.Plain c rs eo len pa) :
    s.loadRun slot c rs scope eo len = .ok (s.afterLoad c pa len, s.ownBytes pa len) := by
  have hcopy := not_isRcopy_of_plain h
  have hbytes : (s.afterPort c).rdOwn false [(pa, len)] = s.ownBytes pa len := by
    obtain ⟨ts, hts⟩ := portOnly_afterPort s c
    rw [hts]
    simp only [State.rdOwn, List.flatMap_cons, List.flatMap_nil, List.append_nil]
    rfl
  rw [State.loadRun, port_of_plain hlen h]
  show Except.ok (_, _) = _
  rw [hcopy]
  simp only [Bool.false_eq_true, if_false, Bool.false_and, hbytes]
  rfl

/-! Any load. -/

/-- What the port refuses, the load refuses. -/
theorem loadRun_of_translate_error {e : Stop}
    (h : s.translate s.myTile s.me.sys.asid slot c.obj c.kind rs [] eo len = .error e) :
    s.loadRun slot c rs scope eo len = .error e := by
  rw [State.loadRun, State.port, h]
  rfl

/-- A load leaves memory and the issuing context. -/
theorem loadRun_frame {s1 : State} {bs : List Byte} (h : s.loadRun slot c rs scope eo len = .ok (s1, bs)) :
    s.SameMem s1 ∧ s1.me = s.me := by
  obtain ⟨⟨t, ps, ds⟩, hport, h⟩ := StreamsAndArms.except_bind_ok h
  obtain ⟨hmem, hctxs, hcur, -⟩ := (portOnly_port hport).core
  obtain ⟨rfl, -⟩ := Prod.mk.inj (Except.ok.inj h)
  have hkeep : ∀ u : State, (u.core.mem = s.core.mem ∧ u.core.ctxs = s.core.ctxs ∧ u.core.cur = s.core.cur) →
      s.SameMem (u.touchPieces ps) ∧ (u.touchPieces ps).me = s.me := fun u ⟨hm, hx, hc⟩ => by
    have hcore : (u.touchPieces ps).core = u.core := (PerformedStores.touch_frame u _).1
    refine ⟨fun a => ?_, ?_⟩
    · rw [State.rd8, hcore, hm, State.rd8]
    · rw [State.me, State.ctx, hcore, hx, hc]
      rfl
  split
  · exact hkeep _ ⟨hmem, hctxs, hcur⟩
  · exact hkeep _ ⟨hmem, hctxs, hcur⟩

end

/-! Own stores that have not left the commit stage (R33, R234). -/

/-- The youngest own store decides. -/
theorem forward_append_store {e : CommitEntry} {bs : List (Nat × Byte)} {ds : List Nat} (h : e.op = .store bs ds)
    (q : List CommitEntry) (a : Nat) (m : Byte) :
    forward (q ++ [e]) a m = ((bs.filter fun x => x.1 == a).getLast?.map Prod.snd).getD (forward q a m) := by
  induction q generalizing m with
  | nil =>
    rw [List.nil_append, forward, forward, h]
    rfl
  | cons x q ih =>
    rw [List.cons_append, forward, ih, forward]

/-- Settles O31: the checks one by one, then the port on a plain extent. -/
theorem translationAndBytes : Obligations.TranslationAndBytes := by
  unfold Obligations.TranslationAndBytes
  refine ⟨fun slot c kinds rs eo len => ⟨capCheck_of_untagged, capCheck_of_kind, capCheck_of_rights, ?_, ?_⟩,
    fun s slot c rs scope eo len => ⟨?_, ?_, fun s1 bs => loadRun_frame, ?_⟩,
    fun q e a m => ⟨rfl, fun bs ds h => forward_append_store h q a m⟩,
    fun s pa v => ⟨fun a => ?_, fun h => h.wr8 pa v⟩,
    fun s pa bs => ⟨fun h => h.wrBytes pa bs, WellWrites.rd8_wrBytes s pa bs⟩⟩
  · intro ht hk hr hb
    have hfail : (decide (c.exp ≤ 48) && decide (c.ws ≤ eo) && decide (eo + len ≤ c.we)) = false := by
      simp only [← Bool.not_eq_true, Bool.and_eq_true, decide_eq_true_eq, and_assoc]
      exact hb
    rw [capCheck_eq_bounds ht hk hr, hfail]
    rfl
  · rintro ht hk hr ⟨hexp, hlo, hhi⟩
    have hpass : (decide (c.exp ≤ 48) && decide (c.ws ≤ eo) && decide (eo + len ≤ c.we)) = true := by
      simp only [Bool.and_eq_true, decide_eq_true_eq, and_assoc]
      exact ⟨hexp, hlo, hhi⟩
    rw [capCheck_eq_bounds ht hk hr, hpass]
    rfl
  · exact fun h => loadRun_of_translate_error (translate_of_none h)
  · refine fun e he => ⟨fun hk => loadRun_of_translate_error (translate_of_kind he hk),
      fun hk hr => loadRun_of_translate_error (translate_of_rights he hk hr), fun hk hr hlen => ?_⟩
    refine loadRun_of_translate_error ?_
    rw [translate_eq_bounds he hk hr, require_bind_of_false (decide_eq_false (by omega))]
    rfl
  · intro pa hlen h
    have hplain := h
    obtain ⟨e, he, -⟩ := h
    exact ⟨e, he, by rw [State.afterPort, he], loadRun_of_plain hlen hplain⟩
  · split
    next h => rw [h, State.rd8_wr8_same]
    next h => exact s.rd8_wr8_other v h

end Sys2Proof.Machine.MemoryPort

/-! PROOF. The entry into the commit stage (R33, R34, R86). -/

namespace Sys2Proof.Machine.CommitEntries
open Sys2Proof

section
variable {s : State} {slot cls scope : Nat} {op : CommitOp}

/-- Where the open region has room, or none is open, the operation enters. -/
theorem commit_of_canCommit (h : s.CanCommit op) : s.commit slot cls scope op = .ok (s.entered slot cls scope op) := by
  have hroom : ¬ (s.me.region.isSome && !s.fits op) = true := by
    rcases h with h | h
    · rw [h]
      exact Bool.false_ne_true
    · rw [h, Bool.not_true, Bool.and_false]
      exact Bool.false_ne_true
  unfold State.commit
  dsimp only
  rw [if_neg hroom]
  rfl

/-- Where the open region has no room, REGION_OVERFLOW. -/
theorem commit_of_full (h : ¬ s.CanCommit op) : s.commit slot cls scope op = .error (illegal slot 8 63) := by
  obtain ⟨hopen, hfull⟩ := not_or.mp h
  have hroom : (s.me.region.isSome && !s.fits op) = true := by
    rw [Bool.eq_false_iff.mpr hfull, Option.isSome_iff_ne_none.mpr hopen]
    rfl
  unfold State.commit
  dsimp only
  rw [if_pos hroom]

end
end Sys2Proof.Machine.CommitEntries

/-! PROOF. The commands that pump operations post (R21, R33, R204, R205). -/

namespace Sys2Proof.Machine.PumpPosts
open Sys2Proof Sys2Proof.Machine.MemoryPort Sys2Proof.Machine.CommitEntries Sys2Proof.Machine.ScalarResults

/-- The opcode of a slot operation. -/
def opcodeOf (i : Instr) : Option Nat := (slotFields i).map fun f => f.opc.toNat

section
variable {s : State} {i : Instr} {opc : Nat} {b : PumpBody}

/-- The record posted is the command as captured, without a signal. -/
theorem mkCmd_eq_captured (h : opcodeOf i = some opc) : s.mkCmd i b = s.captured i opc b false := by
  obtain ⟨f, hf, rfl⟩ := Option.map_eq_some_iff.mp h
  simp only [State.mkCmd, State.captured, hf, encode, Option.map_some, Option.getD_some, Bool.false_eq_true, if_false]

/-- Posted without a signal. -/
theorem post_mkCmd (h : opcodeOf i = some opc) (scratch : Bool) :
    s.post scratch (s.mkCmd i b) = s.post scratch (s.captured i opc b false) := by
  rw [mkCmd_eq_captured h]

/-- Posted with the signal that SG names. -/
theorem post_withSignal (h : opcodeOf i = some opc) (scratch : Bool) :
    s.post scratch (s.withSignal b (s.mkCmd i b)) = s.post scratch (s.captured i opc b (b.aux.getLsbD 1)) := by
  rw [mkCmd_eq_captured h]
  rfl

end

section
variable {s : State} {m : PumpCmd}

theorem post_scratch : s.post true m = .ok (s.inPort m) := rfl

theorem post_of_canCommit (h : s.CanCommit (.pump m)) :
    s.post false m = .ok (s.numbered.entered 6 m.body.cls.toNat 0 (.pump m)) :=
  commit_of_canCommit (s := s.numbered) h

theorem post_of_full (h : ¬ s.CanCommit (.pump m)) : s.post false m = .error (illegal 6 8 63) :=
  commit_of_full (s := s.numbered) h

end

/-! From the posting to the operation. -/

section
variable {s : State} {i : Instr} {g : Guard} {m : PumpCmd} {check : State → Except Stop Unit} {eff : State → Except Stop State}

/-- An admitted operation whose command goes to the port at once. -/
theorem exec_inPort (h : s.Admits i) (hx : exec i s = atIssue i g check eff s) (he : eff s = s.post true m)
    (hg : (slotFields i).map SlotFields.g = some g := by rfl) (hl : laneWise i = false := by rfl)
    (hc : runCheck i s = check s := by rfl) : exec i s = .next (s.inPort m) :=
  exec_eq_next h hx (he.trans post_scratch) hg hl hc

/-- One whose command leaves through the commit stage: it enters there, or the open region has no room. -/
theorem exec_posted (h : s.Admits i) (hx : exec i s = atIssue i g check eff s) (he : eff s = s.post false m)
    (hg : (slotFields i).map SlotFields.g = some g := by rfl) (hl : laneWise i = false := by rfl)
    (hc : runCheck i s = check s := by rfl) :
    (s.CanCommit (.pump m) → exec i s = .next (s.numbered.entered 6 m.body.cls.toNat 0 (.pump m))) ∧
    (¬ s.CanCommit (.pump m) →
      exec i s = .next (s.takeTrap { code := 0x0102, sub := illegalSubcode 8 63 6, slot := 6 })) :=
  ⟨fun hroom => exec_eq_next h hx (he.trans (post_of_canCommit hroom)) hg hl hc,
   fun hfull => hx.trans (atIssue_trap h (he.trans (post_of_full hfull)) hg hl hc)⟩

/-- A check that fails traps, and nothing is posted. -/
theorem exec_of_check_error {tr : Trap} (hlegal : s.Legal i) (hgo : s.discarded i = false)
    (hx : exec i s = atIssue i g check eff s) (hc : check s = .error (.trap tr))
    (hg : (slotFields i).map SlotFields.g = some g := by rfl) (hl : laneWise i = false := by rfl) :
    exec i s = .next (s.takeTrap tr) := by
  have henc : s.encStop i = .ok () := hlegal
  rw [hx, atIssue, henc, State.cond_of_not_discarded hg hl hgo, hc]
  rfl

end

/-! What the checks of the copies stop (R204, R205). -/

section
variable {s : State} {b : PumpBody}

/-- A length above 2^32 − 1 is over the limit. -/
theorem lengthCheck_of_long (h : 2 ^ 32 ≤ (s.rs b.s0).toNat) : s.lengthCheck b = .error (illegal 6 11 63) := by
  rw [State.lengthCheck, decide_eq_false (Nat.not_lt.mpr h)]
  rfl

/-- HE in an open region, with a handle that is not set up, or with a destination elsewhere. -/
theorem heChecks_of_wrong {d : Cap} {n : Nat} (hhe : b.aux.getLsbD 0 = true)
    (h : s.me.region ≠ none ∨ (s.me.handle b.handle.toNat).count = 0 ∨ d.kind ≠ kSCRATCH ∨
      s.notScratch s.myTile s.me.sys.asid d.obj d.offset n = true) :
    s.heChecks b (some (d, n)) = .error (cbTrap 6 b.handle.toNat) := by
  unfold State.heChecks pumpHe
  rw [if_pos hhe]
  by_cases hset : (!s.regionOpen && (s.me.handle b.handle.toNat).count != 0) = true
  · have hdst : (d.kind == kSCRATCH && !s.notScratch s.myTile s.me.sys.asid d.obj d.offset n) = false := by
      rw [Bool.and_eq_true, bne_iff_ne, Bool.not_eq_true', State.regionOpen] at hset
      obtain ⟨hclosed, hcount⟩ := hset
      rcases h with h | h | h | h
      · exact absurd (Option.isSome_iff_ne_none.mpr h) (Bool.eq_false_iff.mp hclosed)
      · exact absurd h hcount
      · rw [beq_eq_false_iff_ne.mpr h, Bool.false_and]
      · rw [h, Bool.not_true, Bool.and_false]
    rw [State.handleCheck, require_bind_of_true hset]
    dsimp only
    rw [hdst]
    rfl
  · rw [State.handleCheck, require_bind_of_false (Bool.eq_false_iff.mpr hset)]

end

/-- Settles O35: each operation's command by its posting; the copies' traps by the check that fails first. -/
theorem pumpCommandsPosted : Obligations.PumpCommandsPosted := by
  unfold Obligations.PumpCommandsPosted
  refine ⟨⟨fun g b s => ?_, fun g b s i hi hlegal hgo hlen => ?_, fun g b s i hi => ?_⟩, fun g b s => ?_⟩
  · have hlocal : ∀ {m : PumpCmd}, (s.ra b.areg0.toNat).kind = kSCRATCH →
        s.post ((s.ra b.areg0.toNat).kind == kSCRATCH) m = s.post true m := fun h => by rw [h, beq_self_eq_true]
    have haway : ∀ {m : PumpCmd}, (s.ra b.areg0.toNat).kind ≠ kSCRATCH →
        s.post ((s.ra b.areg0.toNat).kind == kSCRATCH) m = s.post false m := fun h => by rw [beq_eq_false_iff_ne.mpr h]
    have hhe : ∀ {m : PumpCmd}, b.aux.getLsbD 0 = true → s.post (pumpHe b) m = s.post true m := fun h => by rw [pumpHe, h]
    have hno : ∀ {m : PumpCmd}, ¬ b.aux.getLsbD 0 = true → s.post (pumpHe b) m = s.post false m := fun h => by
      rw [pumpHe, Bool.eq_false_iff.mpr h]
    exact ⟨fun h hk => exec_inPort h (exec_pcopy s g b) ((hlocal hk).trans (post_mkCmd rfl _)),
      fun h hk => exec_posted h (exec_pcopy s g b) ((haway hk).trans (post_mkCmd rfl _)),
      fun h hk => exec_inPort h (exec_pfill s g b) ((hlocal hk).trans (post_withSignal rfl _)),
      fun h hk => exec_posted h (exec_pfill s g b) ((haway hk).trans (post_withSignal rfl _)),
      fun h hk => exec_inPort h (exec_pgath s g b) ((hhe hk).trans (post_withSignal rfl _)),
      fun h hk => exec_posted h (exec_pgath s g b) ((hno hk).trans (post_withSignal rfl _)),
      fun h => exec_posted h (exec_pscat s g b) (post_withSignal rfl _),
      fun h => exec_posted h (exec_pdecl s g b) (post_mkCmd rfl _),
      fun h => exec_posted h (exec_pflushx s g b) (post_withSignal rfl _)⟩
  · have hlong := lengthCheck_of_long hlen
    rcases hi with rfl | rfl | rfl | rfl
    · exact exec_of_check_error hlegal hgo (exec_pcopy s g b) (by rw [checkPcopy, hlong]; rfl)
    · exact exec_of_check_error hlegal hgo (exec_pfill s g b) (by rw [checkPfill, hlong]; rfl)
    · exact exec_of_check_error hlegal hgo (exec_pdecl s g b) (by rw [checkPdecl, hlong]; rfl)
    · exact exec_of_check_error hlegal hgo (exec_pflushx s g b) (by rw [checkPflushx, hlong]; rfl)
  · intro d hlegal hgo hhe hwrong hcopy hfill
    have hstop := heChecks_of_wrong hhe hwrong
    rcases hi with rfl | rfl
    · obtain ⟨hlen, hdst, hsrc⟩ := hcopy rfl
      exact exec_of_check_error hlegal hgo (exec_pcopy s g b) (by rw [checkPcopy, hlen, hdst, hsrc, hstop]; rfl)
    · obtain ⟨hlen, hdst, hsg⟩ := hfill rfl
      exact exec_of_check_error hlegal hgo (exec_pfill s g b) (by rw [checkPfill, hlen, hdst, hsg, hstop]; rfl)
  · refine ⟨fun h => exec_posted h (exec_kvappend s g b) (post_mkCmd rfl _),
      fun h => exec_posted h (exec_kvattn s g b) (post_mkCmd rfl _),
      fun h => exec_posted h (exec_kvscore s g b) (post_mkCmd rfl _),
      fun h => exec_posted h (exec_kvseal s g b) (post_withSignal rfl _),
      fun h => exec_posted h (exec_kvcompact s g b) (post_mkCmd rfl _),
      fun h => exec_posted h (exec_kvfork s g b) (post_mkCmd rfl _),
      fun h => exec_posted h (exec_kvforkNew s g b) (post_mkCmd rfl _),
      fun h => exec_posted h (exec_kvfree s g b) (post_withSignal rfl _),
      fun h => exec_posted h (exec_kvpin s g b) (post_withSignal rfl _),
      fun h => exec_posted h (exec_kvwin s g b) (post_withSignal rfl _),
      fun h => exec_inPort h (exec_kvstat s g b) (post_mkCmd rfl _),
      fun h => exec_posted h (exec_colar s g b) (post_withSignal rfl _),
      fun h => exec_posted h (exec_colrs s g b) (post_withSignal rfl _),
      fun h => exec_posted h (exec_colag s g b) (post_withSignal rfl _),
      fun h => exec_posted h (exec_colbc s g b) (post_withSignal rfl _),
      fun h => exec_inPort h (exec_colstat s g b) (post_mkCmd rfl _),
      fun h => exec_inPort h (exec_stmget s g b) (post_mkCmd rfl _),
      fun h => exec_inPort h (exec_stmstat s g b) (post_mkCmd rfl _),
      fun h => exec_posted h (exec_wjopen s g b) (post_withSignal rfl _),
      fun h => exec_posted h (exec_wjwrite s g b) (post_withSignal rfl _),
      fun h => exec_posted h (exec_wjcommit s g b) (post_withSignal rfl _),
      fun h => exec_posted h (exec_wjabort s g b) (post_withSignal rfl _),
      fun h => exec_inPort h (exec_wjstat s g b) (post_mkCmd rfl _)⟩
end Sys2Proof.Machine.PumpPosts

/-! PROOF. The handle instructions (R28, R29, R33, R214 to R216). -/

namespace Sys2Proof.Machine.HandleOperations
open Sys2Proof Sys2Proof.Machine.CommitEntries Sys2Proof.Machine.PumpPosts Sys2Proof.Machine.ScalarResults

/-! The fields of the body (R211). -/

theorem cbN_eq (b : SyncBody) : cbN b = b.toNat / 2 ^ 43 :=
  Nat.mod_eq_of_lt (Nat.div_lt_of_lt_mul b.isLt)

theorem cbCount_eq (b : SyncBody) : cbCount b = b.toNat % 128 := by
  rw [cbCount, bitsOf, Nat.pow_zero, Nat.div_one]
  rfl

/-! CBSET's registers (R28, R215). -/

/-- The limits that CBSET's registers keep. -/
def CbsetLimits (a c : Word) : Prop :=
  c.toNat = c.toNat % 512 + c.toNat / 2 ^ 16 % 128 * 2 ^ 16 + c.toNat / 2 ^ 32 * 2 ^ 32 ∧ a.toNat % 256 = 0 ∧
    1 ≤ c.toNat % 512 ∧ c.toNat % 512 ≤ 256 ∧ 1 ≤ c.toNat / 2 ^ 16 % 128 ∧ c.toNat / 2 ^ 16 % 128 ≤ 64 ∧
    1 ≤ c.toNat / 2 ^ 32 ∧ c.toNat / 2 ^ 32 ≤ c.toNat % 512 * 256 ∧
    a.toNat + c.toNat / 2 ^ 16 % 128 * (c.toNat % 512 * 256) ≤ 2 ^ 21

/-- The condition under which CBSET sets the handle up is that its registers keep the limits. -/
theorem cbsetHandle_cond_iff (a c : Word) :
    (bitsOf a 63 21 = 0 ∧ bitsOf c 15 9 = 0 ∧ bitsOf c 31 23 = 0 ∧ bitsOf c 63 49 = 0 ∧ bitsOf a 20 0 % 256 = 0 ∧
      1 ≤ bitsOf c 8 0 ∧ bitsOf c 8 0 ≤ 256 ∧ 1 ≤ bitsOf c 22 16 ∧ bitsOf c 22 16 ≤ 64 ∧ 1 ≤ bitsOf c 48 32 ∧
      bitsOf c 48 32 ≤ bitsOf c 8 0 * 256 ∧ bitsOf a 20 0 + bitsOf c 22 16 * bitsOf c 8 0 * 256 ≤ scratchBytes) ↔
    CbsetLimits a c := by
  have ha := a.isLt
  have hc := c.isLt
  unfold CbsetLimits scratchBytes
  simp only [bitsOf, Nat.mul_assoc, Nat.reduceAdd, Nat.reduceSub, Nat.reducePow, Nat.reduceMul, Nat.div_one] at ha hc ⊢
  generalize a.toNat = x at *
  generalize c.toNat = y at *
  constructor
  · rintro ⟨h1, h2, h3, h4, h5, h6, h7, h8, h9, h10, h11, h12⟩
    have hx : x % 2097152 = x := by omega
    have hy : y / 4294967296 % 131072 = y / 4294967296 := by omega
    rw [hx] at h5 h12
    rw [hy] at h10 h11
    exact ⟨by omega, h5, h6, h7, h8, h9, h10, h11, h12⟩
  · rintro ⟨h1, h2, h3, h4, h5, h6, h7, h8, h9⟩
    have hring : 0 < y / 65536 % 128 * (y % 512 * 256) := Nat.mul_pos h5 (Nat.mul_pos h3 (by decide))
    have hsmall : y < 65537 * 4294967296 := by omega
    have hx : x % 2097152 = x := by omega
    have hy : y / 4294967296 % 131072 = y / 4294967296 := by omega
    rw [hx, hy]
    exact ⟨by omega, by omega, by omega, by omega, h2, h3, h4, h5, h6, h7, h8, h9⟩

theorem cbsetHandle_of_limits {a c : Word} (h : CbsetLimits a c) :
    cbsetHandle a c = some { base := a.toNat, ssize := c.toNat % 512, count := c.toNat / 2 ^ 16 % 128, expect := c.toNat / 2 ^ 32 } := by
  have hcond := (cbsetHandle_cond_iff a c).mpr h
  unfold cbsetHandle
  dsimp only
  rw [if_pos hcond]
  obtain ⟨hrest, -, hssize, hssize', hcount, -, -, hexpect, hring⟩ := h
  have ha : bitsOf a 20 0 = a.toNat := by
    have hpos := Nat.mul_pos hcount (Nat.mul_pos hssize (by decide : 0 < 256))
    simp only [bitsOf, Nat.reduceAdd, Nat.reduceSub, Nat.reducePow, Nat.div_one] at hpos hring ⊢
    omega
  have hexp : bitsOf c 48 32 = c.toNat / 2 ^ 32 := by
    simp only [bitsOf, Nat.reduceAdd, Nat.reduceSub, Nat.reducePow] at hexpect hssize' ⊢
    omega
  have hsize : bitsOf c 8 0 = c.toNat % 512 := by
    simp only [bitsOf, Nat.reduceAdd, Nat.reduceSub, Nat.reducePow, Nat.div_one]
  rw [ha, hexp, hsize]
  rfl

theorem cbsetHandle_of_broken {a c : Word} (h : ¬ CbsetLimits a c) : cbsetHandle a c = none := by
  unfold cbsetHandle
  dsimp only
  rw [if_neg (mt (cbsetHandle_cond_iff a c).mp h)]

/-! The sync queue (R19). -/

section
variable {s : State} {bundle : Nat} {pc : Off} {op : SyncOp} {x : Ctx} {e : Stop}

theorem enterSync_of_free (hq : (s.tile s.myTile).syncQ = []) (hf : s.syncFree op = true) (hx : s.me.syncOp op = .ok x) :
    s.enterSync bundle pc op = .ok (s.setMe x) := by
  rw [State.enterSync, hq, hf, hx]
  rfl

theorem enterSync_of_error (hq : (s.tile s.myTile).syncQ = []) (hf : s.syncFree op = true) (hx : s.me.syncOp op = .error e) :
    s.enterSync bundle pc op = .error e := by
  rw [State.enterSync, hq, hf, hx]
  rfl

theorem enterSync_of_waits (h : (s.tile s.myTile).syncQ ≠ [] ∨ s.syncFree op = false) :
    s.enterSync bundle pc op = .ok (s.pushSync bundle pc op) := by
  have hwait : ((s.tile s.myTile).syncQ.isEmpty && s.syncFree op) = false := by
    rcases h with h | h
    · rw [Bool.eq_false_iff.mpr (mt List.isEmpty_iff.mp h), Bool.false_and]
    · rw [h, Bool.and_false]
  rw [State.enterSync, hwait]
  rfl

end

/-! CBWAIT and CBSPACE (R29, R214). -/

/-- The slots from `k` on are all in a state. -/
theorem allSt_iff {v : Handle} {k n : Nat} {x : SlotState} : v.allSt k n x = true ↔ ∀ i < n, v.st ((k + i) % v.count) = x := by
  simp only [Handle.allSt, Handle.ring, List.all_map, List.all_eq_true, List.mem_range, Function.comp_apply, beq_iff_eq]

section
variable {s : State} {ready : State → Except Stop Bool} {sleep eff : State → State}

theorem waitEff_of_ready (h : ready s = .ok true) : waitEff ready sleep eff s = .ok (eff s) := by
  rw [waitEff, h]
  rfl

theorem waitEff_of_not_ready (h : ready s = .ok false) : waitEff ready sleep eff s = .ok (sleep s) := by
  rw [waitEff, h]
  rfl

end

/-! CBADV (R29, R216). -/

section
variable {s : State} {b : SyncBody} {produce : Bool}

theorem cbadvEff_of_zero (h : cbCount b = 0) : cbadvEff produce b s = .ok s := by
  rw [cbadvEff, if_pos h]

theorem cbadvEff_of_closed (h : cbCount b ≠ 0) (hr : s.me.region = none) :
    cbadvEff produce b s = s.enterSync s.me.bundleNo s.me.pc (.cbadv produce (cbN b) (cbCount b)) := by
  rw [cbadvEff, if_neg h, State.regionOpen, hr]
  rfl

theorem cbadvEff_of_open (h : cbCount b ≠ 0) (hr : s.me.region ≠ none) :
    cbadvEff produce b s = s.commit 7 noClass 0 (.cbadv produce (cbN b) (cbCount b)) := by
  rw [cbadvEff, if_neg h, State.regionOpen, if_pos (Option.isSome_iff_ne_none.mpr hr)]

/-- CBADV takes effect, or traps. -/
theorem syncOp_cbadv {x : Ctx} {h n : Nat} : x.syncOp (.cbadv produce h n) = match (x.handle h).advance produce n with
    | some v => .ok (x.setHandle h v)
    | none => .error (cbTrap 7 h) := rfl

end

/-- Either CBADV, once admitted. -/
theorem exec_cbadv {i : Instr} {g : Guard} {b : SyncBody} {s : State} {produce : Bool} (h : s.Admits i)
    (hx : exec i s = atIssue i g (checkCbadv b) (cbadvEff produce b) s) (hg : (slotFields i).map SlotFields.g = some g)
    (hl : laneWise i = false) (hc : runCheck i s = checkCbadv b s) :
    (cbCount b = 0 → exec i s = .next s) ∧
    (cbCount b ≠ 0 → s.me.region = none → (s.tile s.myTile).syncQ = [] →
      (∀ w, (s.me.handle (cbN b)).advance produce (cbCount b) = some w →
        exec i s = .next (s.setMe (s.me.setHandle (cbN b) w))) ∧
      ((s.me.handle (cbN b)).advance produce (cbCount b) = none →
        exec i s = .next (s.takeTrap { code := 0x010D, sub := BitVec.ofNat 16 (cbN b), slot := 7 }))) ∧
    (cbCount b ≠ 0 → s.me.region = none → ¬ (s.tile s.myTile).syncQ = [] →
      exec i s = .next (s.pushSync s.me.bundleNo s.me.pc (.cbadv produce (cbN b) (cbCount b)))) ∧
    (cbCount b ≠ 0 → s.me.region ≠ none → s.CanCommit (.cbadv produce (cbN b) (cbCount b)) →
      exec i s = .next (s.entered 7 16 0 (.cbadv produce (cbN b) (cbCount b)))) := by
  refine ⟨fun h0 => exec_eq_next h hx (cbadvEff_of_zero h0) hg hl hc, fun h0 hr hq => ⟨fun w hw => ?_, fun hw => ?_⟩,
    fun h0 hr hq => ?_, fun h0 hr hroom => ?_⟩
  · refine exec_eq_next h hx ((cbadvEff_of_closed h0 hr).trans (enterSync_of_free hq rfl ?_)) hg hl hc
    rw [syncOp_cbadv, hw]
  · refine hx.trans (atIssue_trap h ((cbadvEff_of_closed h0 hr).trans (enterSync_of_error hq rfl ?_)) hg hl hc)
    rw [syncOp_cbadv, hw]
    rfl
  · exact exec_eq_next h hx ((cbadvEff_of_closed h0 hr).trans (enterSync_of_waits (.inl hq))) hg hl hc
  · exact exec_eq_next h hx ((cbadvEff_of_open h0 hr).trans (commit_of_canCommit hroom)) hg hl hc

/-- Settles O36: the registers' limits are CBSET's condition; the waits ask for all slots; CBADV by region and queue. -/
theorem handleInstructions : Obligations.HandleInstructions := by
  unfold Obligations.HandleInstructions
  intro g b s
  rw [← cbN_eq, ← cbCount_eq]
  intro h n v trap free asleep
  refine ⟨?_, fun ha => ⟨fun hready => ?_, fun i hi hne => ?_⟩, fun ha => ⟨fun hready => ?_, fun i hi hne => ?_⟩,
    fun ha => exec_cbadv ha (exec_cbadvProduce s g b) rfl rfl rfl, fun ha => exec_cbadv ha (exec_cbadvConsume s g b) rfl rfl rfl,
    fun i hi hlegal hgo hcount => ?_, fun i hi hlegal hgo hcount => ?_, fun hlegal hgo hover => ?_⟩
  · intro a c base ssize count expect ok ha
    refine ⟨fun hb hq hok => ?_, fun hb hq hok => ?_, fun hw => ?_⟩
    · refine exec_eq_next ha (exec_cbset s g b) (enterSync_of_free hq (by rw [State.syncFree, hb]; rfl) ?_)
      rw [Ctx.syncOp, Ctx.cbset, cbsetHandle_of_limits hok]
    · refine (exec_cbset s g b).trans (atIssue_trap ha (enterSync_of_error hq (by rw [State.syncFree, hb]; rfl) ?_) rfl rfl rfl)
      rw [Ctx.syncOp, Ctx.cbset, cbsetHandle_of_broken hok]
      rfl
    · refine exec_eq_next ha (exec_cbset s g b) (enterSync_of_waits ?_)
      rcases hw with hw | hw
      · exact .inr (by rw [State.syncFree, hw]; rfl)
      · exact .inl hw
  · exact exec_eq_next ha (exec_cbwait s g b) (waitEff_of_ready (congrArg Except.ok (allSt_iff.mpr hready)))
  · exact exec_eq_next ha (exec_cbwait s g b)
      (waitEff_of_not_ready (congrArg Except.ok (Bool.eq_false_iff.mpr fun hall => hne (allSt_iff.mp hall i hi))))
  · exact exec_eq_next ha (exec_cbspace s g b) (waitEff_of_ready (congrArg Except.ok (allSt_iff.mpr hready)))
  · exact exec_eq_next ha (exec_cbspace s g b)
      (waitEff_of_not_ready (congrArg Except.ok (Bool.eq_false_iff.mpr fun hall => hne (allSt_iff.mp hall i hi))))
  · have hzero : (s.me.handle (cbN b)).count = 0 := hcount
    rcases hi with rfl | rfl | rfl | rfl
    · exact exec_of_check_error hlegal hgo (exec_cbwait s g b) (by simp only [checkCbwait, hzero]; rfl)
    · exact exec_of_check_error hlegal hgo (exec_cbspace s g b) (by simp only [checkCbspace, hzero]; rfl)
    · exact exec_of_check_error hlegal hgo (exec_cbadvProduce s g b) (by simp only [checkCbadv, hzero]; rfl)
    · exact exec_of_check_error hlegal hgo (exec_cbadvConsume s g b) (by simp only [checkCbadv, hzero]; rfl)
  · have hmany : decide (cbCount b ≤ (s.me.handle (cbN b)).count) = false := decide_eq_false (Nat.not_le.mpr hcount)
    rcases hi with rfl | rfl
    · exact exec_of_check_error hlegal hgo (exec_cbwait s g b) (by simp only [checkCbwait, hmany, Bool.and_false]; rfl)
    · exact exec_of_check_error hlegal hgo (exec_cbspace s g b) (by simp only [checkCbspace, hmany, Bool.and_false]; rfl)
  · have hov : (s.me.handle (cbN b)).overrun = true := hover
    exact exec_of_check_error hlegal hgo (exec_cbwait s g b)
      (by simp only [checkCbwait, hov, Bool.not_true, Bool.and_false, Bool.false_and]; rfl)
end Sys2Proof.Machine.HandleOperations

/-! PROOF. How CBADV and a delivery move the slots of a handle (R29, R30, R201). -/

namespace Sys2Proof.Machine.HandleSlots
open Sys2Proof Sys2Proof.Machine.HandleOperations

/-- Keys of a list all written with one value. -/
theorem get_foldl_set {α : Type} [DecidableEq α] (d v : α) (js : List Nat) (m : FMap α) (k : Nat) :
    FMap.get d (js.foldl (fun m j => FMap.set d m j v) m) k = if k ∈ js then v else FMap.get d m k := by
  induction js generalizing m with
  | nil => rfl
  | cons j js ih =>
    rw [List.foldl_cons, ih]
    by_cases hj : k = j
    · subst hj
      simp
    · rw [FMap.get_set_other _ _ _ _ hj]
      simp only [List.mem_cons, hj, false_or]

theorem mem_ring {h : Handle} {k n j : Nat} : j ∈ h.ring k n ↔ ∃ i < n, j = (k + i) % h.count := by
  simp only [Handle.ring, List.mem_map, List.mem_range, eq_comm]

section
variable {h : Handle} {n : Nat}

/-! CBADV (R29). -/

theorem advance_of_short (hn : 0 < n) (hc : h.count < n) (produce : Bool) : h.advance produce n = none := by
  rw [Handle.advance, if_neg (by omega), if_pos hc]

theorem advance_produce (hn : 0 < n) (hc : n ≤ h.count) : h.advance true n = if h.allSt h.fill n .free then
      some { h with state := (h.ring h.fill n).foldl (fun m j => FMap.set .free m j .filling) h.state,
                    left := (h.ring h.fill n).foldl (fun m j => FMap.set 0 m j h.expect) h.left,
                    fill := (h.fill + n) % h.count }
    else none := by
  rw [Handle.advance, if_neg (by omega), if_neg (by omega), if_pos rfl]

theorem advance_consume (hn : 0 < n) (hc : n ≤ h.count) : h.advance false n = if h.allSt h.drain n .filled then
      some { h with state := (h.ring h.drain n).foldl (fun m j => FMap.set .free m j .free) h.state,
                    drain := (h.drain + n) % h.count }
    else none := by
  rw [Handle.advance, if_neg (by omega), if_neg (by omega), if_neg Bool.false_ne_true]

/-! A delivery (R29). -/

theorem deliver_of_fits {k b : Nat} (hk : h.st k = .filling) (hb : b ≤ h.lf k) : h.deliver k b =
    { h with left := FMap.set 0 h.left k (h.lf k - b),
             state := if h.lf k = b then FMap.set .free h.state k .filled else h.state } := by
  rw [Handle.deliver, if_pos ⟨hk, hb⟩]

theorem deliver_of_wrong {k b : Nat} (hw : ¬ (h.st k = .filling ∧ b ≤ h.lf k)) : h.deliver k b =
    { h with left := FMap.set 0 h.left k 0, state := FMap.set .free h.state k .filled, overrun := true } := by
  rw [Handle.deliver, if_neg hw]

theorem deliver_fields (k b : Nat) : h.deliver k b =
    { h with state := (h.deliver k b).state, left := (h.deliver k b).left, overrun := (h.deliver k b).overrun } := by
  unfold Handle.deliver
  split <;> rfl

/-- A delivery leaves the other slots. -/
theorem deliver_other {k b j : Nat} (hj : j ≠ k) : (h.deliver k b).st j = h.st j ∧ (h.deliver k b).lf j = h.lf j := by
  unfold Handle.deliver
  split
  · refine ⟨?_, FMap.get_set_other _ _ _ _ hj⟩
    rw [Handle.st]
    dsimp only
    split
    · exact FMap.get_set_other _ _ _ _ hj
    · rfl
  · unfold Handle.st Handle.lf
    dsimp only
    exact ⟨FMap.get_set_other _ _ _ _ hj, FMap.get_set_other _ _ _ _ hj⟩

/-! Bytes and the slots that hold them (R30, R201). -/

/-- Where one number of a range gives something, that is all that the range gives. -/
theorem filterMap_range_single {α : Type} (f : Nat → Option α) {k : Nat} {v : α} (hk : f k = some v)
    (hother : ∀ j, j ≠ k → f j = none) (c : Nat) : (List.range c).filterMap f = if k < c then [v] else [] := by
  induction c with
  | zero => rfl
  | succ c ih =>
    rw [List.range_succ, List.filterMap_append, ih, List.filterMap_cons]
    rcases Nat.lt_trichotomy k c with hlt | rfl | hlt
    · rw [if_pos hlt, if_pos (by omega), hother c (by omega)]
      rfl
    · rw [if_neg (Nat.lt_irrefl k), if_pos (Nat.lt_succ_self k), hk]
      rfl
    · rw [if_neg (by omega), if_neg (by omega), hother c (by omega)]
      rfl

/-- Bytes within a slot lie in that slot alone. -/
theorem parts_of_slot {off len k : Nat} (hlen : 0 < len) (hk : k < h.count) (hlo : h.base + k * (h.ssize * 256) ≤ off)
    (hhi : off + len ≤ h.base + (k + 1) * (h.ssize * 256)) : h.parts off len = ([(k, len)], false) := by
  unfold Handle.parts
  dsimp only
  have hsame : max off (h.base + k * (h.ssize * 256)) = off := by omega
  have hsame' : min (off + len) (h.base + (k + 1) * (h.ssize * 256)) = off + len := by omega
  have hend : (k + 1) * (h.ssize * 256) ≤ h.count * (h.ssize * 256) := Nat.mul_le_mul_right _ hk
  have hstart : 0 ≤ k * (h.ssize * 256) := Nat.zero_le _
  refine Prod.ext ?_ ?_
  · refine (filterMap_range_single _ (k := k) (v := (k, len)) ?_ (fun j hj => ?_) h.count).trans (if_pos hk)
    · rw [if_pos (by omega), hsame, hsame', Nat.add_sub_cancel_left]
    · rw [if_neg]
      rcases Nat.lt_or_gt_of_ne hj with hlt | hgt
      · have := Nat.mul_le_mul_right (h.ssize * 256) (Nat.succ_le_of_lt hlt)
        have : (j + 1) * (h.ssize * 256) ≤ k * (h.ssize * 256) := this
        omega
      · have : (k + 1) * (h.ssize * 256) ≤ j * (h.ssize * 256) := Nat.mul_le_mul_right _ (Nat.succ_le_of_lt hgt)
        omega
  · dsimp only
    rw [decide_eq_false (by omega), decide_eq_false (by omega), Bool.or_false]

end

/-- Settles O37: the ring's slots by membership, a delivery by its two cases, a charge by the slots it names. -/
theorem handleStates : Obligations.HandleStates := by
  unfold Obligations.HandleStates
  refine ⟨?_, ?_, ?_⟩
  · intro h n hn hc at' canP canC
    refine ⟨fun hno => ?_, fun hno => ?_, fun ⟨hle, hst⟩ => ?_, fun ⟨hle, hst⟩ => ?_⟩
    · by_cases hle : n ≤ h.count
      · rw [advance_produce hn hle, if_neg fun hall => hno ⟨hle, allSt_iff.mp hall⟩]
      · exact advance_of_short hn (Nat.not_le.mp hle) true
    · by_cases hle : n ≤ h.count
      · rw [advance_consume hn hle, if_neg fun hall => hno ⟨hle, allSt_iff.mp hall⟩]
      · exact advance_of_short hn (Nat.not_le.mp hle) false
    · refine ⟨_, (advance_produce hn hle).trans (if_pos (allSt_iff.mpr hst)), rfl, rfl, fun k => ?_⟩
      simp only [Handle.st, Handle.lf, get_foldl_set, mem_ring]
      split
      · exact ⟨rfl, rfl⟩
      · exact ⟨rfl, rfl⟩
    · refine ⟨_, (advance_consume hn hle).trans (if_pos (allSt_iff.mpr hst)), rfl, rfl, fun k => ?_⟩
      simp only [Handle.st, get_foldl_set, mem_ring]
      rfl
  · intro h k b j w
    refine ⟨fun hj => deliver_other hj, deliver_fields k b, fun hk hb => ?_, fun hw => ?_⟩
    · have hw : w = _ := deliver_of_fits hk hb
      rw [hw]
      refine ⟨FMap.get_set_same .., rfl, ?_⟩
      rw [Handle.st]
      dsimp only
      by_cases hall : h.lf k = b
      · rw [if_pos hall, if_pos hall.symm, FMap.get_set_same]
      · rw [if_neg hall, if_neg (Ne.symm hall)]
        exact hk
    · have hw' : w = _ := deliver_of_wrong hw
      rw [hw']
      unfold Handle.st Handle.lf
      dsimp only
      exact ⟨FMap.get_set_same .., FMap.get_set_same .., rfl⟩
  · intro h off len hlen sz
    refine ⟨fun k hk hlo hhi => ?_, fun hout => ?_⟩
    · rw [Handle.charge, if_neg (by omega), parts_of_slot hlen hk hlo hhi]
      rfl
    · have hflag : (h.parts off len).2 = true := by
        rw [Handle.parts, Bool.or_eq_true, decide_eq_true_eq, decide_eq_true_eq]
        exact hout
      rw [Handle.charge, if_neg (by omega)]
      dsimp only
      rw [if_pos hflag]
end Sys2Proof.Machine.HandleSlots

/-! PROOF. The port's answer for an extent of no bytes, of which O38 speaks with the others. The statement takes every
length; a range of no bytes at the end of an object is a plain extent of it, for there is no byte of it that would have to
exist, and yet the model's translation looks at the address where it begins (R230, R354). -/

namespace Sys2Proof.Machine.SignalsAtTheEnd
open Sys2Proof Sys2Proof.Machine.LoadsAtTheEnd

/-- As `lastHeader`, with a0 over the scratchpad and its offset at the scratchpad's end. -/
def pastEnd : State := lastHeader.putA 0 (mkCap 1 kSCRATCH 2 scratchBytes 1 0 (2 ^ 20) true)

/-- No byte, at the object's end. -/
theorem noBytes_plain : pastEnd.Plain (pastEnd.ra 0) [rR] (pastEnd.ra 0).offset 0 (4 * 2 ^ 54 + scratchBytes) :=
  ⟨scratchEntry, rfl, by decide +kernel⟩

/-- The stop of a translation. -/
def stopOf {α : Type} : Except Stop α → Option Stop
  | .error e => some e
  | .ok _ => none

/-- The port's translation stops at the first byte behind the scratchpad, which does not exist. -/
theorem noBytes_stop :
    stopOf (pastEnd.syPort (pastEnd.ra 0) [rR] 0) = some (.fault (.reservedSpace (4 * 2 ^ 54 + scratchBytes))) := by
  decide +kernel

/-- Refutes O38: the port does not find the bytes of a plain extent of no bytes that ends where the scratchpad ends. -/
theorem not_signalsAndJobs : ¬ Obligations.SignalsAndJobs := by
  unfold Obligations.SignalsAndJobs
  intro h
  obtain ⟨hinstr, -⟩ := h
  obtain ⟨hplain, -⟩ := hinstr lastGuard 0 pastEnd
  have hok := hplain [rR] 0 _ noBytes_plain
  have hstop := noBytes_stop
  have hreg : (0 : SyncBody).toNat / 2 ^ 43 = 0 := by decide
  rw [hreg] at hok
  rw [hok] at hstop
  cases hstop
end Sys2Proof.Machine.SignalsAtTheEnd

/-! PROOF. FENCE, BAR and LAUNCH (R35, R213, R214, R220, R221). -/

namespace Sys2Proof.Machine.BarriersAndLaunches
open Sys2Proof Sys2Proof.Machine.CommitEntries Sys2Proof.Machine.HandleOperations Sys2Proof.Machine.ScalarResults

/-! FENCE (R213). -/

section
variable {s : State} {b : SyncBody} {g : Guard}

theorem fence_of_zero (h : s.Admits (.fence g b)) (hm : b.extractLsb' 0 16 = 0) : exec (.fence g b) s = .next s :=
  exec_eq_next h (exec_fence s g b) (congrArg Except.ok (if_pos hm))

theorem fence_of_mask (h : s.Admits (.fence g b)) (hm : b.extractLsb' 0 16 ≠ 0) : exec (.fence g b) s =
    .next (s.setMe { s.me with fences := s.me.fences ++ [(b.extractLsb' 0 16, b.getLsbD 16, s.me.bundleNo)] }) :=
  exec_eq_next h (exec_fence s g b) (congrArg Except.ok (if_neg hm))

end

/-! BAR (R35, R220). -/

/-- A commit of what is earlier changes the region and what holds the commit stage's entries. -/
theorem commitEarlier_fields (x : Ctx) : ∃ q, x.commitEarlier = { x with region := x.commitEarlier.region, commitQ := q } ∧
    q.map CommitEntry.bundle = x.commitQ.map CommitEntry.bundle := by
  have hcommit : x.commitRegion = { x with region := none, commitQ := x.commitQ.map fun e => { e with held := false } } := rfl
  have hq : (x.commitQ.map fun e => { e with held := false }).map CommitEntry.bundle = x.commitQ.map CommitEntry.bundle := by
    rw [List.map_map]
    rfl
  unfold Ctx.commitEarlier
  split
  · split
    · exact ⟨x.commitQ, rfl, rfl⟩
    · exact ⟨_, hcommit, hq⟩
  · exact ⟨_, hcommit, hq⟩

/-- The issuing context after that commit. -/
theorem me_commitEarlier (s : State) : (s.modMe Ctx.commitEarlier).me = s.me.commitEarlier := s.modMe_me _

/-- What has drained has drained. -/
theorem drained_commitEarlier (s : State) : (s.modMe Ctx.commitEarlier).drained = s.drained := by
  obtain ⟨q, hfields, hq⟩ := commitEarlier_fields s.me
  have hall : ∀ es : List CommitEntry, (es.all fun e => decide (s.me.bundleNo ≤ e.bundle)) =
      (es.map CommitEntry.bundle).all fun n => decide (s.me.bundleNo ≤ n) := fun es => by
    rw [List.all_map]
    rfl
  have hme := me_commitEarlier s
  rw [hfields] at hme
  rw [State.drained, hme]
  dsimp only
  rw [hall, hq, ← hall]
  rfl

/-- BAR changes the context and its gang, no byte. -/
theorem barArrive_frame (s : State) : s.barArrive.core = s.core := by
  unfold State.barArrive
  split
  · rfl
  · split <;> rfl

theorem me_of_core {s t : State} (h : t.core = s.core) : t.me = s.me := by
  rw [State.me, State.ctx, h]
  rfl

/-- The arrival notes the generation with the gang. -/
theorem barArrive_gens {s : State} {g m : Nat} (hm : s.myMember = some (g, m)) (hd : s.drained = true) :
    FMap.get 0 (s.barArrive.gang g).barGens m = s.me.barGen + 1 := by
  unfold State.barArrive
  rw [hm]
  dsimp only
  rw [hd]
  simp only [Bool.not_true, Bool.false_eq_true, if_false, State.gang, State.modGang, FMap.get_set_same]

/-- The member that the issuing context is stays the same. -/
theorem myMember_commitEarlier (s : State) : (s.modMe Ctx.commitEarlier).myMember = s.myMember := by
  obtain ⟨q, hfields, -⟩ := commitEarlier_fields s.me
  rw [State.myMember, me_commitEarlier, hfields]
  rfl

/-- A member for which the others have arrived. -/
theorem readyBar_iff {s : State} {k : Task} (hk : s.me.task = some k) : readyBar s = true ↔ s.drained = true ∧
    (s.gang k.gang).rplw = false ∧ ∀ j < (s.gang k.gang).members.length, j = k.member ∨
      (s.gang k.gang).members.getD j .ended = .ended ∨ s.me.barGen + 1 ≤ FMap.get 0 (s.gang k.gang).barGens j := by
  have hm : s.myMember = some (k.gang, k.member) := by rw [State.myMember, hk]; rfl
  rw [readyBar, hm]
  simp only [Bool.and_eq_true, Bool.not_eq_true', List.all_eq_true, List.mem_range, Bool.or_eq_true, beq_iff_eq,
    decide_eq_true_eq, or_assoc]

section
variable {s : State} {b : SyncBody} {g : Guard} {k : Task}

/-- Where BAR completes. -/
theorem bar_of_ready (h : s.Admits (.bar g b)) (hk : s.me.task = some k) (hr : readyBar s = true) :
    ∃ t, exec (.bar g b) s = .next t ∧ t.me.barGen = s.me.barGen + 1 ∧ t.me.phase = s.me.phase ∧
      t.me.region = s.me.commitEarlier.region ∧ FMap.get 0 (t.gang k.gang).barGens k.member = s.me.barGen + 1 ∧
      t.me.regs = s.me.regs ∧ s.SameMem t := by
  have hd : s.drained = true := ((readyBar_iff hk).mp hr).1
  have hm : s.myMember = some (k.gang, k.member) := by rw [State.myMember, hk]; rfl
  refine ⟨_, exec_eq_next h (exec_bar s g b) (waitEff_of_ready (congrArg Except.ok hr)), ?_⟩
  obtain ⟨q, hfields, -⟩ := commitEarlier_fields s.me
  have hgens := barArrive_gens ((myMember_commitEarlier s).trans hm) ((drained_commitEarlier s).trans hd)
  have hme : (s.modMe Ctx.commitEarlier).barArrive.me = s.me.commitEarlier :=
    (me_of_core (barArrive_frame _)).trans (me_commitEarlier s)
  have hgen : s.me.commitEarlier.barGen = s.me.barGen := by rw [hfields]
  rw [me_commitEarlier, hgen] at hgens
  rw [State.modMe_me, hme]
  refine ⟨congrArg (· + 1) hgen, by rw [hfields], rfl, hgens, by rw [hfields], fun a => ?_⟩
  rw [State.rd8, State.modMe_core_mem, barArrive_frame]
  rfl

/-- Where it sleeps. -/
theorem bar_of_not_ready (h : s.Admits (.bar g b)) (hr : readyBar s = false) :
    ∃ t, exec (.bar g b) s = .next t ∧ t.me.phase = .sleeping ∧ t.me.region = s.me.commitEarlier.region ∧
      t.me.barGen = s.me.barGen ∧ t.me.regs = s.me.regs ∧ s.SameMem t := by
  refine ⟨barSleep s, exec_eq_next h (exec_bar s g b) (waitEff_of_not_ready (congrArg Except.ok hr)), ?_⟩
  obtain ⟨q, hfields, -⟩ := commitEarlier_fields s.me
  have hme : (s.modMe Ctx.commitEarlier).barArrive.me = s.me.commitEarlier :=
    (me_of_core (barArrive_frame _)).trans (me_commitEarlier s)
  rw [barSleep, State.sleepMe, State.modMe_me, State.modMe_me, hme]
  refine ⟨rfl, rfl, by rw [hfields], by rw [hfields], fun a => ?_⟩
  rw [State.rd8, State.modMe_core_mem, State.modMe_core_mem, barArrive_frame]
  rfl

/-! LAUNCH.nb (R221). -/

theorem takeEntry_of_own {r : Nat} (h : FMap.get 0 s.cp.plUsed r < s.regionPlres r) :
    s.takeEntry r = some (r, { s with cp := { s.cp with plUsed := FMap.set 0 s.cp.plUsed r (FMap.get 0 s.cp.plUsed r + 1) } }) := by
  rw [State.takeEntry, State.plOwnFree, decide_eq_true h, if_pos rfl]

theorem takeEntry_of_pool {r : Nat} (h : ¬ FMap.get 0 s.cp.plUsed r < s.regionPlres r) (hp : s.cp.plPoolUsed < s.plPool) :
    s.takeEntry r = some (0, { s with cp := { s.cp with plPoolUsed := s.cp.plPoolUsed + 1 } }) := by
  rw [State.takeEntry, State.plOwnFree, decide_eq_false h, if_neg Bool.false_ne_true, if_pos hp]

theorem takeEntry_of_none {r : Nat} (h : ¬ FMap.get 0 s.cp.plUsed r < s.regionPlres r) (hp : ¬ s.cp.plPoolUsed < s.plPool) :
    s.takeEntry r = none := by
  rw [State.takeEntry, State.plOwnFree, decide_eq_false h, if_neg Bool.false_ne_true, if_neg hp]

/-- With an entry, the launch enters the commit stage. -/
theorem launchNb_of_entry {r : Nat} {s1 : State} (h : s.Admits (.launchNb g b)) (he : s.takeEntry s.myRegion = some (r, s1))
    (hroom : (s1.putP (bitsOf b 3 0) (BitVec.allOnes 64)).CanCommit (.launch (s.refOf (syCap b s)) true r)) :
    exec (.launchNb g b) s = .next ((s1.putP (bitsOf b 3 0) (BitVec.allOnes 64)).entered 7 16 0
      (.launch (s.refOf (syCap b s)) true r)) := by
  refine exec_eq_next h (exec_launchNb s g b) ?_
  rw [he]
  exact commit_of_canCommit hroom

theorem launchNb_of_none (h : s.Admits (.launchNb g b)) (he : s.takeEntry s.myRegion = none) :
    exec (.launchNb g b) s = .next (s.putP (bitsOf b 3 0) 0) := by
  refine exec_eq_next h (exec_launchNb s g b) ?_
  rw [he]

end

theorem syCap_eq (b : SyncBody) (s : State) : syCap b s = s.ra (b.toNat / 2 ^ 43) := congrArg s.ra (cbN_eq b)

/-- The number of a predicate in a body's low bits. -/
theorem bitsOf_low (b : SyncBody) : bitsOf b 3 0 = b.toNat % 16 := by
  rw [bitsOf, Nat.pow_zero, Nat.div_one]
  rfl

/-- Settles O39: BAR by its condition, LAUNCH.nb by where its entry comes from. -/
theorem fenceBarrierLaunch : Obligations.FenceBarrierLaunch := by
  unfold Obligations.FenceBarrierLaunch
  intro g b s
  rw [← syCap_eq b s, ← bitsOf_low]
  intro mask
  refine ⟨fun h => ⟨fence_of_zero h, fence_of_mask h⟩, fun h k hk => ?_, ?_⟩
  · intro y met
    refine ⟨fun hd hmet => bar_of_ready h hk ((readyBar_iff hk).mpr ⟨hd, hmet⟩), fun hno => bar_of_not_ready h ?_⟩
    refine Bool.eq_false_iff.mpr fun hr => ?_
    obtain ⟨hd, hmet⟩ := (readyBar_iff hk).mp hr
    rcases hno with hno | hno
    · exact Bool.false_ne_true (hno.symm.trans hd)
    · exact hno hmet
  · intro c ref r d
    refine ⟨fun h hroom => exec_eq_next h (exec_launch s g b) (commit_of_canCommit hroom), fun h => ?_⟩
    intro own room
    refine ⟨fun hown hroom => launchNb_of_none h (takeEntry_of_none hown hroom), fun hany => ?_⟩
    intro from' s1 s2 hroom
    by_cases hown : own
    · have hs1 : s1 = { s with cp := { s.cp with plUsed := FMap.set 0 s.cp.plUsed r (FMap.get 0 s.cp.plUsed r + 1) } } := by
        simp only [s1, if_pos hown]
      have hfrom : from' = r := if_pos hown
      rw [hfrom] at hroom ⊢
      refine launchNb_of_entry h ?_ hroom
      rw [hs1]
      exact takeEntry_of_own hown
    · have hpool : room := hany.resolve_left hown
      have hs1 : s1 = { s with cp := { s.cp with plPoolUsed := s.cp.plPoolUsed + 1 } } := by
        simp only [s1, if_neg hown]
      have hfrom : from' = 0 := if_neg hown
      rw [hfrom] at hroom ⊢
      refine launchNb_of_entry h ?_ hroom
      rw [hs1]
      exact takeEntry_of_pool hown hpool
end Sys2Proof.Machine.BarriersAndLaunches

/-! PROOF. RPLW in a gang two of whose contexts answer to one member number (R224). The statement quantifies over every
state, and with it over those in which a task's own member number is not the place at which its gang lists its context.
There the first context to end ends the other one's place in the gang, and so RPLW passes over that other context. -/

namespace Sys2Proof.Machine.ReplacedMembers
open Sys2Proof

/-- `RPLW` in slot 7. -/
def rplwGuard : Guard := { slot := 7, pn := false, pred := 0, dup := false }

/-- Gang 0 lists context 1 and then context 0 of tile 0; the tasks of both say that they are member 1. The task of context 0,
which issues, has a wide variant. -/
def twoAsOne : State :=
  (((State.reset.setCtx 0 0 { phase := .running, task := some { member := 1, wide := some 0 } }).setCtx 0 1
    { phase := .running, task := some { member := 1 } }).modGang 0 fun x => { x with members := [.on 0 1, .on 0 0] })

theorem twoAsOne_admits : twoAsOne.Admits (.rplw rplwGuard 0) := by
  refine ⟨?_, ?_, ?_⟩ <;> rfl

/-- The task that issues. -/
def issuer : Task := { member := 1, wide := some 0 }

theorem twoAsOne_task : twoAsOne.me.task = some issuer := by decide +kernel

theorem twoAsOne_rplw : (twoAsOne.gang issuer.gang).rplw = false := by decide +kernel

theorem twoAsOne_member :
    (twoAsOne.gang issuer.gang).members[issuer.member]? = some (.on twoAsOne.myTile twoAsOne.myCtx) := by decide +kernel

/-- The issuing context runs on. -/
theorem runs_on : (rplwEff twoAsOne).me.phase = .running := by decide +kernel

/-- Refutes O40: in `twoAsOne` RPLW leaves the issuing member's context running. -/
theorem not_eventsChecksReplayTicks : ¬ Obligations.EventsChecksReplayTicks := by
  unfold Obligations.EventsChecksReplayTicks
  intro h
  obtain ⟨-, -, -, hrplw, -⟩ := h rplwGuard 0 twoAsOne
  obtain ⟨-, hends⟩ := hrplw twoAsOne_admits issuer twoAsOne_task
  obtain ⟨t, -, -, ht, hphase⟩ := hends twoAsOne_rplw
  have hended := hphase twoAsOne_member
  rw [ht, runs_on] at hended
  rcases hended with hended | hended <;> cases hended
end Sys2Proof.Machine.ReplacedMembers

/-! PROOF. The numbers that the homes of memory write (R10, R34, R203), and the bytes that the end of a task leaves (R124). -/

namespace Sys2Proof.Machine.HomeWrites
open Sys2Proof Sys2Proof.Machine.PerformedStores Sys2Proof.Machine.FieldWrites

/-- The cells of a number's bytes. -/
theorem cellsOf_leBytes (pa n v : Nat) :
    cellsOf [(pa, n)] (leBytes n v) = (List.range n).map fun k => (pa + k, BitVec.ofNat 8 (v / 256 ^ k)) := by
  have hlen : (leBytes n v).take n = leBytes n v := List.take_of_length_le (Nat.le_of_eq (Accumulators.length_leBytes n v))
  rw [cellsOf, cellsOf, hlen, leBytes_eq_map, List.append_nil, ← List.map_prod_left_eq_zip, List.map_map]
  rfl

/-- The value that cells of consecutive addresses give one. -/
theorem lastCell (f : Nat → Byte) (pa n a : Nat) :
    ((((List.range n).map fun k => (pa + k, f k)).filter fun x => x.1 == a).getLast?.map Prod.snd) =
      if pa ≤ a ∧ a < pa + n then some (f (a - pa)) else none := by
  induction n with
  | zero => rw [if_neg (by omega)]; rfl
  | succ n ih =>
    rw [List.range_succ, List.map_append, List.filter_append, List.getLast?_append, Option.map_or, ih, List.map_singleton]
    by_cases ha : pa + n = a
    · subst ha
      rw [List.filter_cons_of_pos (by simp), if_pos (by omega : pa ≤ pa + n ∧ pa + n < pa + (n + 1)), Nat.add_sub_cancel_left]
      rfl
    · rw [List.filter_cons_of_neg (by simpa using ha)]
      by_cases hin : pa ≤ a ∧ a < pa + n
      · rw [if_pos hin, if_pos (by omega)]
        rfl
      · rw [if_neg hin, if_neg (by omega)]
        rfl

/-- A number stored at its home stands in memory as one that is written there. -/
theorem performStore_leBytes (s : State) (pa n v a : Nat) :
    (s.performStore [] (cellsOf [(pa, n)] (leBytes n v))).rd8 a = (s.wrNat pa n v).rd8 a := by
  rw [performStore_wrote s _ a, cellsOf_leBytes, lastCell, rd8_wrNat]
  split <;> rfl

theorem rdNat_performStore (s : State) (pa n v : Nat) :
    (s.performStore [] (cellsOf [(pa, n)] (leBytes n v))).rdNat pa n = v % 256 ^ n :=
  (rdNat_congr fun k _ => performStore_leBytes s pa n v (pa + k)).trans (rdNat_wrNat s pa n v)

theorem rdBytes_performStore (s : State) (pa n v : Nat) :
    (s.performStore [] (cellsOf [(pa, n)] (leBytes n v))).rdBytes pa n = leBytes n v := by
  rw [rdBytes_eq_map, leBytes_eq_map]
  refine List.map_congr_left fun k hk => ?_
  have hk := List.mem_range.mp hk
  rw [← leBytes_eq_map, performStore_leBytes, rd8_wrNat, if_pos (by omega), Nat.add_sub_cancel_left]

theorem performStore_leBytes_other (s : State) {pa n a : Nat} (v : Nat) (h : a < pa ∨ pa + n ≤ a) :
    (s.performStore [] (cellsOf [(pa, n)] (leBytes n v))).rd8 a = s.rd8 a :=
  (performStore_leBytes s pa n v a).trans (rd8_wrNat_other s v h)

/-- An update of a signal at its home (R10). -/
theorem rd8_signalAt (s : State) (pa : Nat) (delta : Int) (status a : Nat) : (s.signalAt pa delta status).rd8 a =
    (s.wrNat pa 8 (signalMerge (BitVec.ofNat 64 (s.rdNat pa 8)) delta status).toNat).rd8 a :=
  congrArg (fun c : Core => FMap.get 0 c.mem a) ((touch_frame _ _).1.trans (noteWrite_frame _ _).1)

theorem rdNat_signalAt (s : State) (pa : Nat) (delta : Int) (status : Nat) : (s.signalAt pa delta status).rdNat pa 8 =
    (signalMerge (BitVec.ofNat 64 (s.rdNat pa 8)) delta status).toNat := by
  rw [rdNat_congr fun k _ => rd8_signalAt s pa delta status (pa + k), rdNat_wrNat]
  exact Nat.mod_eq_of_lt (BitVec.isLt _)

/-- What the end of a task leaves: memory. -/
theorem settle_mem (s : State) (t c : Nat) : (s.settle t c).core.mem = s.core.mem := by
  rcases SystemTraps.settle_cases s t c with h | ⟨st, h⟩
  · rw [h]
  · rw [h, State.freeContext]
    split
    · rfl
    · simp [SystemTraps.settleEnergy_core]

theorem settle_sameMem (s : State) (t c : Nat) : s.SameMem (s.settle t c) := fun a => by
  rw [State.rd8, settle_mem]
  rfl

end Sys2Proof.Machine.HomeWrites

/-! PROOF. COMMIT_STAGE_DEPARTURE (R19, R34, R219, R221). -/

namespace Sys2Proof.Machine.Departures
open Sys2Proof Sys2Proof.Machine.PerformedStores Sys2Proof.Machine.HomeWrites Sys2Proof.Machine.HandleOperations

/-! Which entry leaves (R19, R34). -/

section
variable {s : State} {t c : Nat} {e : CommitEntry}

theorem behindSync_iff : s.behindSync t e = false ↔ ∀ i, e.behind = some i → ∀ w ∈ (s.tile t).syncQ, w.id ≠ i := by
  unfold State.behindSync
  split
  next i hi => simp [hi, List.any_eq_false]
  next hi => simp [hi]

/-- No atomic of the context is on its way or at its home. -/
theorem noAtomic_iff : (s.core.homeQ.any fun h => h.tile == t && h.ctx == c) = false ↔
    ∀ h ∈ s.core.homeQ, ¬ (h.tile = t ∧ h.ctx = c) := by
  simp [List.any_eq_false]

theorem departing_iff : s.departing t c = some e ↔ (s.ctx t c).commitQ.head? = some e ∧ e.held = false ∧
    (∀ h ∈ s.core.homeQ, ¬ (h.tile = t ∧ h.ctx = c)) ∧ ∀ i, e.behind = some i → ∀ w ∈ (s.tile t).syncQ, w.id ≠ i := by
  rw [← noAtomic_iff, ← behindSync_iff]
  unfold State.departing
  split
  next hq => simp [hq]
  next x q hq =>
    rw [hq, List.head?_cons, Option.some_inj]
    by_cases hx : x = e
    · subst hx
      cases x.held <;> cases s.behindSync t x <;> cases s.core.homeQ.any fun h => h.tile == t && h.ctx == c <;> simp
    · simp [hx]

/-- The place of an arrival (R7). -/
theorem insertAtomic_split (a : HomeAtomic) (q : List HomeAtomic) : ∃ before after, q = before ++ after ∧
    insertAtomic a q = before ++ a :: after ∧ ∀ h ∈ after.head?, h.time = a.time ∧ a.tile < h.tile := by
  induction q with
  | nil => exact ⟨[], [], rfl, rfl, fun h hh => by cases hh⟩
  | cons x q ih =>
    rw [insertAtomic]
    split
    next hx => exact ⟨[], x :: q, rfl, rfl, fun h hh => by cases hh; exact hx⟩
    next =>
      obtain ⟨before, after, hq, hins, hhead⟩ := ih
      exact ⟨x :: before, after, by rw [hq]; rfl, by rw [hins]; rfl, hhead⟩

/-! What it does as it leaves (R34). -/

/-- The state without the entry. -/
theorem dropEntry_eq : s.dropEntry t c e =
    s.setCtx t c { s.ctx t c with commitQ := (s.ctx t c).commitQ.erase e, launchStall := false } := rfl

theorem exec_departs {u : State} (hd : s.departing t c = some e) (hs : s.stalls e = false)
    (hu : (s.dropEntry t c e).depart t c e = .ok u) : exec (.commitStageDeparture t c) s = .next (u.settle t c) := by
  rw [exec_commitStageDeparture, execCommitStageDeparture, hd]
  simp only [hs, Bool.false_eq_true, if_false, hu]

theorem exec_departs_trap {st : Stop} (hd : s.departing t c = some e) (hs : s.stalls e = false)
    (hu : (s.dropEntry t c e).depart t c e = .error st) :
    exec (.commitStageDeparture t c) s = ((s.dropEntry t c e).giveBack e).lateTrap t c e.bundle e.pc st := by
  rw [exec_commitStageDeparture, execCommitStageDeparture, hd]
  simp only [hs, Bool.false_eq_true, if_false, hu]

theorem exec_departs_none (hd : s.departing t c = none) : exec (.commitStageDeparture t c) s = .next s := by
  rw [exec_commitStageDeparture, execCommitStageDeparture, hd]

theorem exec_departs_stall (hd : s.departing t c = some e) (hs : s.stalls e = true) :
    exec (.commitStageDeparture t c) s = .next (s.modCtx t c fun x => { x with launchStall := true }) := by
  rw [exec_commitStageDeparture, execCommitStageDeparture, hd]
  simp only [hs, if_true]

end

section
variable {s : State} {t c : Nat} {e : CommitEntry}

/-- What leaves without a stall. -/
theorem stalls_of_free {r : Ref} {k : Nat} (h : e.op = .launchWait r k) (hfull : s.regionPlres k ≤ FMap.get 0 s.cp.plUsed k) :
    s.stalls e = true := by
  rw [State.stalls, h]
  dsimp only
  rw [State.plOwnFree, decide_eq_false (Nat.not_lt.mpr hfull)]
  rfl

/-- A block updated at its home, or JOB_ORDER. -/
theorem jobAt_some {pa : Nat} {f : BitVec 256 → Option (BitVec 256)} {w : BitVec 256}
    (h : f (BitVec.ofNat 256 (s.rdNat pa 32)) = some w) :
    s.jobAt pa [] f = .ok (s.performStore [] (cellsOf [(pa, 32)] (leBytes 32 w.toNat))) := by
  rw [State.jobAt, h]

theorem jobAt_none {pa : Nat} {f : BitVec 256 → Option (BitVec 256)} (h : f (BitVec.ofNat 256 (s.rdNat pa 32)) = none) :
    s.jobAt pa [] f = .error jobOrder := by
  rw [State.jobAt, h]

/-- An update of a block as it leaves: `f` is JOBRAISE's or JOBPOST's. -/
theorem exec_job {pa : Nat} {f : BitVec 256 → Option (BitVec 256)} (hd : s.departing t c = some e) (hs : s.stalls e = false)
    (hop : (s.dropEntry t c e).depart t c e = (s.dropEntry t c e).jobAt pa [] f)
    (hg : (s.dropEntry t c e).giveBack e = s.dropEntry t c e) :
    (∀ w, f (BitVec.ofNat 256 (s.rdNat pa 32)) = some w →
      ∃ u : State, exec (.commitStageDeparture t c) s = .next (u.settle t c) ∧ u.rdNat pa 32 = w.toNat) ∧
    (f (BitVec.ofNat 256 (s.rdNat pa 32)) = none → exec (.commitStageDeparture t c) s =
      .next (if ((s.dropEntry t c e).ctx t c).live = true
        then (s.dropEntry t c e).takeSystemTrap t c { code := 0x010C, slot := 7 } e.pc e.bundle else s.dropEntry t c e)) := by
  refine ⟨fun w hw => ⟨_, exec_departs hd hs (hop.trans (jobAt_some hw)), ?_⟩, fun hn => ?_⟩
  · rw [rdNat_performStore]
    exact Nat.mod_eq_of_lt w.isLt
  · rw [exec_departs_trap hd hs (hop.trans (jobAt_none hn)), hg]
    unfold jobOrder State.lateTrap
    dsimp only
    split <;> rfl

end

section
variable {s : State} {t c h n : Nat} {e : CommitEntry} {produce : Bool}

/-- The queue of handle operations does not see the commit stage. -/
theorem dropEntry_syncQ : ((s.dropEntry t c e).at t c).tile t = s.tile t := rfl

theorem dropEntry_me : ((s.dropEntry t c e).at t c).me =
    { s.ctx t c with commitQ := (s.ctx t c).commitQ.erase e, launchStall := false } :=
  FMap.get_set_same (Ctx.init c) s.core.ctxs (ctxKey t c) _

/-- A CBADV that leaves takes effect where nothing waits in the sync queue. -/
theorem depart_cbadv_of_free {v : Handle} (hop : e.op = .cbadv produce h n) (hq : (s.tile t).syncQ = [])
    (hv : ((s.ctx t c).handle h).advance produce n = some v) : (s.dropEntry t c e).depart t c e =
      .ok ((s.dropEntry t c e).setCtx t c (((s.dropEntry t c e).ctx t c).setHandle h v)) := by
  have hx : ((s.dropEntry t c e).at t c).me.syncOp (.cbadv produce h n) =
      .ok (((s.dropEntry t c e).ctx t c).setHandle h v) := by
    rw [syncOp_cbadv, dropEntry_me]
    have hh : ({ s.ctx t c with commitQ := (s.ctx t c).commitQ.erase e, launchStall := false } : Ctx).handle h =
      (s.ctx t c).handle h := rfl
    rw [hh, hv]
    exact congrArg (fun x : Ctx => Except.ok (x.setHandle h v)) dropEntry_me.symm
  rw [State.depart, hop]
  dsimp only
  rw [enterSync_of_free hq rfl hx]
  rfl

/-- Behind others it joins them. -/
theorem depart_cbadv_of_waits (hop : e.op = .cbadv produce h n) (hq : (s.tile t).syncQ ≠ []) :
    (s.dropEntry t c e).depart t c e = .ok ((((s.dropEntry t c e).at t c).pushSync e.bundle e.pc (.cbadv produce h n)).at
      s.core.cur.1 s.core.cur.2) := by
  rw [State.depart, hop]
  dsimp only
  rw [enterSync_of_waits (.inl hq)]
  rfl

end

/-- Settles O41: which entry leaves by the conditions one by one, and each kind of entry by what it does at its home. -/
theorem commitStage : Obligations.CommitStage := by
  unfold Obligations.CommitStage
  refine ⟨fun s t c e h => departing_iff.mp h, fun s t c e q hq hheld hatom hbehind => departing_iff.mpr
      ⟨by rw [hq]; rfl, hheld, hatom, hbehind⟩, fun a q => insertAtomic_split a q, fun s t c h => exec_departs_none h, ?_⟩
  intro s t c e hd s1 out order
  refine ⟨fun bs ds hop => ?_, fun bs u hop hu => ?_, fun pa cap hop => ?_, fun pa op size v x rd hop => ?_, fun pa v hop => ?_,
    fun pa p n hop => ?_, fun pa p n hop => ?_, fun m hop => ?_, fun p h n v hop hq hv => ?_, fun p h n hop hq => ?_,
    fun r k hop hfull => ?_⟩
  · exact exec_departs hd (by rw [State.stalls, hop]) (by rw [State.depart, hop]; rfl)
  · have hexec := exec_departs (u := (s.dropEntry t c e).performStore [] bs) hd (by rw [State.stalls, hop])
      (by rw [State.depart, hop])
    obtain rfl := Host.Outcome.next.inj (hexec.symm.trans hu)
    exact wrote_of_sameMem (performStore_wrote (s.dropEntry t c e) bs) (settle_sameMem _ t c)
  · refine ⟨_, exec_departs hd (by rw [State.stalls, hop]) (by rw [State.depart, hop]), ?_, ?_, fun a ha => ?_⟩
    · exact rdBytes_performStore _ pa 16 _
    · exact FMap.get_set_same ..
    · exact performStore_leBytes_other _ _ ha
  · intro h
    exact exec_departs hd (by rw [State.stalls, hop]) (by rw [State.depart, hop]; rfl)
  · refine ⟨_, exec_departs hd (by rw [State.stalls, hop]) (by rw [State.depart, hop]), ?_, fun a ha => ?_⟩
    · exact rdNat_signalAt _ pa _ _
    · exact (rd8_signalAt _ pa _ _ a).trans (FieldWrites.rd8_wrNat_other _ _ ha)
  · exact exec_job (f := fun v => jobRaise v p n) hd (by rw [State.stalls, hop]) (by rw [State.depart, hop])
      (by rw [State.giveBack, hop])
  · exact exec_job (f := fun v => jobPost v p n) hd (by rw [State.stalls, hop]) (by rw [State.depart, hop])
      (by rw [State.giveBack, hop])
  · exact exec_departs hd (by rw [State.stalls, hop]) (by rw [State.depart, hop]; rfl)
  · exact exec_departs hd (by rw [State.stalls, hop]) (depart_cbadv_of_free hop hq hv)
  · refine ⟨_, exec_departs hd (by rw [State.stalls, hop]) (depart_cbadv_of_waits hop hq), fun a => rfl, ?_⟩
    exact congrArg Tile.syncQ (FMap.get_set_same {} s.core.tiles t _)
  · exact exec_departs_stall hd (stalls_of_free hop hfull)
end Sys2Proof.Machine.Departures

/-! PROOF. Completions, atomics at their homes, the release of waits, traps after issue, records, walks and replays (R6, R7,
R12, R19, R202, R203, R214, R348, R356, R365, R366). -/

namespace Sys2Proof.Machine.TileHappenings
open Sys2Proof Sys2Proof.Machine.PerformedStores Sys2Proof.Machine.HomeWrites

/-! Completions (R19). -/

section
variable {s : State} {t : Nat} {e : Engine} {o : InFlight}

/-- The tile without a completed operation. -/
def completed (s : State) (t : Nat) (o : InFlight) : State := s.modTile t fun x => { x with inflight := x.inflight.erase o }

/-- Where no handle operation stands in the way, the oldest operation of the engine completes. -/
theorem exec_complete (ho : (s.tile t).inflight.find? (fun o => o.eng == e) = some o)
    (hsync : e = .sync → (s.tile t).syncQ = []) : exec (.engineOperationComplete t e) s =
      match (s.tile t).lateQ.find? fun w => w.isOf o with
      | none => .next ((completed s t o).settle t o.ctx)
      | some w => if s.lateWaits t o w then .next s
        else .next ((((completed s t o).lateEffect t w).modTile t fun x => { x with lateQ := x.lateQ.erase w }).settle t o.ctx) := by
  have hnone : (if e = .sync ∧ ∀ p ∈ (s.tile t).inflight.find? (fun o : InFlight => o.eng == e),
      (s.tile t).syncQ.any (fun w => w.isOf p) = true then (s.tile t).syncQ.head? else none) = none := by
    split
    next h => rw [hsync h.1]; rfl
    next => rfl
  rw [exec_engineOperationComplete, execEngineOperationComplete]
  dsimp only
  rw [hnone, ho]
  rfl

/-- Behind a handle operation at the head of the sync queue that is its own, that one executes. -/
theorem exec_complete_sync {w : SyncWait} {ws : List SyncWait} (hq : (s.tile t).syncQ = w :: ws)
    (ho : (s.tile t).inflight.find? (fun o => o.eng == .sync) = some o) (hw : w.isOf o = true) :
    exec (.engineOperationComplete t .sync) s = s.executeSync t w := by
  have hsome : (if Engine.sync = .sync ∧ ∀ p ∈ (s.tile t).inflight.find? (fun o : InFlight => o.eng == .sync),
      (s.tile t).syncQ.any (fun w => w.isOf p) = true then (s.tile t).syncQ.head? else none) = some w := by
    rw [if_pos, hq]
    · rfl
    · refine ⟨rfl, fun p hp => ?_⟩
      rw [ho] at hp
      obtain rfl := Option.mem_some_iff.mp hp
      rw [hq, List.any_cons, hw, Bool.true_or]
  rw [exec_engineOperationComplete, execEngineOperationComplete]
  dsimp only
  rw [hsome]

theorem executeSync_of_busy {w : SyncWait} (h : (s.at t w.ctx).syncFree w.op = false) : s.executeSync t w = .next s := by
  rw [State.executeSync, h]
  rfl

theorem executeSync_of_free {w : SyncWait} {ws : List SyncWait} {x : Ctx} (hq : (s.tile t).syncQ = w :: ws)
    (h : (s.at t w.ctx).syncFree w.op = true) (hx : (s.ctx t w.ctx).syncOp w.op = .ok x) : s.executeSync t w =
      .next (((s.setTile t { s.tile t with syncQ := ws, inflight := (s.tile t).inflight.filter fun p => !w.isOf p }).setCtx
        t w.ctx x).settle t w.ctx) := by
  have hctx : (s.modTile t fun x => { x with syncQ := x.syncQ.erase w, inflight := x.inflight.filter fun o => !w.isOf o }).ctx
      t w.ctx = s.ctx t w.ctx := rfl
  rw [State.executeSync, h]
  dsimp only
  rw [hctx, hx, State.modTile, hq, List.erase_cons_head]
  rfl

end

/-! An atomic at its home (R202, R203). -/

theorem acquireAt_frame (s : State) (scope pa : Nat) : (s.acquireAt scope pa).core.mem = s.core.mem ∧
    (s.acquireAt scope pa).core.ctxs = s.core.ctxs ∧ (s.acquireAt scope pa).core.homeQ = s.core.homeQ := by
  unfold State.acquireAt
  split <;> exact ⟨rfl, rfl, rfl⟩

/-- A store leaves the contexts and the atomics that have arrived. -/
theorem performStore_frame (s : State) (cs : List (Nat × Byte)) :
    (s.performStore [] cs).core.ctxs = s.core.ctxs ∧ (s.performStore [] cs).core.homeQ = s.core.homeQ := by
  have hfold : (cs.foldl (fun a (pa, v) => a.wrHome pa v) s).core.ctxs = s.core.ctxs ∧
      (cs.foldl (fun a (pa, v) => a.wrHome pa v) s).core.homeQ = s.core.homeQ :=
    List.foldlRecOn (motive := fun t : State => t.core.ctxs = s.core.ctxs ∧ t.core.homeQ = s.core.homeQ) cs _ ⟨rfl, rfl⟩
      fun t ht x _ => by
        dsimp only
        unfold State.wrHome
        dsimp only
        split
        · exact ht
        · exact ht
  have hcore : (s.performStore [] cs).core = (cs.foldl (fun a (pa, v) => a.wrHome pa v) s).core :=
    (touch_frame _ _).1.trans (noteWrite_frame _ _).1
  rw [hcore]
  exact hfold

/-- The value that an atomic leaves at its home. -/
def atomicValue (s : State) (h : HomeAtomic) : Nat :=
  atomicNew h.op (8 * 2 ^ h.size) (s.rdNat h.pa (2 ^ h.size)) h.v.toNat h.cmp.toNat

/-- The state in which an arrival has performed, its register not yet written. -/
def atHome (s : State) (h : HomeAtomic) : State :=
  (({ s with core := { s.core with homeQ := s.core.homeQ.erase h } } : State).performStore []
    (cellsOf [(h.pa, 2 ^ h.size)] (leBytes (2 ^ h.size) (atomicValue s h)))).acquireAt h.scope h.pa

theorem atHome_frame (s : State) (h : HomeAtomic) :
    (atHome s h).core.ctxs = s.core.ctxs ∧ (atHome s h).core.homeQ = s.core.homeQ.erase h := by
  obtain ⟨hctxs, hq⟩ := performStore_frame { s with core := { s.core with homeQ := s.core.homeQ.erase h } }
    (cellsOf [(h.pa, 2 ^ h.size)] (leBytes (2 ^ h.size) (atomicValue s h)))
  obtain ⟨-, hctxs', hq'⟩ := acquireAt_frame (({ s with core := { s.core with homeQ := s.core.homeQ.erase h } } : State).performStore []
    (cellsOf [(h.pa, 2 ^ h.size)] (leBytes (2 ^ h.size) (atomicValue s h)))) h.scope h.pa
  exact ⟨hctxs'.trans hctxs, hq'.trans hq⟩

theorem atHome_wrote (s : State) (h : HomeAtomic) : s.Wrote (atHome s h)
    ((List.range (2 ^ h.size)).map fun k => (h.pa + k, BitVec.ofNat 8 (atomicValue s h / 256 ^ k))) := by
  rw [← cellsOf_leBytes]
  refine wrote_of_sameMem (performStore_wrote { s with core := { s.core with homeQ := s.core.homeQ.erase h } } _) fun a => ?_
  exact congrArg (FMap.get 0 · a) (acquireAt_frame _ h.scope h.pa).1

/-- The oldest arrival of a slice performs, and the old value goes to its register. -/
theorem exec_atomic {s : State} {slice : Nat} {h : HomeAtomic} (hfind : s.core.homeQ.find? (fun h => h.slice == slice) = some h) :
    exec (.atomicHomePerform slice) s = .next (((atHome s h).modCtx h.tile h.ctx fun x =>
      { x with regs := x.regs.setS h.rd (BitVec.ofNat 64 (s.rdNat h.pa (2 ^ h.size))) }).settle h.tile h.ctx) := by
  rw [exec_atomicHomePerform, execAtomicHomePerform, hfind]
  rfl

/-! Waits (R214). -/

section
variable {s : State} {t c : Nat}

/-- A sleeping context to which no request has been delivered. -/
theorem exec_wait (hphase : (s.ctx t c).phase = .sleeping) (hpre : (s.ctx t c).preempt = none) : exec (.waitRelease t c) s =
    if s.waitOver t c then .next (s.modCtx t c fun y => { y with phase := .running, captured := none })
    else .next (s.arriveAsleep t c) := by
  rw [exec_waitRelease, execWaitRelease, hphase, hpre]
  rfl

theorem exec_wait_over (hphase : (s.ctx t c).phase = .sleeping) (hpre : (s.ctx t c).preempt = none)
    (hover : s.waitOver t c = true) :
    exec (.waitRelease t c) s = .next (s.setCtx t c { s.ctx t c with phase := .running, captured := none }) := by
  rw [exec_wait hphase hpre, hover]
  rfl

theorem exec_wait_lasts (hphase : (s.ctx t c).phase = .sleeping) (hpre : (s.ctx t c).preempt = none)
    (hwait : s.waitOver t c = false) : exec (.waitRelease t c) s = .next (s.arriveAsleep t c) := by
  rw [exec_wait hphase hpre, hwait]
  rfl

theorem arriveAsleep_frame (s : State) (t c : Nat) :
    (s.arriveAsleep t c).core.ctxs = s.core.ctxs ∧ (s.arriveAsleep t c).core.mem = s.core.mem := by
  unfold State.arriveAsleep
  split
  · rw [BarriersAndLaunches.barArrive_frame]
    exact ⟨rfl, rfl⟩
  · exact ⟨rfl, rfl⟩

end

/-! Walks (R356). -/

/-- A walk of a valid object with one extent. -/
theorem exec_walk {s : State} {t asid obj off : Nat} {e : BitVec 256} (ht : t < 512) (hwalk : s.walkObj asid obj = some e)
    (hmap : bitsOf e 83 82 = 0) : exec (.translationWalk t asid obj off) s = .next (s.fillObj t asid obj e) := by
  rw [exec_translationWalk, execTranslationWalk, hwalk]
  dsimp only
  rw [hmap, if_pos ht]
  rfl

/-! Records of a context (R7, R12). -/

theorem length_insertRec (r : EventRec) (rs : List EventRec) : (insertRec r rs).length = rs.length + 1 := by
  induction rs with
  | nil => rfl
  | cons q rs ih =>
    rw [insertRec]
    split
    · rfl
    · rw [List.length_cons, ih, List.length_cons]

/-- The time that a record is stamped with is the later one. -/
theorem stampRec_fst (s : State) (r : EventRec) : (s.stampRec r).1 =
    if r.time.toNat < FMap.get 0 s.sec.lastRecord r.source.toNat
      then { r with time := BitVec.ofNat 64 (FMap.get 0 s.sec.lastRecord r.source.toNat) } else r := by
  unfold State.stampRec
  dsimp only
  split
  next h => rw [Nat.max_eq_right (Nat.le_of_lt h)]
  next h => rw [Nat.max_eq_left (Nat.le_of_not_lt h), BitVec.ofNat_toNat, BitVec.setWidth_eq]

/-- Its source has used the time. -/
theorem stampRec_last (s : State) (r : EventRec) : FMap.get 0 (s.stampRec r).2.sec.lastRecord r.source.toNat =
    max r.time.toNat (FMap.get 0 s.sec.lastRecord r.source.toNat) + 1 := by
  unfold State.stampRec
  dsimp only
  rw [FMap.get_set_same]

section
variable {s : State} {t c : Nat} {r : EventRec}

theorem postTo_of_unparked (h : ∀ p ∈ s.cp.saves, p.2.parked = false) : s.postTo t c r = s.modCtx t c fun x => x.postEvent r := by
  have hnone : (s.cp.saves.find? fun (_, v) => v.parked && v.tile == t && v.ctxNo == c) = none :=
    List.find?_eq_none.mpr fun p hp => by simp [h p hp]
  rw [State.postTo, hnone]

theorem exec_record_of_known (hup : s.pow.down = false) (hpark : ∀ p ∈ s.cp.saves, p.2.parked = false)
    (hk : knownSource r.source.toNat = true) : exec (.eventRecordPost (.context t c) r) s =
      .next ((s.stampRec r).2.modCtx t c fun x => x.postEvent (s.stampRec r).1) := by
  rw [exec_eventRecordPost, execEventRecordPost, hup, hk]
  exact congrArg Host.Outcome.next (postTo_of_unparked (s := (s.stampRec r).2) hpark)

theorem exec_record_of_unknown (hk : knownSource r.source.toNat = false) :
    exec (.eventRecordPost (.context t c) r) s = .next s := by
  rw [exec_eventRecordPost, execEventRecordPost, hk, Bool.not_false, Bool.or_true]
  rfl

end

/-! Replays (R365, R366). -/

/-- The tile with one replay more. -/
def counted (s : State) (t : Nat) : State := s.modTile t fun x => { x with replays := x.replays + 1 }

/-- The context with a replayed bundle. -/
def replayedBundle (s : State) (t c : Nat) : State := s.modCtx t c fun x => { x with replayRun := x.replayRun + 1 }

/-- The tile with a replayed operation. -/
def replayed (s : State) (t : Nat) (o : InFlight) : State :=
  s.modTile t fun x => { x with inflight := x.inflight.map fun p => if p = o then { o with replayRun := o.replayRun + 1 } else p }

section
variable {s s1 : State} {t c n : Nat} {e : Option Engine}

/-- A replay that is not the eighth in succession is counted. -/
theorem exec_replay_few (hon : (s.island (t / 8)).state = .on) (hr : s.replayAt t c e = some (n, s1)) (hn : n ≠ 8) :
    exec (.timingErrorReplay { tile := t, ctx := c, engine := e }) s =
      .next (counted s1 t) := by
  rw [exec_timingErrorReplay, execTimingErrorReplay]
  dsimp only
  rw [hon, if_neg (by decide), hr]
  exact if_neg hn

/-- The eighth starts a storm. -/
theorem exec_replay_eighth (hon : (s.island (t / 8)).state = .on) (hr : s.replayAt t c e = some (8, s1)) :
    exec (.timingErrorReplay { tile := t, ctx := c, engine := e }) s =
      .next (((counted s1 t).event t 0x0120 0).modIsland (t / 8)
        fun x => { x with stormUntil := some (s.ns + 1000000) }) := by
  rw [exec_timingErrorReplay, execTimingErrorReplay]
  dsimp only
  rw [hon, if_neg (by decide), hr]
  rfl

theorem replayAt_bundle (h : (s.ctx t c).phase = .running) :
    s.replayAt t c none = some ((s.ctx t c).replayRun + 1, replayedBundle s t c) :=
  if_pos h

/-- Neither memory nor anything else of the context differs. -/
theorem replayedBundle_frame (s : State) (t c : Nat) : (counted (replayedBundle s t c) t).core.mem = s.core.mem ∧
    (counted (replayedBundle s t c) t).ctx t c = { s.ctx t c with replayRun := (s.ctx t c).replayRun + 1 } :=
  ⟨rfl, FMap.get_set_same (Ctx.init c) s.core.ctxs (ctxKey t c) _⟩

/-- Neither a context nor memory nor the tile's register space differs. -/
theorem replayed_frame (s : State) (t : Nat) (o : InFlight) : (counted (replayed s t o) t).core.ctxs = s.core.ctxs ∧
    (counted (replayed s t o) t).core.mem = s.core.mem ∧
    ((counted (replayed s t o) t).tile t).replays = (s.tile t).replays + 1 ∧
    ((counted (replayed s t o) t).tile t).space = (s.tile t).space := by
  rw [counted, State.modTile_tile, replayed, State.modTile_tile]
  exact ⟨rfl, rfl, rfl, rfl⟩

theorem replayAt_engine {e : Engine} {o : InFlight} (h : (s.tile t).inflight.find? (fun o => o.eng == e) = some o) :
    s.replayAt t c (some e) = some (o.replayRun + 1, replayed s t o) := by
  rw [State.replayAt, h]
  rfl

/-- A storm begins: nothing of the tiles, the contexts or memory changes. -/
theorem storm_frame (s : State) (src i w : Nat) :
    (((s.event src 0x0120 0).modIsland i fun x => { x with stormUntil := some w }).island i).stormUntil = some w ∧
      ((s.event src 0x0120 0).modIsland i fun x => { x with stormUntil := some w }).core = s.core := by
  obtain ⟨sec, hsec⟩ := ClocksAndEnergy.event_frame s src 0x0120 0
  refine ⟨by rw [ClocksAndEnergy.modIsland_island], ?_⟩
  rw [hsec]
  rfl

end

theorem exec_storm_over {s : State} {i w : Nat} (hw : (s.island i).stormUntil = some w) (hle : w ≤ s.now / 65536) :
    exec (.stormPeriodEnd i) s = .next (s.modIsland i fun x => { x with stormUntil := none }) := by
  rw [exec_stormPeriodEnd, execStormPeriodEnd, hw]
  exact if_pos hle

theorem exec_storm_lasts {s : State} {i w : Nat} (hw : (s.island i).stormUntil = some w) (hlt : s.now / 65536 < w) :
    exec (.stormPeriodEnd i) s = .next s := by
  rw [exec_stormPeriodEnd, execStormPeriodEnd, hw]
  exact if_neg (Nat.not_le.mpr hlt)

/-- Settles O42: each happening by its own rule. -/
theorem tileEvents : Obligations.TileEvents := by
  unfold Obligations.TileEvents
  intro s
  refine ⟨?_, ?_, ?_, ?_, ?_, ?_, ?_, ?_, ?_, ?_⟩
  · intro t e o ho hsync done
    refine ⟨fun hnone => ?_, fun w hw => ⟨fun hwait => ?_, fun hgo => ?_⟩⟩
    · rw [exec_complete ho hsync, List.find?_eq_none.mpr fun w hw => Bool.eq_false_iff.mp (hnone w hw)]
      rfl
    · rw [exec_complete ho hsync, hw]
      exact if_pos hwait
    · rw [exec_complete ho hsync, hw]
      exact if_neg (Bool.eq_false_iff.mp hgo)
  · intro t w ws o hq ho hw u
    rw [exec_complete_sync hq ho hw]
    refine ⟨fun h a b hop hbusy => executeSync_of_busy ?_, fun hfree x hx => executeSync_of_free hq ?_ hx⟩
    · rw [hop, State.syncFree, hbusy]
      rfl
    · cases hop : w.op with
      | cbset h a b => rw [State.syncFree, hfree h a b hop]; rfl
      | cbadv p h n => rfl
  · intro slice h hfind n m new
    obtain ⟨hctxs, hq⟩ := atHome_frame s h
    refine ⟨_, exec_atomic hfind, atHome_wrote s h, hq, ?_⟩
    rw [State.modCtx_ctx, State.ctx, hctxs]
    rfl
  · intro t c hphase hpre
    refine ⟨fun hover => exec_wait_over hphase hpre hover, fun hwait => ?_⟩
    obtain ⟨hctxs, hmem⟩ := arriveAsleep_frame s t c
    refine ⟨_, exec_wait_lasts hphase hpre hwait, ?_, fun a => congrArg (FMap.get 0 · a) hmem⟩
    rw [State.ctx, hctxs]
    exact hphase
  · intro t c r hlive htask hcode hreason tr
    have hreported : reported r = true := by
      unfold reported
      by_cases hop : r.code = trapILLEGAL_OP
      · obtain ⟨hlo, hhi⟩ := hreason hop
        rw [decide_eq_true hlo, decide_eq_true hhi, Bool.and_self, Bool.or_true]
      · rw [bne_iff_ne.mpr hop, Bool.true_or]
    rw [exec_systemTrap, execSystemTrap, hlive, Option.isSome_iff_ne_none.mpr htask, List.contains_iff_mem.mpr hcode, hreported]
    rfl
  · intro t c r hup hpark last r'
    have hstamp : (s.stampRec r).1 = r' := stampRec_fst s r
    refine ⟨exec_record_of_unknown, fun hk hroom => ?_, fun hk hfull => ?_⟩
    · refine ⟨_, exec_record_of_known hup hpark hk, ?_⟩
      have hctx : ((s.stampRec r).2.ctx t c).postEvent (s.stampRec r).1 =
          { s.ctx t c with events := insertRec r' (s.ctx t c).events } := by
        rw [hstamp]
        exact if_pos hroom
      rw [State.modCtx_ctx, hctx]
      refine ⟨ClocksAndEnergy.mem_insertRec.mpr (.inl rfl), length_insertRec r' _, ?_, fun a => rfl⟩
      exact stampRec_last s r
    · refine ⟨_, exec_record_of_known hup hpark hk, ?_⟩
      have hctx : ((s.stampRec r).2.ctx t c).postEvent (s.stampRec r).1 = { s.ctx t c with
          firstDrop := if (s.ctx t c).drops = 0 then r'.time else (s.ctx t c).firstDrop,
          drops := if (s.ctx t c).drops = BitVec.allOnes 32 then (s.ctx t c).drops else (s.ctx t c).drops + 1 } := by
        rw [hstamp]
        exact if_neg (by rw [show ((s.stampRec r).2.ctx t c).events = (s.ctx t c).events from rfl]; omega)
      rw [State.modCtx_ctx, hctx]
      exact ⟨rfl, fun hmax => if_neg hmax, fun a => rfl⟩
  · intro t asid obj off e ht hwalk hmap hnew hroom
    refine ⟨s.fillObj t asid obj e, exec_walk ht hwalk hmap, MemoryPort.lookObj_fillObj s t asid obj e ?_, fun a => ?_⟩
    · have hnone : (s.tile t).tlbObjs.find? (fun x => x.asid == asid && x.obj == obj) = none :=
        List.find?_eq_none.mpr fun x hx => by simpa using hnew x hx
      rw [State.lookObj, hnone]
      exact hwalk
    · rw [State.rd8, (MemoryPort.portOnly_fillObj s t asid obj e).core.1]
      rfl
  · intro t c hon hrun
    have hr := replayAt_bundle (t := t) (c := c) hrun
    obtain ⟨hmem, hctx⟩ := replayedBundle_frame s t c
    refine ⟨fun hmany => exec_replay_few hon hr (by omega), fun h7 => ?_⟩
    rw [h7] at hr hctx
    obtain ⟨hstorm, hcore⟩ := storm_frame (counted (replayedBundle s t c) t) t (t / 8) (s.ns + 1000000)
    refine ⟨_, exec_replay_eighth hon hr, hstorm, fun a => ?_, ?_⟩
    · rw [State.rd8, hcore, hmem, State.rd8]
    · rw [State.ctx, hcore]
      exact hctx
  · intro t c e o hon ho
    have hr := replayAt_engine (c := c) ho
    obtain ⟨hctxs, hmem, hcount, hspace⟩ := replayed_frame s t o
    by_cases h7 : o.replayRun = 7
    · rw [h7] at hr
      obtain ⟨hstorm, hcore⟩ := storm_frame (counted (replayed s t o) t) t (t / 8) (s.ns + 1000000)
      refine ⟨_, exec_replay_eighth hon hr, (congrArg Core.ctxs hcore).trans hctxs, fun a => ?_, ?_, ?_, fun _ => hstorm⟩
      · rw [State.rd8, hcore, hmem, State.rd8]
      · rw [State.tile, hcore]
        exact hcount
      · rw [State.tile, hcore]
        exact hspace
    · exact ⟨_, exec_replay_few hon hr (by omega), hctxs, fun a => congrArg (FMap.get 0 · a) hmem, hcount, hspace,
        fun h => absurd h h7⟩
  · intro i w hw
    refine ⟨fun hle => ⟨_, exec_storm_over hw hle, ?_, rfl⟩, fun hlt => exec_storm_lasts hw hlt⟩
    rw [ClocksAndEnergy.modIsland_island]
end Sys2Proof.Machine.TileHappenings

/-! PROOF. A step runs the operation that the bundle at the program counter decodes to, or the event that the agenda names
(R17, R18, R21, R68, R69, R424). -/

namespace Sys2Proof.Machine.IssuedBundles
open Sys2Proof

/-! The agenda. -/

section
variable {s : State} {dt : Nat} {ms : List Move}

theorem step_happen {i : Instr} (h : s.agenda = .happen dt i :: ms) : step s = if inBundle i then
      .next (State.elapse { s with agenda := ms } dt)
    else (State.elapse { s with agenda := ms } dt).orWait (exec i (State.elapse { s with agenda := ms } dt)) := by
  rw [step, h]
  rfl

theorem step_issue {t : Nat} (h : s.agenda = .issue dt t :: ms) :
    step s = (State.elapse { s with agenda := ms } dt).issueCycle t := by
  rw [step, h]
  rfl

end

/-! The choice among the contexts of a tile (R18, R424). -/

section
variable {s : State} {t c : Nat}

theorem look_of_not_issues (h : (s.ctx t c).issues = false) : s.look t c = .waits := by
  rw [State.look, h]
  rfl

theorem check_of_not_issues (h : (s.ctx t c).issues = false) : s.check t c = .next s := by
  rw [State.check, look_of_not_issues h]

theorem checks_of_not_issues {cs : List Nat} (h : ∀ k ∈ cs, (s.ctx t k).issues = false) : s.checks t cs = .next s := by
  induction cs with
  | nil => rfl
  | cons k cs ih =>
    rw [State.checks, check_of_not_issues (h k List.mem_cons_self)]
    exact ih fun j hj => h j (List.mem_cons_of_mem _ hj)

theorem checks_append (s : State) (t : Nat) (cs ds : List Nat) : s.checks t (cs ++ ds) = match s.checks t cs with
    | .next s1 => s1.checks t ds
    | r => r := by
  induction cs generalizing s with
  | nil => rfl
  | cons c cs ih =>
    rw [List.cons_append, State.checks, State.checks]
    split
    next s1 _ => exact ih s1
    next hstop =>
      split
      next s1 h => exact absurd h (hstop s1)
      next => rfl

/-- The state in which the checks of a ready context have passed. -/
def marked (s : State) (t c : Nat) : State := s.modCtx t c fun x => { x with checked := true }

theorem marked_ctx_other {k : Nat} (h : k ≠ c) : (marked s t c).ctx t k = s.ctx t k :=
  s.setCtx_ctx_other _ fun hk => h (Nat.add_left_cancel hk)

/-- Where one context of a tile may issue and its checks pass, it is marked. -/
theorem checks_of_ready {r : State} {w : BitVec 512} {ops : List (Nat × Instr)} {q : Bool} (hc : c < 4)
    (hother : ∀ k < 4, k ≠ c → (s.ctx t k).issues = false) (hlook : s.look t c = .ready r w ops q) :
    s.checks t (List.range 4) = .next (marked s t c) := by
  have hsplit : List.range 4 = List.range c ++ c :: (List.range 4).drop (c + 1) := by
    interval_cases c <;> rfl
  have hbefore : s.checks t (List.range c) = .next s := checks_of_not_issues fun k hk =>
    have hk := List.mem_range.mp hk
    hother k (by omega) (by omega)
  have hcheck : s.check t c = .next (marked s t c) := by
    rw [State.check, hlook]
    rfl
  have hafter : (marked s t c).checks t ((List.range 4).drop (c + 1)) = .next (marked s t c) := by
    refine checks_of_not_issues fun k hk => ?_
    have hne : k < 4 ∧ k ≠ c := by
      refine ⟨List.mem_range.mp (List.mem_of_mem_drop hk), ?_⟩
      rintro rfl
      have hnodup : (List.range k ++ k :: (List.range 4).drop (k + 1)).Nodup := hsplit ▸ List.nodup_range
      exact (List.nodup_cons.mp (List.nodup_append.mp hnodup).2.1).1 hk
    rw [marked_ctx_other hne.2]
    exact hother k hne.1 hne.2
  rw [hsplit, checks_append, hbefore]
  dsimp only
  rw [State.checks, hcheck]
  exact hafter

/-- The one context of a tile that is ready is the one that issues. -/
theorem chosen_of_single (hc : c < 4) (h : ∀ k < 4, s.isReady t k = decide (k = c)) : s.chosen t = some c := by
  obtain ⟨n, hn, hrs⟩ : ∃ n, n ≠ 0 ∧
      ((List.range 4).map fun k => ((s.tile t).q + k) % 4).filter (fun c => s.isReady t c) = List.replicate n c := by
    refine ⟨_, ?_, List.eq_replicate_iff.mpr ⟨rfl, fun k hk => ?_⟩⟩
    · refine Nat.ne_of_gt (List.length_pos_of_mem (a := c) (List.mem_filter.mpr ⟨?_, by rw [h c hc]; simp⟩))
      refine List.mem_map.mpr ⟨(c + 4 - (s.tile t).q % 4) % 4, List.mem_range.mpr (by omega), by omega⟩
    · obtain ⟨hmem, hready⟩ := List.mem_filter.mp hk
      obtain ⟨j, -, rfl⟩ := List.mem_map.mp hmem
      rw [h _ (Nat.mod_lt _ (by omega))] at hready
      exact of_decide_eq_true hready
  obtain ⟨m, rfl⟩ := Nat.exists_eq_succ_of_ne_zero hn
  rw [State.chosen, hrs, List.map_replicate, List.min?_replicate_of_pos (Nat.succ_pos m), List.replicate_succ, List.find?_cons_of_pos]
  rw [Option.getD_some, beq_self_eq_true]

end

/-! One issue cycle. -/

section
variable {a r0 r : State} {t c : Nat} {w w0 : BitVec 512} {ops ops0 : List (Nat × Instr)} {q q0 : Bool}

/-- The ready context's turn is over. -/
def turned (s : State) (t c : Nat) : State := s.modTile t fun x => { x with q := (c + 1) % 4 }

/-- A tile whose one context is ready, before and after its checks, issues that context's bundle. -/
theorem issueCycle_of_single (hup : a.pow.down = false) (hon : (a.island (t / 8)).state = .on) (hc : c < 4)
    (hyield : ∀ k < 4, (a.ctx t k).yieldNext = false) (hother : ∀ k < 4, k ≠ c → (a.ctx t k).issues = false)
    (hlook0 : a.look t c = .ready r0 w0 ops0 q0) (hlook : (marked a t c).look t c = .ready r w ops q) :
    a.issueCycle t = (marked a t c).issued t c ((turned r t c).issueBundle w ops q) := by
  have hys : (List.range 4).filter (fun c => (a.ctx t c).yieldNext) = [] :=
    List.filter_eq_nil_iff.mpr fun k hk => by rw [hyield k (List.mem_range.mp hk)]; exact Bool.false_ne_true
  have hchosen : (marked a t c).chosen t = some c := by
    refine chosen_of_single hc fun k hk => ?_
    by_cases hkc : k = c
    · subst hkc
      rw [State.isReady, hlook]
      simp
    · rw [State.isReady, look_of_not_issues (by rw [marked_ctx_other hkc]; exact hother k hk hkc)]
      simp [hkc]
  rw [State.issueCycle, hup, hon]
  dsimp only
  rw [if_neg (by decide), hys, checks_of_ready hc hother hlook0]
  dsimp only
  rw [hchosen]
  dsimp only
  rw [hlook]
  rfl

/-- What the step then answers. -/
theorem issued_next {s v : State} {o : Out} (ho : o = .next v) :
    (v.pow.blocked = false → s.issued t c o = .next v) ∧ (v.pow.blocked = true → s.issued t c o = .next (turned (s.waitFor v) t c)) := by
  rw [ho]
  refine ⟨fun h => ?_, fun h => ?_⟩
  · rw [State.issued, h]
    rfl
  · rw [State.issued, h]
    rfl

end

/-! A bundle of one operation. -/

section
variable {s u : State} {n : Nat} {i : Instr} {w : BitVec 512} {q : Bool}

theorem yields_of_not_commitsFirst (h : commitsFirst i = false) : s.yields [(n, i)] = false := by
  rw [State.yields, List.any_cons, List.any_nil, Bool.or_false]
  dsimp only
  split
  · cases h
  · rfl

theorem precommits_of_not_commitsFirst (h : commitsFirst i = false) : s.precommits [(n, i)] = false := by
  rw [State.precommits, List.any_cons, List.any_nil, Bool.or_false]
  dsimp only
  rw [h, Bool.false_and]

/-- Slot 0 has run already. -/
theorem issueBundle_slot0 (hc : commitsFirst i = false) (hgo : (s.countIssue [(0, i)]).me.going = true) :
    s.issueBundle w [(0, i)] q = .next ((s.countIssue [(0, i)]).finishBundle w false q) := by
  have hrun : (s.countIssue [(0, i)]).runSlots [(0, i)] = .next (s.countIssue [(0, i)]) := by
    rw [State.runSlots, hgo]
    rfl
  rw [State.issueBundle, hrun, yields_of_not_commitsFirst hc]
  dsimp only
  rw [if_pos hgo]

/-- The operation in its engine's queue (R19). -/
def queued (s u : State) (n : Nat) (i : Instr) : State :=
  match (s.foot i).inFlight u.myCtx u.me.bundleNo n with
  | some o => u.modTile u.myTile fun x => { x with inflight := x.inflight ++ [o] }
  | none => u

theorem queued_me (s u : State) (n : Nat) (i : Instr) : (queued s u n i).me = u.me := by
  unfold queued
  split <;> rfl

/-- Another slot runs, and its operation enters its engine's queue. -/
theorem issueBundle_slot (hc : commitsFirst i = false) (hw : onlyWaits i = false) (hn : n ≠ 0)
    (hgo : (s.countIssue [(n, i)]).me.going = true) (hexec : exec i (s.countIssue [(n, i)]) = .next u)
    (hu : u.me.going = true) :
    s.issueBundle w [(n, i)] q = .next ((queued (s.countIssue [(n, i)]) u n i).finishBundle w false q) := by
  have hslot : (s.countIssue [(n, i)]).runSlot n i = .next (queued (s.countIssue [(n, i)]) u n i) := by
    rw [State.runSlot, hw, if_neg Bool.false_ne_true, hexec]
    dsimp only
    rw [if_pos hu]
    rfl
  have hrun : (s.countIssue [(n, i)]).runSlots [(n, i)] = .next (queued (s.countIssue [(n, i)]) u n i) := by
    rw [State.runSlots, hgo, if_neg (by decide), if_neg hn, hslot]
    rfl
  rw [State.issueBundle, hrun, yields_of_not_commitsFirst hc]
  dsimp only
  rw [if_pos (by rw [queued_me]; exact hu)]

end

/-! What the issue stage finds (R424). -/

section
variable {b s0 u : State} {t c n : Nat} {w : BitVec 512} {d : BitVec 8} {i : Instr}

/-- The state in which the bundle is looked at. -/
def atBundle (s0 : State) (t c : Nat) : State := (s0.at t c).modMe fun x => { x with captured := none }

/-- A bundle of one operation that nothing holds back is checked. -/
theorem look_of_single (hissues : (b.ctx t c).issues = true) (hcode : b.codeWaits t c = false)
    (hfetch : b.fetch t c = .ok (s0, w, d)) (hlegal : illegalBundle w = false) (hrb : (decodeHeader w).rb = false)
    (hops : decodeBundle w d = [(n, .ok i)]) (hc : commitsFirst i = false)
    (hheld : (atBundle s0 t c).bundleHeld t c (match opAt [(n, .ok i)] 0 with
      | some (.ok i) => if (atBundle s0 t c).discarded i then none else some i
      | _ => none) (footsOf (atBundle s0 t c) ((atBundle s0 t c).preview [(n, .ok i)]) [(n, i)]) w = false) :
    b.look t c = State.lookChecked (atBundle s0 t c) (atBundle s0 t c) w [(n, .ok i)] (atBundle s0 t c) := by
  have henter : (atBundle s0 t c).enter w false = atBundle s0 t c := by
    rw [State.enter, hrb]
    rfl
  have hpre : ((atBundle s0 t c).preview [(n, .ok i)]).precommits (decodedOps [(n, .ok i)]) = false :=
    precommits_of_not_commitsFirst hc
  rw [State.look, hissues, hcode, if_neg (by decide), hfetch]
  dsimp only
  rw [hops]
  rw [show (s0.at t c).modMe _ = atBundle s0 t c from rfl, hpre, henter, hlegal]
  rw [if_neg (by rw [Bool.not_eq_true]; exact hheld)]
  rfl

/-- Slot 0 runs before its bundle issues. -/
theorem lookChecked_slot0 {s1 : State} (henc : s1.encStop i = .ok ()) (hrun : s1.runStop i = .ok ()) (hexec : exec i s1 = .next u) :
    State.lookChecked s1 s1 w [(0, .ok i)] s1 = .ready u.capture w [(0, i)] s1.me.region.isSome := by
  have hscalar : s1.runScalar (opAt [(0, .ok i)] 0) = .ok u := by
    rw [show opAt [((0 : Nat), (.ok i : Except DecodeError Instr))] 0 = some (.ok i) from rfl, State.runScalar, henc, hrun, hexec]
    rfl
  have hchecks : u.capture.firstChecks [(0, .ok i)] = .ok () := by
    rw [State.firstChecks]
    split <;> rfl
  rw [State.lookChecked, hscalar]
  dsimp only
  rw [hchecks]
  rfl

/-- The operation of another slot is looked at in the registers that it captures. -/
theorem lookChecked_slot {s1 : State} (hn : n ≠ 0) (hchecked : s1.me.checked = true)
    (h7 : n = 7 → s1.capture.discarded i = true ∨ waitReady i s1.capture = .ok true) :
    State.lookChecked s1 s1 w [(n, .ok i)] s1 = .ready s1.capture w [(n, i)] s1.me.region.isSome := by
  have hop : ∀ m, opAt [(n, (.ok i : Except DecodeError Instr))] m = if n = m then some (.ok i) else none := fun m => by
    by_cases hm : n = m
    · subst hm
      simp [opAt]
    · simp [opAt, hm]
  have hscalar : s1.runScalar (opAt [(n, .ok i)] 0) = .ok s1 := by
    rw [hop, if_neg hn]
    rfl
  have hchecks : s1.capture.firstChecks [(n, .ok i)] = .ok () := by
    rw [State.firstChecks, State.capture, State.modMe_me]
    exact if_pos hchecked
  rw [State.lookChecked, hscalar]
  dsimp only
  rw [hchecks, hop]
  dsimp only
  by_cases hn7 : n = 7
  · rw [if_pos hn7]
    dsimp only
    rcases h7 hn7 with hdis | hready
    · rw [if_pos hdis]
      rfl
    · rw [hready]
      split <;> rfl
  · rw [if_neg hn7]
    rfl

/-- A fetch changes the tile's caches alone (R356). -/
theorem fetch_ctx (hfetch : b.fetch t c = .ok (s0, w, d)) : s0.ctx t c = b.ctx t c := by
  rw [State.fetch] at hfetch
  split at hfetch
  · cases hfetch
  next s1 ps _ htr =>
    obtain ⟨rfl, -⟩ := Prod.mk.inj (Except.ok.inj hfetch)
    obtain ⟨-, hctxs, -⟩ := (MemoryPort.portOnly_translate htr).core
    rw [State.ctx, hctxs, State.ctx]

theorem atBundle_going (hissues : (b.ctx t c).issues = true) (hfetch : b.fetch t c = .ok (s0, w, d)) :
    (atBundle s0 t c).me.going = true := by
  have hrun : (b.ctx t c).phase = .running := by
    simp only [Ctx.issues, Bool.and_eq_true, beq_iff_eq] at hissues
    exact hissues.1.1.1.1
  rw [atBundle, State.modMe_me, Ctx.going]
  have hat : (s0.at t c).me = s0.ctx t c := rfl
  rw [hat, fetch_ctx hfetch]
  dsimp only
  rw [hrun]
  rfl

end

section
variable {s : State} {t c : Nat} {ops : List (Nat × Instr)}

theorem countIssue_core (s : State) (ops : List (Nat × Instr)) : (s.countIssue ops).core = s.core := by
  unfold State.countIssue
  dsimp only
  split <;> rfl

/-- Neither the turn nor what issue counts changes the issuing context. -/
theorem counted_me : ((turned s t c).countIssue ops).me = s.me := by
  rw [State.me, State.ctx, countIssue_core]
  rfl

theorem capture_going (h : s.me.going = true) : s.capture.me.going = true := by
  rw [State.capture, State.modMe_me]
  exact h

end

/-- Settles O58: an event of the agenda as it stands there; a bundle by what the issue stage finds. -/
theorem stepRuns : Obligations.StepRuns := by
  unfold Obligations.StepRuns
  refine ⟨?_, ?_⟩
  · intro s dt i ms hagenda b
    have hstep := step_happen hagenda
    refine ⟨fun hin => hstep.trans (if_pos hin), fun hin => ?_⟩
    rw [hstep, if_neg (Bool.eq_false_iff.mp hin)]
    refine ⟨fun u hu hb => ?_, fun u hu hb => ?_, fun hno => ?_⟩
    · rw [show State.elapse { s with agenda := ms } dt = b from rfl, hu, State.orWait, hb]
      rfl
    · rw [show State.elapse { s with agenda := ms } dt = b from rfl, hu, State.orWait, hb]
      rfl
    · rw [show State.elapse { s with agenda := ms } dt = b from rfl, State.orWait]
      exact hno
  · intro s s0 r0 dt t c n ms w d i q0 a b s1 turn ends steps hagenda hup hon hc hone hlook0 hissues hcode hfetch hlegal hrb hrc hpp
      hops hcommits hwaits hchecked
    have hstep : step s = a.issueCycle t := step_issue hagenda
    have hyield : ∀ k < 4, (a.ctx t k).yieldNext = false := fun k hk => (hone k hk).1
    have hother : ∀ k < 4, k ≠ c → (a.ctx t k).issues = false := fun k hk => (hone k hk).2
    have hgo : s1.me.going = true := atBundle_going hissues hfetch
    refine ⟨fun u hn hheld henc hrun hexec hu hcur => ?_, fun u hn hheld h7 hexec hu => ?_⟩
    · subst hn
      have hlook : b.look t c = .ready u.capture w [(0, i)] s1.me.region.isSome :=
        (look_of_single hissues hcode hfetch hlegal hrb hops hcommits hheld).trans (lookChecked_slot0 henc hrun hexec)
      have hbundle : (turned u.capture t c).issueBundle w [(0, i)] s1.me.region.isSome = .next (ends (turn u.capture)) :=
        issueBundle_slot0 hcommits (by rw [counted_me]; exact capture_going hu)
      simp only [steps]
      rw [hstep, issueCycle_of_single hup hon hc hyield hother hlook0 hlook]
      exact issued_next hbundle
    · have hscalar : opAt [(n, (.ok i : Except DecodeError Instr))] 0 = none := by simp [opAt, hn]
      have hheld' : s1.bundleHeld t c (match opAt [(n, .ok i)] 0 with
          | some (.ok i) => if s1.discarded i then none else some i
          | _ => none) (footsOf s1 (s1.preview [(n, .ok i)]) [(n, i)]) w = false := by
        rw [State.preview, hscalar, footsOf, List.map_singleton]
        dsimp only
        rw [if_neg hn]
        exact hheld
      have hlook : b.look t c = .ready s1.capture w [(n, i)] s1.me.region.isSome :=
        (look_of_single hissues hcode hfetch hlegal hrb hops hcommits hheld').trans (lookChecked_slot hn hchecked h7)
      have hbundle := issueBundle_slot (w := w) (q := s1.me.region.isSome) (s := turned s1.capture t c) hcommits hwaits hn
        (by rw [counted_me]; exact capture_going hgo) hexec hu
      simp only [steps]
      rw [hstep, issueCycle_of_single hup hon hc hyield hother hlook0 hlook]
      exact issued_next hbundle
end Sys2Proof.Machine.IssuedBundles

/-! PROOF. The functions of the state that leave memory as it was, in the order of the model's files. Nothing but a write of
bytes (R354), a loss of volatile stores (R367) or of power (R376) and a change of the package's number touches it. -/

namespace Sys2Proof.Machine.MemoryFrames

open StreamsAndArms

@[simp] theorem ite_core_mem (c : Prop) [Decidable c] (a b : State) :
    (if c then a else b).core.mem = if c then a.core.mem else b.core.mem := apply_ite (fun s : State => s.core.mem) c a b

@[simp] theorem foldl_core_mem {α : Type} (f : State → α → State) (hf : ∀ s x, (f s x).core.mem = s.core.mem) (xs : List α)
    (s : State) : (xs.foldl f s).core.mem = s.core.mem := foldl_mem f hf xs s

theorem bind_eq_ok {ε α β : Type} {x : Except ε α} {f : α → Except ε β} {b : β} :
    x >>= f = .ok b ↔ ∃ a, x = .ok a ∧ f a = .ok b := by
  refine ⟨except_bind_ok, ?_⟩
  rintro ⟨a, rfl, h⟩
  exact h

/-! Of `Sys2Proof/Machine/Mem.lean`. -/

@[simp] theorem fillObj_core_mem (s : State) (t asid obj : Nat) (e : BitVec 256) :
    (s.fillObj t asid obj e).core.mem = s.core.mem := by
  unfold State.fillObj
  (repeat' split) <;> simp

@[simp] theorem fillPage_core_mem (s : State) (t : Nat) (p : TlbPage) : (s.fillPage t p).core.mem = s.core.mem := by
  unfold State.fillPage
  (repeat' split) <;> simp

theorem translate_core_mem (s : State) (t asid slot obj kind : Nat) (rs any : List Nat) (off len : Nat)
    (res : State × List Piece × List Nat) :
    s.translate t asid slot obj kind rs any off len = .ok res → res.1.core.mem = s.core.mem :=
  fun h => (MemoryPort.portOnly_translate h).core.1

/-! Of `Sys2Proof/Machine/Ops.lean`. -/

@[simp] theorem modRegs_core_mem (s : State) (f : Regs → Regs) : (s.modRegs f).core.mem = s.core.mem := by rfl

@[simp] theorem putS_core_mem (s : State) (n : Nat) (v : Word) : (s.putS n v).core.mem = s.core.mem := by rfl

@[simp] theorem putP_core_mem (s : State) (n : Nat) (v : Mask) : (s.putP n v).core.mem = s.core.mem := by rfl

@[simp] theorem putA_core_mem (s : State) (n : Nat) (v : Cap) : (s.putA n v).core.mem = s.core.mem := by rfl

@[simp] theorem putB_core_mem (s : State) (n : Nat) (v : Off) : (s.putB n v).core.mem = s.core.mem := by rfl

@[simp] theorem scalarOut_core_mem (s : State) (f : Regs → Regs) (v : BitVec 128) :
    (s.scalarOut f v).core.mem = s.core.mem := by rfl

@[simp] theorem scalarS_core_mem (s : State) (rd : BitVec 6) (v : Word) : (s.scalarS rd v).core.mem = s.core.mem := by rfl

@[simp] theorem scalarP_core_mem (s : State) (rd : BitVec 6) (v : Mask) : (s.scalarP rd v).core.mem = s.core.mem := by rfl

@[simp] theorem scalarA_core_mem (s : State) (rd : BitVec 6) (v : Cap) : (s.scalarA rd v).core.mem = s.core.mem := by rfl

@[simp] theorem scalarB_core_mem (s : State) (rd : BitVec 6) (v : Off) : (s.scalarB rd v).core.mem = s.core.mem := by rfl

@[simp] theorem latchLl_core_mem (s : State) (bs : List Byte) : (s.latchLl bs).core.mem = s.core.mem := by rfl

@[simp] theorem latchLm_core_mem (s : State) (bs : List Byte) : (s.latchLm bs).core.mem = s.core.mem := by rfl

@[simp] theorem latchLv_core_mem (s : State) (unitB : Bool) (bs : List Byte) :
    (s.latchLv unitB bs).core.mem = s.core.mem := by rfl

@[simp] theorem wrWin_core_mem (s : State) (off : Nat) (bs : List Byte) : (s.wrWin off bs).core.mem = s.core.mem := by rfl

theorem whenUp_core_mem {s : State} {r : Host.Outcome State Fault Refusal} {t : State} (h : s.whenUp r = .next t) :
    t = s ∨ r = .next t := by
  unfold State.whenUp at h
  grind

@[simp] theorem modSlice_core_mem (s : State) (n : Nat) (f : Slice → Slice) : (s.modSlice n f).core.mem = s.core.mem := by rfl

@[simp] theorem touchSlice_core_mem (s : State) (n : Nat) : (s.touchSlice n).core.mem = s.core.mem := by
  unfold State.touchSlice
  (repeat' split) <;> simp

@[simp] theorem touch_core_mem (s : State) (pas : List Nat) : (s.touch pas).core.mem = s.core.mem := by
  simp [State.touch]

@[simp] theorem touchPieces_core_mem (s : State) (ps : List Piece) : (s.touchPieces ps).core.mem = s.core.mem := by
  simp [State.touchPieces]

theorem waitFor_core_mem (s t : State) : (s.waitFor t).core.mem = s.core.mem := by
  unfold State.waitFor
  rw [foldl_core_mem]
  intro a x
  dsimp only
  split <;> rfl

theorem orWait_core_mem {s t : State} {r : Host.Outcome State Fault Refusal} (h : s.orWait r = .next t) :
    ∃ u, r = .next u ∧ (t.core.mem = s.core.mem ∨ t.core.mem = u.core.mem) := by
  unfold State.orWait at h
  split at h
  · refine ⟨_, rfl, ?_⟩
    obtain rfl := Host.Outcome.next.inj h
    split
    · exact .inl (waitFor_core_mem _ _)
    · exact .inr rfl
  · exact ⟨t, h, .inr rfl⟩

@[simp] theorem noteWrite_core_mem (s : State) (pas : List Nat) : (s.noteWrite pas).core.mem = s.core.mem := by
  unfold State.noteWrite
  (repeat' split) <;> simp

@[simp] theorem holdEffect_core_mem (s : State) (e : HeldEffect) : (s.holdEffect e).core.mem = s.core.mem := by rfl

@[simp] theorem stamp_core_mem (s : State) (src : Nat) : (s.stamp src).2.core.mem = s.core.mem := by rfl

@[simp] theorem stampRec_core_mem (s : State) (r : EventRec) : (s.stampRec r).2.core.mem = s.core.mem := by rfl

@[simp] theorem postTelemetry_core_mem (s : State) (r : EventRec) : (s.postTelemetry r).core.mem = s.core.mem := by
  unfold State.postTelemetry
  (repeat' split) <;> simp

@[simp] theorem event_core_mem (s : State) (src code : Nat) (payload : BitVec 160) :
    (s.event src code payload).core.mem = s.core.mem := by
  simp [State.event]

@[simp] theorem setService_core_mem (s : State) (part : Nat) (e : BitVec 512) :
    (s.setService part e).core.mem = s.core.mem := by rfl

@[simp] theorem modWell_core_mem (s : State) (t : Nat) (f : Well → Well) : (s.modWell t f).core.mem = s.core.mem := by rfl

@[simp] theorem markBad_core_mem (s : State) (t p : Nat) : (s.markBad t p).core.mem = s.core.mem := by
  unfold State.markBad
  (repeat' split) <;> simp

theorem takeEntry_core_mem {s : State} {r : Nat} {res : Nat × State} (h : s.takeEntry r = some res) :
    res.2.core.mem = s.core.mem := by
  unfold State.takeEntry at h
  grind [bind, Except.bind, pure, Except.pure]

@[simp] theorem returnEntry_core_mem (s : State) (r : Nat) : (s.returnEntry r).core.mem = s.core.mem := by
  unfold State.returnEntry
  (repeat' split) <;> simp

@[simp] theorem abortRegion_core_mem (s : State) (t c : Nat) : (s.abortRegion t c).core.mem = s.core.mem := by
  unfold State.abortRegion
  dsimp only
  (repeat' split) <;> simp_all

@[simp] theorem modGang_core_mem (s : State) (g : Nat) (f : Gang → Gang) : (s.modGang g f).core.mem = s.core.mem := by rfl

@[simp] theorem modInst_core_mem (s : State) (i : Nat) (f : Inst → Inst) : (s.modInst i f).core.mem = s.core.mem := by rfl

@[simp] theorem modQueue_core_mem (s : State) (q : Nat) (f : Queue → Queue) : (s.modQueue q f).core.mem = s.core.mem := by rfl

@[simp] theorem modIsland_core_mem (s : State) (i : Nat) (f : Island → Island) :
    (s.modIsland i f).core.mem = s.core.mem := by rfl

@[simp] theorem askWake_core_mem (s : State) (timed : Bool) (i : Nat) : (s.askWake timed i).core.mem = s.core.mem := by
  unfold State.askWake
  dsimp only
  (repeat' split) <;> simp_all

@[simp] theorem askWakes_core_mem (s : State) (timed : Bool) (is : List Nat) :
    (s.askWakes timed is).core.mem = s.core.mem := by
  simp [State.askWakes]

@[simp] theorem dropSave_core_mem (s : State) (k : Nat) : (s.dropSave k).core.mem = s.core.mem := by
  unfold State.dropSave
  dsimp only
  (repeat' split) <;> simp_all

@[simp] theorem endMember_core_mem (s : State) (g : Nat) (skip : Option (Nat × Nat)) (m : Nat) :
    (s.endMember g skip m).core.mem = s.core.mem := by
  unfold State.endMember
  (repeat' split) <;> simp

@[simp] theorem abortGang_core_mem (s : State) (g : Nat) (skip : Option (Nat × Nat)) (status : Nat) :
    (s.abortGang g skip status).core.mem = s.core.mem := by
  simp [State.abortGang]

@[simp] theorem discardNodes_core_mem (s : State) (i : Nat) : (s.discardNodes i).core.mem = s.core.mem := by
  simp [State.discardNodes]

@[simp] theorem abortInst_core_mem (s : State) (i : Nat) (skip : Option (Nat × Nat)) (status : Nat) :
    (s.abortInst i skip status).core.mem = s.core.mem := by
  simp [State.abortInst]

@[simp] theorem faultDomain_core_mem (s : State) (t c : Nat) (k : Task) : (s.faultDomain t c k).core.mem = s.core.mem := by
  unfold State.faultDomain
  (repeat' split) <;> simp

@[simp] theorem addEnergy_core_mem (s : State) (r pj : Nat) : (s.addEnergy r pj).core.mem = s.core.mem := by
  unfold State.addEnergy
  dsimp only
  (repeat' split) <;> simp_all

@[simp] theorem settleEnergy_core_mem (s : State) (t c region : Nat) :
    (s.settleEnergy t c region).core.mem = s.core.mem := by
  simp [State.settleEnergy]

@[simp] theorem freeContext_core_mem (s : State) (t c status : Nat) :
    (s.freeContext t c status).core.mem = s.core.mem := by
  unfold State.freeContext
  (repeat' split) <;> simp

@[simp] theorem settle_core_mem (s : State) (t c : Nat) : (s.settle t c).core.mem = s.core.mem := by
  unfold State.settle
  (repeat' split) <;> simp

@[simp] theorem discardFrom_core_mem (s : State) (t c n : Nat) : (s.discardFrom t c n).core.mem = s.core.mem := by
  simp [State.discardFrom]

@[simp] theorem stopTask_core_mem (s : State) (t c n status : Nat) : (s.stopTask t c n status).core.mem = s.core.mem := by
  simp [State.stopTask]

@[simp] theorem requestRegen_core_mem (s : State) (asid obj start : Nat) :
    (s.requestRegen asid obj start).core.mem = s.core.mem := by
  unfold State.requestRegen
  (repeat' split) <;> simp

@[simp] theorem askPreempt_core_mem (s : State) (t c : Nat) (kind : PreKind) :
    (s.askPreempt t c kind).core.mem = s.core.mem := by rfl

theorem commit_core_mem (s : State) (slot cls scope : Nat) (op : CommitOp) (res : State) :
    s.commit slot cls scope op = .ok res → res.core.mem = s.core.mem := by
  intro h
  unfold State.commit at h
  dsimp only at h
  split at h
  · cases h
  · exact (Except.ok.inj h) ▸ rfl

@[simp] theorem keepCopies_core_mem (s : State) (fresh : Bool) (ps : List Piece) :
    (s.keepCopies fresh ps).core.mem = s.core.mem := by rfl

@[simp] theorem acquireAt_core_mem (s : State) (scope pa : Nat) : (s.acquireAt scope pa).core.mem = s.core.mem := by
  unfold State.acquireAt
  (repeat' split) <;> simp

/-! Of `Sys2Proof/Machine/Flags.lean`. -/

@[simp] theorem addFlags_core_mem (s : State) (g : Guard) (fl : Flags) (clamps : Nat) :
    (s.addFlags g fl clamps).core.mem = s.core.mem := by
  unfold State.addFlags
  (repeat' split) <;> simp

/-! Of `Sys2Proof/Machine/Operands.lean`. -/

@[simp] theorem vput_core_mem (s : State) (g : Guard) (r : BitVec 8) (k N : Nat) :
    (s.vput g r k N).core.mem = s.core.mem := by
  unfold State.vput
  (repeat' split) <;> simp

@[simp] theorem vlatch_core_mem (s : State) (g : Guard) (N : Nat) : (s.vlatch g N).core.mem = s.core.mem := by
  unfold State.vlatch
  (repeat' split) <;> simp

@[simp] theorem vdone_core_mem (s : State) (g : Guard) (r : BitVec 8) (N : Nat) (fl : Flags) (clamps : Nat) :
    (s.vdone g r N fl clamps).core.mem = s.core.mem := by
  simp [State.vdone]

/-! Of `Sys2Proof/Machine/Vector.lean`. -/

@[simp] theorem vecEff_core_mem (g : Guard) (b : VectorBody) (t : ElemFmt) (f : Nat → Nat → Nat → Nat → Nat × Flags)
    (s : State) : (vecEff g b t f s).core.mem = s.core.mem := by
  simp [vecEff]

theorem vcvtEff_core_mem {g : Guard} {b : VectorBody} {s : State} {r : State} (h : vcvtEff g b s = .ok r) :
    r.core.mem = s.core.mem := by
  unfold vcvtEff at h
  simp only [bind, Except.bind] at h
  grind [vdone_core_mem]

theorem quantEff_core_mem {quant : Bool} {g : Guard} {b : VectorBody} {s : State} {r : State}
    (h : quantEff quant g b s = .ok r) : r.core.mem = s.core.mem := by
  unfold quantEff at h
  simp only [bind, Except.bind] at h
  grind [vdone_core_mem]

/-! Of `Sys2Proof/Machine/MatrixDense.lean`. -/

@[simp] theorem setTid_core_mem (s : State) (n : Nat) (d : Tid) : (s.setTid n d).core.mem = s.core.mem := by rfl

theorem rdScratchCap_core_mem {s : State} {slot : Nat} {c : Cap} {off n : Nat} {r : State × List Byte}
    (h : s.rdScratchCap slot c off n = .ok r) : r.1.core.mem = s.core.mem := by
  unfold State.rdScratchCap at h
  simp only [bind_eq_ok, Prod.exists] at h
  grind [→ translate_core_mem]

theorem rdTensor_core_mem {s : State} {d : Tid} {off n : Nat} {r : State × List Byte}
    (h : s.rdTensor d off n = .ok r) : r.1.core.mem = s.core.mem := by
  unfold State.rdTensor at h
  grind [bind, Except.bind, pure, Except.pure, → rdScratchCap_core_mem]

theorem rdTensorBytes_core_mem {s : State} {d : Tid} {xs : List Nat} {r : State × List Byte} (h : s.rdTensorBytes d xs = .ok r) :
    r.1.core.mem = s.core.mem := by
  induction xs generalizing s r with
  | nil => exact (Except.ok.inj h) ▸ rfl
  | cons x xs ih =>
    unfold State.rdTensorBytes at h
    simp only [bind_eq_ok, Prod.exists] at h
    obtain ⟨s1, x, hx, s2, y, hy, h⟩ := h
    rw [← Except.ok.inj h]
    exact (ih hy).trans (rdTensor_core_mem hx)

theorem rdBlock_core_mem {s : State} {d : Tid} {kb nb : Nat} {r : State × List Nat × List Fp}
    (h : s.rdBlock d kb nb = .ok r) : r.1.core.mem = s.core.mem := by
  unfold State.rdBlock at h
  simp only [bind_eq_ok, Prod.exists] at h
  grind [→ rdTensorBytes_core_mem, → rdTensor_core_mem]

@[simp] theorem setAcc_core_mem (s : State) (off : Nat) (a : Acc) : (s.setAcc off a).core.mem = s.core.mem := by rfl

@[simp] theorem wrAccum_core_mem (s : State) (wide : Bool) (off : Nat) (vs : List Int) :
    (s.wrAccum wide off vs).core.mem = s.core.mem := by
  unfold State.wrAccum
  (repeat' split) <;> simp

@[simp] theorem latchAccum_core_mem (s : State) (g : Guard) (off : Nat) : (s.latchAccum g off).core.mem = s.core.mem := by
  unfold State.latchAccum
  (repeat' split) <;> simp

@[simp] theorem accumulate_core_mem (s : State) (g : Guard) (b : MatrixBody) (wide : Bool) (off : Nat)
    (w sc : List Fp) : (s.accumulate g b wide off w sc).core.mem = s.core.mem := by
  simp [State.accumulate]

theorem mmaRun_core_mem {g : Guard} {b : MatrixBody} {wide : Bool} {s : State} {kb nb : Nat} {r : State}
    (h : mmaRun g b wide s kb nb = .ok r) : r.core.mem = s.core.mem := by
  unfold mmaRun at h
  grind [bind_eq_ok, → rdBlock_core_mem, accumulate_core_mem]

theorem mmatEff_core_mem {g : Guard} {b : MatrixBody} {s : State} {r : State} (h : mmatEff g b s = .ok r) :
    r.core.mem = s.core.mem := by
  unfold mmatEff at h
  simp only [bind, Except.bind] at h
  grind [accumulate_core_mem]

theorem mzeroEff_core_mem {g : Guard} {b : MatrixBody} {s : State} {r : State} (h : mzeroEff g b s = .ok r) :
    r.core.mem = s.core.mem := by
  unfold mzeroEff at h
  simp only [bind, Except.bind] at h
  grind [latchAccum_core_mem, wrAccum_core_mem, setAcc_core_mem]

theorem manchorEff_core_mem {g : Guard} {b : MatrixBody} {s : State} {r : State}
    (h : manchorEff g b s = .ok r) : r.core.mem = s.core.mem := by
  unfold manchorEff at h
  simp only [bind, Except.bind] at h
  grind [latchAccum_core_mem, wrAccum_core_mem, setAcc_core_mem]

@[simp] theorem latchLmWord_core_mem (s : State) (v : Word) : (s.latchLmWord v).core.mem = s.core.mem := by rfl

@[simp] theorem pushLate_core_mem (s : State) (e : LateEff) : (s.pushLate e).core.mem = s.core.mem := by rfl

theorem mstatEff_core_mem {b : MatrixBody} {s : State} {r : State} (h : mstatEff b s = .ok r) :
    r.core.mem = s.core.mem := by
  unfold mstatEff at h
  simp only [bind, Except.bind] at h
  grind [pushLate_core_mem, putS_core_mem, latchLmWord_core_mem]

theorem mclrEff_core_mem {b : MatrixBody} {s : State} {r : State} (h : mclrEff b s = .ok r) :
    r.core.mem = s.core.mem := by
  unfold mclrEff at h
  simp only [bind, Except.bind] at h
  grind [setAcc_core_mem]

theorem mreadEff_core_mem {g : Guard} {b : MatrixBody} {s : State} {r : State} (h : mreadEff g b s = .ok r) :
    r.core.mem = s.core.mem := by
  unfold mreadEff at h
  simp only [bind, Except.bind] at h
  grind [wrWin_core_mem, addFlags_core_mem, latchLm_core_mem]

theorem tidsetEff_core_mem {b : MatrixBody} {s : State} {r : State} (h : tidsetEff b s = .ok r) :
    r.core.mem = s.core.mem := by
  unfold tidsetEff at h
  simp only [bind, Except.bind] at h
  grind [pushLate_core_mem]

/-! Of `Sys2Proof/Machine/LowRank.lean`. -/

@[simp] theorem setRank_core_mem (s : State) (k rank : Nat) : (s.setRank k rank).core.mem = s.core.mem := by rfl

@[simp] theorem putK_core_mem (s : State) (r : BitVec 8) (o : LrOp) : (s.putK r o).core.mem = s.core.mem := by rfl

@[simp] theorem latchK_core_mem (s : State) (r : BitVec 8) : (s.latchK r).core.mem = s.core.mem := by rfl

@[simp] theorem lrDone_core_mem (s : State) (d : BitVec 8) (o : LrOp) : (s.lrDone d o).core.mem = s.core.mem := by rfl

@[simp] theorem applyTile_core_mem (s : State) (off : Nat) (ys : List Nat) :
    (s.applyTile off ys).core.mem = s.core.mem := by rfl

theorem lrapplyEff_core_mem (b : MatrixBody) (s res : State) (h : lrapplyEff b s = .ok res) : res.core.mem = s.core.mem := by
  obtain ⟨off, -, h⟩ := bind_eq_ok.1 h
  split at h
  · exact (Except.ok.inj h) ▸ latchLm_core_mem _ _
  · refine (Except.ok.inj h) ▸ (latchLm_core_mem _ _).trans (foldl_core_mem _ (fun a k => applyTile_core_mem a _ _) _ _)

/-! Of `Sys2Proof/Machine/Load.lean`. -/

theorem port_core_mem {s : State} {slot : Nat} {c : Cap} {rs : List Nat} {eo len : Nat}
    {r : State × List Piece × List Nat} (h : s.port slot c rs eo len = .ok r) :
    r.1.core.mem = s.core.mem := by
  unfold State.port at h
  simp only [bind, Except.bind] at h
  grind [→ translate_core_mem]

theorem loadRun_core_mem {s : State} {slot : Nat} {c : Cap} {rs : List Nat} {scope eo len : Nat}
    {r : State × List Byte} (h : s.loadRun slot c rs scope eo len = .ok r) : r.1.core.mem = s.core.mem := by
  unfold State.loadRun at h
  simp only [bind_eq_ok, Prod.exists] at h
  grind [keepCopies_core_mem, touchPieces_core_mem, → port_core_mem]

theorem loadRuns_core_mem {slot : Nat} {c : Cap} {rs : List Nat} {scope eo at0 : Nat} {ps : List (Nat × Nat)} {s res : State}
    (h : s.loadRuns slot c rs scope eo at0 ps = .ok res) : res.core.mem = s.core.mem := by
  induction ps generalizing s res with
  | nil => exact (Except.ok.inj h) ▸ rfl
  | cons x ps ih =>
    unfold State.loadRuns at h
    simp only [bind_eq_ok, Prod.exists] at h
    grind [→ loadRun_core_mem, wrWin_core_mem]

theorem scalarLoad_core_mem {rs : List Nat} {g : Guard} {b : MemBody} {s : State} {r : State}
    (h : scalarLoad rs g b s = .ok r) : r.core.mem = s.core.mem := by
  unfold scalarLoad at h
  simp only [bind_eq_ok, Prod.exists] at h
  grind [putS_core_mem, latchLl_core_mem, → loadRun_core_mem]

theorem vectorLoad_core_mem {g : Guard} {b : MemBody} {s : State} {r : State} (h : vectorLoad g b s = .ok r) :
    r.core.mem = s.core.mem := by
  unfold vectorLoad at h
  simp only [bind, Except.bind] at h
  grind [latchLl_core_mem, → loadRuns_core_mem]

theorem loadRows_core_mem {slot : Nat} {c : Cap} {scope at0 : Nat} {ps : List (Nat × Nat)} {s res : State}
    (h : s.loadRows slot c scope at0 ps = .ok res) : res.core.mem = s.core.mem := by
  induction ps generalizing s res at0 with
  | nil => exact (Except.ok.inj h) ▸ rfl
  | cons x ps ih =>
    unfold State.loadRows at h
    simp only [bind_eq_ok, Prod.exists] at h
    grind [→ loadRun_core_mem, wrWin_core_mem]

@[simp] theorem gather_core_mem (s : State) (slot : Nat) (c : Cap) (scope es at0 : Nat) (xs : List (Nat × Nat)) :
    (s.gather slot c scope es at0 xs).1.core.mem = s.core.mem := by
  induction xs generalizing s with
  | nil => rfl
  | cons x xs ih =>
    unfold State.gather
    split
    · rfl
    next hb =>
      obtain ⟨_, -, hl⟩ := bind_eq_ok.1 hb
      rw [ih, wrWin_core_mem]
      exact loadRun_core_mem hl

theorem lrldsEff_core_mem {g : Guard} {b : MemBody} {s : State} {r : State} (h : lrldsEff g b s = .ok r) :
    r.core.mem = s.core.mem := by
  unfold lrldsEff at h
  simp only [bind_eq_ok, Prod.exists] at h
  grind [wrWin_core_mem, latchLl_core_mem, setRank_core_mem, → loadRun_core_mem]

/-! Of `Sys2Proof/Machine/Store.lean`. -/

theorem storeCells_core_mem {s : State} {slot : Nat} {c : Cap} {rs : List Nat} {eo : Nat} {xs : List (Nat × List Byte)} {r : _}
    (h : s.storeCells slot c rs eo xs = .ok r) : r.1.core.mem = s.core.mem := by
  induction xs generalizing s r with
  | nil => exact (Except.ok.inj h) ▸ rfl
  | cons x xs ih =>
    unfold State.storeCells at h
    simp only [bind_eq_ok, Prod.exists] at h
    grind [→ port_core_mem]

theorem storeGlobal_core_mem {s : State} {g : Guard} {b : MemBody} {eo : Nat} {runs : List (Nat × List Byte)}
    {r : State} (h : s.storeGlobal g b eo runs = .ok r) : r.core.mem = s.core.mem := by
  unfold State.storeGlobal at h
  simp only [bind_eq_ok, Prod.exists] at h
  grind [→ storeCells_core_mem, → commit_core_mem]

@[simp] theorem chargeMe_core_mem (s : State) (he : Option Nat) (off len : Nat) :
    (s.chargeMe he off len).core.mem = s.core.mem := by
  unfold State.chargeMe
  (repeat' split) <;> simp

/-! Of `Sys2Proof/Machine/Pump.lean`. -/

@[simp] theorem addCmd_core_mem (s : State) (m : PumpCmd) : (s.addCmd m).core.mem = s.core.mem := by rfl

theorem post_core_mem (s : State) (scratch : Bool) (m : PumpCmd) (res : State) (h : s.post scratch m = .ok res) :
    res.core.mem = s.core.mem := by
  unfold State.post at h
  dsimp only at h
  split at h
  · exact (Except.ok.inj h) ▸ rfl
  · exact (commit_core_mem { s with nextId := s.nextId + 1 } _ _ _ _ _ h)

@[simp] theorem setCmd_core_mem (s : State) (m : PumpCmd) : (s.setCmd m).core.mem = s.core.mem := by rfl

@[simp] theorem dropCmd_core_mem (s : State) (id : Nat) : (s.dropCmd id).core.mem = s.core.mem := by rfl

@[simp] theorem cmdStop_core_mem (s : State) (m : PumpCmd) (t : Trap) : (s.cmdStop m t).1.core.mem = s.core.mem := by
  unfold State.cmdStop
  (repeat' split) <;> simp

theorem failCmd_core_mem {s : State} {posted : Bool} {m : PumpCmd} {a : Stop} {r : State}
    (h : s.failCmd posted m a = .ok r) : r.core.mem = s.core.mem := by
  unfold State.failCmd at h
  grind [bind, Except.bind, pure, Except.pure, setCmd_core_mem, cmdStop_core_mem]

theorem pumpPort_core_mem {s : State} {m : PumpCmd} {c : Cap} {rs any : List Nat} {off len : Nat}
    {r : State × List Piece × List Nat} (h : s.pumpPort m c rs any off len = .ok r) :
    r.1.core.mem = s.core.mem := by
  unfold State.pumpPort at h
  grind [bind, Except.bind, pure, Except.pure, → translate_core_mem]

theorem rdDesc_core_mem {s : State} {m : PumpCmd} {c : Cap} {rs : List Nat} {n : Nat}
    {r : State × List Byte × List Bool} (h : s.rdDesc m c rs n = .ok r) : r.1.core.mem = s.core.mem := by
  unfold State.rdDesc at h
  simp only [bind_eq_ok, Prod.exists] at h
  grind [touchPieces_core_mem, → pumpPort_core_mem]

theorem readGath_core_mem {s : State} {m : PumpCmd} {r : State × PumpCmd} (h : s.readGath m = .ok r) :
    r.1.core.mem = s.core.mem := by
  unfold State.readGath at h
  simp only [bind_eq_ok, Prod.exists] at h
  grind [→ rdDesc_core_mem]

@[simp] theorem exportPieces_core_mem (s : State) (ps : List Piece) : (s.exportPieces ps).core.mem = s.core.mem := by rfl

@[simp] theorem cmdJob_core_mem (s : State) (m : PumpCmd) : (s.cmdJob m).core.mem = s.core.mem := by
  unfold State.cmdJob
  (repeat' split) <;> simp

/-! Of `Sys2Proof/Machine/Sync.lean`. -/

@[simp] theorem pushSync_core_mem (s : State) (bundle : Nat) (pc : Off) (op : SyncOp) :
    (s.pushSync bundle pc op).core.mem = s.core.mem := by rfl

theorem enterSync_core_mem (s : State) (bundle : Nat) (pc : Off) (op : SyncOp) (res : State) :
    s.enterSync bundle pc op = .ok res → res.core.mem = s.core.mem := by
  intro h
  unfold State.enterSync at h
  split at h
  · obtain ⟨x, -, h⟩ := bind_eq_ok.1 h
    exact (Except.ok.inj h) ▸ rfl
  · exact (Except.ok.inj h) ▸ rfl

@[simp] theorem sleepMe_core_mem (s : State) : (s.sleepMe).core.mem = s.core.mem := by rfl

theorem cbadvEff_core_mem {produce : Bool} {b : SyncBody} {s : State} {r : State}
    (h : cbadvEff produce b s = .ok r) : r.core.mem = s.core.mem := by
  unfold cbadvEff at h
  grind [bind, Except.bind, pure, Except.pure, → enterSync_core_mem, → commit_core_mem]

theorem syPort_core_mem {s : State} {c : Cap} {rs : List Nat} {n : Nat} {r : State × Nat × List Nat}
    (h : s.syPort c rs n = .ok r) : r.1.core.mem = s.core.mem := by
  unfold State.syPort at h
  simp only [bind_eq_ok, Prod.exists] at h
  grind [→ port_core_mem]

@[simp] theorem acquireSy_core_mem (s : State) (b : SyncBody) (n : Nat) : (s.acquireSy b n).core.mem = s.core.mem := by
  unfold State.acquireSy
  (repeat' split) <;> simp

@[simp] theorem barArrive_core_mem (s : State) : (s.barArrive).core.mem = s.core.mem := by
  unfold State.barArrive
  (repeat' split) <;> simp

@[simp] theorem barSleep_core_mem (s : State) : (barSleep s).core.mem = s.core.mem := by
  simp [barSleep]

@[simp] theorem endNow_core_mem (s : State) (t c status : Nat) : (s.endNow t c status).core.mem = s.core.mem := by
  simp [State.endNow]

@[simp] theorem rplwMember_core_mem (s : State) (g m : Nat) : (s.rplwMember g m).core.mem = s.core.mem := by
  unfold State.rplwMember
  (repeat' split) <;> simp

@[simp] theorem rplwEff_core_mem (s : State) : (rplwEff s).core.mem = s.core.mem := by
  unfold rplwEff
  (repeat' split) <;> simp

@[simp] theorem tickSleep_core_mem (s : State) : (tickSleep s).core.mem = s.core.mem := by rfl

/-! Of `Sys2Proof/Machine/Kv.lean`. -/

@[simp] theorem modArena_core_mem (s : State) (k : Nat) (f : Arena → Arena) : (s.modArena k f).core.mem = s.core.mem := by rfl

@[simp] theorem modSeq_core_mem (s : State) (k off : Nat) (f : Seq → Seq) : (s.modSeq k off f).core.mem = s.core.mem := by rfl

@[simp] theorem modBlock_core_mem (s : State) (k b : Nat) (f : Block → Block) :
    (s.modBlock k b f).core.mem = s.core.mem := by rfl

@[simp] theorem noRoom_core_mem (s : State) (k die : Nat) : (s.noRoom k die).core.mem = s.core.mem := by rfl

@[simp] theorem spillBlock_core_mem (s : State) (k n : Nat) : (s.spillBlock k n).core.mem = s.core.mem := by rfl

theorem makeRoom_core_mem {k die n : Nat} {fuel : Nat} {s t : State} (h : State.makeRoom k die n fuel s = some t) :
    t.core.mem = s.core.mem := by
  induction fuel generalizing s with
  | zero =>
    unfold State.makeRoom at h
    grind
  | succ fuel ih =>
    unfold State.makeRoom at h
    grind [spillBlock_core_mem]

theorem roomFor_core_mem (s : State) (k die n : Nat) (res : State) : s.roomFor k die n = some res → res.core.mem = s.core.mem :=
  fun h => makeRoom_core_mem h

@[simp] theorem allocBlock_core_mem (s : State) (k : Nat) (d : BitVec 512) (shard : Nat) (isSealed : Bool) :
    (s.allocBlock k d shard isSealed).1.core.mem = s.core.mem := by
  grind [State.allocBlock, modBlock_core_mem, noRoom_core_mem, → roomFor_core_mem, modArena_core_mem]

@[simp] theorem readBlock_core_mem (s : State) (k n : Nat) : (s.readBlock k n).core.mem = s.core.mem := by
  grind [State.readBlock, modBlock_core_mem, touchSlice_core_mem, → roomFor_core_mem]

@[simp] theorem dropRef_core_mem (s : State) (k n : Nat) : (s.dropRef k n).core.mem = s.core.mem := by
  unfold State.dropRef
  (repeat' split) <;> simp

@[simp] theorem addRef_core_mem (s : State) (k n : Nat) : (s.addRef k n).core.mem = s.core.mem := by rfl

theorem newVersion_core_mem (s : State) (k off : Nat) (entries : List (Nat × Bool)) (len : Nat) (res : State)
    (h : s.newVersion k off entries len = some res) : res.core.mem = s.core.mem := by
  unfold State.newVersion at h
  rw [Option.map_eq_some_iff] at h
  obtain ⟨s0, hs, h⟩ := h
  rw [← roomFor_core_mem _ _ _ _ _ hs, ← h]
  extract_lets s1 t w s2
  change s2.core.mem = _
  rw [modSeq_core_mem, foldl_core_mem]
  exact fun a e => dropRef_core_mem a k _

theorem renewVersion_core_mem (s : State) (k off : Nat) (entries : List (Nat × Bool)) (len : Nat) (res : State) :
    s.renewVersion k off entries len = some res → res.core.mem = s.core.mem := by
  intro h
  rw [newVersion_core_mem _ _ _ _ _ _ h, foldl_core_mem]
  exact fun _ _ => rfl

@[simp] theorem finishCmd_core_mem (s : State) (id status : Nat) : (s.finishCmd id status).core.mem = s.core.mem := by
  unfold State.finishCmd
  (repeat' split) <;> simp

theorem kvSource_core_mem {s : State} {m : PumpCmd} {n : Nat} {r : _} (h : s.kvSource m n = .ok r) :
    r.1.core.mem = s.core.mem := by
  unfold State.kvSource liftKv at h
  split at h
  next x hx =>
    obtain rfl := Except.ok.inj h
    simp only [bind_eq_ok, Prod.exists] at hx
    grind [→ pumpPort_core_mem]
  · cases h

@[simp] theorem kvAlloc_core_mem (s : State) (k off : Nat) (isSealed : Bool) :
    (s.kvAlloc k off isSealed).1.core.mem = s.core.mem := by
  simp [State.kvAlloc]

@[simp] theorem putToken_core_mem (s : State) (k off b : Nat) (pos : BitVec 32) (bytes : List Byte)
    (scales : List (BitVec 32 × BitVec 32)) :
    (s.putToken k off b pos bytes scales).core.mem = s.core.mem := by rfl

@[simp] theorem kvTouch_core_mem (s : State) (k off lo hi : Nat) : (s.kvTouch k off lo hi).core.mem = s.core.mem := by
  simp [State.kvTouch]

@[simp] theorem setJobs_core_mem (s : State) (die : Nat) (js : List Job) : (s.setJobs die js).core.mem = s.core.mem := by rfl

@[simp] theorem endJob_core_mem (s : State) (die : Nat) (j : Job) : (s.endJob die j).core.mem = s.core.mem := by rfl

theorem installed_core_mem (s u : State) (j : Job) (o : Option State) (ho : ∀ t, o = some t → t.core.mem = u.core.mem)
    (hs : s.core.mem = u.core.mem) : (s.installed j o).1.core.mem = u.core.mem := by
  cases o with
  | none => exact (noRoom_core_mem s _ _).trans hs
  | some t => exact ho t rfl

@[simp] theorem installSeal_core_mem (s : State) (j : Job) : (s.installSeal j).1.core.mem = s.core.mem := by
  unfold State.installSeal
  have ha := kvAlloc_core_mem s j.arena j.seqOff true
  dsimp only
  split
  · rfl
  · split
    next hs => rw [← ha, hs]
    next s1 b hs =>
      refine installed_core_mem _ _ _ _ (fun t ht => ?_) rfl
      rw [newVersion_core_mem _ _ _ _ _ _ ht, foldl_core_mem, modBlock_core_mem, ← ha, hs]
      exact fun _ _ => rfl

@[simp] theorem buildBlocks_core_mem (s : State) (k off : Nat) (d : BitVec 512) (xs : List (List KvTok)) :
    (s.buildBlocks k off d xs).1.core.mem = s.core.mem := by
  induction xs generalizing s with
  | nil => rfl
  | cons x xs ih =>
    unfold State.buildBlocks
    grind [kvAlloc_core_mem, modBlock_core_mem, dropRef_core_mem]

@[simp] theorem installCompact_core_mem (s : State) (j : Job) : (s.installCompact j).1.core.mem = s.core.mem := by
  unfold State.installCompact
  have hb := buildBlocks_core_mem s j.arena j.seqOff (s.seq j.arena j.seqOff).desc
  dsimp only
  split
  · rfl
  · split
    next hs => rw [← hb, hs]
    next s1 bs hs =>
      refine installed_core_mem _ _ _ _ (fun t ht => ?_) rfl
      obtain ⟨x, hx, rfl⟩ := Option.map_eq_some_iff.1 ht
      rw [modSeq_core_mem, newVersion_core_mem _ _ _ _ _ _ hx, ← hb, hs]

theorem kvPost_core_mem {i : Instr} {b : PumpBody} {s : State} {r : State} (h : kvPost i b s = .ok r) :
    r.core.mem = s.core.mem := by
  unfold kvPost at h
  grind [bind, Except.bind, pure, Except.pure, → post_core_mem]

theorem kvPostPlain_core_mem {i : Instr} {b : PumpBody} {s : State} {r : State}
    (h : kvPostPlain i b s = .ok r) : r.core.mem = s.core.mem := by
  unfold kvPostPlain at h
  grind [bind, Except.bind, pure, Except.pure, → post_core_mem]

theorem readList_core_mem {s : State} {m : PumpCmd} {lst : Cap} {n : Nat} {r : State × List Byte}
    (h : s.readList m lst n = .ok r) : r.1.core.mem = s.core.mem := by
  unfold State.readList at h
  grind [bind_eq_ok, → pumpPort_core_mem]

theorem readCompact_core_mem {s : State} {m : PumpCmd} {r : State × PumpCmd} (h : s.readCompact m = .ok r) :
    r.1.core.mem = s.core.mem := by
  unfold State.readCompact at h
  grind [bind_eq_ok, → rdDesc_core_mem]

theorem readSurvivors_core_mem {s : State} {m : PumpCmd} {r : State × PumpCmd}
    (h : s.readSurvivors m = .ok r) : r.1.core.mem = s.core.mem := by
  unfold State.readSurvivors at h
  simp only [bind_eq_ok, Prod.exists] at h
  grind [→ readList_core_mem]

theorem seqHome_core_mem {s : State} {m : PumpCmd} {c : Cap} {r : State × Nat × Nat}
    (h : s.seqHome m c = .ok r) : r.1.core.mem = s.core.mem := by
  unfold State.seqHome at h
  simp only [bind, Except.bind] at h
  grind [fillObj_core_mem]

/-! Of `Sys2Proof/Machine/Collective.lean`. -/

@[simp] theorem modGroup_core_mem (s : State) (g : Nat) (f : Group → Group) : (s.modGroup g f).core.mem = s.core.mem := by rfl

theorem readCol_core_mem {s : State} {m : PumpCmd} {r : State × PumpCmd} (h : s.readCol m = .ok r) :
    r.1.core.mem = s.core.mem := by
  unfold State.readCol at h
  simp only [bind_eq_ok, Prod.exists] at h
  grind [→ rdDesc_core_mem]

@[simp] theorem colPass_core_mem (s : State) (m : PumpCmd) : (s.colPass m).core.mem = s.core.mem := by rfl

theorem colInput_core_mem {s : State} {m : PumpCmd} {r : State × List Byte} (h : s.colInput m = .ok r) :
    r.1.core.mem = s.core.mem := by
  unfold State.colInput at h
  grind [bind_eq_ok, → pumpPort_core_mem]

@[simp] theorem colFailed_core_mem (s : State) (asid : Nat) (a : Stop) : (s.colFailed asid a).core.mem = s.core.mem := by
  unfold State.colFailed
  (repeat' split) <;> simp

@[simp] theorem peerAccepts_core_mem (s : State) (g : Nat) (a : PeerAccept) :
    (s.peerAccepts g a).core.mem = s.core.mem := by
  unfold State.peerAccepts
  (repeat' split) <;> simp

/-! Of `Sys2Proof/Machine/WellJournal.lean`. -/

@[simp] theorem tryWrite_core_mem (s : State) (t p : Nat) (counted : Bool) (k : Nat) :
    (s.tryWrite t p counted k).1.core.mem = s.core.mem := by
  induction k generalizing s with
  | zero => rfl
  | succ k ih =>
    unfold State.tryWrite
    extract_lets ok s1 s2
    split
    · rfl
    · exact ih s2

@[simp] theorem writeOwn_core_mem (s : State) (t p : Nat) : (s.writeOwn t p).1.core.mem = s.core.mem := by
  simp [State.writeOwn]

@[simp] theorem freeUnit_core_mem (s : State) : (s.freeUnit).2.core.mem = s.core.mem := by rfl

@[simp] theorem writeRecord_core_mem (s : State) (t copy : Nat) : (s.writeRecord t copy).1.core.mem = s.core.mem := by
  simp [State.writeRecord]

@[simp] theorem writeRecords_core_mem (s : State) (t : Nat) : (s.writeRecords t).1.core.mem = s.core.mem := by
  simp [State.writeRecords]

@[simp] theorem writeDesc0_core_mem (s : State) (t : Nat) (redir : Bool) (nred : Nat) :
    (s.writeDesc0 t redir nred).1.core.mem = s.core.mem := by
  simp [State.writeDesc0]

@[simp] theorem writeDesc1_core_mem (s : State) (t : Nat) : (s.writeDesc1 t).1.core.mem = s.core.mem := by
  simp [State.writeDesc1]

@[simp] theorem wjFail_core_mem (s : State) (m : PumpCmd) (code : Nat) : (s.wjFail m code).core.mem = s.core.mem := by rfl

@[simp] theorem wjVerifyFail_core_mem (s : State) (m : PumpCmd) : (s.wjVerifyFail m).core.mem = s.core.mem := by rfl

@[simp] theorem wjDone_core_mem (s : State) (m : PumpCmd) : (s.wjDone m).core.mem = s.core.mem := by rfl

theorem wjRecord_core_mem (s : State) (m : PumpCmd) (copy : Nat) (fail : State → State)
    (hf : ∀ s, (fail s).core.mem = s.core.mem) :
    (s.wjRecord m copy fail).core.mem = s.core.mem := by
  unfold State.wjRecord
  grind [writeRecord_core_mem, wjDone_core_mem, setCmd_core_mem]

@[simp] theorem wjAbort_core_mem (s : State) (m : PumpCmd) : (s.wjAbort m).core.mem = s.core.mem := by
  unfold State.wjAbort
  dsimp only
  split
  · exact wjRecord_core_mem _ _ _ _ fun a => wjFail_core_mem a m _
  · split
    · exact wjFail_core_mem _ _ _
    · exact wjRecord_core_mem _ _ _ _ fun _ => rfl

@[simp] theorem wjOpen_core_mem (s : State) (m : PumpCmd) : (s.wjOpen m).core.mem = s.core.mem := by
  unfold State.wjOpen
  dsimp only
  split
  · exact wjRecord_core_mem _ _ _ _ fun a => wjVerifyFail_core_mem a m
  · split
    · rfl
    · split
      · rfl
      · exact wjFail_core_mem _ _ _
      · exact wjFail_core_mem _ _ _
      · split
        · exact wjFail_core_mem _ _ _
        · exact wjRecord_core_mem _ _ _ _ fun _ => rfl

@[simp] theorem homePage_core_mem (s : State) (t p : Nat) : (s.homePage t p).1.core.mem = s.core.mem := by
  unfold State.homePage
  split
  · rfl
  · exact markBad_core_mem _ _ _
  · rfl

@[simp] theorem writeRedirects_core_mem (s : State) (t n : Nat) : (s.writeRedirects t n).1.core.mem = s.core.mem := by
  induction n generalizing s with
  | zero => rfl
  | succ n ih =>
    unfold State.writeRedirects
    grind [writeOwn_core_mem]

@[simp] theorem wjState_core_mem (s : State) (t : Nat) (x : JState) : (s.wjState t x).core.mem = s.core.mem := by rfl

@[simp] theorem wjReopen_core_mem (s : State) (m : PumpCmd) : (s.wjReopen m).core.mem = s.core.mem := by
  simp [State.wjReopen]

@[simp] theorem wjCommit_core_mem (s : State) (m : PumpCmd) : (s.wjCommit m).core.mem = s.core.mem := by
  unfold State.wjCommit
  dsimp only
  split
  · exact wjFail_core_mem _ _ _
  · split
    · exact wjFail_core_mem _ _ _
    · split
      case h_9 => exact (wjRecord_core_mem _ _ _ _ fun _ => rfl).trans (by simp)
      case h_10 => exact wjRecord_core_mem _ _ _ _ fun a => wjFail_core_mem a m _
      all_goals simp

@[simp] theorem applyFail_core_mem (s : State) (t : Nat) : (s.applyFail t).core.mem = s.core.mem := by rfl

@[simp] theorem applyEnd_core_mem (s : State) (t : Nat) : (s.applyEnd t).core.mem = s.core.mem := by
  unfold State.applyEnd
  (repeat' split) <;> simp

@[simp] theorem journalDiscard_core_mem (s : State) (t st : Nat) : (s.journalDiscard t st).core.mem = s.core.mem := by
  simp [State.journalDiscard]

@[simp] theorem journalRepair_core_mem (s : State) (t : Nat) : (s.journalRepair t).core.mem = s.core.mem := by
  unfold State.journalRepair
  dsimp only
  (repeat' split) <;> simp_all

/-! Of `Sys2Proof/Machine/Command.lean`. -/

@[simp] theorem readyFront_core_mem (s : State) (q : Nat) (xs : List ReadyItem) :
    (s.readyFront q xs).core.mem = s.core.mem := by rfl

@[simp] theorem readyAhead_core_mem (s : State) (q : Nat) (xs : List ReadyItem) :
    (s.readyAhead q xs).core.mem = s.core.mem := by rfl

@[simp] theorem readyBack_core_mem (s : State) (q : Nat) (xs : List ReadyItem) :
    (s.readyBack q xs).core.mem = s.core.mem := by rfl

@[simp] theorem modEntry_core_mem (s : State) (q : Nat) (f : BitVec 512 → BitVec 512) :
    (s.modEntry q f).core.mem = s.core.mem := by rfl

@[simp] theorem dropCopies_core_mem (s : State) (asid : Nat) (r : Nat × Nat × Nat) :
    (s.dropCopies asid r).core.mem = s.core.mem := by
  unfold State.dropCopies
  (repeat' split) <;> simp

/-! Of `Sys2Proof/Machine/Launch.lean`. -/

@[simp] theorem markTaken_core_mem (s : State) (t c win : Nat) (tids : List Nat) :
    (s.markTaken t c win tids).core.mem = s.core.mem := by rfl

@[simp] theorem loadMember_core_mem (s : State) (k : Kernel) (args : FMap Cap) (task : Task)
    (place size asid m t c : Nat) :
    (s.loadMember k args task place size asid m t c).core.mem = s.core.mem := by rfl

@[simp] theorem loadMembers_core_mem (s : State) (k : Kernel) (args : FMap Cap) (task : Task) (place size asid m : Nat)
    (xs : List (Nat × Nat)) :
    (s.loadMembers k args task place size asid m xs).core.mem = s.core.mem := by
  induction xs generalizing s m with
  | nil => rfl
  | cons x xs ih => rw [State.loadMembers, ih, loadMember_core_mem]

/-! Of `Sys2Proof/Machine/Graph.lean`. -/

@[simp] theorem lossAdd_core_mem (s : State) (l : Loss) : (s.lossAdd l).core.mem = s.core.mem := by
  unfold State.lossAdd
  (repeat' split) <;> simp

@[simp] theorem lossDrop_core_mem (s : State) (i : Nat) : (s.lossDrop i).core.mem = s.core.mem := by rfl

@[simp] theorem wakeForNode_core_mem (s : State) (x : Inst) (node : BitVec 1024) :
    (s.wakeForNode x node).core.mem = s.core.mem := by
  unfold State.wakeForNode
  dsimp only
  (repeat' split) <;> simp_all

@[simp] theorem takeHead_core_mem (s : State) (w : Work) : (s.takeHead w).core.mem = s.core.mem := by
  unfold State.takeHead
  (repeat' split) <;> simp

@[simp] theorem nullNode_core_mem (s : State) (w : Work) (region status : Nat) :
    (s.nullNode w region status).core.mem = s.core.mem := by
  simp [State.nullNode]

@[simp] theorem askTile_core_mem (s : State) (cls t : Nat) : (s.askTile cls t).core.mem = s.core.mem := by
  unfold State.askTile
  dsimp only
  (repeat' split) <;> simp_all

@[simp] theorem draw_core_mem (s : State) (qs : List Nat) : (s.draw qs).1.core.mem = s.core.mem := by
  unfold State.draw
  (repeat' split) <;> simp

/-- The state that the try of a node leaves. -/
def triedState : Tried → State
  | .done s => s
  | .hold s _ => s

theorem tryGang_core_mem (s : State) (w : Work) (r : Nat) (held : Option Hold) :
    (triedState (s.tryGang w r held)).core.mem = s.core.mem := by
  unfold State.tryGang
  dsimp only
  (repeat' split) <;> simp [triedState]

theorem tryJob_core_mem (s : State) (w : Work) (r : Nat) (held : Option Hold) :
    (triedState (s.tryJob w r held)).core.mem = s.core.mem := by
  unfold State.tryJob
  dsimp only
  (repeat' split) <;> simp [triedState]

theorem tryNode_core_mem (s : State) (w : Work) (held : Option Hold) : (triedState (s.tryNode w held)).core.mem = s.core.mem := by
  unfold State.tryNode
  dsimp only
  split
  · exact nullNode_core_mem _ _ _ _
  · split
    · exact nullNode_core_mem _ _ _ _
    · split
      · exact tryGang_core_mem s w _ held
      · exact tryJob_core_mem s w _ held

@[simp] theorem tryQueue_core_mem (s : State) (q : Nat) : (s.tryQueue q).1.core.mem = s.core.mem := by
  unfold State.tryQueue
  split
  · rfl
  · split
    · exact modQueue_core_mem _ _ _
    next w _ =>
      have h := tryNode_core_mem s w (s.queue q).held
      split <;> simp_all [triedState]

@[simp] theorem tryHeld_core_mem (s : State) (qs : List Nat) : (s.tryHeld qs).1.core.mem = s.core.mem := by
  induction qs generalizing s with
  | nil => rfl
  | cons q qs ih =>
    unfold State.tryHeld
    grind [tryQueue_core_mem]

@[simp] theorem drawLoop_core_mem (s : State) (n : Nat) : (s.drawLoop n).core.mem = s.core.mem := by
  induction n generalizing s with
  | zero => rfl
  | succ n ih =>
    unfold State.drawLoop
    grind [draw_core_mem, tryQueue_core_mem]

@[simp] theorem tryAhead_core_mem (s : State) (xs : List (Nat × ReadyItem)) : (s.tryAhead xs).1.core.mem = s.core.mem := by
  induction xs generalizing s with
  | nil => rfl
  | cons x xs ih =>
    unfold State.tryAhead
    grind [tryQueue_core_mem]

@[simp] theorem pruneAhead_core_mem (s : State) : (s.pruneAhead).core.mem = s.core.mem := by rfl

@[simp] theorem tryFirst_core_mem (s : State) : (s.tryFirst).1.core.mem = s.core.mem := by
  grind [State.tryFirst, pruneAhead_core_mem, tryHeld_core_mem, tryAhead_core_mem]

@[simp] theorem modArm_core_mem (s : State) (a : Nat) (f : Arm → Arm) : (s.modArm a f).core.mem = s.core.mem := by rfl

@[simp] theorem pageOver_core_mem (s : State) (tc : Nat × Nat) : (s.pageOver tc).core.mem = s.core.mem := by rfl

@[simp] theorem dropRegen_core_mem (s : State) (asid obj start : Nat) :
    (s.dropRegen asid obj start).core.mem = s.core.mem := by
  simp [State.dropRegen]

/-! Of `Sys2Proof/Machine/Stream.lean`. -/

@[simp] theorem modStream_core_mem (s : State) (k : Nat) (f : Stream → Stream) :
    (s.modStream k f).core.mem = s.core.mem := by rfl

@[simp] theorem fileToken_core_mem (s : State) (k : Nat) (msg : List Byte) :
    (s.fileToken k msg).core.mem = s.core.mem := by
  unfold State.fileToken
  dsimp only
  (repeat' split) <;> simp_all

@[simp] theorem trimSeq_core_mem (s : State) (k off : Nat) : (s.trimSeq k off).core.mem = s.core.mem := by rfl

@[simp] theorem trimArm_core_mem (s : State) (a : Nat) : (s.trimArm a).core.mem = s.core.mem := by
  simp [State.trimArm]

@[simp] theorem endPast_core_mem (s : State) (a : Nat) (p : PastStep) : (s.endPast a p).core.mem = s.core.mem := by
  simp [State.endPast]

@[simp] theorem endStep_core_mem (s : State) (a k : Nat) : (s.endStep a k).core.mem = s.core.mem := by
  simp [State.endStep]

@[simp] theorem skipStep_core_mem (s : State) (a k : Nat) : (s.skipStep a k).core.mem = s.core.mem := by
  simp [State.skipStep]

@[simp] theorem releaseTicks_core_mem (s : State) (a k : Nat) : (s.releaseTicks a k).core.mem = s.core.mem := by
  unfold State.releaseTicks
  dsimp only
  rw [foldl_core_mem]
  exact fun _ _ => rfl

@[simp] theorem judgeTokens_core_mem (s : State) (a : Nat) : (s.judgeTokens a).core.mem = s.core.mem := by
  simp [State.judgeTokens]

@[simp] theorem fixDelivery_core_mem (s : State) (i k : Nat) (a : Arm) : (s.fixDelivery i k a).core.mem = s.core.mem := by rfl

/-! Of `Sys2Proof/Machine/PumpWork.lean`. -/

theorem readPort_core_mem {s : State} {m : PumpCmd} {r : State × PumpCmd} (h : s.readPort m = .ok r) :
    r.1.core.mem = s.core.mem := by
  unfold State.readPort at h
  grind [bind, Except.bind, pure, Except.pure, → readCompact_core_mem, → readCol_core_mem, → readGath_core_mem]

/-! Of `Sys2Proof/Machine/Packet.lean`. -/

@[simp] theorem setPending_core_mem (s : State) (q : Nat) : (s.setPending q).core.mem = s.core.mem := by
  unfold State.setPending
  (repeat' split) <;> simp

@[simp] theorem popPacket_core_mem (s : State) (q : Nat) : (s.popPacket q).core.mem = s.core.mem := by rfl

@[simp] theorem countErr_core_mem (s : State) (q : Nat) : (s.countErr q).core.mem = s.core.mem := by
  unfold State.countErr
  rw [modEntry_core_mem]

@[simp] theorem mirror_core_mem (s : State) : (s.mirror).core.mem = s.core.mem := by
  unfold State.mirror
  (repeat' split) <;> simp

@[simp] theorem releaseWaiter_core_mem (s : State) (a t c : Nat) : (s.releaseWaiter a t c).core.mem = s.core.mem := by
  unfold State.releaseWaiter
  dsimp only
  (repeat' split) <;> simp_all

@[simp] theorem releaseSaved_core_mem (s : State) (a k : Nat) : (s.releaseSaved a k).core.mem = s.core.mem := by
  unfold State.releaseSaved
  dsimp only
  (repeat' split) <;> simp_all

@[simp] theorem disarm_core_mem (s : State) (a : Nat) : (s.disarm a).core.mem = s.core.mem := by
  simp [State.disarm]

@[simp] theorem invalidate_core_mem (s : State) (v : BitVec 1024) : (s.invalidate v).core.mem = s.core.mem := by rfl

@[simp] theorem setRegion_core_mem (s : State) (r : Nat) (b : BitVec 2048) : (s.setRegion r b).core.mem = s.core.mem := by rfl

@[simp] theorem dropEnergy_core_mem (s : State) (r : Nat) : (s.dropEnergy r).core.mem = s.core.mem := by rfl

@[simp] theorem wakeParked_core_mem (s : State) (q : Nat) : (s.wakeParked q).core.mem = s.core.mem := by
  simp [State.wakeParked]

/-! Of `Sys2Proof/Machine/Scalar.lean`. -/

@[simp] theorem movEff_core_mem (b : ScalarBody) (s : State) : (movEff b s).core.mem = s.core.mem := by
  unfold movEff
  (repeat' split) <;> simp

@[simp] theorem loopEff_core_mem (b : ScalarBody) (s : State) : (loopEff b s).core.mem = s.core.mem := by rfl

@[simp] theorem viewEff_core_mem (b : ScalarBody) (s : State) : (viewEff b s).core.mem = s.core.mem := by rfl

@[simp] theorem writeWin_core_mem (s : State) (v : Word) : (s.writeWin v).core.mem = s.core.mem := by
  unfold State.writeWin
  dsimp only
  (repeat' split) <;> simp_all

@[simp] theorem writePriv_core_mem (s : State) (v : Word) : (s.writePriv v).core.mem = s.core.mem := by rfl

@[simp] theorem setSysReg_core_mem (s : State) (n : Nat) (v : Word) : (s.setSysReg n v).core.mem = s.core.mem := by
  unfold State.setSysReg
  (repeat' split) <;> simp

@[simp] theorem yieldEff_core_mem (b : ScalarBody) (s : State) : (yieldEff b s).core.mem = s.core.mem := by
  unfold yieldEff
  (repeat' split) <;> simp

@[simp] theorem endEff_core_mem (s : State) : (endEff s).core.mem = s.core.mem := by rfl

/-! Of `Sys2Proof/Machine/Save.lean`. -/

@[simp] theorem leaveBar_core_mem (s : State) (t c : Nat) : (s.leaveBar t c).core.mem = s.core.mem := by
  unfold State.leaveBar
  dsimp only
  (repeat' split) <;> simp_all

@[simp] theorem land_core_mem (s : State) (t c : Nat) : (s.land t c).core.mem = s.core.mem := by
  unfold State.land
  (repeat' split) <;> simp

@[simp] theorem landAsleep_core_mem (s : State) (t c : Nat) : (s.landAsleep t c).core.mem = s.core.mem := by
  unfold State.landAsleep
  (repeat' split) <;> simp

@[simp] theorem at_core_mem (s : State) (t c : Nat) : (s.at t c).core.mem = s.core.mem := by rfl

@[simp] theorem forgetCmds_core_mem (s : State) (ids : List Nat) : (s.forgetCmds ids).core.mem = s.core.mem := by rfl

/-! Of `Sys2Proof/Machine/Fetch.lean`. -/

theorem fetch_core_mem {s : State} {t c : Nat} {r : State × BitVec 512 × BitVec 8} (h : s.fetch t c = .ok r) :
    r.1.core.mem = s.core.mem := by
  unfold State.fetch at h
  simp only at h
  grind [→ translate_core_mem]

/-! Of `Sys2Proof/Machine/Islands.lean`. -/

@[simp] theorem eventFree_core_mem (s : State) (src code : Nat) (payload : BitVec 160) :
    (s.eventFree src code payload).core.mem = s.core.mem := by
  simp [State.eventFree]

@[simp] theorem elapse_core_mem (s : State) (dt : Nat) : (s.elapse dt).core.mem = s.core.mem := by
  unfold State.elapse
  (repeat' split) <;> simp

theorem replayAt_core_mem {s : State} {t c : Nat} {e : Option Engine} {n : Nat} {u : State} (h : s.replayAt t c e = some (n, u)) :
    u.core.mem = s.core.mem := by
  cases e with
  | none =>
    unfold State.replayAt at h
    grind [State.modCtx_core_mem]
  | some e =>
    obtain ⟨o, -, ho⟩ := Option.map_eq_some_iff.1 h
    cases ho
    rfl

@[simp] theorem parityEvent_core_mem (s : State) (t kind n : Nat) : (s.parityEvent t kind n).core.mem = s.core.mem := by
  simp [State.parityEvent]

@[simp] theorem parityFail_core_mem (s : State) (t kind n : Nat) : (s.parityFail t kind n).core.mem = s.core.mem := by
  unfold State.parityFail
  (repeat' split) <;> simp

@[simp] theorem postTo_core_mem (s : State) (t c : Nat) (r : EventRec) : (s.postTo t c r).core.mem = s.core.mem := by
  unfold State.postTo
  (repeat' split) <;> simp

theorem foldl_bind_core_mem {α : Type} (f : State → α → Option State) (hf : ∀ s x t, f s x = some t → t.core.mem = s.core.mem)
    (xs : List α) {o : Option State} {s t : State} (ho : ∀ u, o = some u → u.core.mem = s.core.mem)
    (h : xs.foldl (fun o x => o.bind fun a => f a x) o = some t) : t.core.mem = s.core.mem := by
  induction xs generalizing o with
  | nil => exact ho t h
  | cons x xs ih =>
    refine ih (fun u hu => ?_) h
    obtain ⟨v, hv, hu⟩ := Option.bind_eq_some_iff.1 hu
    rw [hf v x u hu, ho v hv]

theorem spillSlice_core_mem (s : State) (n : Nat) (res : State) : s.spillSlice n = some res → res.core.mem = s.core.mem :=
  foldl_bind_core_mem (fun a (x : Nat × Nat × _) => if a.spillRoom x.1 (a.block x.1 x.2.1).die (a.block x.1 x.2.1).size then
    some (a.spillBlock x.1 x.2.1) else none) (fun a x t h => by
      split at h
      · exact (Option.some.inj h) ▸ spillBlock_core_mem a x.1 x.2.1
      · cases h) _ (fun u h => (Option.some.inj h) ▸ rfl)

/-! Of `Sys2Proof/Machine/Power.lean`. -/

@[simp] theorem modRail_core_mem (s : State) (p : Nat) (f : Rail → Rail) : (s.modRail p f).core.mem = s.core.mem := by rfl

@[simp] theorem setClock_core_mem (s : State) (i mhz : Nat) : (s.setClock i mhz).core.mem = s.core.mem := by
  unfold State.setClock
  (repeat' split) <;> simp

@[simp] theorem stepDown_core_mem (s : State) (i : Nat) : (s.stepDown i).core.mem = s.core.mem := by
  simp [State.stepDown]

@[simp] theorem stepUp_core_mem (s : State) (i : Nat) : (s.stepUp i).core.mem = s.core.mem := by
  unfold State.stepUp
  dsimp only
  (repeat' split) <;> simp_all

@[simp] theorem throttle_core_mem (s : State) : (s.throttle).core.mem = s.core.mem := by
  simp [State.throttle]

@[simp] theorem applyLease_core_mem (s : State) (l : Lease) : (s.applyLease l).core.mem = s.core.mem := by
  simp [State.applyLease]

@[simp] theorem endLease_core_mem (s : State) (l : Lease) : (s.endLease l).core.mem = s.core.mem := by
  simp [State.endLease]

@[simp] theorem degrade_core_mem (s : State) : (s.degrade).core.mem = s.core.mem := by rfl

@[simp] theorem addCounter_core_mem (s : State) (p cat pj : Nat) : (s.addCounter p cat pj).core.mem = s.core.mem := by rfl

@[simp] theorem addCategory_core_mem (s : State) (cat : Nat) (pjs : List Nat) :
    (s.addCategory cat pjs).core.mem = s.core.mem := by
  simp [State.addCategory]

@[simp] theorem splitPart_core_mem (s : State) (p : Nat) : (s.splitPart p).core.mem = s.core.mem := by
  simp [State.splitPart]

@[simp] theorem splitTick_core_mem (s : State) : s.splitTick.core.mem = s.core.mem := by
  unfold State.splitTick
  dsimp only
  exact foldl_core_mem State.splitPart splitPart_core_mem _ _

@[simp] theorem advanceChain_core_mem (s : State) (p : Nat) (bytes : List Byte) :
    (s.advanceChain p bytes).core.mem = s.core.mem := by rfl

@[simp] theorem heatStep_core_mem (s : State) (i : Nat) : (s.heatStep i).core.mem = s.core.mem := by
  unfold State.heatStep
  dsimp only
  (repeat' split) <;> simp_all

/-! Of `Sys2Proof/Machine/Firmware.lean`. -/

@[simp] theorem send_core_mem (s : State) (o : Output) : (s.send o).core.mem = s.core.mem := by rfl

@[simp] theorem floodDue_core_mem (s : State) : s.floodDue.core.mem = s.core.mem := by
  unfold State.floodDue
  split
  · refine foldl_core_mem _ (fun a x => foldl_core_mem _ (fun b p => send_core_mem b _) _ a) _ _
  · rfl

@[simp] theorem modFw_core_mem (s : State) (f : Firmware → Firmware) : (s.modFw f).core.mem = s.core.mem := by rfl

@[simp] theorem extendCfg_core_mem (s : State) (request : BitVec 512) : (s.extendCfg request).core.mem = s.core.mem := by rfl

@[simp] theorem setComplex_core_mem (s : State) (n : Nat) (x : Complex) : (s.setComplex n x).core.mem = s.core.mem := by rfl

@[simp] theorem bootComplex_core_mem (s : State) (n : Nat) (slot : Option Nat) (role : Role) :
    (s.bootComplex n slot role).core.mem = s.core.mem := by rfl

@[simp] theorem checkSingle_core_mem (s : State) : (s.checkSingle).core.mem = s.core.mem := by
  unfold State.checkSingle
  dsimp only
  (repeat' split) <;> simp_all

@[simp] theorem lossEvent_core_mem (s : State) (l : Loss) : (s.lossEvent l).core.mem = s.core.mem := by
  simp [State.lossEvent]

/-- The parity errors of a boot, the journals' repair and the registers of the save records. -/
@[simp] theorem boot_core_mem (s : State) (bad : List (Nat × Nat × Nat)) : (s.boot bad).core.mem = s.core.mem := by
  unfold State.boot
  extract_lets pick s1 s2 s3 s4 s5 s6 s7
  have h5 : s5.core.mem = s.core.mem := by
    unfold s5
    rw [foldl_core_mem]
    · rfl
    · exact fun a b => parityFail_core_mem a _ _ _
  have h7 : s7.core.mem = s.core.mem := by
    unfold s7 s6
    rw [foldl_core_mem, foldl_core_mem, h5]
    · exact fun a t => journalRepair_core_mem a t
    · exact fun _ _ => rfl
  clear_value s7
  rcases pick with _ | p
  · exact h7
  · rw [floodDue_core_mem, checkSingle_core_mem]
    dsimp only
    rw [foldl_core_mem, h7]
    exact fun a l => lossEvent_core_mem a l

@[simp] theorem reAct_core_mem (s : State) : (s.reAct).core.mem = s.core.mem := by rfl

@[simp] theorem datagrams_core_mem (s : State) (n : Nat) : (s.datagrams n).core.mem = s.core.mem := by
  induction n generalizing s with
  | zero => rfl
  | succ n ih =>
    unfold State.datagrams
    split
    · rfl
    · rw [ih, send_core_mem]

@[simp] theorem reading_core_mem (s : State) (src idx v : Nat) : (s.reading src idx v).core.mem = s.core.mem := by
  simp [State.reading]

@[simp] theorem readings_core_mem (s : State) : (s.readings).core.mem = s.core.mem := by
  simp [State.readings]

/-! Of `Sys2Proof/Machine/Net.lean`. -/

@[simp] theorem applyLink_core_mem (s : State) (c : LinkChange) : (s.applyLink c).core.mem = s.core.mem := by rfl

@[simp] theorem modStrait_core_mem (s : State) (p : Nat) (f : Strait → Strait) :
    (s.modStrait p f).core.mem = s.core.mem := by rfl

@[simp] theorem flood_core_mem (s : State) (c : LinkChange) (but : Nat) : (s.flood c but).core.mem = s.core.mem := by
  simp [State.flood]

@[simp] theorem straitTo_core_mem (s : State) (p st : Nat) (f : Strait → Strait) :
    (s.straitTo p st f).core.mem = s.core.mem := by
  simp [State.straitTo]

@[simp] theorem trainStrait_core_mem (s : State) (p : Nat) : (s.trainStrait p).core.mem = s.core.mem := by
  unfold State.trainStrait
  (repeat' split) <;> simp

@[simp] theorem downStrait_core_mem (s : State) (p : Nat) : (s.downStrait p).core.mem = s.core.mem := by
  unfold State.downStrait
  (repeat' split) <;> simp

@[simp] theorem takeChange_core_mem (s : State) (p : Nat) (c : LinkChange) : (s.takeChange p c).core.mem = s.core.mem := by
  unfold State.takeChange
  dsimp only
  (repeat' split) <;> simp_all

@[simp] theorem takeTable_core_mem (s : State) (oldest : Nat) (cs : List LinkChange) :
    (s.takeTable oldest cs).core.mem = s.core.mem := by
  simp [State.takeTable]

@[simp] theorem modServo_core_mem (s : State) (f : Servo → Servo) : (s.modServo f).core.mem = s.core.mem := by rfl

@[simp] theorem modPort_core_mem (s : State) (p : Nat) (f : EthPort → EthPort) :
    (s.modPort p f).core.mem = s.core.mem := by
  unfold State.modPort
  (repeat' split) <;> simp

@[simp] theorem modQp_core_mem (s : State) (q : Nat) (f : QueuePair → QueuePair) :
    (s.modQp q f).core.mem = s.core.mem := by
  unfold State.modQp
  (repeat' split) <;> simp

/-! Of `Sys2Proof/Machine/TileEvents.lean`. -/

@[simp] theorem waitSleep_core_mem (i : Instr) (s : State) : (waitSleep i s).core.mem = s.core.mem := by
  unfold waitSleep
  (repeat' split) <;> simp

@[simp] theorem arriveAsleep_core_mem (s : State) (t c : Nat) : (s.arriveAsleep t c).core.mem = s.core.mem := by
  unfold State.arriveAsleep
  (repeat' split) <;> simp

@[simp] theorem dropEntry_core_mem (s : State) (t c : Nat) (e : CommitEntry) :
    (s.dropEntry t c e).core.mem = s.core.mem := by rfl

theorem launchAt_core_mem {s : State} {t c : Nat} {r : Ref} {entry : Nat} {res : State}
    (h : s.launchAt t c r entry = .ok res) : res.core.mem = s.core.mem := by
  unfold State.launchAt at h
  simp only [bind_eq_ok, Prod.exists] at h
  grind [→ translate_core_mem, returnEntry_core_mem, readyBack_core_mem, wakeForNode_core_mem]

@[simp] theorem giveBack_core_mem (s : State) (e : CommitEntry) : (s.giveBack e).core.mem = s.core.mem := by
  unfold State.giveBack
  (repeat' split) <;> simp

@[simp] theorem putTest_core_mem (s : State) (t c p : Nat) (v : Mask) : (s.putTest t c p v).core.mem = s.core.mem := by rfl

@[simp] theorem lateEffect_core_mem (s : State) (t : Nat) (w : LateOp) : (s.lateEffect t w).core.mem = s.core.mem := by
  unfold State.lateEffect
  (repeat' split) <;> simp

@[simp] theorem fillSlice_core_mem (s : State) (n asid obj : Nat) (e : BitVec 256) (p : Option TlbPage) :
    (s.fillSlice n asid obj e p).core.mem = s.core.mem := by rfl

/-! Of `Sys2Proof/Machine/Issue.lean`. -/

@[simp] theorem capture_core_mem (s : State) : (s.capture).core.mem = s.core.mem := by rfl

@[simp] theorem enter_core_mem (s : State) (w : BitVec 512) (commits : Bool) :
    (s.enter w commits).core.mem = s.core.mem := by
  unfold State.enter
  (repeat' split) <;> simp

@[simp] theorem loopEnd_core_mem (s : State) : (s.loopEnd).1.core.mem = s.core.mem := by
  unfold State.loopEnd
  dsimp only
  (repeat' split) <;> simp_all

@[simp] theorem countIssue_core_mem (s : State) (ops : List (Nat × Instr)) : (s.countIssue ops).core.mem = s.core.mem := by
  unfold State.countIssue
  dsimp only
  (repeat' split) <;> simp_all

@[simp] theorem finishBundle_core_mem (s : State) (w : BitVec 512) (yields inRegion : Bool) :
    (s.finishBundle w yields inRegion).core.mem = s.core.mem := by
  unfold State.finishBundle
  dsimp only
  (repeat' split) <;> simp_all

theorem issued_core_mem {s t : State} {i c : Nat} {r : Host.Outcome State Fault Refusal} (h : s.issued i c r = .next t) :
    ∃ u, r = .next u ∧ (t.core.mem = s.core.mem ∨ t.core.mem = u.core.mem) := by
  unfold State.issued at h
  split at h
  · refine ⟨_, rfl, ?_⟩
    obtain rfl := Host.Outcome.next.inj h
    split
    · exact .inl (waitFor_core_mem _ _)
    · exact .inr rfl
  · exact ⟨t, h, .inr rfl⟩

end Sys2Proof.Machine.MemoryFrames

/-! PROOF. The functions of the state that write memory keep it in its canonical form (R3, R354), in the order of the model's
files. -/

namespace Sys2Proof.Machine.MemoryForm

open StreamsAndArms MemoryFrames

/-- Memory in the canonical form: `State.MemCanonical` of the memory alone. -/
def CanonicalMem (m : FMap Byte) : Prop := FMap.wf 0 m = true

theorem ite_canonical {c : Prop} [Decidable c] {a b : State} (ha : CanonicalMem a.core.mem) (hb : CanonicalMem b.core.mem) :
    CanonicalMem (if c then a else b).core.mem := by
  split
  · exact ha
  · exact hb

theorem foldl_canonical {α : Type} (f : State → α → State) (hf : ∀ s x, CanonicalMem s.core.mem → CanonicalMem (f s x).core.mem)
    (xs : List α) (s : State) (hc : CanonicalMem s.core.mem) : CanonicalMem (xs.foldl f s).core.mem := by
  induction xs generalizing s with
  | nil => exact hc
  | cons x xs ih => exact ih _ (hf s x hc)

theorem wr8_canonical (s : State) (pa : Nat) (v : Byte) (hc : CanonicalMem s.core.mem) : CanonicalMem (s.wr8 pa v).core.mem :=
  State.MemCanonical.wr8 hc pa v

theorem wrBytes_canonical (s : State) (pa : Nat) (bs : List Byte) (hc : CanonicalMem s.core.mem) :
    CanonicalMem (s.wrBytes pa bs).core.mem := State.MemCanonical.wrBytes hc pa bs

theorem loseVolatile_canonical (s : State) (i : Nat) (hc : CanonicalMem s.core.mem) : CanonicalMem (s.loseVolatile i).core.mem :=
  State.MemCanonical.loseVolatile hc i

theorem powerLoss_canonical (s : State) (hc : CanonicalMem s.core.mem) : CanonicalMem s.powerLoss.core.mem :=
  State.MemCanonical.powerLoss hc

theorem except_map_ok {ε α β : Type} {x : Except ε α} {f : α → β} {b : β} (h : x.map f = .ok b) : ∃ a, x = .ok a ∧ b = f a := by
  cases x with
  | error e => cases h
  | ok a => exact ⟨a, rfl, (Except.ok.inj h).symm⟩

/-! Of `Sys2Proof/Machine/Mem.lean`. -/

theorem wrNat_canonical {s : State} {pa n v : Nat} (hc : CanonicalMem s.core.mem) :
    CanonicalMem (s.wrNat pa n v).core.mem := by
  simp [State.wrNat, wrBytes_canonical, hc]

theorem wrCells_canonical (s : State) (cs : List (Nat × Byte)) (hc : CanonicalMem s.core.mem) :
    CanonicalMem (s.wrCells cs).core.mem := by
  induction cs generalizing s with
  | nil => exact hc
  | cons c cs ih => exact ih _ (wr8_canonical s c.1 c.2 hc)

theorem markDirty_canonical (s : State) (es : List Nat) (hc : CanonicalMem s.core.mem) :
    CanonicalMem (s.markDirty es).core.mem := by
  induction es generalizing s with
  | nil => exact hc
  | cons e es ih => exact ih _ (wr8_canonical s e _ hc)

/-! Of `Sys2Proof/Machine/Ops.lean`. -/

theorem signalAt_canonical {s : State} {pa : Nat} {delta : Int} {status : Nat}
    (hc : CanonicalMem s.core.mem) : CanonicalMem (s.signalAt pa delta status).core.mem := by
  simp [State.signalAt, wrNat_canonical, hc]

theorem cpSignal_canonical {s : State} {pa status : Nat} (hc : CanonicalMem s.core.mem) :
    CanonicalMem (s.cpSignal pa status).core.mem := by
  unfold State.cpSignal
  (repeat' split) <;> simp_all [signalAt_canonical]

theorem logInsert_canonical (s : State) (base size lo : Nat) (r : BitVec 512) (n : Nat) (hc : CanonicalMem s.core.mem) :
    CanonicalMem (s.logInsert base size lo r n).core.mem := by
  induction n generalizing s with
  | zero => exact wrNat_canonical hc
  | succ n ih =>
    unfold State.logInsert
    dsimp only
    split
    · exact ih _ (wrNat_canonical hc)
    · exact wrNat_canonical hc

theorem logRecord_canonical (s : State) (p : Nat) (r : BitVec 512) (hc : CanonicalMem s.core.mem) :
    CanonicalMem (s.logRecord p r).core.mem := by
  unfold State.logRecord
  extract_lets e base size head read
  split
  · rw [setService_core_mem]; exact hc
  · rw [setService_core_mem]; exact logInsert_canonical _ _ _ _ _ _ hc

theorem postEvent_canonical {s : State} {dest : EventDest} {r : EventRec} (hc : CanonicalMem s.core.mem) :
    CanonicalMem (s.postEvent dest r).core.mem := by
  unfold State.postEvent
  (repeat' split) <;> simp_all [logRecord_canonical]

theorem writeFault_canonical {s : State} {t c disp : Nat} {tr : Trap} {pc : Off}
    (hc : CanonicalMem s.core.mem) : CanonicalMem (s.writeFault t c disp tr pc).core.mem := by
  simp [State.writeFault, logRecord_canonical, hc]

/-- What follows a trap leaves memory as the fault's record left it (R348): the region's abort. -/
theorem recordFault_memCanonical {s : State} {t c k : Nat} {tr : Trap} {pc : Off} (hc : s.MemCanonical) :
    ((s.writeFault t c k tr pc).abortRegion t c).MemCanonical := by
  unfold State.MemCanonical
  rw [abortRegion_core_mem]
  exact writeFault_canonical hc

theorem stopTask_memCanonical {s : State} {t c n k : Nat} (hc : s.MemCanonical) : (s.stopTask t c n k).MemCanonical := by
  unfold State.MemCanonical
  rw [stopTask_core_mem]
  exact hc

theorem faultDomain_memCanonical {s : State} {t c : Nat} {k : Task} (hc : s.MemCanonical) :
    (s.faultDomain t c k).MemCanonical := by
  unfold State.MemCanonical
  rw [faultDomain_core_mem]
  exact hc

theorem modCtx_memCanonical {s : State} {t c : Nat} {f : Ctx → Ctx} (hc : s.MemCanonical) : (s.modCtx t c f).MemCanonical := hc

theorem takeSystemTrap_memCanonical {s : State} (t c : Nat) (tr : Trap) (pc : Off) (n : Nat) (hc : s.MemCanonical) :
    (s.takeSystemTrap t c tr pc n).MemCanonical := by
  unfold State.takeSystemTrap
  extract_lets s0 x k asks s1 status s2
  have h0 : s0.MemCanonical := by
    unfold s0
    split
    · exact hc.congr (markBad_core_mem _ _ _)
    · exact hc
  have ha : asks.MemCanonical := by
    unfold asks
    split
    · exact h0.congr (requestRegen_core_mem _ _ _ _)
    · exact h0
  have h1 : s1.MemCanonical := recordFault_memCanonical h0
  have h2 : s2.MemCanonical := recordFault_memCanonical ha
  split
  · exact modCtx_memCanonical (recordFault_memCanonical ha)
  · split
    · split
      · exact modCtx_memCanonical h1
      · exact stopTask_memCanonical (faultDomain_memCanonical (writeFault_canonical h1))
    · refine stopTask_memCanonical ?_
      split
      · exact faultDomain_memCanonical h2
      · exact h2

theorem takeSystemTrap_canonical (s : State) (t c : Nat) (tr : Trap) (pc : Off) (n : Nat) (hc : CanonicalMem s.core.mem) :
    CanonicalMem (s.takeSystemTrap t c tr pc n).core.mem := takeSystemTrap_memCanonical t c tr pc n hc

theorem takeTrap_canonical {s : State} {tr : Trap} (hc : CanonicalMem s.core.mem) :
    CanonicalMem (s.takeTrap tr).core.mem := by
  simp [State.takeTrap, takeSystemTrap_canonical, hc]

theorem takeUserTrap_canonical {s : State} {cause : BitVec 8} {info : BitVec 16} {tr : Trap}
    (hc : CanonicalMem s.core.mem) : CanonicalMem (s.takeUserTrap cause info tr).core.mem := by
  unfold State.takeUserTrap
  (repeat' split) <;> simp_all [takeTrap_canonical]

theorem finish_canonical {s t : State} {r : Except Stop State} (h : finish s r = .next t) (hc : CanonicalMem s.core.mem)
    (hr : ∀ u, r = .ok u → CanonicalMem u.core.mem) : CanonicalMem t.core.mem := by
  unfold finish at h
  split at h
  · exact (Host.Outcome.next.inj h) ▸ hr _ rfl
  · exact (Host.Outcome.next.inj h) ▸ takeTrap_canonical hc
  · cases h

theorem atIssue_canonical {i : Instr} {g : Guard} {check : State → Except Stop Unit} {eff : State → Except Stop State}
    {s t : State}
    (h : atIssue i g check eff s = .next t) (hc : CanonicalMem s.core.mem)
    (he : ∀ u, eff s = .ok u → CanonicalMem u.core.mem) : CanonicalMem t.core.mem := by
  refine finish_canonical h hc fun u hu => ?_
  obtain ⟨_, -, hu⟩ := bind_eq_ok.1 hu
  split at hu
  · obtain ⟨_, -, hu⟩ := bind_eq_ok.1 hu
    exact he u hu
  · exact (Except.ok.inj hu) ▸ hc

theorem atIssueLanes_canonical {i : Instr} {check : State → Except Stop Unit} {eff : State → Except Stop State} {s t : State}
    (h : atIssueLanes i check eff s = .next t) (hc : CanonicalMem s.core.mem)
    (he : ∀ u, eff s = .ok u → CanonicalMem u.core.mem) : CanonicalMem t.core.mem := by
  refine finish_canonical h hc fun u hu => ?_
  obtain ⟨_, -, hu⟩ := bind_eq_ok.1 hu
  obtain ⟨_, -, hu⟩ := bind_eq_ok.1 hu
  exact he u hu

theorem wrHome_canonical {s : State} {pa : Nat} {v : Byte} (hc : CanonicalMem s.core.mem) :
    CanonicalMem (s.wrHome pa v).core.mem := by
  unfold State.wrHome
  (repeat' split) <;> simp_all [wr8_canonical]

theorem performStore_canonical (s : State) (dirty : List Nat) (cs : List (Nat × Byte)) (hc : CanonicalMem s.core.mem) :
    CanonicalMem (s.performStore dirty cs).core.mem := by
  unfold State.performStore
  rw [touch_core_mem, noteWrite_core_mem]
  refine foldl_canonical _ ?_ _ _ (markDirty_canonical s dirty hc)
  rintro a ⟨pa, v⟩ h
  exact wrHome_canonical h

/-! Of `Sys2Proof/Machine/MatrixDense.lean`. -/

theorem keeping_canonical {s t : State} {r : Except Stop State} (h : keeping s r = .ok t) (hc : CanonicalMem s.core.mem)
    (hr : ∀ u, r = .ok u → CanonicalMem u.core.mem) : CanonicalMem t.core.mem := by
  unfold keeping at h
  split at h
  · exact (Except.ok.inj h) ▸ takeTrap_canonical hc
  · exact hr t h

theorem mmaEff_canonical {g : Guard} {b : MatrixBody} {wide : Bool} {s r : State} (h : mmaEff g b wide s = .ok r)
    (hc : CanonicalMem s.core.mem) : CanonicalMem r.core.mem := by
  unfold mmaEff at h
  have h1 : CanonicalMem (if b.aux.getLsbD 16 || g.dup || !(s.tid b.tid.toNat).valid then s
      else s.setTid b.tid.toNat (s.tid b.tid.toNat).advance).core.mem := by
    split
    · exact hc
    · rw [setTid_core_mem]; exact hc
  refine keeping_canonical h h1 fun u hu => ?_
  rw [mmaRun_core_mem hu]
  exact h1

/-! Of `Sys2Proof/Machine/LowRank.lean`. -/

theorem lrank_canonical {s : State} {d : BitVec 8} {t : Nat} (hc : CanonicalMem s.core.mem) :
    CanonicalMem (s.lrank d t).core.mem := by
  simp [State.lrank, takeUserTrap_canonical, hc]

theorem lrFit_canonical {s : State} {d : BitVec 8} {at_ : Bool} {o : LrOp} {r : State}
    (h : s.lrFit d at_ o = .ok r) (hc : CanonicalMem s.core.mem) : CanonicalMem r.core.mem := by
  unfold State.lrFit at h
  grind [bind_eq_ok, lrDone_core_mem, lrank_canonical]

/-! Of `Sys2Proof/Machine/Store.lean`. -/

theorem storeScratch_canonical {slot : Nat} {c : Cap} {rs : List Nat} {he : Option Nat} {eo : Nat} {xs : List (Nat × List Byte)}
    {s r : State} (h : s.storeScratch slot c rs he eo xs = .ok r) (hc : CanonicalMem s.core.mem) : CanonicalMem r.core.mem := by
  induction xs generalizing s with
  | nil => exact (Except.ok.inj h) ▸ hc
  | cons x xs ih =>
    unfold State.storeScratch at h
    obtain ⟨⟨s1, ps, ds⟩, hp, h⟩ := bind_eq_ok.1 h
    refine ih h (foldl_canonical _ (fun a p ha => ?_) _ _ (performStore_canonical _ _ _ ?_))
    · rw [chargeMe_core_mem]; exact ha
    · rw [port_core_mem hp]; exact hc

theorem storeRows_canonical {slot : Nat} {c : Cap} {at0 : Nat} {ps : List (Nat × Nat)} {s r : State}
    (h : s.storeRows slot c at0 ps = .ok r) (hc : CanonicalMem s.core.mem) : CanonicalMem r.core.mem := by
  induction ps generalizing s at0 with
  | nil => exact (Except.ok.inj h) ▸ hc
  | cons p ps ih =>
    obtain ⟨s1, h1, h⟩ := bind_eq_ok.1 h
    exact ih h (storeScratch_canonical h1 hc)

theorem scatter_canonical (s : State) (slot : Nat) (c : Cap) (es at0 : Nat) (xs : List (Nat × Nat))
    (hc : CanonicalMem s.core.mem) :
    CanonicalMem (s.scatter slot c es at0 xs).1.core.mem := by
  induction xs generalizing s with
  | nil => exact hc
  | cons x xs ih =>
    unfold State.scatter
    split
    · exact hc
    next s1 cs ds hb =>
      obtain ⟨_, -, hl⟩ := bind_eq_ok.1 hb
      have h1 : CanonicalMem s1.core.mem := by rw [storeCells_core_mem hl]; exact hc
      refine ih _ ?_
      split
      · exact performStore_canonical _ _ _ h1
      · exact h1

theorem stopWith_canonical {s r : State} {e : Stop} (h : stopWith s e = .ok r) (hc : CanonicalMem s.core.mem) :
    CanonicalMem r.core.mem := by
  unfold stopWith at h
  grind [takeTrap_canonical]

theorem vscatEff_canonical {g : Guard} {b : MemBody} {s r : State} (h : vscatEff g b s = .ok r)
    (hc : CanonicalMem s.core.mem) : CanonicalMem r.core.mem := by
  unfold vscatEff at h
  have h1 := scatter_canonical s g.slot.toNat (s.ra b.areg.toNat) (memLen b) (s.me.viewEnv.start .v (ropIndex b.data))
    (s.gatherElems g b) hc
  grind [→ stopWith_canonical, → commit_core_mem, State.modMe_core_mem]

theorem lrstsEff_canonical {g : Guard} {b : MemBody} {s : State} {r : State}
    (h : lrstsEff g b s = .ok r) (hc : CanonicalMem s.core.mem) : CanonicalMem r.core.mem := by
  unfold lrstsEff at h
  simp only [bind_eq_ok] at h
  grind [→ storeScratch_canonical]

/-! Of `Sys2Proof/Machine/Pump.lean`. -/

theorem deliverPieces_canonical (s : State) (m : PumpCmd) (he write : Bool) (ps : List Piece) (bs : List Byte)
    (hc : CanonicalMem s.core.mem) : CanonicalMem (s.deliverPieces m he write ps bs).1.core.mem := by
  induction ps generalizing s m bs with
  | nil => exact hc
  | cons p ps ih =>
    unfold State.deliverPieces
    refine ih _ _ _ ?_
    have h1 : CanonicalMem (if write then s.performStore [] (cellsOf [(p.1, p.2)] (bs.take p.2)) else s).core.mem := by
      split
      · exact performStore_canonical _ _ _ hc
      · exact hc
    split
    · exact h1
    · exact h1

theorem moveRow_canonical {s : State} {m : PumpCmd} {i : Nat} {r : State × PumpCmd} (h : s.moveRow m i = .ok r)
    (hc : CanonicalMem s.core.mem) : CanonicalMem r.1.core.mem := by
  unfold State.moveRow at h
  extract_lets v dst src ix n he io at h
  obtain ⟨_, -, h⟩ := bind_eq_ok.1 h
  obtain ⟨⟨s1, ips, x1⟩, h1, h⟩ := bind_eq_ok.1 h
  have c1 : CanonicalMem s1.core.mem := by rw [pumpPort_core_mem h1]; exact hc
  dsimp only at h
  split at h
  · exact (Except.ok.inj h) ▸ c1
  · obtain ⟨_, -, h⟩ := bind_eq_ok.1 h
    obtain ⟨⟨s2, dps, ds⟩, h2, h⟩ := bind_eq_ok.1 h
    have c2 : CanonicalMem s2.core.mem := by rw [pumpPort_core_mem h2]; exact c1
    dsimp only at h
    split at h
    · exact (Except.ok.inj h) ▸ deliverPieces_canonical _ _ _ _ _ _ c2
    · obtain ⟨_, -, h⟩ := bind_eq_ok.1 h
      obtain ⟨⟨s3, sps, x3⟩, h3, h⟩ := bind_eq_ok.1 h
      obtain ⟨bs, -, h⟩ := bind_eq_ok.1 h
      rw [← Except.ok.inj h]
      refine deliverPieces_canonical _ _ _ _ _ _ (markDirty_canonical _ _ ?_)
      rw [touchPieces_core_mem, pumpPort_core_mem h3]
      exact c2

theorem moveRows_canonical {s r : State} {m : PumpCmd} {n : Nat} (h : s.moveRows m n = .ok r)
    (hc : CanonicalMem s.core.mem) : CanonicalMem r.core.mem := by
  induction n generalizing s m with
  | zero => exact (Except.ok.inj h) ▸ hc
  | succ n ih =>
    unfold State.moveRows at h
    grind [→ moveRow_canonical, → failCmd_core_mem, setCmd_core_mem]

theorem declareRows_canonical {s : State} {m : PumpCmd} (hc : CanonicalMem s.core.mem) :
    CanonicalMem (s.declareRows m).core.mem := by
  simp [State.declareRows, markDirty_canonical, hc]

theorem pumpAccept_canonical {s : State} {m : PumpCmd} {r : State × PumpCmd}
    (h : s.pumpAccept m = .ok r) (hc : CanonicalMem s.core.mem) : CanonicalMem r.1.core.mem := by
  unfold State.pumpAccept at h
  grind [bind_eq_ok, markDirty_canonical, declareRows_canonical, → pumpPort_core_mem]

theorem moveBytes_canonical {s r : State} {m : PumpCmd} {k : Nat} (h : s.moveBytes m k = .ok r)
    (hc : CanonicalMem s.core.mem) : CanonicalMem r.core.mem := by
  unfold State.moveBytes at h
  dsimp only at h
  split at h
  · rw [failCmd_core_mem h]; exact hc
  next s1 bs ps ds hb =>
    rw [← Except.ok.inj h, setCmd_core_mem]
    refine deliverPieces_canonical _ _ _ _ _ _ (markDirty_canonical _ _ ?_)
    obtain ⟨⟨s0, b0⟩, h0, hb⟩ := bind_eq_ok.1 hb
    obtain ⟨⟨u, q⟩, hu, hb⟩ := bind_eq_ok.1 hb
    have hs : s0.core.mem = s.core.mem := by
      split at h0
      · obtain ⟨⟨v, w⟩, hv, h0⟩ := bind_eq_ok.1 h0
        obtain ⟨_, -, h0⟩ := bind_eq_ok.1 h0
        cases h0
        rw [touchPieces_core_mem, pumpPort_core_mem hv]
      · cases h0
        rfl
    cases hb
    rw [pumpPort_core_mem hu, hs]
    exact hc

theorem pumpMove_canonical {s : State} {m : PumpCmd} {bytes : Nat} {r : State}
    (h : s.pumpMove m bytes = .ok r) (hc : CanonicalMem s.core.mem) : CanonicalMem r.core.mem := by
  unfold State.pumpMove at h
  grind [bind_eq_ok, setCmd_core_mem, → moveBytes_canonical, → failCmd_core_mem, exportPieces_core_mem,
    → moveRows_canonical, declareRows_canonical, → pumpPort_core_mem]

theorem pumpDeliver_canonical {s : State} {m : PumpCmd} {bytes : Nat} {r : State}
    (h : s.pumpDeliver m bytes = .ok r) (hc : CanonicalMem s.core.mem) : CanonicalMem r.core.mem := by
  unfold State.pumpDeliver at h
  simp only at h
  grind [setCmd_core_mem, → pumpMove_canonical]

theorem signalCmd_canonical {s : State} {m : PumpCmd} {r : State × PumpCmd} (h : s.signalCmd m = .ok r)
    (hc : CanonicalMem s.core.mem) : CanonicalMem r.1.core.mem := by
  unfold State.signalCmd at h
  simp only at h
  grind [markDirty_canonical, signalAt_canonical, cmdStop_core_mem, cpSignal_canonical, → pumpPort_core_mem]

theorem cmdTrap_canonical {s : State} {m : PumpCmd} (hc : CanonicalMem s.core.mem) :
    CanonicalMem (s.cmdTrap m).core.mem := by
  unfold State.cmdTrap
  (repeat' split) <;> simp_all [takeSystemTrap_canonical]

theorem completeCmd_canonical {s r : State} {m : PumpCmd} (h : s.completeCmd m = .ok r) (hc : CanonicalMem s.core.mem) :
    CanonicalMem r.core.mem := by
  obtain ⟨p, hp, h⟩ := bind_eq_ok.1 h
  have h1 := signalCmd_canonical hp hc
  rw [← Except.ok.inj h, settle_core_mem]
  refine cmdTrap_canonical ?_
  split
  · rw [cmdJob_core_mem, dropCmd_core_mem]; exact h1
  · rw [State.modCtx_core_mem, cmdJob_core_mem, dropCmd_core_mem]; exact h1

/-! Of `Sys2Proof/Machine/Sync.lean`. -/

theorem sigAddAt_canonical {s : State} {pa : Nat} {v : Word} (hc : CanonicalMem s.core.mem) :
    CanonicalMem (s.sigAddAt pa v).core.mem := by
  simp [State.sigAddAt, signalAt_canonical, hc]

/-! Of `Sys2Proof/Machine/Kv.lean`. -/

theorem deliverScratch_canonical (s : State) (m : PumpCmd) (he : Bool) (off : Nat) (bs : List Byte)
    (hc : CanonicalMem s.core.mem) : CanonicalMem (s.deliverScratch m he off bs).core.mem := by
  unfold State.deliverScratch
  dsimp only
  split
  · exact hc
  · exact deliverPieces_canonical _ _ _ _ _ _ hc

theorem nanRecord_canonical {s : State} {m : PumpCmd} {desc : BitVec 512} (hc : CanonicalMem s.core.mem) :
    CanonicalMem (s.nanRecord m desc).core.mem := by
  simp [State.nanRecord, deliverScratch_canonical, hc]

theorem failKv_canonical {s : State} {m : PumpCmd} {k off c : Nat} (hc : CanonicalMem s.core.mem) :
    CanonicalMem (s.failKv m k off c).core.mem := by
  unfold State.failKv
  (repeat' split) <;> simp_all [nanRecord_canonical]

theorem kvRun_canonical {s : State} {x : Except KvStop State} (hc : CanonicalMem s.core.mem)
    (hx : ∀ u, x = .ok u → CanonicalMem u.core.mem) : CanonicalMem (kvRun s x).1.core.mem := by
  cases x with
  | ok u => exact hx u rfl
  | error e => exact hc

theorem kvThen_canonical {α : Type} {s : State} {x : Except KvStop α} {f : α → KvResult} (hc : CanonicalMem s.core.mem)
    (hx : ∀ a, x = .ok a → CanonicalMem (f a).1.core.mem) : CanonicalMem (kvThen s x f).1.core.mem := by
  cases x with
  | ok a => exact hx a rfl
  | error e => exact hc

theorem kvMade_canonical {s : State} {k off : Nat} {o : Option State} (hc : CanonicalMem s.core.mem)
    (ho : ∀ u, o = some u → CanonicalMem u.core.mem) : CanonicalMem (kvMade s k off o).1.core.mem := by
  cases o with
  | some u => exact ho u rfl
  | none => exact hc

theorem kvExtend_canonical {k off : Nat} {s s1 : State} {d : BitVec 512} {put : State → Nat → State}
    (hp : ∀ x b, (put x b).core.mem = x.core.mem) (hc : CanonicalMem s.core.mem) (h1 : s1.core.mem = s.core.mem) :
    CanonicalMem (kvExtend k off s s1 d put).1.core.mem := by
  unfold kvExtend
  have ha := kvAlloc_core_mem s1 k off false
  split
  · exact hc
  · split
    · exact hc
    · split
      next hs => rw [hs] at ha; dsimp only at ha ⊢; rw [ha, h1]; exact hc
      next s2 b hs =>
        rw [hs] at ha
        refine kvMade_canonical hc fun u hu => ?_
        obtain ⟨s3, h3, hu⟩ := Option.map_eq_some_iff.1 hu
        rw [← hu, hp, modSeq_core_mem, roomFor_core_mem _ _ _ _ _ h3, ha, h1]
        exact hc

theorem kvAppend_canonical (m : PumpCmd) (k off : Nat) (s : State) (hc : CanonicalMem s.core.mem) :
    CanonicalMem (kvAppend m k off s).1.core.mem := by
  unfold kvAppend
  refine kvThen_canonical hc fun a ha => ?_
  obtain ⟨_, -, ha⟩ := bind_eq_ok.1 ha
  obtain ⟨_, -, ha⟩ := bind_eq_ok.1 ha
  have h1 := kvSource_core_mem ha
  dsimp only
  split
  · split
    · split
      · rw [putToken_core_mem, h1]; exact hc
      · exact hc
    · exact kvExtend_canonical (fun _ _ => putToken_core_mem _ _ _ _ _ _ _) hc h1
  · exact kvExtend_canonical (fun _ _ => putToken_core_mem _ _ _ _ _ _ _) hc h1

theorem kvAttn_canonical (m : PumpCmd) (k off : Nat) (s : State) (hc : CanonicalMem s.core.mem) :
    CanonicalMem (kvAttn m k off s).1.core.mem := by
  unfold kvAttn
  refine kvRun_canonical hc fun u hu => ?_
  obtain ⟨_, -, hu⟩ := bind_eq_ok.1 hu
  obtain ⟨_, -, hu⟩ := bind_eq_ok.1 hu
  obtain ⟨p, hp, hu⟩ := bind_eq_ok.1 hu
  obtain ⟨_, -, hu⟩ := bind_eq_ok.1 hu
  rw [← Except.ok.inj hu]
  refine deliverScratch_canonical _ _ _ _ _ ?_
  rw [kvTouch_core_mem, kvSource_core_mem hp]
  exact hc

theorem kvScoreCmd_canonical (m : PumpCmd) (k off : Nat) (s : State) (hc : CanonicalMem s.core.mem) :
    CanonicalMem (kvScoreCmd m k off s).1.core.mem := by
  unfold kvScoreCmd
  refine kvRun_canonical hc fun u hu => ?_
  obtain ⟨_, -, hu⟩ := bind_eq_ok.1 hu
  obtain ⟨_, -, hu⟩ := bind_eq_ok.1 hu
  obtain ⟨_, -, hu⟩ := bind_eq_ok.1 hu
  obtain ⟨p, hp, hu⟩ := bind_eq_ok.1 hu
  obtain ⟨_, -, hu⟩ := bind_eq_ok.1 hu
  rw [← Except.ok.inj hu, modSeq_core_mem, kvTouch_core_mem, kvSource_core_mem hp]
  exact hc

theorem kvFree_canonical (k off : Nat) (s : State) (hc : CanonicalMem s.core.mem) :
    CanonicalMem (kvFree k off s).1.core.mem := by
  unfold kvFree
  refine kvRun_canonical hc fun u hu => ?_
  obtain ⟨_, -, hu⟩ := bind_eq_ok.1 hu
  rw [← Except.ok.inj hu, modSeq_core_mem, foldl_core_mem]
  · exact hc
  · exact fun a e => dropRef_core_mem a k _

theorem kvPin_canonical (n k off : Nat) (s : State) (hc : CanonicalMem s.core.mem) :
    CanonicalMem (kvPin n k off s).1.core.mem := by
  unfold kvPin
  refine kvThen_canonical hc fun _ _ => kvMade_canonical hc fun u hu => ?_
  rw [renewVersion_core_mem _ _ _ _ _ _ hu]
  exact hc

theorem kvWinCmd_canonical (w k off : Nat) (s : State) (hc : CanonicalMem s.core.mem) :
    CanonicalMem (kvWinCmd w k off s).1.core.mem := by
  unfold kvWinCmd
  refine kvThen_canonical hc fun _ _ => ?_
  extract_lets s1 q pins rest sink sizes c gone
  have h1 : s1.core.mem = s.core.mem := modSeq_core_mem s k off _
  split
  · rw [h1]; exact hc
  · refine kvMade_canonical hc fun u hu => ?_
    obtain ⟨x, hx, hu⟩ := Option.map_eq_some_iff.1 hu
    rw [← hu, modSeq_core_mem, renewVersion_core_mem _ _ _ _ _ _ hx, h1]
    exact hc

theorem kvForkNew_canonical (m : PumpCmd) (k off : Nat) (s : State) (hc : CanonicalMem s.core.mem) :
    CanonicalMem (kvForkNew m k off s).1.core.mem := by
  unfold kvForkNew
  refine kvThen_canonical hc fun a ha => ?_
  obtain ⟨_, -, ha⟩ := bind_eq_ok.1 ha
  obtain ⟨⟨s1, bs⟩, hl, ha⟩ := bind_eq_ok.1 ha
  obtain ⟨_, -, ha⟩ := bind_eq_ok.1 ha
  have h1 : s1.core.mem = s.core.mem := by
    unfold liftKv at hl
    split at hl
    next hx =>
      cases hl
      obtain ⟨⟨u, q⟩, hu, hx⟩ := bind_eq_ok.1 hx
      cases hx
      exact pumpPort_core_mem hu
    · cases hl
  cases ha
  refine kvMade_canonical hc fun u hu => ?_
  obtain ⟨x, hx, hu⟩ := Option.map_eq_some_iff.1 hu
  rw [← hu, modSeq_core_mem, roomFor_core_mem _ _ _ _ _ hx, h1]
  exact hc

theorem forkTail_core_mem (s : State) (k src : Nat) (es : List TableEntry) : (s.forkTail k src es).1.1.core.mem = s.core.mem := by
  cases es with
  | nil => rfl
  | cons e es =>
    unfold State.forkTail
    have ha := kvAlloc_core_mem s k src false
    dsimp only
    split
    · rfl
    · split
      next hs => rw [← ha, hs]
      next hs => rw [← ha, hs, modBlock_core_mem]

theorem kvFork_canonical (m : PumpCmd) (k off src : Nat) (s : State) (hc : CanonicalMem s.core.mem) :
    CanonicalMem (kvFork m k off src s).1.core.mem := by
  unfold kvFork
  refine kvThen_canonical hc fun _ _ => ?_
  have ht := forkTail_core_mem s k src ((s.seq k src).table.drop (s.forkWhole k (s.seq k src).table))
  split
  next hs => rw [hs] at ht; rw [ht]; exact hc
  · refine kvMade_canonical hc fun u hu => ?_
    next hs =>
    rw [hs] at ht
    obtain ⟨x, hx, hu⟩ := Option.map_eq_some_iff.1 hu
    rw [← hu, modSeq_core_mem, modSeq_core_mem, foldl_core_mem]
    · rw [roomFor_core_mem _ _ _ _ _ hx, ht]; exact hc
    · exact fun a e => addRef_core_mem a k _

theorem kvSeal_canonical (m : PumpCmd) (k off : Nat) (s : State) (hc : CanonicalMem s.core.mem) :
    CanonicalMem (kvSeal m k off s).1.core.mem := by
  unfold kvSeal
  refine kvRun_canonical hc fun u hu => ?_
  obtain ⟨_, -, hu⟩ := bind_eq_ok.1 hu
  dsimp only at hu
  split at hu
  · exact (Except.ok.inj hu) ▸ hc
  · rw [← Except.ok.inj hu, finishCmd_core_mem]; exact hc

theorem kvCompact_canonical (m : PumpCmd) (k off : Nat) (s : State) (hc : CanonicalMem s.core.mem) :
    CanonicalMem (kvCompact m k off s).1.core.mem := by
  unfold kvCompact
  refine kvRun_canonical hc fun u hu => ?_
  obtain ⟨_, -, hu⟩ := bind_eq_ok.1 hu
  obtain ⟨_, -, hu⟩ := bind_eq_ok.1 hu
  obtain ⟨_, -, hu⟩ := bind_eq_ok.1 hu
  exact (Except.ok.inj hu) ▸ hc

/-- What KVSTAT delivers (R264). -/
theorem statDelivered_canonical {s r : State} {m : PumpCmd} {bs : List Byte} {f : State} (hf : f.core.mem = s.core.mem)
    (hc : CanonicalMem s.core.mem) (h : (if bs.isEmpty then .ok s
      else liftKv do
        capCheck 6 m.cap1 [kSCRATCH] [rPD] [] m.cap1.offset bs.length
        let (s1, ps, _) ← f.pumpPort m m.cap1 [rPD] [] m.cap1.offset bs.length
        let (s2, m2) := s1.deliverPieces m (pumpHe m.body) true ps bs
        .ok (s2.setCmd m2)) = .ok r) : CanonicalMem r.core.mem := by
  split at h
  · exact (Except.ok.inj h) ▸ hc
  · unfold liftKv at h
    split at h
    next x hx =>
      cases h
      obtain ⟨_, -, hx⟩ := bind_eq_ok.1 hx
      obtain ⟨⟨s1, ps, ds⟩, hp, hx⟩ := bind_eq_ok.1 hx
      rw [← Except.ok.inj hx, setCmd_core_mem]
      refine deliverPieces_canonical _ _ _ _ _ _ ?_
      rw [pumpPort_core_mem hp, hf]
      exact hc
    · cases h
theorem kvStat_canonical (m : PumpCmd) (k off : Nat) (s : State) (hc : CanonicalMem s.core.mem) :
    CanonicalMem (kvStat m k off s).1.core.mem := by
  unfold kvStat
  refine kvRun_canonical hc fun u hu => ?_
  extract_lets pos hi bs rest at hu
  have hf : (if pos then s.kvTouch k off (kvLo m) hi else s).core.mem = s.core.mem := by
    split
    · rw [kvTouch_core_mem]
    · rfl
  have key : ∀ x, rest x = .ok u → CanonicalMem u.core.mem := fun x hx => by
    obtain ⟨v, hv, hx⟩ := bind_eq_ok.1 hx
    have hv := statDelivered_canonical hf hc hv
    rw [← Except.ok.inj hx]
    split
    · rw [modSeq_core_mem]; exact hv
    · exact hv
  split at hu
  · obtain ⟨x, -, hu⟩ := bind_eq_ok.1 hu
    exact key x hu
  · exact key () hu

theorem kvEffect_canonical (m : PumpCmd) (k off : Nat) (src : Option Nat) (s : State) (hc : CanonicalMem s.core.mem) :
    CanonicalMem (kvEffect m k off src s).1.core.mem := by
  unfold kvEffect
  split
  · exact kvAppend_canonical m k off s hc
  · exact kvAttn_canonical m k off s hc
  · exact kvScoreCmd_canonical m k off s hc
  · exact kvSeal_canonical m k off s hc
  · exact kvCompact_canonical m k off s hc
  · split
    · exact kvForkNew_canonical m k off s hc
    · exact kvFork_canonical m k off _ s hc
  · exact kvFree_canonical k off s hc
  · exact kvPin_canonical _ k off s hc
  · exact kvWinCmd_canonical _ k off s hc
  · exact kvStat_canonical m k off s hc

theorem kvResolve_canonical {s r : State} {m : PumpCmd} {k off : Nat} {src : Option Nat} (h : s.kvResolve m k off src = .ok r)
    (hc : CanonicalMem s.core.mem) : CanonicalMem r.core.mem := by
  unfold State.kvResolve at h
  extract_lets s0 at h
  have h0 : s0.core.mem = s.core.mem := by
    unfold s0
    rw [foldl_core_mem]
    · exact setCmd_core_mem _ _
    · exact fun _ _ => rfl
  have hk := kvEffect_canonical m k off src s0 (h0 ▸ hc)
  split at h
  next s1 hs =>
    rw [hs] at hk
    rw [← Except.ok.inj h]
    split
    · exact hk
    · rw [finishCmd_core_mem]; exact hk
  next s1 c hs =>
    rw [hs] at hk
    exact (Except.ok.inj h) ▸ failKv_canonical hk
  next s1 e hs =>
    rw [hs] at hk
    rw [failCmd_core_mem h]
    split
    · exact nanRecord_canonical hk
    · exact hk

theorem kvAccept_canonical {s r : State} {m : PumpCmd} (h : s.kvAccept m = .ok r)
    (hc : CanonicalMem s.core.mem) : CanonicalMem r.core.mem := by
  unfold State.kvAccept at h
  split at h
  · split at h
    · exact (Except.ok.inj h) ▸ hc
    · exact kvResolve_canonical h hc
  · obtain ⟨⟨s1, m1⟩, h1, h⟩ := bind_eq_ok.1 h
    obtain ⟨⟨s2, k, off⟩, h2, h⟩ := bind_eq_ok.1 h
    obtain ⟨⟨s3, src⟩, h3, h⟩ := bind_eq_ok.1 h
    have e1 : s1.core.mem = s.core.mem := by
      split at h1
      · exact readSurvivors_core_mem h1
      · cases h1; rfl
    have e3 : s3.core.mem = s.core.mem := by
      rw [← e1, ← seqHome_core_mem h2]
      split at h3
      · obtain ⟨⟨x, y⟩, hx, h3⟩ := bind_eq_ok.1 h3
        cases h3
        exact seqHome_core_mem hx
      · cases h3; rfl
    have c3 : CanonicalMem s3.core.mem := e3 ▸ hc
    replace h : (if s3.kvWaits m1 k off src then _ else s3.kvResolve m1 k off src) = .ok r := h
    split at h
    · rw [← Except.ok.inj h, foldl_core_mem]
      · rw [setCmd_core_mem]; exact c3
      · intro a n
        rw [modSeq_core_mem]
    · exact kvResolve_canonical h c3

/-! Of `Sys2Proof/Machine/Collective.lean`. -/

theorem wrCcb_canonical {s : State} {g : Nat} {x : Coll} {off : Nat} {bs : List Byte} {r : State}
    (h : s.wrCcb g x off bs = some r) (hc : CanonicalMem s.core.mem) : CanonicalMem r.core.mem := by
  unfold State.wrCcb at h
  grind [bind_eq_ok, → translate_core_mem, performStore_canonical]

theorem setColl_canonical (s : State) (g : Nat) (x : Coll) (hc : CanonicalMem s.core.mem) :
    CanonicalMem (s.setColl g x).core.mem := by
  unfold State.setColl
  extract_lets s1
  cases ho : s1.wrCcb g x 0 (leBytes 256 x.record ++ leBytes ((x.nchunk + 3) / 4) x.progress) with
  | none => exact hc
  | some u => exact wrCcb_canonical ho hc

theorem endColl_canonical {s : State} {g : Nat} {x : Coll} {err : Nat} (hc : CanonicalMem s.core.mem) :
    CanonicalMem (s.endColl g x err).core.mem := by
  simp [State.endColl, setColl_canonical, hc]

theorem colAccept_canonical {s : State} {g : Nat} {m : PumpCmd} (hc : CanonicalMem s.core.mem) :
    CanonicalMem (s.colAccept g m).core.mem := by
  grind [State.colAccept, setCmd_core_mem, modGroup_core_mem, endColl_canonical, setColl_canonical, colFailed_core_mem,
    → colInput_core_mem, → wrCcb_canonical]

theorem colStart_canonical {s : State} {g : Nat} {x : Coll} {tacc : Nat} {set : LinkSet} {same : Bool}
    (hc : CanonicalMem s.core.mem) : CanonicalMem (s.colStart g x tacc set same).core.mem := by
  grind [State.colStart, endColl_canonical, setColl_canonical]

theorem colChunk_canonical {s : State} {g : Nat} {x : Coll} {c : Nat} {given : List (List Byte)}
    (hc : CanonicalMem s.core.mem) : CanonicalMem (s.colChunk g x c given).core.mem := by
  grind [State.colChunk, endColl_canonical, setColl_canonical, → translate_core_mem, colFailed_core_mem, performStore_canonical]

theorem statWrite_canonical {s r : State} {m : PumpCmd} {bs : List Byte} (h : s.statWrite m bs = .ok r)
    (hc : CanonicalMem s.core.mem) : CanonicalMem r.core.mem := by
  obtain ⟨_, -, h⟩ := bind_eq_ok.1 h
  obtain ⟨p, hp, h⟩ := bind_eq_ok.1 h
  rw [← Except.ok.inj h, setCmd_core_mem]
  refine deliverPieces_canonical _ _ _ _ _ _ ?_
  rw [pumpPort_core_mem hp]
  exact hc

theorem colstat_canonical {s : State} {m : PumpCmd} {r : State} (h : s.colstat m = .ok r)
    (hc : CanonicalMem s.core.mem) : CanonicalMem r.core.mem := by
  unfold State.colstat at h
  simp only at h
  grind [→ statWrite_canonical, → failCmd_core_mem]

/-! Of `Sys2Proof/Machine/WellJournal.lean`. -/

theorem writeUnit_canonical {s : State} {t off : Nat} {bs : List Byte} (hc : CanonicalMem s.core.mem) :
    CanonicalMem (s.writeUnit t off bs).1.core.mem := by
  grind [State.writeUnit, tryWrite_core_mem, wrBytes_canonical, freeUnit_core_mem, modWell_core_mem]

theorem writeUnits_canonical (s : State) (t off : Nat) (bs : List Byte) (n : Nat) (hc : CanonicalMem s.core.mem) :
    CanonicalMem (s.writeUnits t off bs n).1.core.mem := by
  induction n generalizing s off bs with
  | zero => exact hc
  | succ n ih =>
    unfold State.writeUnits
    have hw : CanonicalMem (s.writeUnit t off (bs.take 64)).1.core.mem := writeUnit_canonical hc
    split
    next hs => exact ih _ _ _ (by rwa [hs] at hw)
    next hs => rwa [hs] at hw

theorem writePage_canonical {s : State} {t p : Nat} {bs : List Byte} (hc : CanonicalMem s.core.mem) :
    CanonicalMem (s.writePage t p bs).1.core.mem := by
  grind [State.writePage, writeUnits_canonical, modWell_core_mem]

theorem needShadow_canonical {s : State} {t p : Nat} (hc : CanonicalMem s.core.mem) :
    CanonicalMem (s.needShadow t p).1.core.mem := by
  grind [State.needShadow, homePage_core_mem, writePage_canonical, modWell_core_mem]

theorem wjUnit_canonical {s : State} {m : PumpCmd} (hc : CanonicalMem s.core.mem) :
    CanonicalMem (s.wjUnit m).core.mem := by
  grind [State.wjUnit, setCmd_core_mem, writeUnit_canonical, wjVerifyFail_core_mem, wjDone_core_mem, needShadow_canonical,
    wjFail_core_mem]

theorem wjUnits_canonical (s : State) (id n : Nat) (hc : CanonicalMem s.core.mem) : CanonicalMem (s.wjUnits id n).core.mem := by
  induction n generalizing s with
  | zero => exact hc
  | succ n ih =>
    unfold State.wjUnits
    split
    · exact hc
    · split
      · exact hc
      · exact ih _ (wjUnit_canonical hc)

theorem wjWrite_canonical {s : State} {m : PumpCmd} {bytes : Nat} {r : State}
    (h : s.wjWrite m bytes = .ok r) (hc : CanonicalMem s.core.mem) : CanonicalMem r.core.mem := by
  unfold State.wjWrite at h
  grind [bind_eq_ok, setCmd_core_mem, wjUnits_canonical, → pumpPort_core_mem, wjFail_core_mem]

theorem wjStat_canonical {s : State} {m : PumpCmd} {r : State} (h : s.wjStat m = .ok r)
    (hc : CanonicalMem s.core.mem) : CanonicalMem r.core.mem := by
  unfold State.wjStat at h
  simp only [bind_eq_ok, Prod.exists] at h
  grind [performStore_canonical, wjDone_core_mem, → pumpPort_core_mem]

theorem wjRun_canonical {s : State} {m : PumpCmd} {bytes : Nat} {r : State}
    (h : s.wjRun m bytes = .ok r) (hc : CanonicalMem s.core.mem) : CanonicalMem r.core.mem := by
  unfold State.wjRun at h
  grind [bind_eq_ok, → wjWrite_canonical, → wjStat_canonical, wjOpen_core_mem, wjAbort_core_mem, wjCommit_core_mem]

theorem wjDeliver_canonical {s : State} {m : PumpCmd} {bytes : Nat} {r : State}
    (h : s.wjDeliver m bytes = .ok r) (hc : CanonicalMem s.core.mem) : CanonicalMem r.core.mem := by
  unfold State.wjDeliver at h
  grind [bind_eq_ok, dropCmd_core_mem, addCmd_core_mem, → failCmd_core_mem, → wjRun_canonical]

theorem appliedUnits_canonical {s : State} {t n : Nat} (hc : CanonicalMem s.core.mem) :
    CanonicalMem (s.appliedUnits t n).core.mem := by
  unfold State.appliedUnits
  (repeat' split) <;> simp_all [wrBytes_canonical]

theorem tornUnit_canonical {s : State} {u : Option TornUnit} (hc : CanonicalMem s.core.mem) :
    CanonicalMem (s.tornUnit u).core.mem := by
  unfold State.tornUnit
  dsimp only
  (repeat' split) <;> grind [appliedUnits_canonical, wrBytes_canonical, modWell_core_mem]

/-! Of `Sys2Proof/Machine/Command.lean`. -/

theorem cpWrite_canonical {s : State} {asid obj : Nat} {kinds rs : List Nat} {off : Nat}
    {bs : List Byte} (hc : CanonicalMem s.core.mem) :
    CanonicalMem (s.cpWrite asid obj kinds rs off bs).core.mem := by
  unfold State.cpWrite
  (repeat' split) <;> simp_all [performStore_canonical]

theorem setCounter_canonical {s : State} {x : Inst} {i v : Nat} (hc : CanonicalMem s.core.mem) :
    CanonicalMem (s.setCounter x i v).core.mem := by
  simp [State.setCounter, cpWrite_canonical, hc]

/-! Of `Sys2Proof/Machine/Graph.lean`. -/

theorem initCounters_canonical (s : State) (x : Inst) (nodes : List (BitVec 1024)) (hc : CanonicalMem s.core.mem) :
    CanonicalMem (s.initCounters x nodes).core.mem :=
  foldl_canonical _ (fun _ _ h => setCounter_canonical h) _ s hc

theorem createInst_canonical {s : State} {x : Inst} {front : Bool} {r : State × Nat} (h : s.createInst x front = some r)
    (hc : CanonicalMem s.core.mem) : CanonicalMem r.1.core.mem := by
  unfold State.createInst at h
  obtain ⟨hd, -, h⟩ := Option.bind_eq_some_iff.1 h
  obtain ⟨nodes, -, h⟩ := Option.bind_eq_some_iff.1 h
  extract_lets i ready y s1 s2 items s3 at h
  rw [← Option.some.inj h]
  dsimp only
  have h2 : CanonicalMem s2.core.mem := by
    unfold s2 s1
    rw [lossAdd_core_mem, modInst_core_mem]
    exact initCounters_canonical _ _ _ hc
  rw [foldl_core_mem]
  · unfold s3
    split
    · rw [readyAhead_core_mem]; exact h2
    · rw [readyBack_core_mem]; exact h2
  · exact fun a v => wakeForNode_core_mem a _ _

theorem releaseEdge_canonical {s : State} {i : Nat} {e : Option EdgeRec} (hc : CanonicalMem s.core.mem) :
    CanonicalMem (s.releaseEdge i e).core.mem := by
  unfold State.releaseEdge
  dsimp only
  (repeat' split) <;> grind [modInst_core_mem, setCounter_canonical, readyBack_core_mem, wakeForNode_core_mem]

theorem nodeEnd_canonical (s : State) (g : Nat) (hc : CanonicalMem s.core.mem) : CanonicalMem (s.nodeEnd g).core.mem := by
  unfold State.nodeEnd
  extract_lets x i status s1 s2 s3
  have h2 : CanonicalMem s2.core.mem := by
    unfold s2 s1
    rw [modInst_core_mem]
    split
    · split
      · exact signalAt_canonical (markDirty_canonical _ _ hc)
      · exact hc
    · exact hc
  have h3 : CanonicalMem s3.core.mem := by
    unfold s3
    split
    · exact h2
    · refine foldl_canonical _ (fun _ _ h => releaseEdge_canonical h) _ _ (foldl_canonical _ (fun a e h => ?_) _ _ h2)
      split
      · rw [foldl_core_mem]
        · exact h
        · exact fun b r => dropCopies_core_mem b _ r
      · exact h
  exact h3

theorem failWaiter_canonical {s : State} {tc : Nat × Nat} {obj start : Nat}
    (hc : CanonicalMem s.core.mem) : CanonicalMem (s.failWaiter tc obj start).core.mem := by
  grind [State.failWaiter, faultDomain_core_mem, writeFault_canonical, stopTask_core_mem]

theorem regenEnd_canonical (s : State) (i status : Nat) (hc : CanonicalMem s.core.mem) :
    CanonicalMem (s.regenEnd i status).core.mem := by
  unfold State.regenEnd
  dsimp only
  split
  · exact hc
  · split
    · rw [foldl_core_mem]
      · exact wr8_canonical _ _ _ hc
      · exact fun _ _ => pageOver_core_mem _ _
    · exact foldl_canonical _ (fun _ _ h => failWaiter_canonical h) _ _ hc

theorem instEnd_canonical {s : State} {i time : Nat} (hc : CanonicalMem s.core.mem) :
    CanonicalMem (s.instEnd i time).core.mem := by
  grind [State.instEnd, regenEnd_canonical, signalAt_canonical, lossDrop_core_mem, discardNodes_core_mem, modArm_core_mem]

theorem startRegen_canonical (s : State) (asid obj start size entry : Nat) (e : BitVec 256) (hc : CanonicalMem s.core.mem) :
    CanonicalMem (s.startRegen asid obj start size entry e).core.mem := by
  unfold State.startRegen
  extract_lets g q s1 s2
  have h1 : CanonicalMem s1.core.mem := cpWrite_canonical hc
  split
  · exact hc
  · split
    · exact foldl_canonical _ (fun _ _ h => failWaiter_canonical h) _ _ h1
    next hi => exact createInst_canonical hi h1

/-! Of `Sys2Proof/Machine/Stream.lean`. -/

theorem launchStep_canonical {s : State} {a k : Nat} {r : State × Nat} (h : s.launchStep a k = some r)
    (hc : CanonicalMem s.core.mem) : CanonicalMem r.1.core.mem := by
  unfold State.launchStep at h
  simp only at h
  grind [→ createInst_canonical]

theorem tickGo_canonical {s : State} {a k : Nat} (hc : CanonicalMem s.core.mem) :
    CanonicalMem (s.tickGo a k).core.mem := by
  grind [State.tickGo, skipStep_core_mem, releaseTicks_core_mem, → launchStep_canonical, modArm_core_mem]

theorem stmstat_canonical {s : State} {m : PumpCmd} {r : State} (h : s.stmstat m = .ok r)
    (hc : CanonicalMem s.core.mem) : CanonicalMem r.core.mem := by
  unfold State.stmstat at h
  simp only at h
  grind [→ statWrite_canonical, → failCmd_core_mem, modStream_core_mem]

theorem deliverPart_canonical {s r : State} {m : PumpCmd} {i k : Nat} (h : s.deliverPart m i k = .ok r)
    (hc : CanonicalMem s.core.mem) : CanonicalMem r.core.mem := by
  unfold State.deliverPart at h
  dsimp only at h
  obtain ⟨_, -, h⟩ := bind_eq_ok.1 h
  obtain ⟨p, hp, h⟩ := bind_eq_ok.1 h
  rw [← Except.ok.inj h, setCmd_core_mem, State.modCtx_core_mem, modStream_core_mem]
  refine deliverPieces_canonical _ _ _ _ _ _ (markDirty_canonical _ _ ?_)
  rw [pumpPort_core_mem hp]
  exact hc

theorem stmResolve_canonical {s : State} {m : PumpCmd} {expired : Bool} {r : State}
    (h : s.stmResolve m expired = .ok r) (hc : CanonicalMem s.core.mem) : CanonicalMem r.core.mem := by
  unfold State.stmResolve at h
  simp only at h
  grind [setCmd_core_mem, → failCmd_core_mem, fixDelivery_core_mem, modStream_core_mem, → deliverPart_canonical]

/-! Of `Sys2Proof/Machine/PumpWork.lean`. -/

theorem pumpPass_canonical {s : State} {m : PumpCmd} {r : State} (h : s.pumpPass m = .ok r)
    (hc : CanonicalMem s.core.mem) : CanonicalMem r.core.mem := by
  unfold State.pumpPass at h
  grind [bind_eq_ok, → readPort_core_mem, dropCmd_core_mem, addCmd_core_mem, → failCmd_core_mem, → pumpAccept_canonical]

theorem deliver_canonical {s : State} {m : PumpCmd} {bytes : Nat} {r : State}
    (h : s.deliver m bytes = .ok r) (hc : CanonicalMem s.core.mem) : CanonicalMem r.core.mem := by
  unfold State.deliver at h
  grind [bind_eq_ok, → pumpDeliver_canonical, → colstat_canonical, → wjDeliver_canonical, → stmstat_canonical,
    colPass_core_mem, → pumpPass_canonical]

/-! Of `Sys2Proof/Machine/Packet.lean`. -/

theorem copyLoop_canonical (s : State) (q tail n : Nat) (hc : CanonicalMem s.core.mem) :
    CanonicalMem (s.copyLoop q tail n).core.mem := by
  induction n generalizing s with
  | zero => exact hc
  | succ n ih =>
    unfold State.copyLoop
    dsimp only
    split
    · exact hc
    · split
      · exact hc
      · split
        · rw [setPending_core_mem]; exact hc
        · split
          · exact hc
          · refine ih _ (wrNat_canonical ?_)
            rw [modQueue_core_mem]
            exact wr8_canonical s _ _ hc

theorem resumeCopy_canonical {s : State} {q : Nat} (hc : CanonicalMem s.core.mem) :
    CanonicalMem (s.resumeCopy q).core.mem := by
  grind [State.resumeCopy, copyLoop_canonical, modQueue_core_mem]

theorem pkUpdate_canonical {s : State} {q : Nat} {v : BitVec 1024} {status : Nat}
    (hc : CanonicalMem s.core.mem) : CanonicalMem (s.pkUpdate q v status).core.mem := by
  unfold State.pkUpdate
  (repeat' split) <;> simp_all [markDirty_canonical, cpSignal_canonical]

theorem refusePacket_canonical {s : State} {q : Nat} {v : BitVec 1024} (hc : CanonicalMem s.core.mem) :
    CanonicalMem (s.refusePacket q v).core.mem := by
  simp [State.refusePacket, pkUpdate_canonical, hc]

theorem purge_canonical (s : State) (q n : Nat) (hc : CanonicalMem s.core.mem) : CanonicalMem (s.purge q n).core.mem := by
  induction n generalizing s with
  | zero => exact hc
  | succ n ih =>
    unfold State.purge
    dsimp only
    split
    · exact resumeCopy_canonical hc
    · split
      · exact resumeCopy_canonical hc
      · exact ih _ (refusePacket_canonical (resumeCopy_canonical hc))

theorem afterRetire_canonical {s : State} {q : Nat} (hc : CanonicalMem s.core.mem) :
    CanonicalMem (s.afterRetire q).core.mem := by
  simp [State.afterRetire, purge_canonical, hc]

theorem refuseHead_canonical {s : State} {q : Nat} {v : BitVec 1024} (hc : CanonicalMem s.core.mem) :
    CanonicalMem (s.refuseHead q v).core.mem := by
  simp [State.refuseHead, refusePacket_canonical, afterRetire_canonical, hc]

theorem retireQuiet_canonical {s : State} {q : Nat} (hc : CanonicalMem s.core.mem) :
    CanonicalMem (s.retireQuiet q).core.mem := by
  simp [State.retireQuiet, afterRetire_canonical, hc]

theorem retire_canonical {s : State} {q : Nat} {v : BitVec 1024} {status : Nat}
    (hc : CanonicalMem s.core.mem) : CanonicalMem (s.retire q v status).core.mem := by
  simp [State.retire, pkUpdate_canonical, afterRetire_canonical, hc]

theorem kick_canonical (s : State) (q : Nat) (hc : CanonicalMem s.core.mem) : CanonicalMem (s.kick q).core.mem := by
  unfold State.kick
  extract_lets e tail n
  split
  · rw [modEntry_core_mem]; exact hc
  · exact afterRetire_canonical (copyLoop_canonical _ _ _ _ hc)

theorem signalPacket_canonical {s : State} {q : Nat} {v : BitVec 1024} {op : Nat}
    (hc : CanonicalMem s.core.mem) : CanonicalMem (s.signalPacket q v op).core.mem := by
  grind [State.signalPacket, refuseHead_canonical, markDirty_canonical, sigAddAt_canonical, wrNat_canonical,
    retireQuiet_canonical]

theorem regionPut_canonical {s : State} {q : Nat} {v : BitVec 1024} {fresh : Bool}
    (hc : CanonicalMem s.core.mem) : CanonicalMem (s.regionPut q v fresh).core.mem := by
  grind [State.regionPut, refuseHead_canonical, retire_canonical, setRegion_core_mem]

/-! Of `Sys2Proof/Machine/Save.lean`. -/

theorem saveTask_canonical {s : State} {t c : Nat} {parked : Bool} {r : State × Nat} (h : s.saveTask t c parked = some r)
    (hc : CanonicalMem s.core.mem) : CanonicalMem r.1.core.mem := by
  unfold State.saveTask at h
  dsimp only at h
  split at h
  · cases h
  · split at h
    · cases h
    · rw [← Option.some.inj h]
      dsimp only
      (repeat' split) <;> simp only [readyBack_core_mem, readyFront_core_mem, State.modCtx_core_mem, modGang_core_mem,
        settleEnergy_core_mem, forgetCmds_core_mem, wrBytes_canonical, hc]

theorem copyGranules_canonical (s : State) (mask src dst : Nat) (hc : CanonicalMem s.core.mem) :
    CanonicalMem (s.copyGranules mask src dst).core.mem :=
  foldl_canonical _ (fun _ _ h => wrBytes_canonical _ _ _ h) _ s hc

theorem restore_canonical {s : State} {id : Nat} {v : Saved} {t c : Nat} (hc : CanonicalMem s.core.mem) :
    CanonicalMem (s.restore id v t c).core.mem := by
  unfold State.restore
  (repeat' split) <;> simp_all [copyGranules_canonical]

/-! Of `Sys2Proof/Machine/Islands.lean`. -/

theorem parkTask_canonical (s : State) (t c : Nat) (hc : CanonicalMem s.core.mem) : CanonicalMem (s.parkTask t c).core.mem := by
  unfold State.parkTask
  dsimp only
  split
  next hs => exact saveTask_canonical hs hc
  · exact hc

theorem unpark_canonical (s : State) (id : Nat) (lost : Bool) (hc : CanonicalMem s.core.mem) :
    CanonicalMem (s.unpark id lost).core.mem := by
  unfold State.unpark
  extract_lets v s1
  have h1 : CanonicalMem s1.core.mem := restore_canonical hc
  split
  · exact takeSystemTrap_canonical _ _ _ _ _ _ h1
  · exact h1

theorem unparkAll_canonical (s : State) (i : Nat) (bad : List (Nat × Nat × Nat)) (hc : CanonicalMem s.core.mem) :
    CanonicalMem (s.unparkAll i bad).core.mem := by
  unfold State.unparkAll
  dsimp only
  rw [foldl_core_mem]
  · exact foldl_canonical _ (fun _ _ h => unpark_canonical _ _ _ h) _ s hc
  · exact fun _ _ => rfl

/-! Of `Sys2Proof/Machine/Firmware.lean`. -/

theorem release_canonical {s : State} {e : Nat × Nat × HeldEffect} (hc : CanonicalMem s.core.mem) :
    CanonicalMem (s.release e).core.mem := by
  grind [State.release, instEnd_canonical, signalAt_canonical, nodeEnd_canonical]

theorem takeoverEnd_canonical (s : State) (held : List (Nat × Nat × HeldEffect)) (hc : CanonicalMem s.core.mem) :
    CanonicalMem (s.takeoverEnd held).core.mem := by
  unfold State.takeoverEnd
  have h1 := foldl_canonical State.release (fun a x h => release_canonical h) held (s.modFw fun f => { f with hold := none }) hc
  dsimp only
  split
  · rw [checkSingle_core_mem, bootComplex_core_mem]; exact h1
  · exact h1

theorem packageReset_canonical {s : State} (hc : CanonicalMem s.core.mem) :
    CanonicalMem (s.packageReset).core.mem := by
  simp [State.packageReset, powerLoss_canonical, hc]

theorem loadSegment_canonical {s : State} {asid obj base dst : Nat} {e : SegEntry}
    (hc : CanonicalMem s.core.mem) : CanonicalMem (s.loadSegment asid obj base dst e).core.mem := by
  unfold State.loadSegment
  (repeat' split) <;> simp_all [performStore_canonical, wrNat_canonical]

/-! Of `Sys2Proof/Machine/Net.lean`. -/

theorem joinDomain_canonical (s : State) (n : Nat) (hc : CanonicalMem s.core.mem) : CanonicalMem (s.joinDomain n).core.mem := by
  unfold State.joinDomain
  split
  · exact wrCells_canonical _ _ rfl
  · exact hc

theorem rdmaStore_canonical {s r : State} {q obj off : Nat} {data : List Byte} (h : s.rdmaStore q obj off data = some r)
    (hc : CanonicalMem s.core.mem) : CanonicalMem r.core.mem := by
  unfold State.rdmaStore at h
  extract_lets x at h
  split at h
  · cases h
  · obtain ⟨p, -, h⟩ := Option.map_eq_some_iff.1 h
    rw [← h]
    exact performStore_canonical _ _ _ hc

/-! Of `Sys2Proof/Machine/TileEvents.lean`. -/

theorem jobAt_canonical {s : State} {pa : Nat} {dirty : List Nat} {f : BitVec 256 → Option (BitVec 256)}
    {r : State} (h : s.jobAt pa dirty f = .ok r) (hc : CanonicalMem s.core.mem) :
    CanonicalMem r.core.mem := by
  unfold State.jobAt at h
  grind [bind_eq_ok, performStore_canonical]

theorem depart_canonical {s r : State} {t c : Nat} {e : CommitEntry} (h : s.depart t c e = .ok r)
    (hc : CanonicalMem s.core.mem) : CanonicalMem r.core.mem := by
  unfold State.depart at h
  split at h
  · exact (Except.ok.inj h) ▸ performStore_canonical _ _ _ hc
  · exact (Except.ok.inj h) ▸ performStore_canonical _ _ _ hc
  · exact (Except.ok.inj h) ▸ markDirty_canonical _ _ hc
  · exact (Except.ok.inj h) ▸ sigAddAt_canonical (markDirty_canonical _ _ hc)
  · exact jobAt_canonical h hc
  · exact jobAt_canonical h hc
  · rw [launchAt_core_mem h]; exact hc
  · split at h
    next hs => rw [launchAt_core_mem h, takeEntry_core_mem hs]; exact hc
    · exact (Except.ok.inj h) ▸ hc
  · exact (Except.ok.inj h) ▸ hc
  · obtain ⟨u, hu, h⟩ := except_map_ok h
    have hs := enterSync_core_mem _ _ _ _ _ hu
    rw [h]
    exact (at_core_mem u _ _).trans hs ▸ hc

theorem lateTrap_canonical {s : State} {t c n : Nat} {pc : Off} {a : Stop} {r : State}
    (h : s.lateTrap t c n pc a = .next r) (hc : CanonicalMem s.core.mem) : CanonicalMem r.core.mem := by
  unfold State.lateTrap at h
  grind [bind_eq_ok, takeSystemTrap_canonical]

theorem executeSync_canonical {s r : State} {t : Nat} {w : SyncWait} (h : s.executeSync t w = .next r)
    (hc : CanonicalMem s.core.mem) : CanonicalMem r.core.mem := by
  unfold State.executeSync at h
  dsimp only at h
  split at h
  · exact (Host.Outcome.next.inj h) ▸ hc
  · split at h
    · rw [← Host.Outcome.next.inj h, settle_core_mem]; exact hc
    · exact lateTrap_canonical h hc

end Sys2Proof.Machine.MemoryForm

/-! PROOF. Each operation of the dispatch keeps memory in its canonical form: what it computes or does as an event touches no
byte but through the writes of `MemoryForm`, and a trap writes its record through them too (R348, R351). -/

namespace Sys2Proof.Machine.OperationsKeepMemory

open StreamsAndArms MemoryFrames MemoryForm

theorem scalarBin_canonical {i : Instr} {g : Guard} {b : ScalarBody} {f : Word → Word → Word} {s t : State}
    (h : scalarBin i g b f s = .next t) (hc : CanonicalMem s.core.mem) : CanonicalMem t.core.mem :=
  atIssue_canonical h hc fun u hu => by
    rw [← Except.ok.inj hu, scalarS_core_mem]
    exact hc

theorem predBin_canonical {i : Instr} {g : Guard} {b : ScalarBody} {f : Mask → Mask → Mask} {s t : State}
    (h : predBin i g b f s = .next t) (hc : CanonicalMem s.core.mem) : CanonicalMem t.core.mem :=
  atIssue_canonical h hc fun u hu => by
    rw [← Except.ok.inj hu, scalarP_core_mem]
    exact hc

theorem nopForm_canonical {i : Instr} {g : Guard} {s t : State} (h : nopForm i g s = .next t) (hc : CanonicalMem s.core.mem) :
    CanonicalMem t.core.mem :=
  atIssue_canonical h hc fun _ hu => (Except.ok.inj hu) ▸ hc

theorem vecElem_canonical {i : Instr} {g : Guard} {b : VectorBody} {f : Nat → Nat → Nat → Nat → Nat × Flags} {s t : State}
    (h : vecElem i g b f s = .next t) (hc : CanonicalMem s.core.mem) : CanonicalMem t.core.mem :=
  atIssueLanes_canonical h hc fun u hu => by
    rw [← Except.ok.inj hu, vecEff_core_mem]
    exact hc

theorem vecArith_canonical {i : Instr} {g : Guard} {b : VectorBody} {op : ArithOp} {s t : State}
    (h : vecArith i g b op s = .next t) (hc : CanonicalMem s.core.mem) : CanonicalMem t.core.mem := vecElem_canonical h hc

theorem vecPerm_canonical {i : Instr} {g : Guard} {b : VectorBody} {f : (A B C e : Nat) → Nat} {s t : State}
    (h : vecPerm i g b f s = .next t) (hc : CanonicalMem s.core.mem) : CanonicalMem t.core.mem :=
  atIssueLanes_canonical h hc fun u hu => by
    rw [← Except.ok.inj hu, vdone_core_mem]
    exact hc

theorem waitEff_eq_ok {ready : State → Except Stop Bool} {sleep eff : State → State} {s u : State}
    (h : waitEff ready sleep eff s = .ok u) : u = eff s ∨ u = sleep s := by
  obtain ⟨b, -, h⟩ := bind_eq_ok.1 h
  cases b
  · exact .inr (Except.ok.inj h).symm
  · exact .inl (Except.ok.inj h).symm

theorem mirrored_core_mem (s t : State) : (s.mirrored t).core.mem = t.core.mem := by
  unfold State.mirrored
  split
  · rfl
  · exact mirror_core_mem t

theorem onPacket_canonical {s t : State} {q kind : Nat} {f : BitVec 1024 → State} (h : s.onPacket q kind f = .next t)
    (hc : CanonicalMem s.core.mem) (hf : ∀ v, CanonicalMem (f v).core.mem) : CanonicalMem t.core.mem := by
  unfold State.onPacket at h
  split at h
  · exact (Host.Outcome.next.inj h) ▸ hc
  · split at h
    · exact (Host.Outcome.next.inj h) ▸ hf _
    · exact (Host.Outcome.next.inj h) ▸ hc

theorem onFirmware_canonical {s t : State} {q kind : Nat} {f : BitVec 1024 → State} (h : s.onFirmware q kind f = .next t)
    (hc : CanonicalMem s.core.mem) (hf : ∀ v, CanonicalMem (f v).core.mem) : CanonicalMem t.core.mem := by
  unfold State.onFirmware at h
  split at h
  · refine onPacket_canonical h hc fun v => ?_
    rw [mirrored_core_mem]
    exact hf v
  · exact (Host.Outcome.next.inj h) ▸ hc

theorem onRequest_canonical {s t : State} {f : Unit → State} (h : s.onRequest f = .next t) (hc : CanonicalMem s.core.mem)
    (hf : CanonicalMem (f ()).core.mem) : CanonicalMem t.core.mem := by
  unfold State.onRequest at h
  split at h
  · exact (Host.Outcome.next.inj h) ▸ hc
  · rw [← Host.Outcome.next.inj h, mirrored_core_mem]
    exact hf

theorem powered_canonical {s t : State} {f : Unit → State} (h : s.powered f = .next t) (hc : CanonicalMem s.core.mem)
    (hf : CanonicalMem (f ()).core.mem) : CanonicalMem t.core.mem := by
  unfold State.powered at h
  split at h
  · exact (Host.Outcome.next.inj h) ▸ hc
  · exact (Host.Outcome.next.inj h) ▸ hf

/-! Of `Sys2Proof/Machine/Vector.lean`. -/

theorem execNopVector_canonical {g : Guard} {body : BitVec 47} {s s' : State}
    (h : execNopVector g body s = .next s') (hc : CanonicalMem s.core.mem) : CanonicalMem s'.core.mem :=
  atIssueLanes_canonical h hc fun _ hu => (Except.ok.inj hu) ▸ hc

theorem execVadd_canonical {g : Guard} {b : VectorBody} {s s' : State} (h : execVadd g b s = .next s')
    (hc : CanonicalMem s.core.mem) : CanonicalMem s'.core.mem :=
  vecArith_canonical h hc

theorem execVsub_canonical {g : Guard} {b : VectorBody} {s s' : State} (h : execVsub g b s = .next s')
    (hc : CanonicalMem s.core.mem) : CanonicalMem s'.core.mem :=
  vecArith_canonical h hc

theorem execVmul_canonical {g : Guard} {b : VectorBody} {s s' : State} (h : execVmul g b s = .next s')
    (hc : CanonicalMem s.core.mem) : CanonicalMem s'.core.mem :=
  vecArith_canonical h hc

theorem execVfma_canonical {g : Guard} {b : VectorBody} {s s' : State} (h : execVfma g b s = .next s')
    (hc : CanonicalMem s.core.mem) : CanonicalMem s'.core.mem :=
  vecArith_canonical h hc

theorem execVmin_canonical {g : Guard} {b : VectorBody} {s s' : State} (h : execVmin g b s = .next s')
    (hc : CanonicalMem s.core.mem) : CanonicalMem s'.core.mem :=
  vecElem_canonical h hc

theorem execVmax_canonical {g : Guard} {b : VectorBody} {s s' : State} (h : execVmax g b s = .next s')
    (hc : CanonicalMem s.core.mem) : CanonicalMem s'.core.mem :=
  vecElem_canonical h hc

theorem execVabs_canonical {g : Guard} {b : VectorBody} {s s' : State} (h : execVabs g b s = .next s')
    (hc : CanonicalMem s.core.mem) : CanonicalMem s'.core.mem :=
  vecElem_canonical h hc

theorem execVneg_canonical {g : Guard} {b : VectorBody} {s s' : State} (h : execVneg g b s = .next s')
    (hc : CanonicalMem s.core.mem) : CanonicalMem s'.core.mem :=
  vecElem_canonical h hc

theorem execVand_canonical {g : Guard} {b : VectorBody} {s s' : State} (h : execVand g b s = .next s')
    (hc : CanonicalMem s.core.mem) : CanonicalMem s'.core.mem :=
  vecElem_canonical h hc

theorem execVor_canonical {g : Guard} {b : VectorBody} {s s' : State} (h : execVor g b s = .next s')
    (hc : CanonicalMem s.core.mem) : CanonicalMem s'.core.mem :=
  vecElem_canonical h hc

theorem execVxor_canonical {g : Guard} {b : VectorBody} {s s' : State} (h : execVxor g b s = .next s')
    (hc : CanonicalMem s.core.mem) : CanonicalMem s'.core.mem :=
  vecElem_canonical h hc

theorem execVshl_canonical {g : Guard} {b : VectorBody} {s s' : State} (h : execVshl g b s = .next s')
    (hc : CanonicalMem s.core.mem) : CanonicalMem s'.core.mem :=
  vecElem_canonical h hc

theorem execVshr_canonical {g : Guard} {b : VectorBody} {s s' : State} (h : execVshr g b s = .next s')
    (hc : CanonicalMem s.core.mem) : CanonicalMem s'.core.mem :=
  vecElem_canonical h hc

theorem execVcmp_canonical {g : Guard} {b : VectorBody} {s s' : State} (h : execVcmp g b s = .next s')
    (hc : CanonicalMem s.core.mem) : CanonicalMem s'.core.mem := by
  refine atIssueLanes_canonical h hc fun u hu => ?_
  rw [← Except.ok.inj hu]
  simpa using hc

theorem execVsel_canonical {g : Guard} {b : VectorBody} {s s' : State} (h : execVsel g b s = .next s')
    (hc : CanonicalMem s.core.mem) : CanonicalMem s'.core.mem := by
  refine atIssueLanes_canonical h hc fun u hu => ?_
  rw [← Except.ok.inj hu]
  simpa using hc

theorem execVcvt_canonical {g : Guard} {b : VectorBody} {s s' : State} (h : execVcvt g b s = .next s')
    (hc : CanonicalMem s.core.mem) : CanonicalMem s'.core.mem := by
  refine atIssueLanes_canonical h hc fun u hu => ?_
  grind [→ vcvtEff_core_mem]

theorem execVquant_canonical {g : Guard} {b : VectorBody} {s s' : State}
    (h : execVquant g b s = .next s') (hc : CanonicalMem s.core.mem) : CanonicalMem s'.core.mem := by
  refine atIssueLanes_canonical h hc fun u hu => ?_
  grind [→ quantEff_core_mem]

theorem execVdeq_canonical {g : Guard} {b : VectorBody} {s s' : State} (h : execVdeq g b s = .next s')
    (hc : CanonicalMem s.core.mem) : CanonicalMem s'.core.mem := by
  refine atIssueLanes_canonical h hc fun u hu => ?_
  grind [→ quantEff_core_mem]

theorem execVexp2_canonical {g : Guard} {b : VectorBody} {s s' : State} (h : execVexp2 g b s = .next s')
    (hc : CanonicalMem s.core.mem) : CanonicalMem s'.core.mem :=
  vecElem_canonical h hc

theorem execVlog2_canonical {g : Guard} {b : VectorBody} {s s' : State} (h : execVlog2 g b s = .next s')
    (hc : CanonicalMem s.core.mem) : CanonicalMem s'.core.mem :=
  vecElem_canonical h hc

theorem execVrcp_canonical {g : Guard} {b : VectorBody} {s s' : State} (h : execVrcp g b s = .next s')
    (hc : CanonicalMem s.core.mem) : CanonicalMem s'.core.mem :=
  vecElem_canonical h hc

theorem execVrsq_canonical {g : Guard} {b : VectorBody} {s s' : State} (h : execVrsq g b s = .next s')
    (hc : CanonicalMem s.core.mem) : CanonicalMem s'.core.mem :=
  vecElem_canonical h hc

theorem execVsumr_canonical {g : Guard} {b : VectorBody} {s s' : State} (h : execVsumr g b s = .next s')
    (hc : CanonicalMem s.core.mem) : CanonicalMem s'.core.mem := by
  refine atIssueLanes_canonical h hc fun u hu => ?_
  rw [← Except.ok.inj hu]
  simpa using hc

theorem execVmaxr_canonical {g : Guard} {b : VectorBody} {s s' : State} (h : execVmaxr g b s = .next s')
    (hc : CanonicalMem s.core.mem) : CanonicalMem s'.core.mem := by
  refine atIssueLanes_canonical h hc fun u hu => ?_
  rw [← Except.ok.inj hu]
  simpa using hc

theorem execVdot_canonical {g : Guard} {b : VectorBody} {s s' : State} (h : execVdot g b s = .next s')
    (hc : CanonicalMem s.core.mem) : CanonicalMem s'.core.mem := by
  refine atIssueLanes_canonical h hc fun u hu => ?_
  rw [← Except.ok.inj hu]
  simpa using hc

theorem execVshuf_canonical {g : Guard} {b : VectorBody} {s s' : State} (h : execVshuf g b s = .next s')
    (hc : CanonicalMem s.core.mem) : CanonicalMem s'.core.mem :=
  vecPerm_canonical h hc

theorem execVbcast_canonical {g : Guard} {b : VectorBody} {s s' : State}
    (h : execVbcast g b s = .next s') (hc : CanonicalMem s.core.mem) : CanonicalMem s'.core.mem :=
  vecPerm_canonical h hc

theorem execVslide_canonical {g : Guard} {b : VectorBody} {s s' : State}
    (h : execVslide g b s = .next s') (hc : CanonicalMem s.core.mem) : CanonicalMem s'.core.mem :=
  vecPerm_canonical h hc

theorem execViota_canonical {g : Guard} {b : VectorBody} {s s' : State} (h : execViota g b s = .next s')
    (hc : CanonicalMem s.core.mem) : CanonicalMem s'.core.mem :=
  vecPerm_canonical h hc

theorem execVcompr_canonical {g : Guard} {b : VectorBody} {s s' : State}
    (h : execVcompr g b s = .next s') (hc : CanonicalMem s.core.mem) : CanonicalMem s'.core.mem := by
  refine atIssueLanes_canonical h hc fun u hu => ?_
  rw [← Except.ok.inj hu]
  simpa using hc

theorem execVpart_canonical {g : Guard} {b : VectorBody} {s s' : State} (h : execVpart g b s = .next s')
    (hc : CanonicalMem s.core.mem) : CanonicalMem s'.core.mem := by
  refine atIssueLanes_canonical h hc fun u hu => ?_
  rw [← Except.ok.inj hu]
  simpa using hc

theorem execVtopk_canonical {g : Guard} {b : VectorBody} {s s' : State} (h : execVtopk g b s = .next s')
    (hc : CanonicalMem s.core.mem) : CanonicalMem s'.core.mem := by
  refine atIssueLanes_canonical h hc fun u hu => ?_
  rw [← Except.ok.inj hu]
  simpa using hc

theorem execVmovs_canonical {g : Guard} {b : VectorBody} {s s' : State} (h : execVmovs g b s = .next s')
    (hc : CanonicalMem s.core.mem) : CanonicalMem s'.core.mem := by
  refine atIssue_canonical h hc fun u hu => ?_
  rw [← Except.ok.inj hu]
  simpa using hc

theorem execVins_canonical {g : Guard} {b : VectorBody} {s s' : State} (h : execVins g b s = .next s')
    (hc : CanonicalMem s.core.mem) : CanonicalMem s'.core.mem := by
  refine atIssueLanes_canonical h hc fun u hu => ?_
  rw [← Except.ok.inj hu]
  simpa using hc

/-! Of `Sys2Proof/Machine/MatrixDense.lean`. -/

theorem execNopMatrix_canonical {g : Guard} {body : BitVec 47} {s s' : State}
    (h : execNopMatrix g body s = .next s') (hc : CanonicalMem s.core.mem) : CanonicalMem s'.core.mem :=
  nopForm_canonical h hc

theorem execMma_canonical {g : Guard} {b : MatrixBody} {s s' : State} (h : execMma g b s = .next s')
    (hc : CanonicalMem s.core.mem) : CanonicalMem s'.core.mem := by
  refine atIssue_canonical h hc fun u hu => ?_
  grind [→ mmaEff_canonical]

theorem execMmaw_canonical {g : Guard} {b : MatrixBody} {s s' : State} (h : execMmaw g b s = .next s')
    (hc : CanonicalMem s.core.mem) : CanonicalMem s'.core.mem := by
  refine atIssue_canonical h hc fun u hu => ?_
  grind [→ mmaEff_canonical]

theorem execMmat_canonical {g : Guard} {b : MatrixBody} {s s' : State} (h : execMmat g b s = .next s')
    (hc : CanonicalMem s.core.mem) : CanonicalMem s'.core.mem := by
  refine atIssue_canonical h hc fun u hu => ?_
  grind [→ mmatEff_core_mem]

theorem execMzero_canonical {g : Guard} {b : MatrixBody} {s s' : State} (h : execMzero g b s = .next s')
    (hc : CanonicalMem s.core.mem) : CanonicalMem s'.core.mem := by
  refine atIssue_canonical h hc fun u hu => ?_
  grind [→ mzeroEff_core_mem]

theorem execManchor_canonical {g : Guard} {b : MatrixBody} {s s' : State}
    (h : execManchor g b s = .next s') (hc : CanonicalMem s.core.mem) : CanonicalMem s'.core.mem := by
  refine atIssue_canonical h hc fun u hu => ?_
  grind [→ manchorEff_core_mem]

theorem execMstat_canonical {g : Guard} {b : MatrixBody} {s s' : State} (h : execMstat g b s = .next s')
    (hc : CanonicalMem s.core.mem) : CanonicalMem s'.core.mem := by
  refine atIssue_canonical h hc fun u hu => ?_
  grind [→ mstatEff_core_mem]

theorem execMclr_canonical {g : Guard} {b : MatrixBody} {s s' : State} (h : execMclr g b s = .next s')
    (hc : CanonicalMem s.core.mem) : CanonicalMem s'.core.mem := by
  refine atIssue_canonical h hc fun u hu => ?_
  grind [→ mclrEff_core_mem]

theorem execMread_canonical {g : Guard} {b : MatrixBody} {s s' : State} (h : execMread g b s = .next s')
    (hc : CanonicalMem s.core.mem) : CanonicalMem s'.core.mem := by
  refine atIssue_canonical h hc fun u hu => ?_
  grind [→ mreadEff_core_mem]

theorem execTidset_canonical {g : Guard} {b : MatrixBody} {s s' : State}
    (h : execTidset g b s = .next s') (hc : CanonicalMem s.core.mem) : CanonicalMem s'.core.mem := by
  refine atIssue_canonical h hc fun u hu => ?_
  grind [→ tidsetEff_core_mem]

theorem execTidstep_canonical {g : Guard} {b : MatrixBody} {s s' : State}
    (h : execTidstep g b s = .next s') (hc : CanonicalMem s.core.mem) : CanonicalMem s'.core.mem :=
  atIssue_canonical h hc fun _ hu => (Except.ok.inj hu) ▸ hc

theorem execTidstepSet_canonical {g : Guard} {b : MatrixBody} {s s' : State}
    (h : execTidstepSet g b s = .next s') (hc : CanonicalMem s.core.mem) : CanonicalMem s'.core.mem :=
  atIssue_canonical h hc fun _ hu => (Except.ok.inj hu) ▸ hc

/-! Of `Sys2Proof/Machine/LowRank.lean`. -/

theorem execLrzero_canonical {g : Guard} {b : MatrixBody} {s s' : State}
    (h : execLrzero g b s = .next s') (hc : CanonicalMem s.core.mem) : CanonicalMem s'.core.mem :=
  atIssue_canonical h hc fun _ hu => (Except.ok.inj hu) ▸ hc

theorem execLrset_canonical {g : Guard} {b : MatrixBody} {s s' : State} (h : execLrset g b s = .next s')
    (hc : CanonicalMem s.core.mem) : CanonicalMem s'.core.mem := by
  refine atIssue_canonical h hc fun u hu => ?_
  grind [→ lrFit_canonical]

theorem execLradd_canonical {g : Guard} {b : MatrixBody} {s s' : State} (h : execLradd g b s = .next s')
    (hc : CanonicalMem s.core.mem) : CanonicalMem s'.core.mem := by
  refine atIssue_canonical h hc fun u hu => ?_
  grind [→ lrFit_canonical]

theorem execLrscale_canonical {g : Guard} {b : MatrixBody} {s s' : State}
    (h : execLrscale g b s = .next s') (hc : CanonicalMem s.core.mem) : CanonicalMem s'.core.mem :=
  atIssue_canonical h hc fun _ hu => (Except.ok.inj hu) ▸ hc

theorem execLrmul_canonical {g : Guard} {b : MatrixBody} {s s' : State} (h : execLrmul g b s = .next s')
    (hc : CanonicalMem s.core.mem) : CanonicalMem s'.core.mem :=
  atIssue_canonical h hc fun _ hu => (Except.ok.inj hu) ▸ hc

theorem execLrmuld_canonical {g : Guard} {b : MatrixBody} {s s' : State}
    (h : execLrmuld g b s = .next s') (hc : CanonicalMem s.core.mem) : CanonicalMem s'.core.mem :=
  atIssue_canonical h hc fun _ hu => (Except.ok.inj hu) ▸ hc

theorem execLrtrunc_canonical {g : Guard} {b : MatrixBody} {s s' : State}
    (h : execLrtrunc g b s = .next s') (hc : CanonicalMem s.core.mem) : CanonicalMem s'.core.mem := by
  refine atIssue_canonical h hc fun u hu => ?_
  simp only [bind_eq_ok] at hu
  grind [→ lrFit_canonical]

theorem execLrdense_canonical {g : Guard} {b : MatrixBody} {s s' : State}
    (h : execLrdense g b s = .next s') (hc : CanonicalMem s.core.mem) : CanonicalMem s'.core.mem :=
  atIssue_canonical h hc fun _ hu => (Except.ok.inj hu) ▸ hc

theorem execLrcomp_canonical {g : Guard} {b : MatrixBody} {s s' : State}
    (h : execLrcomp g b s = .next s') (hc : CanonicalMem s.core.mem) : CanonicalMem s'.core.mem := by
  refine atIssue_canonical h hc fun u hu => ?_
  simp only [bind_eq_ok] at hu
  grind [→ lrFit_canonical]

theorem execLrapply_canonical {g : Guard} {b : MatrixBody} {s s' : State}
    (h : execLrapply g b s = .next s') (hc : CanonicalMem s.core.mem) : CanonicalMem s'.core.mem := by
  refine atIssue_canonical h hc fun u hu => ?_
  grind [→ lrapplyEff_core_mem]

theorem execLrrank_canonical {g : Guard} {b : MatrixBody} {s s' : State}
    (h : execLrrank g b s = .next s') (hc : CanonicalMem s.core.mem) : CanonicalMem s'.core.mem :=
  atIssue_canonical h hc fun _ hu => (Except.ok.inj hu) ▸ hc

/-! Of `Sys2Proof/Machine/Load.lean`. -/

theorem execNopLoad_canonical {g : Guard} {body : BitVec 47} {s s' : State}
    (h : execNopLoad g body s = .next s') (hc : CanonicalMem s.core.mem) : CanonicalMem s'.core.mem :=
  nopForm_canonical h hc

theorem execLd_canonical {g : Guard} {b : MemBody} {s s' : State} (h : execLd g b s = .next s')
    (hc : CanonicalMem s.core.mem) : CanonicalMem s'.core.mem := by
  refine atIssue_canonical h hc fun u hu => ?_
  grind [→ scalarLoad_core_mem]

theorem execLda_canonical {g : Guard} {b : MemBody} {s s' : State} (h : execLda g b s = .next s')
    (hc : CanonicalMem s.core.mem) : CanonicalMem s'.core.mem := by
  refine atIssue_canonical h hc fun u hu => ?_
  grind [→ scalarLoad_core_mem]

theorem execLds_canonical {g : Guard} {b : MemBody} {s s' : State} (h : execLds g b s = .next s')
    (hc : CanonicalMem s.core.mem) : CanonicalMem s'.core.mem := by
  refine atIssue_canonical h hc fun u hu => ?_
  grind [→ scalarLoad_core_mem]

theorem execVld_canonical {g : Guard} {b : MemBody} {s s' : State} (h : execVld g b s = .next s')
    (hc : CanonicalMem s.core.mem) : CanonicalMem s'.core.mem := by
  refine atIssueLanes_canonical h hc fun u hu => ?_
  grind [→ vectorLoad_core_mem]

theorem execVlds_canonical {g : Guard} {b : MemBody} {s s' : State} (h : execVlds g b s = .next s')
    (hc : CanonicalMem s.core.mem) : CanonicalMem s'.core.mem := by
  refine atIssueLanes_canonical h hc fun u hu => ?_
  grind [→ vectorLoad_core_mem]

theorem execTlds_canonical {g : Guard} {b : MemBody} {s s' : State} (h : execTlds g b s = .next s')
    (hc : CanonicalMem s.core.mem) : CanonicalMem s'.core.mem := by
  refine atIssue_canonical h hc fun u hu => ?_
  simp only [bind_eq_ok] at hu
  grind [latchLl_core_mem, → loadRows_core_mem]

theorem execVgath_canonical {g : Guard} {b : MemBody} {s s' : State} (h : execVgath g b s = .next s')
    (hc : CanonicalMem s.core.mem) : CanonicalMem s'.core.mem := by
  refine atIssueLanes_canonical h hc fun u hu => ?_
  grind [latchLl_core_mem, gather_core_mem, → stopWith_canonical]

theorem execCapld_canonical {g : Guard} {b : MemBody} {s s' : State} (h : execCapld g b s = .next s')
    (hc : CanonicalMem s.core.mem) : CanonicalMem s'.core.mem := by
  refine atIssue_canonical h hc fun u hu => ?_
  simp only [bind_eq_ok, Prod.exists] at hu
  grind [touchPieces_core_mem, latchLl_core_mem, → port_core_mem, putA_core_mem]

theorem execLrlds_canonical {g : Guard} {b : MemBody} {s s' : State} (h : execLrlds g b s = .next s')
    (hc : CanonicalMem s.core.mem) : CanonicalMem s'.core.mem := by
  refine atIssue_canonical h hc fun u hu => ?_
  grind [→ lrldsEff_core_mem]

/-! Of `Sys2Proof/Machine/Store.lean`. -/

theorem execNopStore_canonical {g : Guard} {body : BitVec 47} {s s' : State}
    (h : execNopStore g body s = .next s') (hc : CanonicalMem s.core.mem) : CanonicalMem s'.core.mem :=
  nopForm_canonical h hc

theorem execSt_canonical {g : Guard} {b : MemBody} {s s' : State} (h : execSt g b s = .next s')
    (hc : CanonicalMem s.core.mem) : CanonicalMem s'.core.mem := by
  refine atIssue_canonical h hc fun u hu => ?_
  grind [→ storeGlobal_core_mem]

theorem execStl_canonical {g : Guard} {b : MemBody} {s s' : State} (h : execStl g b s = .next s')
    (hc : CanonicalMem s.core.mem) : CanonicalMem s'.core.mem := by
  refine atIssue_canonical h hc fun u hu => ?_
  grind [→ storeGlobal_core_mem]

theorem execSts_canonical {g : Guard} {b : MemBody} {s s' : State} (h : execSts g b s = .next s')
    (hc : CanonicalMem s.core.mem) : CanonicalMem s'.core.mem := by
  refine atIssue_canonical h hc fun u hu => ?_
  grind [→ storeScratch_canonical]

theorem execVst_canonical {g : Guard} {b : MemBody} {s s' : State} (h : execVst g b s = .next s')
    (hc : CanonicalMem s.core.mem) : CanonicalMem s'.core.mem := by
  refine atIssueLanes_canonical h hc fun u hu => ?_
  grind [→ storeGlobal_core_mem]

theorem execVsts_canonical {g : Guard} {b : MemBody} {s s' : State} (h : execVsts g b s = .next s')
    (hc : CanonicalMem s.core.mem) : CanonicalMem s'.core.mem := by
  refine atIssueLanes_canonical h hc fun u hu => ?_
  grind [→ storeScratch_canonical]

theorem execTsts_canonical {g : Guard} {b : MemBody} {s s' : State} (h : execTsts g b s = .next s')
    (hc : CanonicalMem s.core.mem) : CanonicalMem s'.core.mem := by
  refine atIssue_canonical h hc fun u hu => ?_
  grind [→ storeRows_canonical]

theorem execVscat_canonical {g : Guard} {b : MemBody} {s s' : State} (h : execVscat g b s = .next s')
    (hc : CanonicalMem s.core.mem) : CanonicalMem s'.core.mem := by
  refine atIssueLanes_canonical h hc fun u hu => ?_
  grind [→ vscatEff_canonical]

theorem execCapst_canonical {g : Guard} {b : MemBody} {s s' : State} (h : execCapst g b s = .next s')
    (hc : CanonicalMem s.core.mem) : CanonicalMem s'.core.mem := by
  refine atIssue_canonical h hc fun u hu => ?_
  simp only [bind_eq_ok, Prod.exists] at hu
  grind [→ port_core_mem, → commit_core_mem]

theorem execAtom_canonical {g : Guard} {b : MemBody} {s s' : State} (h : execAtom g b s = .next s')
    (hc : CanonicalMem s.core.mem) : CanonicalMem s'.core.mem := by
  refine atIssue_canonical h hc fun u hu => ?_
  simp only [bind_eq_ok, Prod.exists] at hu
  grind [→ port_core_mem, → commit_core_mem]

theorem execAtoms_canonical {g : Guard} {b : MemBody} {s s' : State} (h : execAtoms g b s = .next s')
    (hc : CanonicalMem s.core.mem) : CanonicalMem s'.core.mem := by
  refine atIssue_canonical h hc fun u hu => ?_
  simp only [bind_eq_ok, Prod.exists] at hu
  grind [chargeMe_core_mem, performStore_canonical, putS_core_mem, → port_core_mem]

theorem execLrsts_canonical {g : Guard} {b : MemBody} {s s' : State} (h : execLrsts g b s = .next s')
    (hc : CanonicalMem s.core.mem) : CanonicalMem s'.core.mem := by
  refine atIssue_canonical h hc fun u hu => ?_
  grind [→ lrstsEff_canonical]

/-! Of `Sys2Proof/Machine/Pump.lean`. -/

theorem execNopPump_canonical {g : Guard} {body : BitVec 47} {s s' : State}
    (h : execNopPump g body s = .next s') (hc : CanonicalMem s.core.mem) : CanonicalMem s'.core.mem :=
  nopForm_canonical h hc

theorem execPcopy_canonical {g : Guard} {b : PumpBody} {s s' : State} (h : execPcopy g b s = .next s')
    (hc : CanonicalMem s.core.mem) : CanonicalMem s'.core.mem := by
  refine atIssue_canonical h hc fun u hu => ?_
  grind [→ post_core_mem]

theorem execPfill_canonical {g : Guard} {b : PumpBody} {s s' : State} (h : execPfill g b s = .next s')
    (hc : CanonicalMem s.core.mem) : CanonicalMem s'.core.mem := by
  refine atIssue_canonical h hc fun u hu => ?_
  grind [→ post_core_mem]

theorem execPgath_canonical {g : Guard} {b : PumpBody} {s s' : State} (h : execPgath g b s = .next s')
    (hc : CanonicalMem s.core.mem) : CanonicalMem s'.core.mem := by
  refine atIssue_canonical h hc fun u hu => ?_
  grind [→ post_core_mem]

theorem execPscat_canonical {g : Guard} {b : PumpBody} {s s' : State} (h : execPscat g b s = .next s')
    (hc : CanonicalMem s.core.mem) : CanonicalMem s'.core.mem := by
  refine atIssue_canonical h hc fun u hu => ?_
  grind [→ post_core_mem]

theorem execPdecl_canonical {g : Guard} {b : PumpBody} {s s' : State} (h : execPdecl g b s = .next s')
    (hc : CanonicalMem s.core.mem) : CanonicalMem s'.core.mem := by
  refine atIssue_canonical h hc fun u hu => ?_
  grind [→ post_core_mem]

theorem execPflushx_canonical {g : Guard} {b : PumpBody} {s s' : State}
    (h : execPflushx g b s = .next s') (hc : CanonicalMem s.core.mem) : CanonicalMem s'.core.mem := by
  refine atIssue_canonical h hc fun u hu => ?_
  grind [→ post_core_mem]

theorem execPumpCommandComplete_canonical {id : Nat} {s s' : State} (h : execPumpCommandComplete id s = .next s')
    (hc : CanonicalMem s.core.mem) : CanonicalMem s'.core.mem := by
  unfold execPumpCommandComplete at h
  split at h
  · exact (Host.Outcome.next.inj h) ▸ hc
  · split at h
    · exact finish_canonical h hc fun u hu => completeCmd_canonical hu hc
    · exact (Host.Outcome.next.inj h) ▸ hc

/-! Of `Sys2Proof/Machine/Sync.lean`. -/

theorem execNopSync_canonical {g : Guard} {body : SyncBody} {s s' : State}
    (h : execNopSync g body s = .next s') (hc : CanonicalMem s.core.mem) : CanonicalMem s'.core.mem :=
  nopForm_canonical h hc

theorem execBr_canonical {g : Guard} {b : SyncBody} {s s' : State} (h : execBr g b s = .next s')
    (hc : CanonicalMem s.core.mem) : CanonicalMem s'.core.mem :=
  atIssue_canonical h hc fun _ hu => (Except.ok.inj hu) ▸ hc

theorem execBrl_canonical {g : Guard} {b : SyncBody} {s s' : State} (h : execBrl g b s = .next s')
    (hc : CanonicalMem s.core.mem) : CanonicalMem s'.core.mem :=
  atIssue_canonical h hc fun _ hu => (Except.ok.inj hu) ▸ hc

theorem execFence_canonical {g : Guard} {b : SyncBody} {s s' : State} (h : execFence g b s = .next s')
    (hc : CanonicalMem s.core.mem) : CanonicalMem s'.core.mem := by
  refine atIssue_canonical h hc fun u hu => ?_
  rw [← Except.ok.inj hu]
  simpa using hc

theorem execCbset_canonical {g : Guard} {b : SyncBody} {s s' : State} (h : execCbset g b s = .next s')
    (hc : CanonicalMem s.core.mem) : CanonicalMem s'.core.mem := by
  refine atIssue_canonical h hc fun u hu => ?_
  grind [→ enterSync_core_mem]

theorem execCbwait_canonical {g : Guard} {b : SyncBody} {s s' : State} (h : execCbwait g b s = .next s')
    (hc : CanonicalMem s.core.mem) : CanonicalMem s'.core.mem := by
  refine atIssue_canonical h hc fun u hu => ?_
  obtain rfl | rfl := waitEff_eq_ok hu
  · exact hc
  · rw [sleepMe_core_mem]; exact hc

theorem execCbspace_canonical {g : Guard} {b : SyncBody} {s s' : State} (h : execCbspace g b s = .next s')
    (hc : CanonicalMem s.core.mem) : CanonicalMem s'.core.mem := by
  refine atIssue_canonical h hc fun u hu => ?_
  obtain rfl | rfl := waitEff_eq_ok hu
  · exact hc
  · rw [sleepMe_core_mem]; exact hc

theorem execCbadvProduce_canonical {g : Guard} {b : SyncBody} {s s' : State}
    (h : execCbadvProduce g b s = .next s') (hc : CanonicalMem s.core.mem) : CanonicalMem s'.core.mem := by
  refine atIssue_canonical h hc fun u hu => ?_
  grind [→ cbadvEff_core_mem]

theorem execCbadvConsume_canonical {g : Guard} {b : SyncBody} {s s' : State}
    (h : execCbadvConsume g b s = .next s') (hc : CanonicalMem s.core.mem) : CanonicalMem s'.core.mem := by
  refine atIssue_canonical h hc fun u hu => ?_
  grind [→ cbadvEff_core_mem]

theorem execSigwait_canonical {g : Guard} {b : SyncBody} {s s' : State}
    (h : execSigwait g b s = .next s') (hc : CanonicalMem s.core.mem) : CanonicalMem s'.core.mem := by
  refine atIssue_canonical h hc fun u hu => ?_
  simp only [bind_eq_ok] at hu
  grind [sleepMe_core_mem, putS_core_mem, acquireSy_core_mem]

theorem execSigadd_canonical {g : Guard} {b : SyncBody} {s s' : State} (h : execSigadd g b s = .next s')
    (hc : CanonicalMem s.core.mem) : CanonicalMem s'.core.mem := by
  refine atIssue_canonical h hc fun u hu => ?_
  simp only [bind_eq_ok, Prod.exists] at hu
  grind [→ syPort_core_mem, → commit_core_mem]

theorem execJobraise_canonical {g : Guard} {b : SyncBody} {s s' : State}
    (h : execJobraise g b s = .next s') (hc : CanonicalMem s.core.mem) : CanonicalMem s'.core.mem := by
  refine atIssue_canonical h hc fun u hu => ?_
  simp only [bind_eq_ok, Prod.exists] at hu
  grind [→ syPort_core_mem, → commit_core_mem]

theorem execJobpost_canonical {g : Guard} {b : SyncBody} {s s' : State}
    (h : execJobpost g b s = .next s') (hc : CanonicalMem s.core.mem) : CanonicalMem s'.core.mem := by
  refine atIssue_canonical h hc fun u hu => ?_
  simp only [bind_eq_ok, Prod.exists] at hu
  grind [→ syPort_core_mem, → commit_core_mem]

theorem execJobwait_canonical {g : Guard} {b : SyncBody} {s s' : State} (h : execJobwait g b s = .next s')
    (hc : CanonicalMem s.core.mem) : CanonicalMem s'.core.mem := by
  refine atIssue_canonical h hc fun u hu => ?_
  obtain rfl | rfl := waitEff_eq_ok hu
  · rw [acquireSy_core_mem]; exact hc
  · rw [sleepMe_core_mem]; exact hc

theorem execBar_canonical {g : Guard} {b : SyncBody} {s s' : State} (h : execBar g b s = .next s')
    (hc : CanonicalMem s.core.mem) :
    CanonicalMem s'.core.mem := by
  refine atIssue_canonical h hc fun u hu => ?_
  obtain rfl | rfl := waitEff_eq_ok hu
  · rw [State.modMe_core_mem, barArrive_core_mem]; exact hc
  · rw [barSleep_core_mem]; exact hc

theorem execLaunch_canonical {g : Guard} {b : SyncBody} {s s' : State} (h : execLaunch g b s = .next s')
    (hc : CanonicalMem s.core.mem) : CanonicalMem s'.core.mem := by
  refine atIssue_canonical h hc fun u hu => ?_
  grind [→ commit_core_mem]

theorem execLaunchNb_canonical {g : Guard} {b : SyncBody} {s s' : State}
    (h : execLaunchNb g b s = .next s') (hc : CanonicalMem s.core.mem) : CanonicalMem s'.core.mem := by
  refine atIssue_canonical h hc fun u hu => ?_
  grind [putP_core_mem, → takeEntry_core_mem, → commit_core_mem]

theorem execEvread_canonical {g : Guard} {b : SyncBody} {s s' : State} (h : execEvread g b s = .next s')
    (hc : CanonicalMem s.core.mem) : CanonicalMem s'.core.mem :=
  atIssue_canonical h hc fun _ hu => (Except.ok.inj hu) ▸ hc

theorem execEvwait_canonical {g : Guard} {b : SyncBody} {s s' : State} (h : execEvwait g b s = .next s')
    (hc : CanonicalMem s.core.mem) : CanonicalMem s'.core.mem := by
  refine atIssue_canonical h hc fun u hu => ?_
  obtain rfl | rfl := waitEff_eq_ok hu
  · rw [putP_core_mem]; exact hc
  · rw [sleepMe_core_mem]; exact hc

theorem execChk_canonical {g : Guard} {b : SyncBody} {s s' : State} (h : execChk g b s = .next s')
    (hc : CanonicalMem s.core.mem) : CanonicalMem s'.core.mem := by
  refine atIssue_canonical h hc fun u hu => ?_
  grind [takeUserTrap_canonical]

theorem execRplw_canonical {g : Guard} {b : SyncBody} {s s' : State} (h : execRplw g b s = .next s')
    (hc : CanonicalMem s.core.mem) : CanonicalMem s'.core.mem := by
  refine atIssue_canonical h hc fun u hu => ?_
  rw [← Except.ok.inj hu]
  simpa using hc

theorem execTickwait_canonical {g : Guard} {b : SyncBody} {s s' : State} (h : execTickwait g b s = .next s')
    (hc : CanonicalMem s.core.mem) : CanonicalMem s'.core.mem := by
  refine atIssue_canonical h hc fun u hu => ?_
  obtain rfl | rfl := waitEff_eq_ok hu
  · rw [State.modMe_core_mem, State.modMe_core_mem]; exact hc
  · rw [tickSleep_core_mem]; exact hc

/-! Of `Sys2Proof/Machine/Kv.lean`. -/

theorem execCompactionJob_canonical {die : Nat} {s s' : State} (h : execCompactionJob die s = .next s')
    (hc : CanonicalMem s.core.mem) : CanonicalMem s'.core.mem := by
  unfold execCompactionJob at h
  split at h
  · rw [← Host.Outcome.next.inj h, foldl_core_mem]
    · rw [setJobs_core_mem]; exact hc
    · exact fun a b => readBlock_core_mem a _ b
  · exact (Host.Outcome.next.inj h) ▸ hc

theorem execCompactionInstall_canonical {die : Nat} {s s' : State}
    (h : execCompactionInstall die s = .next s') (hc : CanonicalMem s.core.mem) :
    CanonicalMem s'.core.mem := by
  unfold execCompactionInstall at h
  grind [finishCmd_core_mem, installCompact_core_mem, installSeal_core_mem, failKv_canonical, endJob_core_mem]

theorem execSpillReadback_canonical {asid obj block : Nat} {s s' : State}
    (h : execSpillReadback asid obj block s = .next s') (hc : CanonicalMem s.core.mem) :
    CanonicalMem s'.core.mem := by
  unfold execSpillReadback at h
  grind [readBlock_core_mem]

theorem execKvappend_canonical {g : Guard} {b : PumpBody} {s s' : State}
    (h : execKvappend g b s = .next s') (hc : CanonicalMem s.core.mem) : CanonicalMem s'.core.mem := by
  refine atIssue_canonical h hc fun u hu => ?_
  grind [→ kvPostPlain_core_mem]

theorem execKvattn_canonical {g : Guard} {b : PumpBody} {s s' : State} (h : execKvattn g b s = .next s')
    (hc : CanonicalMem s.core.mem) : CanonicalMem s'.core.mem := by
  refine atIssue_canonical h hc fun u hu => ?_
  grind [→ kvPostPlain_core_mem]

theorem execKvscore_canonical {g : Guard} {b : PumpBody} {s s' : State}
    (h : execKvscore g b s = .next s') (hc : CanonicalMem s.core.mem) : CanonicalMem s'.core.mem := by
  refine atIssue_canonical h hc fun u hu => ?_
  grind [→ kvPostPlain_core_mem]

theorem execKvseal_canonical {g : Guard} {b : PumpBody} {s s' : State} (h : execKvseal g b s = .next s')
    (hc : CanonicalMem s.core.mem) : CanonicalMem s'.core.mem := by
  refine atIssue_canonical h hc fun u hu => ?_
  grind [→ kvPost_core_mem]

theorem execKvcompact_canonical {g : Guard} {b : PumpBody} {s s' : State}
    (h : execKvcompact g b s = .next s') (hc : CanonicalMem s.core.mem) : CanonicalMem s'.core.mem := by
  refine atIssue_canonical h hc fun u hu => ?_
  grind [→ kvPostPlain_core_mem]

theorem execKvfork_canonical {g : Guard} {b : PumpBody} {s s' : State} (h : execKvfork g b s = .next s')
    (hc : CanonicalMem s.core.mem) : CanonicalMem s'.core.mem := by
  refine atIssue_canonical h hc fun u hu => ?_
  grind [→ kvPostPlain_core_mem]

theorem execKvforkNew_canonical {g : Guard} {b : PumpBody} {s s' : State}
    (h : execKvforkNew g b s = .next s') (hc : CanonicalMem s.core.mem) : CanonicalMem s'.core.mem := by
  refine atIssue_canonical h hc fun u hu => ?_
  grind [→ kvPostPlain_core_mem]

theorem execKvfree_canonical {g : Guard} {b : PumpBody} {s s' : State} (h : execKvfree g b s = .next s')
    (hc : CanonicalMem s.core.mem) : CanonicalMem s'.core.mem := by
  refine atIssue_canonical h hc fun u hu => ?_
  grind [→ kvPost_core_mem]

theorem execKvpin_canonical {g : Guard} {b : PumpBody} {s s' : State} (h : execKvpin g b s = .next s')
    (hc : CanonicalMem s.core.mem) : CanonicalMem s'.core.mem := by
  refine atIssue_canonical h hc fun u hu => ?_
  grind [→ kvPost_core_mem]

theorem execKvwin_canonical {g : Guard} {b : PumpBody} {s s' : State} (h : execKvwin g b s = .next s')
    (hc : CanonicalMem s.core.mem) : CanonicalMem s'.core.mem := by
  refine atIssue_canonical h hc fun u hu => ?_
  grind [→ kvPost_core_mem]

theorem execKvstat_canonical {g : Guard} {b : PumpBody} {s s' : State} (h : execKvstat g b s = .next s')
    (hc : CanonicalMem s.core.mem) : CanonicalMem s'.core.mem :=
  atIssue_canonical h hc fun _ hu => (Except.ok.inj hu) ▸ hc

theorem execKvCommandResolve_canonical {id : Nat} {s s' : State} (h : execKvCommandResolve id s = .next s')
    (hc : CanonicalMem s.core.mem) : CanonicalMem s'.core.mem := by
  unfold execKvCommandResolve at h
  split at h
  · exact (Host.Outcome.next.inj h) ▸ hc
  · split at h
    · exact (Host.Outcome.next.inj h) ▸ hc
    · split at h
      next hk => exact (Host.Outcome.next.inj h) ▸ kvAccept_canonical hk hc
      · refine finish_canonical h hc fun u hu => ?_
        rw [failCmd_core_mem hu]
        exact hc

/-! Of `Sys2Proof/Machine/Collective.lean`. -/

theorem execCollectiveAccept_canonical {news : AcceptNews} {s s' : State}
    (h : execCollectiveAccept news s = .next s') (hc : CanonicalMem s.core.mem) :
    CanonicalMem s'.core.mem := by
  unfold execCollectiveAccept at h
  grind [colAccept_canonical, peerAccepts_core_mem, → whenUp_core_mem]

theorem execVersionAgreement_canonical {g : Nat} {held : List (List Nat)} {same : Bool} {s s' : State}
    (h : execVersionAgreement g held same s = .next s') (hc : CanonicalMem s.core.mem) :
    CanonicalMem s'.core.mem := by
  unfold execVersionAgreement at h
  grind [colStart_canonical]

theorem execChunkReduced_canonical {g c : Nat} {given : Option (List (List Byte)) } {s s' : State}
    (h : execChunkReduced g c given s = .next s') (hc : CanonicalMem s.core.mem) :
    CanonicalMem s'.core.mem := by
  unfold execChunkReduced at h
  grind [colChunk_canonical, endColl_canonical]

theorem execChunkBroadcastComplete_canonical {g c : Nat} {s s' : State}
    (h : execChunkBroadcastComplete g c s = .next s') (hc : CanonicalMem s.core.mem) :
    CanonicalMem s'.core.mem := by
  unfold execChunkBroadcastComplete at h
  grind [endColl_canonical, setColl_canonical]

theorem execCollectiveRecovery_canonical {g version : Nat} {held : List (List Nat)}
    {unfinished : List Nat} {s s' : State}
    (h : execCollectiveRecovery g version held unfinished s = .next s') (hc : CanonicalMem s.core.mem) :
    CanonicalMem s'.core.mem := by
  unfold execCollectiveRecovery at h
  grind [endColl_canonical, setColl_canonical]

theorem execCollectiveTimeout_canonical {news : TimeoutNews} {s s' : State}
    (h : execCollectiveTimeout news s = .next s') (hc : CanonicalMem s.core.mem) :
    CanonicalMem s'.core.mem := by
  unfold execCollectiveTimeout at h
  grind [endColl_canonical]

theorem execColar_canonical {g : Guard} {b : PumpBody} {s s' : State} (h : execColar g b s = .next s')
    (hc : CanonicalMem s.core.mem) : CanonicalMem s'.core.mem := by
  refine atIssue_canonical h hc fun u hu => ?_
  grind [→ kvPost_core_mem]

theorem execColrs_canonical {g : Guard} {b : PumpBody} {s s' : State} (h : execColrs g b s = .next s')
    (hc : CanonicalMem s.core.mem) : CanonicalMem s'.core.mem := by
  refine atIssue_canonical h hc fun u hu => ?_
  grind [→ kvPost_core_mem]

theorem execColag_canonical {g : Guard} {b : PumpBody} {s s' : State} (h : execColag g b s = .next s')
    (hc : CanonicalMem s.core.mem) : CanonicalMem s'.core.mem := by
  refine atIssue_canonical h hc fun u hu => ?_
  grind [→ kvPost_core_mem]

theorem execColbc_canonical {g : Guard} {b : PumpBody} {s s' : State} (h : execColbc g b s = .next s')
    (hc : CanonicalMem s.core.mem) : CanonicalMem s'.core.mem := by
  refine atIssue_canonical h hc fun u hu => ?_
  grind [→ kvPost_core_mem]

theorem execColstat_canonical {g : Guard} {b : PumpBody} {s s' : State}
    (h : execColstat g b s = .next s') (hc : CanonicalMem s.core.mem) : CanonicalMem s'.core.mem :=
  atIssue_canonical h hc fun _ hu => (Except.ok.inj hu) ▸ hc

/-! Of `Sys2Proof/Machine/WellJournal.lean`. -/

theorem execWjopen_canonical {g : Guard} {b : PumpBody} {s s' : State} (h : execWjopen g b s = .next s')
    (hc : CanonicalMem s.core.mem) : CanonicalMem s'.core.mem := by
  refine atIssue_canonical h hc fun u hu => ?_
  grind [→ post_core_mem]

theorem execWjwrite_canonical {g : Guard} {b : PumpBody} {s s' : State}
    (h : execWjwrite g b s = .next s') (hc : CanonicalMem s.core.mem) : CanonicalMem s'.core.mem := by
  refine atIssue_canonical h hc fun u hu => ?_
  grind [→ post_core_mem]

theorem execWjcommit_canonical {g : Guard} {b : PumpBody} {s s' : State}
    (h : execWjcommit g b s = .next s') (hc : CanonicalMem s.core.mem) : CanonicalMem s'.core.mem := by
  refine atIssue_canonical h hc fun u hu => ?_
  grind [→ post_core_mem]

theorem execWjabort_canonical {g : Guard} {b : PumpBody} {s s' : State}
    (h : execWjabort g b s = .next s') (hc : CanonicalMem s.core.mem) : CanonicalMem s'.core.mem := by
  refine atIssue_canonical h hc fun u hu => ?_
  grind [→ post_core_mem]

theorem execWjstat_canonical {g : Guard} {b : PumpBody} {s s' : State} (h : execWjstat g b s = .next s')
    (hc : CanonicalMem s.core.mem) : CanonicalMem s'.core.mem :=
  atIssue_canonical h hc fun _ hu => (Except.ok.inj hu) ▸ hc

theorem execJournalApply_canonical {t : Nat} {s s' : State} (h : execJournalApply t s = .next s')
    (hc : CanonicalMem s.core.mem) : CanonicalMem s'.core.mem := by
  unfold execJournalApply at h
  grind [applyFail_core_mem, writeDesc0_core_mem, applyEnd_core_mem, markBad_core_mem, writePage_canonical,
    modWell_core_mem, event_core_mem]

theorem execWellScrub_canonical {t : Nat} {scrub : PageScrub} {s s' : State}
    (h : execWellScrub t scrub s = .next s') (hc : CanonicalMem s.core.mem) : CanonicalMem s'.core.mem := by
  unfold execWellScrub at h
  grind [→ whenUp_core_mem, markBad_core_mem, modWell_core_mem]

/-! Of `Sys2Proof/Machine/Graph.lean`. -/

theorem execNodeDispatch_canonical {s s' : State} (h : execNodeDispatch s = .next s')
    (hc : CanonicalMem s.core.mem) : CanonicalMem s'.core.mem := by
  unfold execNodeDispatch at h
  grind [drawLoop_core_mem, tryFirst_core_mem]

theorem execNodeComplete_canonical {g : Nat} {s s' : State} (h : execNodeComplete g s = .next s')
    (hc : CanonicalMem s.core.mem) : CanonicalMem s'.core.mem := by
  unfold execNodeComplete at h
  grind [holdEffect_core_mem, nodeEnd_canonical]

theorem execInstanceEnd_canonical {i : Nat} {s s' : State} (h : execInstanceEnd i s = .next s')
    (hc : CanonicalMem s.core.mem) : CanonicalMem s'.core.mem := by
  unfold execInstanceEnd at h
  grind [instEnd_canonical, holdEffect_core_mem]

theorem execWideVariantLaunch_canonical {n : Nat} {s s' : State} (h : execWideVariantLaunch n s = .next s')
    (hc : CanonicalMem s.core.mem) : CanonicalMem s'.core.mem := by
  unfold execWideVariantLaunch at h
  dsimp only at h
  split at h
  · exact (Host.Outcome.next.inj h) ▸ hc
  · split at h
    · rw [← Host.Outcome.next.inj h, modGang_core_mem]; exact hc
    · split at h
      · rw [← Host.Outcome.next.inj h, loadMembers_core_mem, modGang_core_mem]; exact hc
      · rw [← Host.Outcome.next.inj h, askWakes_core_mem, foldl_core_mem]
        · exact hc
        · exact fun a e => askTile_core_mem a _ _

theorem execRegenerationStart_canonical {asid obj page : Nat} {s s' : State}
    (h : execRegenerationStart asid obj page s = .next s') (hc : CanonicalMem s.core.mem) :
    CanonicalMem s'.core.mem := by
  unfold execRegenerationStart at h
  grind [dropRegen_core_mem, startRegen_canonical]

/-! Of `Sys2Proof/Machine/Stream.lean`. -/

theorem execStreamTokenArrival_canonical {msg : List Byte} {s s' : State}
    (h : execStreamTokenArrival msg s = .next s') (hc : CanonicalMem s.core.mem) :
    CanonicalMem s'.core.mem := by
  unfold execStreamTokenArrival at h
  grind [fileToken_core_mem]

theorem execStepEnd_canonical {a : Nat} {s s' : State} (h : execStepEnd a s = .next s')
    (hc : CanonicalMem s.core.mem) : CanonicalMem s'.core.mem := by
  unfold execStepEnd at h
  grind [endPast_core_mem, endStep_core_mem]

theorem execTick_canonical {a : Nat} {s s' : State} (h : execTick a s = .next s')
    (hc : CanonicalMem s.core.mem) : CanonicalMem s'.core.mem := by
  unfold execTick at h
  grind [skipStep_core_mem, endStep_core_mem, tickGo_canonical, judgeTokens_core_mem, modArm_core_mem]

theorem execTickWakeLead_canonical {a : Nat} {s s' : State} (h : execTickWakeLead a s = .next s')
    (hc : CanonicalMem s.core.mem) : CanonicalMem s'.core.mem := by
  unfold execTickWakeLead at h
  grind [askWakes_core_mem]

theorem execStmget_canonical {g : Guard} {b : PumpBody} {s s' : State} (h : execStmget g b s = .next s')
    (hc : CanonicalMem s.core.mem) : CanonicalMem s'.core.mem :=
  atIssue_canonical h hc fun _ hu => (Except.ok.inj hu) ▸ hc

theorem execStmstat_canonical {g : Guard} {b : PumpBody} {s s' : State}
    (h : execStmstat g b s = .next s') (hc : CanonicalMem s.core.mem) : CanonicalMem s'.core.mem :=
  atIssue_canonical h hc fun _ hu => (Except.ok.inj hu) ▸ hc

theorem execStmgetResolve_canonical {id : Nat} {s s' : State} (h : execStmgetResolve id s = .next s')
    (hc : CanonicalMem s.core.mem) : CanonicalMem s'.core.mem := by
  unfold execStmgetResolve at h
  split at h
  · exact (Host.Outcome.next.inj h) ▸ hc
  · split at h
    · exact finish_canonical h hc fun u hu => stmResolve_canonical hu hc
    · exact (Host.Outcome.next.inj h) ▸ hc

theorem execHoldLimitExpiry_canonical {id : Nat} {s s' : State} (h : execHoldLimitExpiry id s = .next s')
    (hc : CanonicalMem s.core.mem) : CanonicalMem s'.core.mem := by
  unfold execHoldLimitExpiry at h
  split at h
  · exact (Host.Outcome.next.inj h) ▸ hc
  · dsimp only at h
    split at h
    · exact finish_canonical h hc fun u hu => stmResolve_canonical hu hc
    · exact (Host.Outcome.next.inj h) ▸ hc

/-! Of `Sys2Proof/Machine/PumpWork.lean`. -/

theorem execPumpDelivery_canonical {id bytes : Nat} {s s' : State} (h : execPumpDelivery id bytes s = .next s')
    (hc : CanonicalMem s.core.mem) : CanonicalMem s'.core.mem := by
  unfold execPumpDelivery at h
  split at h
  · exact (Host.Outcome.next.inj h) ▸ hc
  · exact finish_canonical h hc fun u hu => deliver_canonical hu hc

/-! Of `Sys2Proof/Machine/Packet.lean`. -/

theorem execNotifyKick_canonical {q : Nat} {s s' : State} (h : execNotifyKick q s = .next s')
    (hc : CanonicalMem s.core.mem) : CanonicalMem s'.core.mem := by
  unfold execNotifyKick at h
  grind [kick_canonical, setPending_core_mem]

theorem execPendingKickService_canonical {s s' : State} (h : execPendingKickService s = .next s')
    (hc : CanonicalMem s.core.mem) : CanonicalMem s'.core.mem := by
  unfold execPendingKickService at h
  grind [kick_canonical]

theorem execLaunchGraph_canonical {q : Nat} {s s' : State} (h : execLaunchGraph q s = .next s')
    (hc : CanonicalMem s.core.mem) : CanonicalMem s'.core.mem := by
  refine onPacket_canonical h hc fun v => ?_
  grind [refuseHead_canonical, markDirty_canonical, → onPacket_canonical, → createInst_canonical, retireQuiet_canonical]

theorem execSignalWrite_canonical {q : Nat} {s s' : State} (h : execSignalWrite q s = .next s')
    (hc : CanonicalMem s.core.mem) : CanonicalMem s'.core.mem := by
  refine onPacket_canonical h hc fun v => ?_
  (repeat' split) <;> simp_all [refuseHead_canonical, signalPacket_canonical]

theorem execSignalAdd_canonical {q : Nat} {s s' : State} (h : execSignalAdd q s = .next s')
    (hc : CanonicalMem s.core.mem) : CanonicalMem s'.core.mem := by
  refine onPacket_canonical h hc fun v => ?_
  (repeat' split) <;> simp_all [signalPacket_canonical]

theorem execWait_canonical {q : Nat} {s s' : State} (h : execWait q s = .next s')
    (hc : CanonicalMem s.core.mem) : CanonicalMem s'.core.mem := by
  refine onPacket_canonical h hc fun v => ?_
  dsimp only
  (repeat' split) <;> simp_all [refuseHead_canonical, retireQuiet_canonical]

theorem execCopy_canonical {q : Nat} {s s' : State} (h : execCopy q s = .next s')
    (hc : CanonicalMem s.core.mem) : CanonicalMem s'.core.mem := by
  refine onPacket_canonical h hc fun v => ?_
  dsimp only
  (repeat' split) <;> simp_all [refuseHead_canonical, retireQuiet_canonical]

theorem execBarrier_canonical {q : Nat} {s s' : State} (h : execBarrier q s = .next s')
    (hc : CanonicalMem s.core.mem) : CanonicalMem s'.core.mem := by
  refine onPacket_canonical h hc fun v => ?_
  (repeat' split) <;> simp_all [refuseHead_canonical, retire_canonical]

theorem execFlushExport_canonical {q : Nat} {s s' : State} (h : execFlushExport q s = .next s')
    (hc : CanonicalMem s.core.mem) : CanonicalMem s'.core.mem := by
  refine onPacket_canonical h hc fun v => ?_
  dsimp only
  (repeat' split) <;> simp_all [refuseHead_canonical, retire_canonical]

theorem execTimedArm_canonical {q : Nat} {s s' : State} (h : execTimedArm q s = .next s') (hc : CanonicalMem s.core.mem) :
    CanonicalMem s'.core.mem := by
  refine onFirmware_canonical h hc fun v => ?_
  extract_lets a stepen period phase asid sig k
  split
  · exact refuseHead_canonical hc
  · extract_lets s1 s2
    split
    · exact refuseHead_canonical hc
    · have h2 : CanonicalMem s2.core.mem := by
        unfold s2
        rw [foldl_core_mem]
        · exact hc
        · exact fun b i => modStream_core_mem b i _
      clear_value s2
      clear_value sig
      refine retire_canonical ?_
      rcases sig with _ | ⟨_, ds⟩
      · exact h2
      · exact markDirty_canonical _ _ h2

theorem execTimedDisarm_canonical {q : Nat} {s s' : State} (h : execTimedDisarm q s = .next s')
    (hc : CanonicalMem s.core.mem) : CanonicalMem s'.core.mem := by
  refine onFirmware_canonical h hc fun v => ?_
  (repeat' split) <;> simp_all [refuseHead_canonical, retire_canonical]

theorem execInvalidate_canonical {q : Nat} {s s' : State} (h : execInvalidate q s = .next s')
    (hc : CanonicalMem s.core.mem) : CanonicalMem s'.core.mem := by
  refine onFirmware_canonical h hc fun v => ?_
  dsimp only
  (repeat' split) <;> simp_all [refuseHead_canonical, retire_canonical]

theorem execRegionCreate_canonical {q : Nat} {s s' : State} (h : execRegionCreate q s = .next s')
    (hc : CanonicalMem s.core.mem) : CanonicalMem s'.core.mem := by
  refine onFirmware_canonical h hc fun v => ?_
  (repeat' split) <;> simp_all [refuseHead_canonical, regionPut_canonical]

theorem execRegionAlter_canonical {q : Nat} {s s' : State} (h : execRegionAlter q s = .next s')
    (hc : CanonicalMem s.core.mem) : CanonicalMem s'.core.mem := by
  refine onFirmware_canonical h hc fun v => ?_
  (repeat' split) <;> simp_all [regionPut_canonical]

theorem execRegionDestroy_canonical {q : Nat} {s s' : State} (h : execRegionDestroy q s = .next s')
    (hc : CanonicalMem s.core.mem) : CanonicalMem s'.core.mem := by
  refine onFirmware_canonical h hc fun v => ?_
  (repeat' split) <;> simp_all [refuseHead_canonical, retire_canonical]

theorem execQueueTeardown_canonical {q : Nat} {s s' : State} (h : execQueueTeardown q s = .next s')
    (hc : CanonicalMem s.core.mem) :
    CanonicalMem s'.core.mem := by
  unfold execQueueTeardown at h
  extract_lets x s1 gone s2 s3 s4 at h
  have h2 : CanonicalMem s2.core.mem := by
    refine foldl_canonical _ (fun a v ha => ?_) _ _ (by unfold s1; rw [modEntry_core_mem]; exact hc)
    split
    · exact ha
    · exact pkUpdate_canonical ha
  have h4 : CanonicalMem s4.core.mem := by
    unfold s4 s3
    rw [foldl_core_mem]
    · rw [wakeParked_core_mem, modQueue_core_mem]; exact h2
    · exact fun a i => abortInst_core_mem a i _ _
  split at h
  · exact (Host.Outcome.next.inj h) ▸ hc
  · rw [← Host.Outcome.next.inj h, foldl_core_mem]
    · exact h4
    · exact fun a k => disarm_core_mem a k

theorem execQueueDrained_canonical {q : Nat} {s s' : State} (h : execQueueDrained q s = .next s')
    (hc : CanonicalMem s.core.mem) : CanonicalMem s'.core.mem := by
  unfold execQueueDrained at h
  grind [modQueue_core_mem]

/-! Of `Sys2Proof/Machine/Scalar.lean`. -/

theorem execNopScalar_canonical {g : Guard} {body : BitVec 47} {s s' : State}
    (h : execNopScalar g body s = .next s') (hc : CanonicalMem s.core.mem) : CanonicalMem s'.core.mem :=
  nopForm_canonical h hc

theorem execAdd_canonical {g : Guard} {b : ScalarBody} {s s' : State} (h : execAdd g b s = .next s')
    (hc : CanonicalMem s.core.mem) : CanonicalMem s'.core.mem :=
  scalarBin_canonical h hc

theorem execSub_canonical {g : Guard} {b : ScalarBody} {s s' : State} (h : execSub g b s = .next s')
    (hc : CanonicalMem s.core.mem) : CanonicalMem s'.core.mem :=
  scalarBin_canonical h hc

theorem execMul_canonical {g : Guard} {b : ScalarBody} {s s' : State} (h : execMul g b s = .next s')
    (hc : CanonicalMem s.core.mem) : CanonicalMem s'.core.mem :=
  scalarBin_canonical h hc

theorem execMulh_canonical {g : Guard} {b : ScalarBody} {s s' : State} (h : execMulh g b s = .next s')
    (hc : CanonicalMem s.core.mem) : CanonicalMem s'.core.mem :=
  scalarBin_canonical h hc

theorem execDiv_canonical {g : Guard} {b : ScalarBody} {s s' : State} (h : execDiv g b s = .next s')
    (hc : CanonicalMem s.core.mem) : CanonicalMem s'.core.mem :=
  scalarBin_canonical h hc

theorem execRem_canonical {g : Guard} {b : ScalarBody} {s s' : State} (h : execRem g b s = .next s')
    (hc : CanonicalMem s.core.mem) : CanonicalMem s'.core.mem :=
  scalarBin_canonical h hc

theorem execAnd_canonical {g : Guard} {b : ScalarBody} {s s' : State} (h : execAnd g b s = .next s')
    (hc : CanonicalMem s.core.mem) : CanonicalMem s'.core.mem :=
  scalarBin_canonical h hc

theorem execOr_canonical {g : Guard} {b : ScalarBody} {s s' : State} (h : execOr g b s = .next s')
    (hc : CanonicalMem s.core.mem) : CanonicalMem s'.core.mem :=
  scalarBin_canonical h hc

theorem execXor_canonical {g : Guard} {b : ScalarBody} {s s' : State} (h : execXor g b s = .next s')
    (hc : CanonicalMem s.core.mem) : CanonicalMem s'.core.mem :=
  scalarBin_canonical h hc

theorem execAndn_canonical {g : Guard} {b : ScalarBody} {s s' : State} (h : execAndn g b s = .next s')
    (hc : CanonicalMem s.core.mem) : CanonicalMem s'.core.mem :=
  scalarBin_canonical h hc

theorem execShl_canonical {g : Guard} {b : ScalarBody} {s s' : State} (h : execShl g b s = .next s')
    (hc : CanonicalMem s.core.mem) : CanonicalMem s'.core.mem :=
  scalarBin_canonical h hc

theorem execShr_canonical {g : Guard} {b : ScalarBody} {s s' : State} (h : execShr g b s = .next s')
    (hc : CanonicalMem s.core.mem) : CanonicalMem s'.core.mem :=
  scalarBin_canonical h hc

theorem execSra_canonical {g : Guard} {b : ScalarBody} {s s' : State} (h : execSra g b s = .next s')
    (hc : CanonicalMem s.core.mem) : CanonicalMem s'.core.mem :=
  scalarBin_canonical h hc

theorem execMin_canonical {g : Guard} {b : ScalarBody} {s s' : State} (h : execMin g b s = .next s')
    (hc : CanonicalMem s.core.mem) : CanonicalMem s'.core.mem :=
  scalarBin_canonical h hc

theorem execMax_canonical {g : Guard} {b : ScalarBody} {s s' : State} (h : execMax g b s = .next s')
    (hc : CanonicalMem s.core.mem) : CanonicalMem s'.core.mem :=
  scalarBin_canonical h hc

theorem execClz_canonical {g : Guard} {b : ScalarBody} {s s' : State} (h : execClz g b s = .next s')
    (hc : CanonicalMem s.core.mem) : CanonicalMem s'.core.mem :=
  scalarBin_canonical h hc

theorem execPopc_canonical {g : Guard} {b : ScalarBody} {s s' : State} (h : execPopc g b s = .next s')
    (hc : CanonicalMem s.core.mem) : CanonicalMem s'.core.mem :=
  scalarBin_canonical h hc

theorem execLi_canonical {g : Guard} {b : ScalarBody} {s s' : State} (h : execLi g b s = .next s')
    (hc : CanonicalMem s.core.mem) : CanonicalMem s'.core.mem :=
  atIssue_canonical h hc fun _ hu => (Except.ok.inj hu) ▸ hc

theorem execLih_canonical {g : Guard} {b : ScalarBody} {s s' : State} (h : execLih g b s = .next s')
    (hc : CanonicalMem s.core.mem) : CanonicalMem s'.core.mem :=
  atIssue_canonical h hc fun _ hu => (Except.ok.inj hu) ▸ hc

theorem execMov_canonical {g : Guard} {b : ScalarBody} {s s' : State} (h : execMov g b s = .next s')
    (hc : CanonicalMem s.core.mem) : CanonicalMem s'.core.mem := by
  refine atIssue_canonical h hc fun u hu => ?_
  rw [← Except.ok.inj hu]
  simpa using hc

theorem execSel_canonical {g : Guard} {b : ScalarBody} {s s' : State} (h : execSel g b s = .next s')
    (hc : CanonicalMem s.core.mem) : CanonicalMem s'.core.mem :=
  atIssue_canonical h hc fun _ hu => (Except.ok.inj hu) ▸ hc

theorem execCmp_canonical {g : Guard} {b : ScalarBody} {s s' : State} (h : execCmp g b s = .next s')
    (hc : CanonicalMem s.core.mem) : CanonicalMem s'.core.mem :=
  atIssue_canonical h hc fun _ hu => (Except.ok.inj hu) ▸ hc

theorem execPand_canonical {g : Guard} {b : ScalarBody} {s s' : State} (h : execPand g b s = .next s')
    (hc : CanonicalMem s.core.mem) : CanonicalMem s'.core.mem :=
  predBin_canonical h hc

theorem execPor_canonical {g : Guard} {b : ScalarBody} {s s' : State} (h : execPor g b s = .next s')
    (hc : CanonicalMem s.core.mem) : CanonicalMem s'.core.mem :=
  predBin_canonical h hc

theorem execPxor_canonical {g : Guard} {b : ScalarBody} {s s' : State} (h : execPxor g b s = .next s')
    (hc : CanonicalMem s.core.mem) : CanonicalMem s'.core.mem :=
  predBin_canonical h hc

theorem execPandn_canonical {g : Guard} {b : ScalarBody} {s s' : State} (h : execPandn g b s = .next s')
    (hc : CanonicalMem s.core.mem) : CanonicalMem s'.core.mem :=
  predBin_canonical h hc

theorem execPset_canonical {g : Guard} {b : ScalarBody} {s s' : State} (h : execPset g b s = .next s')
    (hc : CanonicalMem s.core.mem) : CanonicalMem s'.core.mem :=
  atIssue_canonical h hc fun _ hu => (Except.ok.inj hu) ▸ hc

theorem execPcnt_canonical {g : Guard} {b : ScalarBody} {s s' : State} (h : execPcnt g b s = .next s')
    (hc : CanonicalMem s.core.mem) : CanonicalMem s'.core.mem :=
  atIssue_canonical h hc fun _ hu => (Except.ok.inj hu) ▸ hc

theorem execAadd_canonical {g : Guard} {b : ScalarBody} {s s' : State} (h : execAadd g b s = .next s')
    (hc : CanonicalMem s.core.mem) : CanonicalMem s'.core.mem :=
  atIssue_canonical h hc fun _ hu => (Except.ok.inj hu) ▸ hc

theorem execAset_canonical {g : Guard} {b : ScalarBody} {s s' : State} (h : execAset g b s = .next s')
    (hc : CanonicalMem s.core.mem) : CanonicalMem s'.core.mem :=
  atIssue_canonical h hc fun _ hu => (Except.ok.inj hu) ▸ hc

theorem execAget_canonical {g : Guard} {b : ScalarBody} {s s' : State} (h : execAget g b s = .next s')
    (hc : CanonicalMem s.core.mem) : CanonicalMem s'.core.mem :=
  atIssue_canonical h hc fun _ hu => (Except.ok.inj hu) ▸ hc

theorem execAnarrow_canonical {g : Guard} {b : ScalarBody} {s s' : State}
    (h : execAnarrow g b s = .next s') (hc : CanonicalMem s.core.mem) : CanonicalMem s'.core.mem :=
  atIssue_canonical h hc fun _ hu => (Except.ok.inj hu) ▸ hc

theorem execAdrop_canonical {g : Guard} {b : ScalarBody} {s s' : State} (h : execAdrop g b s = .next s')
    (hc : CanonicalMem s.core.mem) : CanonicalMem s'.core.mem :=
  atIssue_canonical h hc fun _ hu => (Except.ok.inj hu) ▸ hc

theorem execAmov_canonical {g : Guard} {b : ScalarBody} {s s' : State} (h : execAmov g b s = .next s')
    (hc : CanonicalMem s.core.mem) : CanonicalMem s'.core.mem :=
  atIssue_canonical h hc fun _ hu => (Except.ok.inj hu) ▸ hc

theorem execAchk_canonical {g : Guard} {b : ScalarBody} {s s' : State} (h : execAchk g b s = .next s')
    (hc : CanonicalMem s.core.mem) : CanonicalMem s'.core.mem :=
  atIssue_canonical h hc fun _ hu => (Except.ok.inj hu) ▸ hc

theorem execLoop_canonical {g : Guard} {b : ScalarBody} {s s' : State} (h : execLoop g b s = .next s')
    (hc : CanonicalMem s.core.mem) : CanonicalMem s'.core.mem :=
  atIssue_canonical h hc fun _ hu => (Except.ok.inj hu) ▸ hc

theorem execLdelta_canonical {g : Guard} {b : ScalarBody} {s s' : State}
    (h : execLdelta g b s = .next s') (hc : CanonicalMem s.core.mem) : CanonicalMem s'.core.mem :=
  atIssue_canonical h hc fun _ hu => (Except.ok.inj hu) ▸ hc

theorem execLbreak_canonical {g : Guard} {b : ScalarBody} {s s' : State}
    (h : execLbreak g b s = .next s') (hc : CanonicalMem s.core.mem) : CanonicalMem s'.core.mem :=
  atIssue_canonical h hc fun _ hu => (Except.ok.inj hu) ▸ hc

theorem execLidx_canonical {g : Guard} {b : ScalarBody} {s s' : State} (h : execLidx g b s = .next s')
    (hc : CanonicalMem s.core.mem) : CanonicalMem s'.core.mem :=
  atIssue_canonical h hc fun _ hu => (Except.ok.inj hu) ▸ hc

theorem execView_canonical {g : Guard} {b : ScalarBody} {s s' : State} (h : execView g b s = .next s')
    (hc : CanonicalMem s.core.mem) : CanonicalMem s'.core.mem :=
  atIssue_canonical h hc fun _ hu => (Except.ok.inj hu) ▸ hc

theorem execSrr_canonical {g : Guard} {b : ScalarBody} {s s' : State} (h : execSrr g b s = .next s')
    (hc : CanonicalMem s.core.mem) : CanonicalMem s'.core.mem :=
  atIssue_canonical h hc fun _ hu => (Except.ok.inj hu) ▸ hc

theorem execSrw_canonical {g : Guard} {b : ScalarBody} {s s' : State} (h : execSrw g b s = .next s')
    (hc : CanonicalMem s.core.mem) : CanonicalMem s'.core.mem := by
  refine atIssue_canonical h hc fun u hu => ?_
  rw [← Except.ok.inj hu]
  simpa using hc

theorem execSrWinWrite_canonical {g : Guard} {b : ScalarBody} {s s' : State}
    (h : execSrWinWrite g b s = .next s') (hc : CanonicalMem s.core.mem) : CanonicalMem s'.core.mem := by
  refine atIssue_canonical h hc fun u hu => ?_
  rw [← Except.ok.inj hu]
  simpa using hc

theorem execSrPrivWrite_canonical {g : Guard} {b : ScalarBody} {s s' : State}
    (h : execSrPrivWrite g b s = .next s') (hc : CanonicalMem s.core.mem) : CanonicalMem s'.core.mem := by
  refine atIssue_canonical h hc fun u hu => ?_
  rw [← Except.ok.inj hu]
  simpa using hc

theorem execRdtime_canonical {g : Guard} {b : ScalarBody} {s s' : State}
    (h : execRdtime g b s = .next s') (hc : CanonicalMem s.core.mem) : CanonicalMem s'.core.mem :=
  atIssue_canonical h hc fun _ hu => (Except.ok.inj hu) ▸ hc

theorem execPbr_canonical {g : Guard} {b : ScalarBody} {s s' : State} (h : execPbr g b s = .next s')
    (hc : CanonicalMem s.core.mem) : CanonicalMem s'.core.mem :=
  atIssue_canonical h hc fun _ hu => (Except.ok.inj hu) ▸ hc

theorem execTrap_canonical {g : Guard} {b : ScalarBody} {s s' : State} (h : execTrap g b s = .next s')
    (hc : CanonicalMem s.core.mem) : CanonicalMem s'.core.mem :=
  atIssue_canonical h hc fun _ hu => (Except.ok.inj hu) ▸ hc

theorem execUtret_canonical {g : Guard} {b : ScalarBody} {s s' : State} (h : execUtret g b s = .next s')
    (hc : CanonicalMem s.core.mem) : CanonicalMem s'.core.mem :=
  atIssue_canonical h hc fun _ hu => (Except.ok.inj hu) ▸ hc

theorem execEret_canonical {g : Guard} {b : ScalarBody} {s s' : State} (h : execEret g b s = .next s')
    (hc : CanonicalMem s.core.mem) : CanonicalMem s'.core.mem :=
  atIssue_canonical h hc fun _ hu => (Except.ok.inj hu) ▸ hc

theorem execYield_canonical {g : Guard} {b : ScalarBody} {s s' : State} (h : execYield g b s = .next s')
    (hc : CanonicalMem s.core.mem) : CanonicalMem s'.core.mem := by
  refine atIssue_canonical h hc fun u hu => ?_
  rw [← Except.ok.inj hu]
  simpa using hc

theorem execEndTask_canonical {g : Guard} {b : ScalarBody} {s s' : State}
    (h : execEndTask g b s = .next s') (hc : CanonicalMem s.core.mem) : CanonicalMem s'.core.mem :=
  atIssue_canonical h hc fun _ hu => (Except.ok.inj hu) ▸ hc

theorem execFeat_canonical {g : Guard} {b : ScalarBody} {s s' : State} (h : execFeat g b s = .next s')
    (hc : CanonicalMem s.core.mem) : CanonicalMem s'.core.mem :=
  atIssue_canonical h hc fun _ hu => (Except.ok.inj hu) ▸ hc

/-! Of `Sys2Proof/Machine/Save.lean`. -/

theorem execPreemptionRequestDelivery_canonical {t c : Nat} {s s' : State} (h : execPreemptionRequestDelivery t c s = .next s')
    (hc : CanonicalMem s.core.mem) : CanonicalMem s'.core.mem := by
  unfold execPreemptionRequestDelivery at h
  dsimp only at h
  split at h
  · split at h
    · rw [← Host.Outcome.next.inj h, landAsleep_core_mem, State.setCtx_core_mem]; exact hc
    · exact (Host.Outcome.next.inj h) ▸ hc
  · exact (Host.Outcome.next.inj h) ▸ hc

theorem execForcedPreemption_canonical {t c : Nat} {s s' : State}
    (h : execForcedPreemption t c s = .next s') (hc : CanonicalMem s.core.mem) :
    CanonicalMem s'.core.mem := by
  unfold execForcedPreemption at h
  grind [land_core_mem, abortRegion_core_mem]

theorem execContextSave_canonical {t c : Nat} {s s' : State} (h : execContextSave t c s = .next s')
    (hc : CanonicalMem s.core.mem) : CanonicalMem s'.core.mem := by
  unfold execContextSave at h
  grind [→ saveTask_canonical]

theorem execContextResume_canonical {q t c : Nat} {s s' : State}
    (h : execContextResume q t c s = .next s') (hc : CanonicalMem s.core.mem) : CanonicalMem s'.core.mem := by
  unfold execContextResume at h
  grind [restore_canonical, modQueue_core_mem]

/-! Of `Sys2Proof/Machine/Islands.lean`. -/

theorem execTimingErrorReplay_canonical {site : ReplaySite} {s s' : State} (h : execTimingErrorReplay site s = .next s')
    (hc : CanonicalMem s.core.mem) : CanonicalMem s'.core.mem := by
  unfold execTimingErrorReplay at h
  dsimp only at h
  split at h
  · exact (Host.Outcome.next.inj h) ▸ hc
  · split at h
    · exact (Host.Outcome.next.inj h) ▸ hc
    next hr =>
      have h1 := replayAt_core_mem hr
      split at h
      · rw [← Host.Outcome.next.inj h, modIsland_core_mem, event_core_mem, State.modTile_core_mem, h1]; exact hc
      · rw [← Host.Outcome.next.inj h, State.modTile_core_mem, h1]; exact hc

theorem execStormPeriodEnd_canonical {i : Nat} {s s' : State} (h : execStormPeriodEnd i s = .next s')
    (hc : CanonicalMem s.core.mem) : CanonicalMem s'.core.mem := by
  unfold execStormPeriodEnd at h
  grind [modIsland_core_mem]

theorem execIslandIdle_canonical {i : Nat} {s s' : State} (h : execIslandIdle i s = .next s')
    (hc : CanonicalMem s.core.mem) : CanonicalMem s'.core.mem := by
  unfold execIslandIdle at h
  grind [modIsland_core_mem]

theorem execIslandIdleExit_canonical {i : Nat} {s s' : State} (h : execIslandIdleExit i s = .next s')
    (hc : CanonicalMem s.core.mem) : CanonicalMem s'.core.mem := by
  unfold execIslandIdleExit at h
  grind [modIsland_core_mem]

theorem execIslandPark_canonical {i : Nat} {s s' : State} (h : execIslandPark i s = .next s') (hc : CanonicalMem s.core.mem) :
    CanonicalMem s'.core.mem := by
  unfold execIslandPark at h
  dsimp only at h
  split at h
  · split at h
    · rw [← Host.Outcome.next.inj h, modIsland_core_mem]
      exact loseVolatile_canonical _ _ (foldl_canonical _ (fun a x ha => parkTask_canonical a _ _ ha) _ _ hc)
    · exact (Host.Outcome.next.inj h) ▸ hc
  · exact (Host.Outcome.next.inj h) ▸ hc

theorem execResumeTrigger_canonical {t c : Nat} {s s' : State} (h : execResumeTrigger t c s = .next s')
    (hc : CanonicalMem s.core.mem) : CanonicalMem s'.core.mem := by
  unfold execResumeTrigger at h
  grind [askWake_core_mem]

theorem execIslandOff_canonical {i : Nat} {s s' : State} (h : execIslandOff i s = .next s') (hc : CanonicalMem s.core.mem) :
    CanonicalMem s'.core.mem := by
  unfold execIslandOff at h
  dsimp only at h
  split at h
  · split at h
    · rw [← Host.Outcome.next.inj h, modIsland_core_mem, foldl_core_mem]
      · exact hc
      · exact fun _ _ => rfl
    · exact (Host.Outcome.next.inj h) ▸ hc
  · exact (Host.Outcome.next.inj h) ▸ hc

theorem execIslandWake_canonical {i : Nat} {s s' : State} (h : execIslandWake i s = .next s')
    (hc : CanonicalMem s.core.mem) : CanonicalMem s'.core.mem := by
  unfold execIslandWake at h
  grind [modIsland_core_mem]

theorem execIslandWakeComplete_canonical {i : Nat} {badParity : List (Nat × Nat × Nat)} {s s' : State}
    (h : execIslandWakeComplete i badParity s = .next s') (hc : CanonicalMem s.core.mem) : CanonicalMem s'.core.mem := by
  unfold execIslandWakeComplete at h
  extract_lets x bad twice s1 s2 s3 at h
  have h2 : s2.core.mem = s.core.mem := by
    unfold s2
    rw [foldl_core_mem]
    · exact modIsland_core_mem _ _ _
    · exact fun a b => parityFail_core_mem a _ _ _
  have h3 : s3.core.mem = s.core.mem := by
    unfold s3
    split
    · rw [foldl_core_mem, h2]
      intro a t
      rw [journalRepair_core_mem, State.modTile_core_mem]
    · exact h2
  split at h
  · exact (Host.Outcome.next.inj h) ▸ hc
  · rw [← Host.Outcome.next.inj h]
    exact unparkAll_canonical _ _ _ (h3 ▸ hc)

theorem execDriverWakeRequest_canonical {islands : BitVec 64} {s s' : State}
    (h : execDriverWakeRequest islands s = .next s') (hc : CanonicalMem s.core.mem) :
    CanonicalMem s'.core.mem := by
  unfold execDriverWakeRequest at h
  grind [askWakes_core_mem]

theorem execIslandSelfTestDone_canonical {i : Nat} {pass : Bool} {s s' : State}
    (h : execIslandSelfTestDone i pass s = .next s') (hc : CanonicalMem s.core.mem) :
    CanonicalMem s'.core.mem := by
  unfold execIslandSelfTestDone at h
  grind [eventFree_core_mem, modIsland_core_mem]

theorem execEventRecordPost_canonical {dest : EventDest} {r : EventRec} {s s' : State}
    (h : execEventRecordPost dest r s = .next s') (hc : CanonicalMem s.core.mem) :
    CanonicalMem s'.core.mem := by
  unfold execEventRecordPost at h
  grind [postEvent_canonical, stampRec_core_mem, postTo_core_mem]

theorem execCisternRetain_canonical {n : Nat} {s s' : State} (h : execCisternRetain n s = .next s')
    (hc : CanonicalMem s.core.mem) : CanonicalMem s'.core.mem := by
  unfold execCisternRetain at h
  grind [modSlice_core_mem, → whenUp_core_mem]

theorem execCisternWake_canonical {n : Nat} {s s' : State} (h : execCisternWake n s = .next s')
    (hc : CanonicalMem s.core.mem) : CanonicalMem s'.core.mem := by
  unfold execCisternWake at h
  grind [modSlice_core_mem, → whenUp_core_mem]

theorem execCisternOffRequest_canonical {n : Nat} {s s' : State}
    (h : execCisternOffRequest n s = .next s') (hc : CanonicalMem s.core.mem) : CanonicalMem s'.core.mem := by
  unfold execCisternOffRequest at h
  grind [→ spillSlice_core_mem, modSlice_core_mem]

/-! Of `Sys2Proof/Machine/Power.lean`. -/

theorem execRailSettled_canonical {p : Nat} {s s' : State} (h : execRailSettled p s = .next s') (hc : CanonicalMem s.core.mem) :
    CanonicalMem s'.core.mem := by
  unfold execRailSettled at h
  split at h
  · exact (Host.Outcome.next.inj h) ▸ hc
  · rw [← Host.Outcome.next.inj h, modRail_core_mem, foldl_core_mem]
    · exact hc
    · intro a i
      rw [modIsland_core_mem]

theorem execClockShareWindow_canonical {i : Nat} {s s' : State}
    (h : execClockShareWindow i s = .next s') (hc : CanonicalMem s.core.mem) : CanonicalMem s'.core.mem := by
  unfold execClockShareWindow at h
  grind [modIsland_core_mem]

theorem execLease_canonical {q projected : Nat} {s s' : State} (h : execLease q projected s = .next s')
    (hc : CanonicalMem s.core.mem) : CanonicalMem s'.core.mem := by
  refine onFirmware_canonical h hc fun v => ?_
  dsimp only
  (repeat' split) <;> simp_all [refuseHead_canonical, retire_canonical]

theorem execLeaseExpiry_canonical {p : Nat} {s s' : State} (h : execLeaseExpiry p s = .next s')
    (hc : CanonicalMem s.core.mem) : CanonicalMem s'.core.mem := by
  unfold execLeaseExpiry at h
  grind [endLease_core_mem]

theorem execLeaseRevoke_canonical {p projected : Nat} {s s' : State} (h : execLeaseRevoke p projected s = .next s')
    (hc : CanonicalMem s.core.mem) : CanonicalMem s'.core.mem := by
  unfold execLeaseRevoke at h
  split at h
  · exact (Host.Outcome.next.inj h) ▸ hc
  · split at h
    · exact (Host.Outcome.next.inj h) ▸ hc
    · extract_lets cs src first drop s1 leases at h
      rw [← Host.Outcome.next.inj h]
      dsimp only
      unfold s1
      rw [foldl_core_mem]
      · exact hc
      · intro a x
        exact (postTo_core_mem _ _ _ _).trans (stamp_core_mem a src)

theorem execMeterIntegration_canonical {rails : List Nat} {input : Nat} {failed : List Nat} {s s' : State}
    (h : execMeterIntegration rails input failed s = .next s') (hc : CanonicalMem s.core.mem) : CanonicalMem s'.core.mem := by
  unfold execMeterIntegration at h
  split at h
  · exact (Host.Outcome.next.inj h) ▸ hc
  · extract_lets s1 pw s2 s3 at h
    have h1 : s1.core.mem = s.core.mem := by
      unfold s1
      rw [foldl_core_mem]
      intro a x
      exact modRail_core_mem _ _ _
    have h3 : s3.core.mem = s1.core.mem := by
      unfold s3
      rw [foldl_core_mem]
      intro a m
      split
      · exact event_core_mem _ _ _ _
      · exact eventFree_core_mem _ _ _ _
    rw [← Host.Outcome.next.inj h]
    split
    · rw [h3, h1]; exact hc
    · rw [degrade_core_mem, h3, h1]; exact hc

theorem execAccountingTick_canonical {s s' : State} (h : execAccountingTick s = .next s') (hc : CanonicalMem s.core.mem) :
    CanonicalMem s'.core.mem := by
  unfold execAccountingTick at h
  split at h
  · exact (Host.Outcome.next.inj h) ▸ hc
  · rw [← Host.Outcome.next.inj h]
    dsimp only
    rw [foldl_core_mem]
    · rw [splitTick_core_mem]
      -- The division of the tick's energy among the partitions (R409) ends in a degradation or in none.
      refine ite_canonical ?_ ?_ <;> simpa using hc
    · exact fun a l => applyLease_core_mem a l

theorem execStatement_canonical {q : Nat} {s s' : State} (h : execStatement q s = .next s')
    (hc : CanonicalMem s.core.mem) : CanonicalMem s'.core.mem := by
  refine onFirmware_canonical h hc fun v => ?_
  dsimp only
  (repeat' split) <;> simp_all [refuseHead_canonical, retire_canonical, performStore_canonical]

theorem execBrownOut_canonical {loss : SupplyLoss} {s s' : State} (h : execBrownOut loss s = .next s')
    (hc : CanonicalMem s.core.mem) : CanonicalMem s'.core.mem := by
  unfold execBrownOut at h
  grind [tornUnit_canonical, powerLoss_canonical]

theorem execHeatRefresh_canonical {sensors : List Int} {s s' : State} (h : execHeatRefresh sensors s = .next s')
    (hc : CanonicalMem s.core.mem) : CanonicalMem s'.core.mem := by
  unfold execHeatRefresh at h
  split at h
  · exact (Host.Outcome.next.inj h) ▸ hc
  · extract_lets heat pw s1 s2 s3 at h
    have h3 : CanonicalMem s3.core.mem := by
      unfold s3 s2
      rw [foldl_core_mem, foldl_core_mem]
      · exact hc
      · exact fun a i => heatStep_core_mem a i
      · exact fun a _ => eventFree_core_mem a _ _ _
    rw [← Host.Outcome.next.inj h]
    split
    · exact powerLoss_canonical _ h3
    · exact h3

/-! Of `Sys2Proof/Machine/Firmware.lean`. -/

theorem execPowerOnReset_canonical {s s' : State} (h : execPowerOnReset s = .next s')
    (hc : CanonicalMem s.core.mem) : CanonicalMem s'.core.mem := by
  unfold execPowerOnReset at h
  grind [boot_core_mem]

theorem execLpddr6TrainingDone_canonical {s s' : State} (h : execLpddr6TrainingDone s = .next s')
    (hc : CanonicalMem s.core.mem) : CanonicalMem s'.core.mem := by
  unfold execLpddr6TrainingDone at h
  grind

theorem execFirmwareTakeover_canonical {s s' : State} (h : execFirmwareTakeover s = .next s')
    (hc : CanonicalMem s.core.mem) : CanonicalMem s'.core.mem := by
  unfold execFirmwareTakeover at h
  grind [takeoverEnd_canonical, eventFree_core_mem, reAct_core_mem, setComplex_core_mem, modFw_core_mem, packageReset_canonical]

theorem execMirrorEntry_canonical {s s' : State} (h : execMirrorEntry s = .next s')
    (hc : CanonicalMem s.core.mem) : CanonicalMem s'.core.mem := by
  unfold execMirrorEntry at h
  grind [modFw_core_mem]

theorem execUpdate_canonical {slot : Nat} {s s' : State} (h : execUpdate slot s = .next s')
    (hc : CanonicalMem s.core.mem) : CanonicalMem s'.core.mem := by
  refine onRequest_canonical h hc ?_
  (repeat' split) <;> simp_all

theorem execRoleSwap_canonical {s s' : State} (h : execRoleSwap s = .next s')
    (hc : CanonicalMem s.core.mem) : CanonicalMem s'.core.mem := by
  unfold execRoleSwap at h
  grind [bootComplex_core_mem, setComplex_core_mem, modFw_core_mem]

theorem execFwUpdateFail_canonical {s s' : State} (h : execFwUpdateFail s = .next s')
    (hc : CanonicalMem s.core.mem) : CanonicalMem s'.core.mem := by
  unfold execFwUpdateFail at h
  grind [bootComplex_core_mem, eventFree_core_mem, modFw_core_mem]

theorem execAttest_canonical {nonce : BitVec 512} {s s' : State} (h : execAttest nonce s = .next s')
    (hc : CanonicalMem s.core.mem) : CanonicalMem s'.core.mem := by
  refine onRequest_canonical h hc ?_
  simp_all

theorem execConfirm_canonical {request : BitVec 512} {s s' : State}
    (h : execConfirm request s = .next s') (hc : CanonicalMem s.core.mem) : CanonicalMem s'.core.mem := by
  refine onRequest_canonical h hc ?_
  simp_all

theorem execHeat_canonical {s s' : State} (h : execHeat s = .next s') (hc : CanonicalMem s.core.mem) :
    CanonicalMem s'.core.mem := by
  refine onRequest_canonical h hc ?_
  simp_all

theorem execTelemetry_canonical {s s' : State} (h : execTelemetry s = .next s')
    (hc : CanonicalMem s.core.mem) : CanonicalMem s'.core.mem := by
  refine onRequest_canonical h hc ?_
  simp_all

theorem execVersions_canonical {s s' : State} (h : execVersions s = .next s')
    (hc : CanonicalMem s.core.mem) : CanonicalMem s'.core.mem := by
  refine onRequest_canonical h hc ?_
  simp_all

theorem execLoad_canonical {asid obj offset : Nat} {s s' : State} (h : execLoad asid obj offset s = .next s')
    (hc : CanonicalMem s.core.mem) : CanonicalMem s'.core.mem := by
  refine onRequest_canonical h hc ?_
  split
  · exact hc
  · extract_lets placed find s1 img s2 images
    split
    · exact hc
    · have h1 : CanonicalMem s1.core.mem :=
        foldl_canonical _ (fun a x ha => loadSegment_canonical ha) _ _ hc
      exact h1

theorem execQueueTableWrite_canonical {q : Nat} {entry : BitVec 512} {s s' : State} (h : execQueueTableWrite q entry s = .next s')
    (hc : CanonicalMem s.core.mem) : CanonicalMem s'.core.mem := by
  refine onRequest_canonical h hc ?_
  extract_lets e
  split
  · exact hc
  · rw [modQueue_core_mem]; exact hc

theorem execAsidTableWrite_canonical {asid : Nat} {entry : BitVec 256} {s s' : State}
    (h : execAsidTableWrite asid entry s = .next s') (hc : CanonicalMem s.core.mem) :
    CanonicalMem s'.core.mem := by
  refine onRequest_canonical h hc ?_
  (repeat' split) <;> simp_all

theorem execServiceEntryWrite_canonical {part : Nat} {entry : BitVec 512} {s s' : State}
    (h : execServiceEntryWrite part entry s = .next s') (hc : CanonicalMem s.core.mem) :
    CanonicalMem s'.core.mem := by
  refine onRequest_canonical h hc ?_
  (repeat' split) <;> simp_all

theorem execPowerEntryWrite_canonical {part : Nat} {entry : BitVec 256} {s s' : State}
    (h : execPowerEntryWrite part entry s = .next s') (hc : CanonicalMem s.core.mem) :
    CanonicalMem s'.core.mem := by
  refine onRequest_canonical h hc ?_
  (repeat' split) <;> simp_all

theorem execGroupEntryWrite_canonical {g : Nat} {entry : BitVec 256} {s s' : State}
    (h : execGroupEntryWrite g entry s = .next s') (hc : CanonicalMem s.core.mem) :
    CanonicalMem s'.core.mem := by
  refine onRequest_canonical h hc ?_
  (repeat' split) <;> simp_all [endColl_canonical]

theorem execStreamDescriptorWrite_canonical {k : Nat} {entry : BitVec 512} {s s' : State}
    (h : execStreamDescriptorWrite k entry s = .next s') (hc : CanonicalMem s.core.mem) :
    CanonicalMem s'.core.mem := by
  refine onRequest_canonical h hc ?_
  simp_all

theorem execOwnerKeyWrite_canonical {slot : Nat} {key : Option (List Byte)} {request : BitVec 512}
    {s s' : State} (h : execOwnerKeyWrite slot key request s = .next s') (hc : CanonicalMem s.core.mem) :
    CanonicalMem s'.core.mem := by
  refine onRequest_canonical h hc ?_
  (repeat' split) <;> simp_all

theorem execPartitionEntryWrite_canonical {p : Nat} {entry : BitVec 256} {request : BitVec 512}
    {s s' : State} (h : execPartitionEntryWrite p entry request s = .next s')
    (hc : CanonicalMem s.core.mem) : CanonicalMem s'.core.mem := by
  refine onRequest_canonical h hc ?_
  (repeat' split) <;> simp_all

theorem execLotterySeedWrite_canonical {seed : Word} {s s' : State}
    (h : execLotterySeedWrite seed s = .next s') (hc : CanonicalMem s.core.mem) :
    CanonicalMem s'.core.mem := by
  refine onRequest_canonical h hc ?_
  (repeat' split) <;> simp_all

/-! Of `Sys2Proof/Machine/Net.lean`. -/

theorem execStraitPeerDetect_canonical {p : Nat} {s s' : State}
    (h : execStraitPeerDetect p s = .next s') (hc : CanonicalMem s.core.mem) : CanonicalMem s'.core.mem := by
  refine powered_canonical h hc ?_
  simp_all

theorem execStraitTrainRequest_canonical {train : TrainRequest} {s s' : State}
    (h : execStraitTrainRequest train s = .next s') (hc : CanonicalMem s.core.mem) :
    CanonicalMem s'.core.mem := by
  refine onRequest_canonical h hc ?_
  (repeat' split) <;> simp_all [joinDomain_canonical]

theorem execStraitDown_canonical {p : Nat} {s s' : State} (h : execStraitDown p s = .next s')
    (hc : CanonicalMem s.core.mem) : CanonicalMem s'.core.mem := by
  refine powered_canonical h hc ?_
  simp_all

theorem execStraitDownRequest_canonical {p : Nat} {s s' : State}
    (h : execStraitDownRequest p s = .next s') (hc : CanonicalMem s.core.mem) : CanonicalMem s'.core.mem := by
  refine onRequest_canonical h hc ?_
  simp_all

theorem execIdentityFlit_canonical {p pkg port : Nat} {versions : List (Nat × Nat)} {s s' : State}
    (h : execIdentityFlit p pkg port versions s = .next s') (hc : CanonicalMem s.core.mem) :
    CanonicalMem s'.core.mem := by
  refine powered_canonical h hc ?_
  (repeat' split) <;> simp_all

theorem execStraitUp_canonical {p : Nat} {s s' : State} (h : execStraitUp p s = .next s')
    (hc : CanonicalMem s.core.mem) : CanonicalMem s'.core.mem := by
  refine powered_canonical h hc ?_
  simp_all

theorem execFlitCrcRetry_canonical {p : Nat} {again : Bool} {s s' : State}
    (h : execFlitCrcRetry p again s = .next s') (hc : CanonicalMem s.core.mem) :
    CanonicalMem s'.core.mem := by
  refine powered_canonical h hc ?_
  (repeat' split) <;> simp_all

theorem execVirtualLaneStopGo_canonical {p lane free : Nat} {s s' : State}
    (h : execVirtualLaneStopGo p lane free s = .next s') (hc : CanonicalMem s.core.mem) :
    CanonicalMem s'.core.mem := by
  refine powered_canonical h hc ?_
  simp_all

theorem execLinkChangeFlood_canonical {p : Nat} {news : LinkNews} {s s' : State}
    (h : execLinkChangeFlood p news s = .next s') (hc : CanonicalMem s.core.mem) :
    CanonicalMem s'.core.mem := by
  refine powered_canonical h hc ?_
  (repeat' split) <;> simp_all

theorem execPtpSync_canonical {offset : Int} {grandmaster : Bool} {source : Nat} {s s' : State}
    (h : execPtpSync offset grandmaster source s = .next s') (hc : CanonicalMem s.core.mem) :
    CanonicalMem s'.core.mem := by
  refine powered_canonical h hc ?_
  (repeat' split) <;> simp_all

theorem execAnnounceTimeout_canonical {grandmaster : Nat} {s s' : State}
    (h : execAnnounceTimeout grandmaster s = .next s') (hc : CanonicalMem s.core.mem) :
    CanonicalMem s'.core.mem := by
  refine powered_canonical h hc ?_
  simp_all

theorem execPtpConfig_canonical {domain delay transport : Nat} {s s' : State}
    (h : execPtpConfig domain delay transport s = .next s') (hc : CanonicalMem s.core.mem) :
    CanonicalMem s'.core.mem := by
  refine onRequest_canonical h hc ?_
  (repeat' split) <;> simp_all

theorem execEthernetFrameReceive_canonical {p : Nat} {vlan : Option Nat} {kind : FrameKind}
    {_priority bytes : Nat} {s s' : State}
    (h : execEthernetFrameReceive p vlan kind _priority bytes s = .next s')
    (hc : CanonicalMem s.core.mem) : CanonicalMem s'.core.mem := by
  refine powered_canonical h hc ?_
  simp_all

theorem execAutoNegotiation_canonical {p gbit : Nat} {s s' : State}
    (h : execAutoNegotiation p gbit s = .next s') (hc : CanonicalMem s.core.mem) :
    CanonicalMem s'.core.mem := by
  refine powered_canonical h hc ?_
  (repeat' split) <;> simp_all

theorem execPortRateSet_canonical {p gbit : Nat} {s s' : State}
    (h : execPortRateSet p gbit s = .next s') (hc : CanonicalMem s.core.mem) : CanonicalMem s'.core.mem := by
  refine onRequest_canonical h hc ?_
  (repeat' split) <;> simp_all

theorem execVlanConfig_canonical {p : Nat} {ids : List Nat} {s s' : State}
    (h : execVlanConfig p ids s = .next s') (hc : CanonicalMem s.core.mem) : CanonicalMem s'.core.mem := by
  refine onRequest_canonical h hc ?_
  (repeat' split) <;> simp_all

theorem execQueuePairBinding_canonical {q asid role : Nat} {s s' : State}
    (h : execQueuePairBinding q asid role s = .next s') (hc : CanonicalMem s.core.mem) :
    CanonicalMem s'.core.mem := by
  refine onRequest_canonical h hc ?_
  (repeat' split) <;> simp_all

theorem execCongestionNotification_canonical {q : Nat} {s s' : State}
    (h : execCongestionNotification q s = .next s') (hc : CanonicalMem s.core.mem) :
    CanonicalMem s'.core.mem := by
  refine powered_canonical h hc ?_
  simp_all

theorem execRateRecovery_canonical {q : Nat} {s s' : State} (h : execRateRecovery q s = .next s')
    (hc : CanonicalMem s.core.mem) : CanonicalMem s'.core.mem := by
  refine powered_canonical h hc ?_
  simp_all

theorem execRdmaWrite_canonical {q obj off : Nat} {data : List Byte} {s s' : State}
    (h : execRdmaWrite q obj off data s = .next s') (hc : CanonicalMem s.core.mem) :
    CanonicalMem s'.core.mem := by
  refine powered_canonical h hc ?_
  grind [→ rdmaStore_canonical, → powered_canonical, send_core_mem]

theorem execRdmaWriteWithImmediate_canonical {q obj off : Nat} {data : List Byte} {imm : BitVec 32}
    {s s' : State} (h : execRdmaWriteWithImmediate q obj off data imm s = .next s')
    (hc : CanonicalMem s.core.mem) : CanonicalMem s'.core.mem := by
  refine powered_canonical h hc ?_
  grind [→ rdmaStore_canonical, → powered_canonical, performStore_canonical, send_core_mem]

theorem execRdmaRead_canonical {q obj off len : Nat} {s s' : State}
    (h : execRdmaRead q obj off len s = .next s') (hc : CanonicalMem s.core.mem) :
    CanonicalMem s'.core.mem := by
  refine powered_canonical h hc ?_
  dsimp only
  (repeat' split) <;> simp_all

/-! Of `Sys2Proof/Machine/TileEvents.lean`. -/

theorem execWaitRelease_canonical {t c : Nat} {s s' : State} (h : execWaitRelease t c s = .next s')
    (hc : CanonicalMem s.core.mem) : CanonicalMem s'.core.mem := by
  have hm : s'.core.mem = s.core.mem := by
    unfold execWaitRelease at h
    cases hp : (s.ctx t c).preempt <;> simp only [hp] at h <;> (repeat' split at h) <;>
      rw [← Host.Outcome.next.inj h] <;> simp
  exact hm ▸ hc

theorem execCommitStageDeparture_canonical {t c : Nat} {s s' : State} (h : execCommitStageDeparture t c s = .next s')
    (hc : CanonicalMem s.core.mem) : CanonicalMem s'.core.mem := by
  unfold execCommitStageDeparture at h
  split at h
  · exact (Host.Outcome.next.inj h) ▸ hc
  next e _ =>
    have h1 : CanonicalMem (s.dropEntry t c e).core.mem := by rw [dropEntry_core_mem]; exact hc
    dsimp only at h
    split at h
    · rw [← Host.Outcome.next.inj h, State.modCtx_core_mem]; exact hc
    · split at h
      next hd =>
        rw [← Host.Outcome.next.inj h, settle_core_mem]
        exact depart_canonical hd h1
      · refine lateTrap_canonical h ?_
        rw [giveBack_core_mem]
        exact h1

theorem execEngineOperationComplete_canonical {t : Nat} {e : Engine} {s s' : State}
    (h : execEngineOperationComplete t e s = .next s')
    (hc : CanonicalMem s.core.mem) : CanonicalMem s'.core.mem := by
  unfold execEngineOperationComplete at h
  dsimp only at h
  split at h
  · exact executeSync_canonical h hc
  · split at h
    · rw [← Host.Outcome.next.inj h, settle_core_mem, State.modTile_core_mem]; exact hc
    · split at h
      · exact (Host.Outcome.next.inj h) ▸ hc
      · rw [← Host.Outcome.next.inj h, settle_core_mem, State.modTile_core_mem, lateEffect_core_mem,
        State.modTile_core_mem]; exact hc
  · exact (Host.Outcome.next.inj h) ▸ hc

theorem execAtomicHomePerform_canonical {slice : Nat} {s s' : State} (h : execAtomicHomePerform slice s = .next s')
    (hc : CanonicalMem s.core.mem) : CanonicalMem s'.core.mem := by
  unfold execAtomicHomePerform at h
  split at h
  · exact (Host.Outcome.next.inj h) ▸ hc
  · rw [← Host.Outcome.next.inj h, settle_core_mem, State.modCtx_core_mem, acquireAt_core_mem]
    exact performStore_canonical _ _ _ hc

theorem execSystemTrap_canonical {t c : Nat} {r : TrapReport} {s s' : State}
    (h : execSystemTrap t c r s = .next s') (hc : CanonicalMem s.core.mem) : CanonicalMem s'.core.mem := by
  unfold execSystemTrap at h
  grind [takeSystemTrap_canonical]

theorem execTranslationWalk_canonical {tile asid obj off : Nat} {s s' : State}
    (h : execTranslationWalk tile asid obj off s = .next s') (hc : CanonicalMem s.core.mem) :
    CanonicalMem s'.core.mem := by
  unfold execTranslationWalk at h
  grind [fillObj_core_mem, fillSlice_core_mem, fillPage_core_mem]

theorem execFeatureMigration_canonical {t c bit : Nat} {s s' : State}
    (h : execFeatureMigration t c bit s = .next s') (hc : CanonicalMem s.core.mem) :
    CanonicalMem s'.core.mem := by
  unfold execFeatureMigration at h
  grind [takeSystemTrap_canonical]

theorem execRegionBegin_canonical {s s' : State} (h : execRegionBegin s = .next s') (hc : CanonicalMem s.core.mem) :
    CanonicalMem s'.core.mem := by
  rw [← Host.Outcome.next.inj h, State.modMe_core_mem]
  exact hc

theorem execRegionCommit_canonical {s s' : State} (h : execRegionCommit s = .next s') (hc : CanonicalMem s.core.mem) :
    CanonicalMem s'.core.mem := by
  rw [← Host.Outcome.next.inj h, State.modMe_core_mem]
  exact hc

theorem execPreemptionPoint_canonical {s s' : State} (h : execPreemptionPoint s = .next s')
    (hc : CanonicalMem s.core.mem) : CanonicalMem s'.core.mem := by
  unfold execPreemptionPoint at h
  grind [land_core_mem]

end Sys2Proof.Machine.OperationsKeepMemory

/-! PROOF. Every step keeps memory in its canonical form (R3, R354): the dispatch, the issue of a bundle (R17, R18, R424), the
moves of the part's own agents, the step. -/

namespace Sys2Proof.Machine.StepsKeepMemory

open StreamsAndArms MemoryFrames MemoryForm OperationsKeepMemory

theorem exec_canonical (i : Instr) {s s' : State} (h : exec i s = .next s') (hc : CanonicalMem s.core.mem) :
    CanonicalMem s'.core.mem := by
  cases i with
  | nopScalar => exact execNopScalar_canonical h hc
  | add => exact execAdd_canonical h hc
  | sub => exact execSub_canonical h hc
  | mul => exact execMul_canonical h hc
  | mulh => exact execMulh_canonical h hc
  | div => exact execDiv_canonical h hc
  | rem => exact execRem_canonical h hc
  | and => exact execAnd_canonical h hc
  | or => exact execOr_canonical h hc
  | xor => exact execXor_canonical h hc
  | andn => exact execAndn_canonical h hc
  | shl => exact execShl_canonical h hc
  | shr => exact execShr_canonical h hc
  | sra => exact execSra_canonical h hc
  | min => exact execMin_canonical h hc
  | max => exact execMax_canonical h hc
  | clz => exact execClz_canonical h hc
  | popc => exact execPopc_canonical h hc
  | li => exact execLi_canonical h hc
  | lih => exact execLih_canonical h hc
  | mov => exact execMov_canonical h hc
  | sel => exact execSel_canonical h hc
  | cmp => exact execCmp_canonical h hc
  | pand => exact execPand_canonical h hc
  | por => exact execPor_canonical h hc
  | pxor => exact execPxor_canonical h hc
  | pandn => exact execPandn_canonical h hc
  | pset => exact execPset_canonical h hc
  | pcnt => exact execPcnt_canonical h hc
  | aadd => exact execAadd_canonical h hc
  | aset => exact execAset_canonical h hc
  | aget => exact execAget_canonical h hc
  | anarrow => exact execAnarrow_canonical h hc
  | adrop => exact execAdrop_canonical h hc
  | amov => exact execAmov_canonical h hc
  | achk => exact execAchk_canonical h hc
  | loop => exact execLoop_canonical h hc
  | ldelta => exact execLdelta_canonical h hc
  | lbreak => exact execLbreak_canonical h hc
  | lidx => exact execLidx_canonical h hc
  | view => exact execView_canonical h hc
  | srr => exact execSrr_canonical h hc
  | srw => exact execSrw_canonical h hc
  | srWinWrite => exact execSrWinWrite_canonical h hc
  | srPrivWrite => exact execSrPrivWrite_canonical h hc
  | rdtime => exact execRdtime_canonical h hc
  | pbr => exact execPbr_canonical h hc
  | trap => exact execTrap_canonical h hc
  | utret => exact execUtret_canonical h hc
  | eret => exact execEret_canonical h hc
  | yield => exact execYield_canonical h hc
  | endTask => exact execEndTask_canonical h hc
  | feat => exact execFeat_canonical h hc
  | nopVector => exact execNopVector_canonical h hc
  | vadd => exact execVadd_canonical h hc
  | vsub => exact execVsub_canonical h hc
  | vmul => exact execVmul_canonical h hc
  | vfma => exact execVfma_canonical h hc
  | vmin => exact execVmin_canonical h hc
  | vmax => exact execVmax_canonical h hc
  | vabs => exact execVabs_canonical h hc
  | vneg => exact execVneg_canonical h hc
  | vand => exact execVand_canonical h hc
  | vor => exact execVor_canonical h hc
  | vxor => exact execVxor_canonical h hc
  | vshl => exact execVshl_canonical h hc
  | vshr => exact execVshr_canonical h hc
  | vcmp => exact execVcmp_canonical h hc
  | vsel => exact execVsel_canonical h hc
  | vcvt => exact execVcvt_canonical h hc
  | vquant => exact execVquant_canonical h hc
  | vdeq => exact execVdeq_canonical h hc
  | vexp2 => exact execVexp2_canonical h hc
  | vlog2 => exact execVlog2_canonical h hc
  | vrcp => exact execVrcp_canonical h hc
  | vrsq => exact execVrsq_canonical h hc
  | vsumr => exact execVsumr_canonical h hc
  | vmaxr => exact execVmaxr_canonical h hc
  | vdot => exact execVdot_canonical h hc
  | vshuf => exact execVshuf_canonical h hc
  | vbcast => exact execVbcast_canonical h hc
  | vslide => exact execVslide_canonical h hc
  | viota => exact execViota_canonical h hc
  | vcompr => exact execVcompr_canonical h hc
  | vpart => exact execVpart_canonical h hc
  | vtopk => exact execVtopk_canonical h hc
  | vmovs => exact execVmovs_canonical h hc
  | vins => exact execVins_canonical h hc
  | nopMatrix => exact execNopMatrix_canonical h hc
  | mzero => exact execMzero_canonical h hc
  | manchor => exact execManchor_canonical h hc
  | mma => exact execMma_canonical h hc
  | mmat => exact execMmat_canonical h hc
  | mmaw => exact execMmaw_canonical h hc
  | mread => exact execMread_canonical h hc
  | mstat => exact execMstat_canonical h hc
  | mclr => exact execMclr_canonical h hc
  | tidset => exact execTidset_canonical h hc
  | tidstep => exact execTidstep_canonical h hc
  | tidstepSet => exact execTidstepSet_canonical h hc
  | lrzero => exact execLrzero_canonical h hc
  | lrset => exact execLrset_canonical h hc
  | lradd => exact execLradd_canonical h hc
  | lrscale => exact execLrscale_canonical h hc
  | lrmul => exact execLrmul_canonical h hc
  | lrmuld => exact execLrmuld_canonical h hc
  | lrtrunc => exact execLrtrunc_canonical h hc
  | lrdense => exact execLrdense_canonical h hc
  | lrcomp => exact execLrcomp_canonical h hc
  | lrapply => exact execLrapply_canonical h hc
  | lrrank => exact execLrrank_canonical h hc
  | nopLoad => exact execNopLoad_canonical h hc
  | ld => exact execLd_canonical h hc
  | lda => exact execLda_canonical h hc
  | lds => exact execLds_canonical h hc
  | vld => exact execVld_canonical h hc
  | vlds => exact execVlds_canonical h hc
  | tlds => exact execTlds_canonical h hc
  | vgath => exact execVgath_canonical h hc
  | capld => exact execCapld_canonical h hc
  | lrlds => exact execLrlds_canonical h hc
  | nopStore => exact execNopStore_canonical h hc
  | st => exact execSt_canonical h hc
  | stl => exact execStl_canonical h hc
  | sts => exact execSts_canonical h hc
  | vst => exact execVst_canonical h hc
  | vsts => exact execVsts_canonical h hc
  | tsts => exact execTsts_canonical h hc
  | vscat => exact execVscat_canonical h hc
  | capst => exact execCapst_canonical h hc
  | atom => exact execAtom_canonical h hc
  | atoms => exact execAtoms_canonical h hc
  | lrsts => exact execLrsts_canonical h hc
  | nopPump => exact execNopPump_canonical h hc
  | pcopy => exact execPcopy_canonical h hc
  | pfill => exact execPfill_canonical h hc
  | pgath => exact execPgath_canonical h hc
  | pscat => exact execPscat_canonical h hc
  | pdecl => exact execPdecl_canonical h hc
  | pflushx => exact execPflushx_canonical h hc
  | kvappend => exact execKvappend_canonical h hc
  | kvattn => exact execKvattn_canonical h hc
  | kvscore => exact execKvscore_canonical h hc
  | kvseal => exact execKvseal_canonical h hc
  | kvcompact => exact execKvcompact_canonical h hc
  | kvfork => exact execKvfork_canonical h hc
  | kvforkNew => exact execKvforkNew_canonical h hc
  | kvfree => exact execKvfree_canonical h hc
  | kvpin => exact execKvpin_canonical h hc
  | kvwin => exact execKvwin_canonical h hc
  | kvstat => exact execKvstat_canonical h hc
  | colar => exact execColar_canonical h hc
  | colrs => exact execColrs_canonical h hc
  | colag => exact execColag_canonical h hc
  | colbc => exact execColbc_canonical h hc
  | colstat => exact execColstat_canonical h hc
  | stmget => exact execStmget_canonical h hc
  | stmstat => exact execStmstat_canonical h hc
  | wjopen => exact execWjopen_canonical h hc
  | wjwrite => exact execWjwrite_canonical h hc
  | wjcommit => exact execWjcommit_canonical h hc
  | wjabort => exact execWjabort_canonical h hc
  | wjstat => exact execWjstat_canonical h hc
  | nopSync => exact execNopSync_canonical h hc
  | br => exact execBr_canonical h hc
  | brl => exact execBrl_canonical h hc
  | fence => exact execFence_canonical h hc
  | cbset => exact execCbset_canonical h hc
  | cbwait => exact execCbwait_canonical h hc
  | cbspace => exact execCbspace_canonical h hc
  | cbadvProduce => exact execCbadvProduce_canonical h hc
  | cbadvConsume => exact execCbadvConsume_canonical h hc
  | sigwait => exact execSigwait_canonical h hc
  | sigadd => exact execSigadd_canonical h hc
  | jobraise => exact execJobraise_canonical h hc
  | jobpost => exact execJobpost_canonical h hc
  | jobwait => exact execJobwait_canonical h hc
  | bar => exact execBar_canonical h hc
  | launch => exact execLaunch_canonical h hc
  | launchNb => exact execLaunchNb_canonical h hc
  | evread => exact execEvread_canonical h hc
  | evwait => exact execEvwait_canonical h hc
  | chk => exact execChk_canonical h hc
  | rplw => exact execRplw_canonical h hc
  | tickwait => exact execTickwait_canonical h hc
  | regionBegin => exact execRegionBegin_canonical h hc
  | regionCommit => exact execRegionCommit_canonical h hc
  | preemptionPoint => exact execPreemptionPoint_canonical h hc
  | commitStageDeparture => exact execCommitStageDeparture_canonical h hc
  | engineOperationComplete => exact execEngineOperationComplete_canonical h hc
  | waitRelease => exact execWaitRelease_canonical h hc
  | systemTrap => exact execSystemTrap_canonical h hc
  | eventRecordPost => exact execEventRecordPost_canonical h hc
  | timingErrorReplay => exact execTimingErrorReplay_canonical h hc
  | stormPeriodEnd => exact execStormPeriodEnd_canonical h hc
  | preemptionRequestDelivery => exact execPreemptionRequestDelivery_canonical h hc
  | forcedPreemption => exact execForcedPreemption_canonical h hc
  | contextSave => exact execContextSave_canonical h hc
  | contextResume => exact execContextResume_canonical h hc
  | featureMigration => exact execFeatureMigration_canonical h hc
  | pumpDelivery => exact execPumpDelivery_canonical h hc
  | pumpCommandComplete => exact execPumpCommandComplete_canonical h hc
  | atomicHomePerform => exact execAtomicHomePerform_canonical h hc
  | wideVariantLaunch => exact execWideVariantLaunch_canonical h hc
  | kvCommandResolve => exact execKvCommandResolve_canonical h hc
  | compactionJob => exact execCompactionJob_canonical h hc
  | compactionInstall => exact execCompactionInstall_canonical h hc
  | spillReadback => exact execSpillReadback_canonical h hc
  | streamTokenArrival => exact execStreamTokenArrival_canonical h hc
  | tick => exact execTick_canonical h hc
  | tickWakeLead => exact execTickWakeLead_canonical h hc
  | holdLimitExpiry => exact execHoldLimitExpiry_canonical h hc
  | stmgetResolve => exact execStmgetResolve_canonical h hc
  | stepEnd => exact execStepEnd_canonical h hc
  | clockShareWindow => exact execClockShareWindow_canonical h hc
  | collectiveAccept => exact execCollectiveAccept_canonical h hc
  | versionAgreement => exact execVersionAgreement_canonical h hc
  | chunkReduced => exact execChunkReduced_canonical h hc
  | chunkBroadcastComplete => exact execChunkBroadcastComplete_canonical h hc
  | collectiveRecovery => exact execCollectiveRecovery_canonical h hc
  | collectiveTimeout => exact execCollectiveTimeout_canonical h hc
  | straitPeerDetect => exact execStraitPeerDetect_canonical h hc
  | identityFlit => exact execIdentityFlit_canonical h hc
  | straitUp => exact execStraitUp_canonical h hc
  | straitDown => exact execStraitDown_canonical h hc
  | flitCrcRetry => exact execFlitCrcRetry_canonical h hc
  | virtualLaneStopGo => exact execVirtualLaneStopGo_canonical h hc
  | linkChangeFlood => exact execLinkChangeFlood_canonical h hc
  | ptpSync => exact execPtpSync_canonical h hc
  | announceTimeout => exact execAnnounceTimeout_canonical h hc
  | ethernetFrameReceive port vlan kind priority bytes => exact execEthernetFrameReceive_canonical (_priority := priority) h hc
  | congestionNotification => exact execCongestionNotification_canonical h hc
  | rateRecovery => exact execRateRecovery_canonical h hc
  | rdmaWrite => exact execRdmaWrite_canonical h hc
  | rdmaWriteWithImmediate => exact execRdmaWriteWithImmediate_canonical h hc
  | rdmaRead => exact execRdmaRead_canonical h hc
  | notifyKick => exact execNotifyKick_canonical h hc
  | pendingKickService => exact execPendingKickService_canonical h hc
  | launchGraph => exact execLaunchGraph_canonical h hc
  | signalWrite => exact execSignalWrite_canonical h hc
  | signalAdd => exact execSignalAdd_canonical h hc
  | wait => exact execWait_canonical h hc
  | copy => exact execCopy_canonical h hc
  | barrier => exact execBarrier_canonical h hc
  | lease => exact execLease_canonical h hc
  | timedArm => exact execTimedArm_canonical h hc
  | timedDisarm => exact execTimedDisarm_canonical h hc
  | flushExport => exact execFlushExport_canonical h hc
  | invalidate => exact execInvalidate_canonical h hc
  | regionCreate => exact execRegionCreate_canonical h hc
  | regionAlter => exact execRegionAlter_canonical h hc
  | regionDestroy => exact execRegionDestroy_canonical h hc
  | statement => exact execStatement_canonical h hc
  | nodeDispatch => exact execNodeDispatch_canonical h hc
  | nodeComplete => exact execNodeComplete_canonical h hc
  | instanceEnd => exact execInstanceEnd_canonical h hc
  | queueTeardown => exact execQueueTeardown_canonical h hc
  | queueDrained => exact execQueueDrained_canonical h hc
  | regenerationStart => exact execRegenerationStart_canonical h hc
  | translationWalk => exact execTranslationWalk_canonical h hc
  | islandIdle => exact execIslandIdle_canonical h hc
  | islandIdleExit => exact execIslandIdleExit_canonical h hc
  | islandPark => exact execIslandPark_canonical h hc
  | islandOff => exact execIslandOff_canonical h hc
  | islandWake => exact execIslandWake_canonical h hc
  | islandWakeComplete => exact execIslandWakeComplete_canonical h hc
  | resumeTrigger => exact execResumeTrigger_canonical h hc
  | driverWakeRequest => exact execDriverWakeRequest_canonical h hc
  | cisternRetain => exact execCisternRetain_canonical h hc
  | cisternWake => exact execCisternWake_canonical h hc
  | cisternOffRequest => exact execCisternOffRequest_canonical h hc
  | railSettled => exact execRailSettled_canonical h hc
  | brownOut => exact execBrownOut_canonical h hc
  | powerOnReset => exact execPowerOnReset_canonical h hc
  | islandSelfTestDone => exact execIslandSelfTestDone_canonical h hc
  | lpddr6TrainingDone => exact execLpddr6TrainingDone_canonical h hc
  | wellScrub => exact execWellScrub_canonical h hc
  | journalApply => exact execJournalApply_canonical h hc
  | accountingTick => exact execAccountingTick_canonical h hc
  | meterIntegration => exact execMeterIntegration_canonical h hc
  | leaseExpiry => exact execLeaseExpiry_canonical h hc
  | leaseRevoke => exact execLeaseRevoke_canonical h hc
  | heatRefresh => exact execHeatRefresh_canonical h hc
  | firmwareTakeover => exact execFirmwareTakeover_canonical h hc
  | mirrorEntry => exact execMirrorEntry_canonical h hc
  | update => exact execUpdate_canonical h hc
  | roleSwap => exact execRoleSwap_canonical h hc
  | fwUpdateFail => exact execFwUpdateFail_canonical h hc
  | load => exact execLoad_canonical h hc
  | attest => exact execAttest_canonical h hc
  | confirm => exact execConfirm_canonical h hc
  | heat => exact execHeat_canonical h hc
  | telemetry => exact execTelemetry_canonical h hc
  | versions => exact execVersions_canonical h hc
  | queueTableWrite => exact execQueueTableWrite_canonical h hc
  | asidTableWrite => exact execAsidTableWrite_canonical h hc
  | serviceEntryWrite => exact execServiceEntryWrite_canonical h hc
  | powerEntryWrite => exact execPowerEntryWrite_canonical h hc
  | groupEntryWrite => exact execGroupEntryWrite_canonical h hc
  | streamDescriptorWrite => exact execStreamDescriptorWrite_canonical h hc
  | ownerKeyWrite => exact execOwnerKeyWrite_canonical h hc
  | partitionEntryWrite => exact execPartitionEntryWrite_canonical h hc
  | lotterySeedWrite => exact execLotterySeedWrite_canonical h hc
  | vlanConfig => exact execVlanConfig_canonical h hc
  | portRateSet => exact execPortRateSet_canonical h hc
  | ptpConfig => exact execPtpConfig_canonical h hc
  | straitTrainRequest => exact execStraitTrainRequest_canonical h hc
  | straitDownRequest => exact execStraitDownRequest_canonical h hc
  | autoNegotiation => exact execAutoNegotiation_canonical h hc
  | queuePairBinding => exact execQueuePairBinding_canonical h hc

theorem runScalar_canonical {s s' : State} {o : Option (Except DecodeError Instr)} (h : s.runScalar o = .ok s')
    (hc : CanonicalMem s.core.mem) : CanonicalMem s'.core.mem := by
  unfold State.runScalar at h
  split at h
  · exact (Except.ok.inj h) ▸ hc
  · cases h
  next i =>
    obtain ⟨_, -, h⟩ := bind_eq_ok.1 h
    obtain ⟨_, -, h⟩ := bind_eq_ok.1 h
    split at h
    next hx => exact (Except.ok.inj h) ▸ exec_canonical i hx hc
    · cases h
    · exact (Except.ok.inj h) ▸ hc

theorem runSlot_canonical {s s' : State} {n : Nat} {i : Instr} (h : s.runSlot n i = .next s') (hc : CanonicalMem s.core.mem) :
    CanonicalMem s'.core.mem := by
  have hrun : ∀ u, (if onlyWaits i then .next s else exec i s) = .next u → CanonicalMem u.core.mem := fun u hu => by
    split at hu
    · exact (Host.Outcome.next.inj hu) ▸ hc
    · exact exec_canonical i hu hc
  unfold State.runSlot at h
  dsimp only at h
  split at h
  next s1 hx =>
    split at h
    · rw [← Host.Outcome.next.inj h]
      split
      · rw [State.modTile_core_mem]; exact hrun s1 hx
      · exact hrun s1 hx
    · exact (Host.Outcome.next.inj h) ▸ hrun s1 hx
  next hx => exact (hx _ h).elim

theorem runSlots_canonical {s s' : State} {ops : List (Nat × Instr)} (h : s.runSlots ops = .next s')
    (hc : CanonicalMem s.core.mem) : CanonicalMem s'.core.mem := by
  induction ops generalizing s with
  | nil => exact (Host.Outcome.next.inj h) ▸ hc
  | cons o ops ih =>
    unfold State.runSlots at h
    split at h
    · exact (Host.Outcome.next.inj h) ▸ hc
    · split at h
      · exact ih h hc
      · split at h
        next hr => exact ih h (runSlot_canonical hr hc)
        next hr => exact (hr _ h).elim

theorem issueBundle_canonical {s s' : State} {w : BitVec 512} {ops : List (Nat × Instr)} {inRegion : Bool}
    (h : s.issueBundle w ops inRegion = .next s') (hc : CanonicalMem s.core.mem) : CanonicalMem s'.core.mem := by
  unfold State.issueBundle at h
  dsimp only at h
  split at h
  next s1 hr =>
    have h1 : CanonicalMem s1.core.mem := runSlots_canonical hr (by rw [countIssue_core_mem]; exact hc)
    rw [← Host.Outcome.next.inj h]
    split
    · rw [finishBundle_core_mem]; exact h1
    · exact h1
  next hr => exact (hr _ h).elim

/-- The state in which what the issue stage finds leaves a context. -/
def lookState (s : State) : Look → State
  | .waits => s
  | .traps u _ => u
  | .sleeps u => u
  | .ready u _ _ _ => u

theorem lookChecked_canonical {trapAt pre home : State} {w : BitVec 512} {ops : List (Nat × Except DecodeError Instr)} (s : State)
    (ht : CanonicalMem trapAt.core.mem) (hp : CanonicalMem pre.core.mem) (hh : CanonicalMem home.core.mem) :
    CanonicalMem (lookState s (State.lookChecked trapAt pre w ops home)).core.mem := by
  unfold State.lookChecked
  split
  · exact ht
  next s1 hr =>
    have h2 : CanonicalMem s1.capture.core.mem := by
      rw [capture_core_mem]
      exact runScalar_canonical hr hp
    dsimp only
    split
    · exact ht
    · split
      · split
        · exact h2
        · split
          · exact ht
          · exact h2
          · dsimp only [lookState]
            rw [State.modMe_core_mem, waitSleep_core_mem]
            exact hh
      · exact h2

theorem look_canonical (s : State) (t c : Nat) (hc : CanonicalMem s.core.mem) :
    CanonicalMem (lookState s (s.look t c)).core.mem := by
  unfold State.look
  split
  · exact hc
  · split
    · dsimp only [lookState]
      rw [at_core_mem]
      exact hc
    next s0 w dups hf =>
      have h0 : s0.core.mem = s.core.mem := fetch_core_mem hf
      extract_lets s1 ops p pre scalar
      have h1 : CanonicalMem s1.core.mem := by
        unfold s1
        rw [State.modMe_core_mem, at_core_mem, h0]
        exact hc
      split
      · exact hc
      · split
        · exact h1
        · refine lookChecked_canonical s ?_ ?_ h1
          · rw [enter_core_mem]; exact h1
          · unfold pre
            rw [enter_core_mem]
            exact h1

theorem check_canonical {s s' : State} {t c : Nat} (h : s.check t c = .next s') (hc : CanonicalMem s.core.mem) :
    CanonicalMem s'.core.mem := by
  have hl := look_canonical s t c hc
  unfold State.check at h
  split at h
  next hs => rw [hs] at hl; exact (Host.Outcome.next.inj h) ▸ takeTrap_canonical hl
  · cases h
  next hs => rw [hs] at hl; exact (Host.Outcome.next.inj h) ▸ hl
  · rw [← Host.Outcome.next.inj h, State.modCtx_core_mem]; exact hc
  · exact (Host.Outcome.next.inj h) ▸ hc

theorem checks_canonical {s s' : State} {t : Nat} {cs : List Nat} (h : s.checks t cs = .next s') (hc : CanonicalMem s.core.mem) :
    CanonicalMem s'.core.mem := by
  induction cs generalizing s with
  | nil => exact (Host.Outcome.next.inj h) ▸ hc
  | cons c cs ih =>
    unfold State.checks at h
    split at h
    next hk => exact ih h (check_canonical hk hc)
    next hk => exact (hk _ h).elim

theorem unyielded_core_mem (s : State) (t : Nat) (ys : List Nat) :
    (ys.foldl (fun a c => a.modCtx t c fun x => { x with yieldNext := false }) s).core.mem = s.core.mem := by
  rw [foldl_mem]
  exact fun _ _ => rfl

theorem issueCycle_canonical {s s' : State} {t : Nat} (h : s.issueCycle t = .next s') (hc : CanonicalMem s.core.mem) :
    CanonicalMem s'.core.mem := by
  unfold State.issueCycle at h
  dsimp only at h
  split at h
  · exact (Host.Outcome.next.inj h) ▸ hc
  · split at h
    next s1 hk =>
      have h1 := checks_canonical hk hc
      split at h
      · rw [← Host.Outcome.next.inj h, unyielded_core_mem]; exact h1
      next c _ =>
        have hl := look_canonical s1 t c h1
        split at h
        next hs =>
          rw [hs] at hl
          obtain ⟨u, hu, hm⟩ := issued_core_mem h
          have hu := issueBundle_canonical hu (by rw [State.modTile_core_mem, unyielded_core_mem]; exact hl)
          rcases hm with hm | hm
          · rw [hm, unyielded_core_mem]; exact h1
          · rw [hm]; exact hu
        · rw [← Host.Outcome.next.inj h, unyielded_core_mem]; exact h1
    next hk => exact (hk _ h).elim

theorem orWait_canonical {s s' : State} {r : Host.Outcome State Fault Refusal} (h : s.orWait r = .next s')
    (hc : CanonicalMem s.core.mem) (hr : ∀ u, r = .next u → CanonicalMem u.core.mem) : CanonicalMem s'.core.mem := by
  obtain ⟨u, hu, hm | hm⟩ := orWait_core_mem h
  · rw [hm]; exact hc
  · rw [hm]; exact hr u hu

theorem perform_canonical {s s' : State} {m : Move} (h : s.perform m = .next s') (hc : CanonicalMem s.core.mem) :
    CanonicalMem s'.core.mem := by
  have he (dt : Nat) : CanonicalMem (s.elapse dt).core.mem := by rw [elapse_core_mem]; exact hc
  cases m with
  | issue dt t => exact issueCycle_canonical h (he dt)
  | happen dt i =>
    unfold State.perform at h
    dsimp only at h
    split at h
    · exact (Host.Outcome.next.inj h) ▸ he dt
    · exact orWait_canonical h (he dt) fun u hu => exec_canonical i hu (he dt)

/-- A move that keeps memory in the canonical form. -/
def KeepsMemory (m : Act) : Prop := ∀ s s', m s = .next s' → CanonicalMem s.core.mem → CanonicalMem s'.core.mem

theorem keepsMemory_ite {c : Prop} [Decidable c] {xs ys : List Act} (hx : ∀ m ∈ xs, KeepsMemory m)
    (hy : ∀ m ∈ ys, KeepsMemory m) :
    ∀ m ∈ (if c then xs else ys), KeepsMemory m := by
  split
  · exact hx
  · exact hy

theorem keepsMemory_nil : ∀ m ∈ ([] : List Act), KeepsMemory m := List.forall_mem_nil _

theorem keepsMemory_singleton {m : Act} (h : KeepsMemory m) : ∀ m' ∈ [m], KeepsMemory m' := List.forall_mem_singleton.2 h

/-- Every operation of the dispatch is such a move. -/
theorem keepsMemory_exec (i : Instr) : KeepsMemory (exec i) := fun _ _ h hc => exec_canonical i h hc

theorem keepsMemory_ctxMoves (s : State) : ∀ m ∈ s.ctxMoves, KeepsMemory m := by
  unfold State.ctxMoves
  simp only [List.forall_mem_flatMap, List.forall_mem_append]
  refine fun k _ => ⟨⟨⟨⟨?_, ?_⟩, ?_⟩, ?_⟩, ?_⟩
  · exact keepsMemory_ite keepsMemory_nil (keepsMemory_singleton (keepsMemory_exec (.commitStageDeparture _ _)))
  · exact keepsMemory_ite (keepsMemory_singleton (keepsMemory_exec (.waitRelease _ _))) keepsMemory_nil
  · exact keepsMemory_ite (keepsMemory_singleton (keepsMemory_exec (.resumeTrigger _ _))) keepsMemory_nil
  · exact keepsMemory_ite (List.forall_mem_cons.2 ⟨keepsMemory_exec (.preemptionRequestDelivery _ _),
      keepsMemory_singleton (keepsMemory_exec (.forcedPreemption _ _))⟩) keepsMemory_nil
  · exact keepsMemory_ite (keepsMemory_singleton (keepsMemory_exec (.contextSave _ _))) keepsMemory_nil

theorem keepsMemory_tileMoves (s : State) : ∀ m ∈ s.tileMoves, KeepsMemory m := by
  unfold State.tileMoves
  simp only [List.forall_mem_flatMap, List.forall_mem_append]
  refine fun t _ => ⟨?_, ?_⟩
  · exact keepsMemory_ite keepsMemory_nil (List.forall_mem_map.2 fun e _ => keepsMemory_exec (.engineOperationComplete _ e))
  · exact keepsMemory_ite (keepsMemory_singleton (keepsMemory_exec (.journalApply _))) keepsMemory_nil

theorem keepsMemory_engineMoves (s : State) (n : Nat) : ∀ m ∈ s.engineMoves n, KeepsMemory m := by
  unfold State.engineMoves
  simp only [List.forall_mem_append, List.forall_mem_flatMap, List.forall_mem_map, List.forall_mem_cons]
  refine ⟨⟨⟨⟨⟨?_, ?_⟩, ?_⟩, ?_⟩, ?_⟩, ?_⟩
  · exact fun _ _ => keepsMemory_exec (.atomicHomePerform _)
  · exact fun _ _ => ⟨keepsMemory_exec (.pumpDelivery _ _), keepsMemory_exec (.pumpCommandComplete _),
      keepsMemory_exec (.kvCommandResolve _), keepsMemory_exec (.stmgetResolve _), keepsMemory_exec (.holdLimitExpiry _),
      keepsMemory_nil⟩
  · exact fun _ _ => ⟨keepsMemory_exec (.compactionJob _), keepsMemory_exec (.compactionInstall _), keepsMemory_nil⟩
  · exact fun _ _ => ⟨keepsMemory_exec (.tick _), keepsMemory_exec (.tickWakeLead _), keepsMemory_exec (.stepEnd _),
      keepsMemory_nil⟩
  · exact fun x _ => ⟨keepsMemory_exec (.collectiveAccept { group := x.1 }),
      keepsMemory_exec (.collectiveTimeout { group := x.1 }), keepsMemory_nil⟩
  · exact fun _ _ => keepsMemory_exec (.rateRecovery _)

theorem keepsMemory_packetMoves (q projected : Nat) : ∀ m ∈ packetMoves q projected, KeepsMemory m := by
  unfold packetMoves
  simp only [List.forall_mem_cons]
  exact ⟨keepsMemory_exec (.launchGraph q), keepsMemory_exec (.signalWrite q), keepsMemory_exec (.signalAdd q),
    keepsMemory_exec (.wait q), keepsMemory_exec (.copy q), keepsMemory_exec (.barrier q),
    keepsMemory_exec (.lease q projected), keepsMemory_exec (.timedArm q), keepsMemory_exec (.timedDisarm q),
    keepsMemory_exec (.flushExport q), keepsMemory_exec (.invalidate q), keepsMemory_exec (.regionCreate q),
    keepsMemory_exec (.regionAlter q), keepsMemory_exec (.regionDestroy q), keepsMemory_exec (.statement q),
    keepsMemory_exec (.queueDrained q), keepsMemory_nil⟩

theorem keepsMemory_commandMoves (s : State) (n : Nat) : ∀ m ∈ s.commandMoves n, KeepsMemory m := by
  unfold State.commandMoves
  simp only [List.forall_mem_append, List.forall_mem_flatMap, List.forall_mem_map, List.forall_mem_cons]
  refine ⟨⟨⟨⟨?_, ?_⟩, ?_⟩, ?_⟩, ?_⟩
  · exact ⟨keepsMemory_exec .pendingKickService, keepsMemory_exec .nodeDispatch, keepsMemory_nil⟩
  · exact fun x _ => ⟨keepsMemory_ite keepsMemory_nil (keepsMemory_packetMoves x.1 n),
      keepsMemory_ite keepsMemory_nil (keepsMemory_singleton (keepsMemory_exec (.contextResume _ _ _)))⟩
  · exact fun _ _ => ⟨keepsMemory_exec (.nodeComplete _), keepsMemory_exec (.wideVariantLaunch _), keepsMemory_nil⟩
  · exact fun _ _ => keepsMemory_exec (.instanceEnd _)
  · exact fun _ _ => keepsMemory_exec (.regenerationStart _ _ _)

theorem keepsMemory_powerMoves (s : State) (n : Nat) : ∀ m ∈ s.powerMoves n, KeepsMemory m := by
  unfold State.powerMoves
  simp only [List.forall_mem_append, List.forall_mem_flatMap, List.forall_mem_map, List.forall_mem_cons]
  refine ⟨⟨⟨?_, ?_⟩, ?_⟩, ?_⟩
  · exact fun _ _ => ⟨keepsMemory_exec (.stormPeriodEnd _), keepsMemory_exec (.clockShareWindow _),
      keepsMemory_exec (.islandIdle _), keepsMemory_exec (.islandIdleExit _), keepsMemory_exec (.islandPark _),
      keepsMemory_exec (.islandOff _), keepsMemory_exec (.islandWake _), keepsMemory_exec (.islandWakeComplete _ []),
      keepsMemory_nil⟩
  · exact ⟨keepsMemory_exec (.cisternRetain _), keepsMemory_exec (.cisternWake _), keepsMemory_exec .accountingTick,
      keepsMemory_exec .mirrorEntry, keepsMemory_exec .roleSwap, keepsMemory_nil⟩
  · exact fun _ _ => keepsMemory_exec (.railSettled _)
  · exact fun _ _ => keepsMemory_exec (.leaseExpiry _)

theorem keepsMemory_moves (s : State) (n : Nat) : ∀ m ∈ s.moves n, KeepsMemory m := by
  unfold State.moves
  simp only [List.forall_mem_append, List.forall_mem_map]
  exact ⟨⟨⟨⟨⟨fun t _ _ _ h hc => issueCycle_canonical h hc, keepsMemory_ctxMoves s⟩, keepsMemory_tileMoves s⟩,
    keepsMemory_engineMoves s n⟩, keepsMemory_commandMoves s n⟩, keepsMemory_powerMoves s n⟩

theorem ownMove_canonical {s s' : State} (h : s.ownMove = .next s') (hc : CanonicalMem s.core.mem) :
    CanonicalMem s'.core.mem := by
  unfold State.ownMove at h
  extract_lets k s1 ms at h
  have h1 : CanonicalMem s1.core.mem := by
    unfold s1
    rw [elapse_core_mem]
    exact hc
  split at h
  next m hm => exact orWait_canonical h h1 fun u hu => keepsMemory_moves _ _ m (List.mem_of_getElem? hm) _ _ hu h1
  · exact (Host.Outcome.next.inj h) ▸ h1

theorem step_canonical {s s' : State} (h : step s = .next s') (hc : CanonicalMem s.core.mem) : CanonicalMem s'.core.mem := by
  unfold step at h
  split at h
  · exact perform_canonical h hc
  · exact ownMove_canonical h hc

/-- Settles O60: whatever agent moves and whatever it does, memory keeps its canonical form; each operation of the dispatch
keeps it, and a move of a tile is the issue of such operations. -/
theorem stepKeepsMemoryCanonical : Obligations.StepKeepsMemoryCanonical := by
  intro s t hc h
  exact step_canonical h hc

end Sys2Proof.Machine.StepsKeepMemory
